-- ==== Sys2Proof/Word.lean ====
section
/-! DEFINITION. The word types of the VC4820: registers are 32 bits wide (R9), memory is addressed in bytes,
and addresses are kept as numbers once they have been computed. -/
namespace Sys2Proof

/-- A register or a bus word (R9). -/
abbrev Word := BitVec 32
/-- One byte of memory, of a frame or of a message. -/
abbrev Byte := BitVec 8
/-- A byte string, first byte first. -/
abbrev Bytes := List Byte

end Sys2Proof
end

