-- ==== Sys2Proof/Syntax.lean ====
section
/-! DEFINITION. The commands of the VC4820, one constructor for each row of the operation table, and the types of
their operands. The table lists no operands; the operands here are what the rule of a row takes from outside
(log entry 9 says which parts of a frame come as the standards' parse gives them). -/
namespace Sys2Proof

/-- A bus master ID (R29). -/
abbrev Master := Fin 16
/-- A core register number, w0 to w31 (R159). -/
abbrev RegNo := BitVec 5

/-- The two network ports (R42). -/
inductive Port where
  | a
  | b
  deriving DecidableEq, Repr

/-- The two lanes: verify carries LINK A to LINK B, tag carries LINK B to LINK A (R46). -/
inductive Lane where
  | verify
  | tag
  deriving DecidableEq, Repr

/-- The power-on fills of R281: SRAM banks 1 to 11 with the context SRAM and the lane buffers, Buckets, SRAM bank 0. -/
inductive FillMem where
  | coreAndPump
  | buckets
  | bank0
  deriving DecidableEq, Repr

/-- An edge at PPS_IN (R157). -/
structure PpsEdge where
  /-- the ball rises -/
  rising : Bool
  /-- the edge fell in the second half of the PUMP cycle: the fine stage reads 2 ns (R146) -/
  fine : Bool
  deriving DecidableEq, Repr

/-- What the partner's auto-negotiation word says (R42, R43). -/
structure AnWord where
  /-- the partner offers or reports half duplex only -/
  halfDuplex : Bool
  /-- the partner signals a remote fault -/
  remoteFault : Bool
  /-- the SGMII speed code: 0 is 10, 1 is 100, 2 is 1000 Mb/s -/
  speed : Fin 3
  deriving DecidableEq, Repr

/-- The IEC 62351-6 extension as the standard's parse finds it (R48, R90; log entry 9). -/
structure Ext where
  /-- the ALG code of R89 that the extension names; none for an algorithm or length outside R2's supported column -/
  alg : Option (Fin 8)
  /-- first byte position of the authenticated span -/
  spanLo : Nat
  /-- the position after the span's last byte -/
  spanHi : Nat
  /-- first byte position of the value -/
  valLo : Nat
  /-- number of bytes of the value -/
  valLen : Nat
  /-- the GMAC initialisation vector that the standard forms from the frame -/
  iv : Bytes
  deriving DecidableEq, Repr

/-- What the deep parse of a GOOSE or SV frame gives (R48, R51; log entry 9). -/
structure Deep where
  /-- the header length fields, the APDU's length encodings and the frame length agree -/
  lengthsOk : Bool
  /-- the position after the APDU's last byte -/
  apduEnd : Nat
  /-- the extension, if one is present -/
  ext : Option Ext
  /-- stNum of a GOOSE APDU -/
  stNum : Option Word
  /-- sqNum of a GOOSE APDU -/
  sqNum : Option Word
  /-- smpCnt of each ASDU of an SV APDU; none where an ASDU lacks it -/
  smpCnt : List (Option (BitVec 16))
  deriving DecidableEq, Repr

/-- A frame at an ingress: its bytes from DA to FCS, what the line did to it, and the deep parse. -/
structure RxFrame where
  bytes : Bytes
  /-- position of an invalid code group or /V/ inside the frame (R44) -/
  codeErr : Option Nat
  /-- the link was lost inside the frame, after its last byte (R44) -/
  aborted : Bool
  /-- the stamp point fell in the second half of the PUMP cycle: the fine stage reads 2 ns (R146) -/
  fine : Bool
  deep : Deep
  deriving DecidableEq, Repr

/-- The reasons for which a frame fails (R57). -/
inductive FailKind where
  | value
  | algorithm
  | key
  | replay
  | continuity
  | format
  | fcs
  | rxCode
  | runt
  | oversize
  | abort
  | poison
  | lane
  deriving DecidableEq, Repr

/-- Which frame a FRAME_COMMIT ends (R54): the frame in egress at the port, a frame that is discarded, or a frame whose
descriptor is complete. -/
inductive EgressSrc where
  | inEgress
  | discarded (l : Lane) (n : Nat)
  | diverted (l : Lane) (n : Nat)
  deriving DecidableEq, Repr

/-- The addressing of an ISO/IEC 15693 request. -/
inductive VMode where
  | nonAddressed
  | selected
  | addressed (uid : Bytes)
  deriving DecidableEq, Repr

/-- An ISO/IEC 14443-4 I-block as received (R337). -/
structure Block where
  /-- block number -/
  bn : Bool
  /-- the chaining bit -/
  chain : Bool
  /-- the CID field, if present -/
  cid : Option (Fin 16)
  /-- the INF field -/
  inf : Bytes
  /-- the block's CRC is right -/
  crcOk : Bool
  deriving DecidableEq, Repr

/-- Who asks the energy gauge for a grant (R361). -/
inductive Requester where
  | response
  | cistern
  /-- the step of a page's job, and of the key command -/
  | ce (page : Fin 16)
  | key
  | windlass (c : Fin 8)
  deriving DecidableEq, Repr

/-- What the sensors of the supplies and of TEST0 find (R390, R443): 0 VDD_CORE, 1 VDD_SD, 2 VDD_IO, 3 VHOLD. -/
inductive Glitch where
  /-- the supply is above its limit -/
  | over (supply : Fin 4)
  /-- a host supply fell and returned within 10 us -/
  | dip (supply : Fin 3)
  /-- TEST0 is not at VSS -/
  | test0
  /-- no supply is above its limit, and TEST0 is at VSS -/
  | gone
  deriving DecidableEq, Repr

/-- What the clock monitor sees of XIN (R390). -/
inductive ClockObs where
  | deviation (ppm : Int)
  | stopped
  deriving DecidableEq, Repr


/-- The commands of the block: one constructor for each row of the operation table. Those with
operands come first: compiled Lean gives at most 245 constructors of a type their own object tag. -/
inductive Instr where
  /-- `HOST_GOOD_QUALIFIED` (R357). -/
  | hostGoodQualified (core sd io0 io1 io2 : Nat)
  /-- `HOST_SUPPLY_LOSS` (R26). -/
  | hostSupplyLoss (core sd io0 : Nat)
  /-- `FIELD_CHG` (R327). -/
  | fieldChg (present : Bool)
  /-- `CORE_RESET` (R416). -/
  | coreReset (m : Master) (v : Word)
  /-- `DEV_RESET` (R417). -/
  | devReset (m : Master) (v : Word)
  /-- `FILL_DONE` (R281). -/
  | fillDone (mem : FillMem)
  /-- `PWR_REQ_WRITE` (R17). -/
  | pwrReqWrite (m : Master) (v : Word)
  /-- `LINK_POWER_OFF` (R17). -/
  | linkPowerOff (p : Port)
  /-- `CLAIM` (R33). -/
  | claim (m : Master) (owner : BitVec 5) (res : Byte)
  /-- `RELEASE` (R33). -/
  | release (m : Master) (owner : BitVec 5) (res : Byte)
  /-- `FORCE_RELEASE` (R33). -/
  | forceRelease (m : Master) (owner : BitVec 5) (res : Byte)
  /-- `REGISTER_WRITE` (R8). -/
  | registerWrite (m : Master) (addr v : Word) (poison : Bool)
  /-- `COUNTER_LATCH_READ` (R109). -/
  | counterLatchRead (m : Master) (addr : Word)
  /-- `AN_RESTART` (R43). -/
  | anRestart (m : Master) (p : Port)
  /-- `LINK_MODE_CHANGE` (R43). -/
  | linkModeChange (m : Master) (p : Port) (v : Word)
  /-- `SERDES_LOCK` (R43). -/
  | serdesLock (p : Port)
  /-- `SERDES_LOCK_TIMEOUT` (R43). -/
  | serdesLockTimeout (p : Port)
  /-- `PCS_SYNC` (R43). -/
  | pcsSync (p : Port)
  /-- `PCS_SYNC_TIMEOUT` (R43). -/
  | pcsSyncTimeout (p : Port)
  /-- `AN_DONE` (R43). -/
  | anDone (p : Port) (w : AnWord)
  /-- `AN_LINK_TIMER` (R43). -/
  | anLinkTimer (p : Port)
  /-- `SYNC_LOSS` (R43). -/
  | syncLoss (p : Port)
  /-- `RX_FRAME` (R44). -/
  | rxFrame (l : Lane) (f : RxFrame)
  /-- `LOOKUP` (R48). -/
  | lookup (l : Lane) (n : Nat)
  /-- `REPLAY_EARLY` (R105). -/
  | replayEarly (l : Lane) (n : Nat)
  /-- `FRAME_FAILURE` (R59). -/
  | frameFailure (l : Lane) (n : Nat) (why : FailKind) (p : Nat)
  /-- `VERDICT` (R57). -/
  | verdict (l : Lane) (n : Nat)
  /-- `EGRESS_START` (R65). -/
  | egressStart (p : Port)
  /-- `HOLD_RELEASE` (R64). -/
  | holdRelease (l : Lane) (n : Nat)
  /-- `FRAME_COMMIT` (R54). -/
  | frameCommit (p : Port) (src : EgressSrc)
  /-- `LANE_MISMATCH` (R70). -/
  | laneMismatch (l : Lane) (point : Fin 6) (p : Nat)
  /-- `LANE_RESTART_DONE` (R71). -/
  | laneRestartDone (l : Lane)
  /-- `CATCH_UP_DONE` (R71). -/
  | catchUpDone (l : Lane)
  /-- `LANE_CFG_WRITE` (R47). -/
  | laneCfgWrite (m : Master) (l : Lane) (v : Word)
  /-- `LANE_OFF_APPLIED` (R47). -/
  | laneOffApplied (l : Lane)
  /-- `SNAP` (R78). -/
  | snap (m : Master) (l : Lane)
  /-- `SNAP_CLR` (R78). -/
  | snapClr (m : Master) (l : Lane)
  /-- `EPOCH_SWEEP` (R100). -/
  | epochSweep (i : Fin 1024)
  /-- `CTX_ENABLE` (R88). -/
  | ctxEnable (m : Master) (i : Fin 1024)
  /-- `CTX_DISABLE` (R88). -/
  | ctxDisable (m : Master) (i : Fin 1024)
  /-- `RESET_GUARD` (R88). -/
  | resetGuard (m : Master) (i : Fin 1024)
  /-- `CLEAR_STATS` (R88). -/
  | clearStats (m : Master) (i : Fin 1024)
  /-- `INSTALL_CURRENT` (R98). -/
  | installCurrent (m : Master) (slot : Fin 64) (alg : Fin 8) (i : Fin 1024)
  /-- `INSTALL_NEXT` (R98). -/
  | installNext (m : Master) (slot : Fin 64) (alg : Fin 8) (i : Fin 1024)
  /-- `CANCEL_NEXT` (R98). -/
  | cancelNext (m : Master) (i : Fin 1024)
  /-- `REVOKE` (R98). -/
  | revoke (m : Master) (i : Fin 1024)
  /-- `BKT_PART_WRITE` (R113). -/
  | bktPartWrite (m : Master) (v : Word)
  /-- `RING_CFG_WRITE` (R120). -/
  | ringCfgWrite (m : Master) (n : Fin 256) (v : Word)
  /-- `RING_DOORBELL` (R124). -/
  | ringDoorbell (m : Master) (n : Fin 256) (v : Word)
  /-- `RING_CONS_WRITE` (R125). -/
  | ringConsWrite (m : Master) (n : Fin 256) (v : Word)
  /-- `RESUME` (R128). -/
  | resume (m : Master) (n : Fin 256)
  /-- `FRAME_TX` (R137). -/
  | frameTx (c : Fin 8)
  /-- `COPY` (R132). -/
  | copy (c : Fin 8)
  /-- `FILL` (R132). -/
  | fill (c : Fin 8)
  /-- `CHECK` (R132). -/
  | check (c : Fin 8)
  /-- `WINDLASS_BURST` (R133). -/
  | windlassBurst (c : Fin 8)
  /-- `WINDLASS_ENERGY_SHORT` (R140). -/
  | windlassEnergyShort (c : Fin 8)
  /-- `CH_CTRL_WRITE` (R136). -/
  | chCtrlWrite (m : Master) (c : Fin 8) (v : Word)
  /-- `DESC_POST` (R125). -/
  | descPost (n : Fin 256)
  /-- `ENERGY_GRANT` (R362). -/
  | energyGrant (who : Requester)
  /-- `STEP` (R143). -/
  | step (m : Master)
  /-- `TIME_ADD` (R143). -/
  | timeAdd (m : Master)
  /-- `DECLARE_LOCK` (R153). -/
  | declareLock (m : Master)
  /-- `DECLARE_HOLDOVER` (R153). -/
  | declareHoldover (m : Master)
  /-- `TIME_FREQ_WRITE` (R143). -/
  | timeFreqWrite (m : Master) (v : Word)
  /-- `PPS_IN_EDGE` (R157). -/
  | ppsInEdge (edge : PpsEdge)
  /-- `PPS_CFG_WRITE` (R155). -/
  | ppsCfgWrite (m : Master) (v : Word)
  /-- `TIME_NOW_READ` (R145). -/
  | timeNowRead (m : Master)
  /-- `ADD` (R172). -/
  | add (rd ra rb : RegNo)
  /-- `SUB` (R172). -/
  | sub (rd ra rb : RegNo)
  /-- `AND` (R172). -/
  | and (rd ra rb : RegNo)
  /-- `OR` (R172). -/
  | or (rd ra rb : RegNo)
  /-- `XOR` (R172). -/
  | xor (rd ra rb : RegNo)
  /-- `NOR` (R172). -/
  | nor (rd ra rb : RegNo)
  /-- `SLT` (R172). -/
  | slt (rd ra rb : RegNo)
  /-- `SLTU` (R172). -/
  | sltu (rd ra rb : RegNo)
  /-- `SLL` (R172). -/
  | sll (rd ra rb : RegNo)
  /-- `SRL` (R172). -/
  | srl (rd ra rb : RegNo)
  /-- `SRA` (R172). -/
  | sra (rd ra rb : RegNo)
  /-- `SLLI` (R172). -/
  | slli (rd ra : RegNo) (sh : BitVec 5)
  /-- `SRLI` (R172). -/
  | srli (rd ra : RegNo) (sh : BitVec 5)
  /-- `SRAI` (R172). -/
  | srai (rd ra : RegNo) (sh : BitVec 5)
  /-- `MUL` (R172). -/
  | mul (rd ra rb : RegNo)
  /-- `MULH` (R172). -/
  | mulh (rd ra rb : RegNo)
  /-- `MULHU` (R172). -/
  | mulhu (rd ra rb : RegNo)
  /-- `DIV` (R173). -/
  | div (rd ra rb : RegNo)
  /-- `DIVU` (R173). -/
  | divu (rd ra rb : RegNo)
  /-- `REM` (R173). -/
  | rem (rd ra rb : RegNo)
  /-- `REMU` (R173). -/
  | remu (rd ra rb : RegNo)
  /-- `CLZ` (R172). -/
  | clz (rd ra : RegNo)
  /-- `ADDI` (R172). -/
  | addi (rd ra : RegNo) (imm : BitVec 16)
  /-- `ANDI` (R172). -/
  | andi (rd ra : RegNo) (imm : BitVec 16)
  /-- `ORI` (R172). -/
  | ori (rd ra : RegNo) (imm : BitVec 16)
  /-- `XORI` (R172). -/
  | xori (rd ra : RegNo) (imm : BitVec 16)
  /-- `LUI` (R172). -/
  | lui (rd : RegNo) (imm : BitVec 16)
  /-- `SLTI` (R172). -/
  | slti (rd ra : RegNo) (imm : BitVec 16)
  /-- `SLTIU` (R172). -/
  | sltiu (rd ra : RegNo) (imm : BitVec 16)
  /-- `LW` (R174). -/
  | lw (rd ra : RegNo) (imm : BitVec 16)
  /-- `LH` (R174). -/
  | lh (rd ra : RegNo) (imm : BitVec 16)
  /-- `LHU` (R174). -/
  | lhu (rd ra : RegNo) (imm : BitVec 16)
  /-- `LB` (R174). -/
  | lb (rd ra : RegNo) (imm : BitVec 16)
  /-- `LBU` (R174). -/
  | lbu (rd ra : RegNo) (imm : BitVec 16)
  /-- `SW` (R174). -/
  | sw (rb ra : RegNo) (imm : BitVec 16)
  /-- `SH` (R174). -/
  | sh (rb ra : RegNo) (imm : BitVec 16)
  /-- `SB` (R174). -/
  | sb (rb ra : RegNo) (imm : BitVec 16)
  /-- `BEQ` (R176). -/
  | beq (ra rb : RegNo) (off : BitVec 16)
  /-- `BNE` (R176). -/
  | bne (ra rb : RegNo) (off : BitVec 16)
  /-- `BLT` (R176). -/
  | blt (ra rb : RegNo) (off : BitVec 16)
  /-- `BGE` (R176). -/
  | bge (ra rb : RegNo) (off : BitVec 16)
  /-- `BLTU` (R176). -/
  | bltu (ra rb : RegNo) (off : BitVec 16)
  /-- `BGEU` (R176). -/
  | bgeu (ra rb : RegNo) (off : BitVec 16)
  /-- `J` (R176). -/
  | j (off : BitVec 26)
  /-- `JAL` (R176). -/
  | jal (off : BitVec 26)
  /-- `JR` (R176). -/
  | jr (ra : RegNo)
  /-- `JALR` (R176). -/
  | jalr (rd ra : RegNo)
  /-- `LOOP` (R180). -/
  | loop (ra : RegNo) (n : BitVec 1) (len : BitVec 10)
  /-- `LOOPI` (R180). -/
  | loopi (n : BitVec 1) (icnt len : BitVec 10)
  /-- `MFS` (R163). -/
  | mfs (rd : RegNo) (spr : BitVec 16)
  /-- `MTS` (R166). -/
  | mts (ra : RegNo) (spr : BitVec 16)
  /-- `MPMAC` (R187). -/
  | mpmac (rd ra rb rc : RegNo) (stop : Option Nat)
  /-- `BMOV` (R188). -/
  | bmov (rd ra rb : RegNo) (stop : Option Nat)
  /-- `BFILL` (R188). -/
  | bfill (rd ra rb : RegNo) (stop : Option Nat)
  /-- `CRCB` (R189). -/
  | crcb (rd ra rb rc : RegNo) (stop : Option Nat)
  /-- `EXCEPTION_ENTRY` (R208). -/
  | exceptionEntry (w : Option Word)
  /-- `NOW` (R238). -/
  | now (m : Master)
  /-- `WITH_SWAP` (R238). -/
  | withSwap (m : Master)
  /-- `RNG_READY` (R258). -/
  | rngReady
  /-- `RESEED_DONE` (R259). -/
  | reseedDone
  /-- `CANCEL` (R238). -/
  | cancel (m : Master)
  /-- `AES_ECB` (R246). -/
  | aesEcb (m : Master) (r : Fin 16)
  /-- `AES_CBC` (R246). -/
  | aesCbc (m : Master) (r : Fin 16)
  /-- `AES_CTR` (R246). -/
  | aesCtr (m : Master) (r : Fin 16)
  /-- `AES_GCM` (R252). -/
  | aesGcm (m : Master) (r : Fin 16)
  /-- `AES_GMAC` (R246). -/
  | aesGmac (m : Master) (r : Fin 16)
  /-- `SHA256` (R246). -/
  | sha256 (m : Master) (r : Fin 16)
  /-- `SHA384` (R246). -/
  | sha384 (m : Master) (r : Fin 16)
  /-- `SHA512` (R246). -/
  | sha512 (m : Master) (r : Fin 16)
  /-- `HMAC_SHA256` (R246). -/
  | hmacSha256 (m : Master) (r : Fin 16)
  /-- `HMAC_SHA384` (R246). -/
  | hmacSha384 (m : Master) (r : Fin 16)
  /-- `HMAC_SHA512` (R246). -/
  | hmacSha512 (m : Master) (r : Fin 16)
  /-- `ECDSA_P256` (R256). -/
  | ecdsaP256 (m : Master) (r : Fin 16)
  /-- `ECDSA_P384` (R256). -/
  | ecdsaP384 (m : Master) (r : Fin 16)
  /-- `RSA` (R256). -/
  | rsa (m : Master) (r : Fin 16)
  /-- `RANDOM` (R246). -/
  | random (m : Master) (r : Fin 16)
  /-- `CE_ABORT` (R255). -/
  | ceAbort (m : Master) (r : Fin 16)
  /-- `PAGE_DISABLE` (R245). -/
  | pageDisable (m : Master) (r : Fin 16)
  /-- `CE_CHUNK` (R249). -/
  | ceChunk (r : Fin 16)
  /-- `CE_JOB_DONE` (R252). -/
  | ceJobDone (r : Fin 16)
  /-- `CE_ENERGY_SHORT` (R268). -/
  | ceEnergyShort (r : Fin 16)
  /-- `IMPORT_WRAPPED` (R263). -/
  | importWrapped (m : Master) (kek slot : Fin 64)
  /-- `IMPORT_PLAIN` (R263). -/
  | importPlain (m : Master) (slot : Fin 64)
  /-- `GENERATE` (R263). -/
  | generate (m : Master) (slot : Fin 64)
  /-- `EXPORT_WRAPPED` (R263). -/
  | exportWrapped (m : Master) (kek slot : Fin 64)
  /-- `ERASE` (R263). -/
  | erase (m : Master) (slot : Fin 64)
  /-- `PUBLIC` (R263). -/
  | publicPoint (m : Master) (slot : Fin 64)
  /-- `RESEED` (R259). -/
  | reseed (m : Master)
  /-- `RESTART` (R260). -/
  | restart (m : Master)
  /-- `HEALTH_FAIL` (R260). -/
  | healthFail (rct : Bool)
  /-- `INTEG_REMAP_CMD` (R288). -/
  | integRemapCmd (m : Master) (bank : Fin 16) (row : Fin 2048)
  /-- `REMOVE` (R290). -/
  | remove (m : Master) (entry : Fin 8)
  /-- `DREDGE_START` (R293). -/
  | dredgeStart (m : Master)
  /-- `DREDGE_ABORT` (R293). -/
  | dredgeAbort (m : Master)
  /-- `READ_PARAM` (R303). -/
  | readParam (m : Master) (target : Fin 2048)
  /-- `WRITE_PARAM` (R302). -/
  | writeParam (m : Master) (target : Fin 2048)
  /-- `ERASE_PARAM` (R302). -/
  | eraseParam (m : Master) (target : Fin 2048)
  /-- `READ_CTR` (R305). -/
  | readCtr (m : Master) (target : Fin 2048)
  /-- `INC_CTR` (R306). -/
  | incCtr (m : Master) (target : Fin 2048)
  /-- `ADVANCE_CTR` (R306). -/
  | advanceCtr (m : Master) (target : Fin 2048)
  /-- `APPEND_LOG` (R309). -/
  | appendLog (m : Master) (rtype : Byte) (target : Fin 2048)
  /-- `READ_LOG` (R310). -/
  | readLog (m : Master) (target : Fin 2048)
  /-- `READ_ALARM` (R312). -/
  | readAlarm (m : Master)
  /-- `ALARM_ACK` (R312). -/
  | alarmAck (m : Master)
  /-- `MARGIN_SCAN` (R320). -/
  | marginScan (weak : Bool)
  /-- `ANTICOLLISION` (R331). -/
  | anticollision (level : Fin 2) (known : Bytes)
  /-- `SELECT` (R331). -/
  | select (level : Fin 2) (uid : Bytes)
  /-- `RATS` (R331). -/
  | rats (param : Byte)
  /-- `PPS` (R331). -/
  | pps (pps1 : Byte)
  /-- `ATTRIB` (R332). -/
  | attrib (pupi : Bytes) (rates : Byte) (fsd : Nat) (cid : Fin 16)
  /-- `HLTB` (R340). -/
  | hltb (pupi : Bytes)
  /-- `STAY_QUIET` (R340). -/
  | stayQuiet (uid : Bytes)
  /-- `READ_SINGLE_BLOCK` (R333). -/
  | readSingleBlock (mode : VMode) (blk : Byte)
  /-- `READ_MULTIPLE_BLOCKS` (R333). -/
  | readMultipleBlocks (mode : VMode) (blk count : Byte)
  /-- `SELECT_15693` (R333). -/
  | select15693 (uid : Bytes)
  /-- `RESET_TO_READY` (R333). -/
  | resetToReady (mode : VMode)
  /-- `GET_SYSTEM_INFORMATION` (R333). -/
  | getSystemInformation (mode : VMode)
  /-- `APDU_TRANSFER` (R334). -/
  | apduTransfer (mode : VMode) (apdu : Bytes)
  /-- `GET_RESULT` (R334). -/
  | getResult (mode : VMode)
  /-- `I_BLOCK` (R337). -/
  | iBlock (b : Block)
  /-- `R_ACK` (R337). -/
  | rAck (bn : Bool)
  /-- `R_NAK` (R337). -/
  | rNak (bn : Bool)
  /-- `S_WTX_RESPONSE` (R338). -/
  | sWtxResponse (wtxm : Nat)
  /-- `FW_RESP` (R351). -/
  | fwResp (m : Master) (v : Word)
  /-- `FW_DATA_READ` (R354). -/
  | fwDataRead (m : Master)
  /-- `RELOAD` (R329). -/
  | reload (m : Master)
  /-- `MARK_CHANGE` (R360). -/
  | markChange (mv : Nat)
  /-- `PV_SAMPLE` (R367). -/
  | pvSample (vocMv : Nat) (covers : Bool) (vbatMv : Nat)
  /-- `PMODE_WRITE` (R375). -/
  | pmodeWrite (m : Master) (v : Word)
  /-- `EVENT_ISSUE` (R377). -/
  | eventIssue (src : Fin 32)
  /-- `COAL_WINDOW_CLOSE` (R383). -/
  | coalWindowClose (src : Fin 32)
  /-- `EVT_SW` (R397). -/
  | evtSw (m : Master) (v : Word)
  /-- `WDOG_KICK` (R388). -/
  | wdogKick (m : Master) (v : Word)
  /-- `WDOG_START` (R389). -/
  | wdogStart (m : Master) (v : Word)
  /-- `ALARM_EDGE` (R393). -/
  | alarmEdge (cause : Fin 9) (detail : Byte)
  /-- `MESH_SAMPLE` (R390). -/
  | meshSample (bad : Option (Fin 8))
  /-- `MESH_RESAMPLE` (R390). -/
  | meshResample (bad : Option (Fin 8))
  /-- `LIGHT` (R390). -/
  | light (sensor : Option (Fin 4))
  /-- `VGLITCH` (R390). -/
  | vglitch (which : Glitch)
  /-- `VBAT_UV` (R390). -/
  | vbatUv (mv : Nat)
  /-- `CLOCK` (R390). -/
  | clock (obs : ClockObs)
  /-- `TEMP` (R390). -/
  | temp (tj : Int)
  /-- `READ` (R401). -/
  | read (cmd len : Byte) (addr chk : Word)
  /-- `WRITE` (R401). -/
  | write (len : Byte) (addr : Word) (data : Bytes) (chk : Word)
  /-- `IDENT` (R401). -/
  | ident (len : Byte) (addr chk : Word)
  /-- `CS_RISE_EARLY` (R405). -/
  | csRiseEarly (cmd : Byte)
  /-- `HOST_DB` (R406). -/
  | hostDb (m : Master) (v : Word)
  /-- `ERASE_SECTOR` (R418). -/
  | eraseSector (m : Master) (page : BitVec 12)
  /-- `PROGRAM_PAGE` (R418). -/
  | programPage (m : Master) (page : BitVec 12)
  /-- `CLEAR` (R421). -/
  | clear (m : Master)
  /-- `GPIO_EDGE` (R424). -/
  | gpioEdge (k : Fin 24) (rising : Bool)
  /-- `ACT_TIMEOUT` (R422). -/
  | actTimeout (p : Port)
  /-- `AON_TIMER_EXPIRY` (R37). -/
  | aonTimerExpiry (ch : Fin 8)
  /-- `HOST_GOOD` (R22). -/
  | hostGood
  /-- `HOST_LOSS` (R22). -/
  | hostLoss
  /-- `FIELD_ON` (R22). -/
  | fieldOn
  /-- `FIELD_OFF` (R22). -/
  | fieldOff
  /-- `RUN_REACHED` (R22). -/
  | runReached
  /-- `RUN_LOST` (R22). -/
  | runLost
  /-- `RUNLOW` (R22). -/
  | runlow
  /-- `ALARM` (R22). -/
  | alarm
  /-- `ALARM_DONE` (R393). -/
  | alarmDone
  /-- `DEVICE_RESET` (R13). -/
  | deviceReset
  /-- `AON_POWER_UP` (R433). -/
  | aonPowerUp
  /-- `AON_XTAL_SWITCH` (R433). -/
  | aonXtalSwitch
  /-- `PLL_LOCK` (R432). -/
  | pllLock
  /-- `AON_STORE_COMPLETE` (R20). -/
  | aonStoreComplete
  /-- `KEY_CMD_DONE` (R98). -/
  | keyCmdDone
  /-- `SERVO_TIMEOUT` (R153). -/
  | servoTimeout
  /-- `HOLDOVER_EXPIRY` (R153). -/
  | holdoverExpiry
  /-- `PPS_OUT_PULSE` (R156). -/
  | ppsOutPulse
  /-- `PPS_OUT_END` (R156). -/
  | ppsOutEnd
  /-- `SYSCALL` (R192). -/
  | syscall
  /-- `SYSRET` (R192). -/
  | sysret
  /-- `RETX` (R211). -/
  | retx
  /-- `SWAPRULES` (R229). -/
  | swaprules
  /-- `FENCE` (R192). -/
  | fence
  /-- `IFENCE` (R192). -/
  | ifence
  /-- `WAIT` (R192). -/
  | wait
  /-- `WAIT_WAKE` (R192). -/
  | waitWake
  /-- `BREAK` (R192). -/
  | brk
  /-- `STORE_DRAIN` (R193). -/
  | storeDrain
  /-- `INTERRUPT` (R219). -/
  | interrupt
  /-- `EPOCH_DRAINED` (R239). -/
  | epochDrained
  /-- `CE_KEY_CMD_DONE` (R264). -/
  | ceKeyCmdDone
  /-- `WRITE_BACK` (R276). -/
  | writeBack
  /-- `TRACKER_OFFER` (R285). -/
  | trackerOffer
  /-- `ROW_REMAP_DONE` (R286). -/
  | rowRemapDone
  /-- `DREDGE_BURST` (R292). -/
  | dredgeBurst
  /-- `CISTERN_BURST_DONE` (R317). -/
  | cisternBurstDone
  /-- `POWER_UP_JOURNAL` (R314). -/
  | powerUpJournal
  /-- `REFRESH` (R321). -/
  | refresh
  /-- `ALARM_RECORD` (R312). -/
  | alarmRecord
  /-- `CISTERN_ENERGY_SHORT` (R319). -/
  | cisternEnergyShort
  /-- `CISTERN_BUF_CLEAR` (R323). -/
  | cisternBufClear
  /-- `REQA` (R331). -/
  | reqa
  /-- `WUPA` (R331). -/
  | wupa
  /-- `HLTA` (R340). -/
  | hlta
  /-- `REQB` (R332). -/
  | reqb
  /-- `WUPB` (R332). -/
  | wupb
  /-- `INVENTORY` (R333). -/
  | inventory
  /-- `S_DESELECT` (R340). -/
  | sDeselect
  /-- `SELECT_FILE` (R341). -/
  | selectFile
  /-- `READ_BINARY` (R341). -/
  | readBinary
  /-- `UPDATE_BINARY` (R341). -/
  | updateBinary
  /-- `GET_INFO` (R342). -/
  | getInfo
  /-- `AUTH_INIT` (R349). -/
  | authInit
  /-- `AUTH_FINISH` (R349). -/
  | authFinish
  /-- `APDU_READ_PARAM` (R342). -/
  | apduReadParam
  /-- `APDU_READ_CTR` (R342). -/
  | apduReadCtr
  /-- `APDU_READ_LOG` (R344). -/
  | apduReadLog
  /-- `APDU_READ_ALARM` (R344). -/
  | apduReadAlarm
  /-- `WTX_TIMER` (R338). -/
  | wtxTimer
  /-- `RESPONSE_TRANSMIT` (R336). -/
  | responseTransmit
  /-- `PORT_CLAIM_RETRY` (R346). -/
  | portClaimRetry
  /-- `FW_TIMEOUT` (R352). -/
  | fwTimeout
  /-- `CONTACTLESS_CONFIG_LOAD` (R329). -/
  | contactlessConfigLoad
  /-- `CANARY_LATE` (R371). -/
  | canaryLate
  /-- `AVS_LOWER` (R371). -/
  | avsLower
  /-- `AVS_LINK_FAIL` (R373). -/
  | avsLinkFail
  /-- `PMODE_DONE` (R375). -/
  | pmodeDone
  /-- `ALARM_CHARGE_TIMEOUT` (R366). -/
  | alarmChargeTimeout
  /-- `WDOG_EXPIRY` (R389). -/
  | wdogExpiry
  /-- `AON_CLOCK` (R390). -/
  | aonClock
  /-- `LOCKSTEP` (R390). -/
  | lockstep
  /-- `WOHIAL_TIMEOUT` (R404). -/
  | wohialTimeout
  /-- `WOHIAL_OP_DONE` (R404). -/
  | wohialOpDone
  /-- `BOOT` (R413). -/
  | boot
  /-- `RECOVERY_IMAGE` (R413). -/
  | recoveryImage
  /-- `FLASH_OP_DONE` (R418). -/
  | flashOpDone
  /-- `AON_UNPOWERED` (R356). -/
  | aonUnpowered
  /-- `PV_AON_RAIL_LOSS` (R367). -/
  | pvAonRailLoss
  deriving DecidableEq, Repr

end Sys2Proof
end

