-- ==== Sys2Proof/Decode.lean ====
section
/-! DEFINITION. The encoding of the Enuth instruction words (R167 to R171): a decoder that is total on words and names
why a word is illegal (R168, R210), and an encoder written from the same tables. The operation table gives no bits for
any row, so a table word spells no command. -/
namespace Sys2Proof

/-- What a fetched word is: an instruction, or illegal with the DETAIL of R210 (0 unassigned, 1 non-zero unused field). -/
inductive Decoded where
  | instr (i : Instr)
  | illegal (detail : Nat)
  deriving DecidableEq, Repr

/-- The fields of an instruction word (R167). -/
def wOp (w : Word) : BitVec 6 := w.extractLsb' 26 6
def wRd (w : Word) : RegNo := w.extractLsb' 21 5
def wRa (w : Word) : RegNo := w.extractLsb' 16 5
def wRb (w : Word) : RegNo := w.extractLsb' 11 5
def wSh (w : Word) : BitVec 5 := w.extractLsb' 6 5
def wFn (w : Word) : BitVec 6 := w.extractLsb' 0 6
def wImm (w : Word) : BitVec 16 := w.extractLsb' 0 16
def wOff (w : Word) : BitVec 26 := w.extractLsb' 0 26
def wN (w : Word) : BitVec 1 := w.extractLsb' 20 1
def wIcnt (w : Word) : BitVec 10 := w.extractLsb' 10 10
def wLen (w : Word) : BitVec 10 := w.extractLsb' 0 10

/-- An instruction whose unused fields must be zero (R168). -/
def unused (ok : Bool) (i : Instr) : Decoded := if ok then .instr i else .illegal 1

/-- The register group, opcode 0x00 (R170). -/
def decodeReg (w : Word) : Decoded :=
  let d := wRd w
  let a := wRa w
  let b := wRb w
  let s := wSh w
  let r3 (i : Instr) : Decoded := unused (s == 0) i
  let sh (i : Instr) : Decoded := unused (b == 0) i
  match (wFn w).toNat with
  | 0x00 => r3 (.add d a b)
  | 0x01 => r3 (.sub d a b)
  | 0x02 => r3 (.and d a b)
  | 0x03 => r3 (.or d a b)
  | 0x04 => r3 (.xor d a b)
  | 0x05 => r3 (.nor d a b)
  | 0x06 => r3 (.slt d a b)
  | 0x07 => r3 (.sltu d a b)
  | 0x08 => r3 (.sll d a b)
  | 0x09 => r3 (.srl d a b)
  | 0x0A => r3 (.sra d a b)
  | 0x0B => sh (.slli d a s)
  | 0x0C => sh (.srli d a s)
  | 0x0D => sh (.srai d a s)
  | 0x10 => r3 (.mul d a b)
  | 0x11 => r3 (.mulh d a b)
  | 0x12 => r3 (.mulhu d a b)
  | 0x13 => r3 (.div d a b)
  | 0x14 => r3 (.divu d a b)
  | 0x15 => r3 (.rem d a b)
  | 0x16 => r3 (.remu d a b)
  | 0x18 => unused (b == 0 && s == 0) (.clz d a)
  | 0x20 => unused (d == 0 && b == 0 && s == 0) (.jr a)
  | 0x21 => unused (b == 0 && s == 0) (.jalr d a)
  | _ => .illegal 0

/-- The long group, opcode 0x1C (R171). -/
def decodeLong (w : Word) : Decoded :=
  let d := wRd w
  let a := wRa w
  let b := wRb w
  let c := wSh w
  match (wFn w).toNat with
  | 0x00 => .instr (.mpmac d a b c none)
  | 0x01 => unused (c == 0) (.bmov d a b none)
  | 0x02 => unused (c == 0) (.bfill d a b none)
  | 0x03 => .instr (.crcb d a b c none)
  | _ => .illegal 0

/-- The system group, opcode 0x1F (R171). -/
def decodeSys (w : Word) : Decoded :=
  let z := wRd w == 0 && wRa w == 0 && wRb w == 0 && wSh w == 0
  match (wFn w).toNat with
  | 0x00 => unused z .syscall
  | 0x01 => unused z .sysret
  | 0x02 => unused z .retx
  | 0x03 => unused z .swaprules
  | 0x04 => unused z .fence
  | 0x05 => unused z .ifence
  | 0x06 => unused z .wait
  | 0x07 => unused z .brk
  | _ => .illegal 0

/-- The decoder of instruction words (R167 to R171). -/
def decodeWord (w : Word) : Decoded :=
  let d := wRd w
  let a := wRa w
  let i := wImm w
  match (wOp w).toNat with
  | 0x00 => decodeReg w
  | 0x01 => .instr (.addi d a i)
  | 0x02 => .instr (.andi d a i)
  | 0x03 => .instr (.ori d a i)
  | 0x04 => .instr (.xori d a i)
  | 0x05 => unused (a == 0) (.lui d i)
  | 0x06 => .instr (.slti d a i)
  | 0x07 => .instr (.sltiu d a i)
  | 0x08 => .instr (.lw d a i)
  | 0x09 => .instr (.lh d a i)
  | 0x0A => .instr (.lhu d a i)
  | 0x0B => .instr (.lb d a i)
  | 0x0C => .instr (.lbu d a i)
  | 0x0D => .instr (.sw d a i)
  | 0x0E => .instr (.sh d a i)
  | 0x0F => .instr (.sb d a i)
  | 0x10 => .instr (.beq d a i)
  | 0x11 => .instr (.bne d a i)
  | 0x12 => .instr (.blt d a i)
  | 0x13 => .instr (.bge d a i)
  | 0x14 => .instr (.bltu d a i)
  | 0x15 => .instr (.bgeu d a i)
  | 0x16 => .instr (.j (wOff w))
  | 0x17 => .instr (.jal (wOff w))
  | 0x18 => unused (wIcnt w == 0) (.loop d (wN w) (wLen w))
  | 0x19 => unused (d == 0) (.loopi (wN w) (wIcnt w) (wLen w))
  | 0x1A => unused (a == 0) (.mfs d i)
  | 0x1B => unused (d == 0) (.mts a i)
  | 0x1C => decodeLong w
  | 0x1F => decodeSys w
  | _ => .illegal 0

/-- Words of the classes of R167. -/
def encR (op : BitVec 6) (rd ra rb : RegNo) (sh : BitVec 5) (fn : BitVec 6) : Word := op ++ rd ++ ra ++ rb ++ sh ++ fn
def encI (op : BitVec 6) (rd ra : RegNo) (imm : BitVec 16) : Word := op ++ rd ++ ra ++ imm
def encJ (op : BitVec 6) (off : BitVec 26) : Word := op ++ off
def encL (op : BitVec 6) (ra : RegNo) (n : BitVec 1) (icnt len : BitVec 10) : Word := op ++ ra ++ n ++ icnt ++ len

/-- The word of a core instruction; none for a command that is no instruction word. A long instruction's word says
nothing of where it will be interrupted. -/
def encodeWord : Instr → Option Word
  | .add d a b => some (encR 0x00 d a b 0 0x00)
  | .sub d a b => some (encR 0x00 d a b 0 0x01)
  | .and d a b => some (encR 0x00 d a b 0 0x02)
  | .or d a b => some (encR 0x00 d a b 0 0x03)
  | .xor d a b => some (encR 0x00 d a b 0 0x04)
  | .nor d a b => some (encR 0x00 d a b 0 0x05)
  | .slt d a b => some (encR 0x00 d a b 0 0x06)
  | .sltu d a b => some (encR 0x00 d a b 0 0x07)
  | .sll d a b => some (encR 0x00 d a b 0 0x08)
  | .srl d a b => some (encR 0x00 d a b 0 0x09)
  | .sra d a b => some (encR 0x00 d a b 0 0x0A)
  | .slli d a s => some (encR 0x00 d a 0 s 0x0B)
  | .srli d a s => some (encR 0x00 d a 0 s 0x0C)
  | .srai d a s => some (encR 0x00 d a 0 s 0x0D)
  | .mul d a b => some (encR 0x00 d a b 0 0x10)
  | .mulh d a b => some (encR 0x00 d a b 0 0x11)
  | .mulhu d a b => some (encR 0x00 d a b 0 0x12)
  | .div d a b => some (encR 0x00 d a b 0 0x13)
  | .divu d a b => some (encR 0x00 d a b 0 0x14)
  | .rem d a b => some (encR 0x00 d a b 0 0x15)
  | .remu d a b => some (encR 0x00 d a b 0 0x16)
  | .clz d a => some (encR 0x00 d a 0 0 0x18)
  | .jr a => some (encR 0x00 0 a 0 0 0x20)
  | .jalr d a => some (encR 0x00 d a 0 0 0x21)
  | .addi d a i => some (encI 0x01 d a i)
  | .andi d a i => some (encI 0x02 d a i)
  | .ori d a i => some (encI 0x03 d a i)
  | .xori d a i => some (encI 0x04 d a i)
  | .lui d i => some (encI 0x05 d 0 i)
  | .slti d a i => some (encI 0x06 d a i)
  | .sltiu d a i => some (encI 0x07 d a i)
  | .lw d a i => some (encI 0x08 d a i)
  | .lh d a i => some (encI 0x09 d a i)
  | .lhu d a i => some (encI 0x0A d a i)
  | .lb d a i => some (encI 0x0B d a i)
  | .lbu d a i => some (encI 0x0C d a i)
  | .sw b a i => some (encI 0x0D b a i)
  | .sh b a i => some (encI 0x0E b a i)
  | .sb b a i => some (encI 0x0F b a i)
  | .beq a b o => some (encI 0x10 a b o)
  | .bne a b o => some (encI 0x11 a b o)
  | .blt a b o => some (encI 0x12 a b o)
  | .bge a b o => some (encI 0x13 a b o)
  | .bltu a b o => some (encI 0x14 a b o)
  | .bgeu a b o => some (encI 0x15 a b o)
  | .j o => some (encJ 0x16 o)
  | .jal o => some (encJ 0x17 o)
  | .loop a n l => some (encL 0x18 a n 0 l)
  | .loopi n c l => some (encL 0x19 0 n c l)
  | .mfs d s => some (encI 0x1A d 0 s)
  | .mts a s => some (encI 0x1B 0 a s)
  | .mpmac d a b c _ => some (encR 0x1C d a b c 0x00)
  | .bmov d a b _ => some (encR 0x1C d a b 0 0x01)
  | .bfill d a b _ => some (encR 0x1C d a b 0 0x02)
  | .crcb d a b c _ => some (encR 0x1C d a b c 0x03)
  | .syscall => some (encR 0x1F 0 0 0 0 0x00)
  | .sysret => some (encR 0x1F 0 0 0 0 0x01)
  | .retx => some (encR 0x1F 0 0 0 0 0x02)
  | .swaprules => some (encR 0x1F 0 0 0 0 0x03)
  | .fence => some (encR 0x1F 0 0 0 0 0x04)
  | .ifence => some (encR 0x1F 0 0 0 0 0x05)
  | .wait => some (encR 0x1F 0 0 0 0 0x06)
  | .brk => some (encR 0x1F 0 0 0 0 0x07)
  | _ => none

/-- The command a table word spells: the operation table gives bits for no row, so none. -/
def decodeTableWord (_nbits _w : Nat) : Option Instr := none

end Sys2Proof
end

