-- ==== Sys2Proof/Machine/Bits.lean ====
section
/-! DEFINITION. Bit fields, byte order and saturation, as numbers: the helpers that every block uses. Multi-byte values
are little-endian (R6); fields of a frame keep the order of their standard, which is big-endian. -/
namespace Sys2Proof.Machine

/-- Bits `hi:lo` of `n`. -/
def bitsOf (n hi lo : Nat) : Nat := (n >>> lo) % 2 ^ (hi + 1 - lo)

/-- Bit `i` of `n`. -/
def bitAt (n i : Nat) : Bool := n.testBit i

/-- `n` with bits `hi:lo` replaced by `v`. -/
def withBits (n hi lo v : Nat) : Nat :=
  let w := 2 ^ (hi + 1 - lo)
  n - (bitsOf n hi lo <<< lo) + ((v % w) <<< lo)

/-- 1 for true, 0 for false. -/
def b2n (b : Bool) : Nat := if b then 1 else 0

/-- `n + k`, held at the largest `w`-bit number (a saturating counter). -/
def satAdd (w n k : Nat) : Nat := min (n + k) (2 ^ w - 1)

/-- The `n` bytes of `v`, least significant first (R6). -/
def leBytes : Nat → Nat → Bytes
  | 0, _ => []
  | n + 1, v => BitVec.ofNat 8 v :: leBytes n (v / 256)

/-- The number that bytes hold, least significant first (R6). -/
def leNat : Bytes → Nat
  | [] => 0
  | b :: t => b.toNat + 256 * leNat t

/-- The number that bytes hold, most significant first (network order). -/
def beNat (bs : Bytes) : Nat := bs.foldl (fun a b => a * 256 + b.toNat) 0

/-- The `n` bytes of `v`, most significant first. -/
def beBytes (n v : Nat) : Bytes := (leBytes n v).reverse

/-- `n` bytes of `bs` from position `i`; positions past the end give nothing. -/
def slice (bs : Bytes) (i n : Nat) : Bytes := (bs.drop i).take n

/-- `bs` with the bytes from position `i` replaced by `new`. -/
def patch (bs : Bytes) (i : Nat) (new : Bytes) : Bytes :=
  bs.take i ++ new ++ bs.drop (i + new.length)

/-- Byte `i` of `bs`, zero past the end. -/
def byteAt (bs : Bytes) (i : Nat) : Nat := (bs.getD i 0).toNat

/-- `bs` brought to `n` bytes with zeros. -/
def padTo (n : Nat) (bs : Bytes) : Bytes := bs ++ List.replicate (n - bs.length) 0

/-- Bitwise exclusive-OR of two byte strings, as long as the shorter. -/
def xorBytes (a b : Bytes) : Bytes := List.zipWith (· ^^^ ·) a b

/-- A signed reading of the low `w` bits of `n`. -/
def sgn (w n : Nat) : Int :=
  let m := n % 2 ^ w
  if m < 2 ^ (w - 1) then (m : Int) else (m : Int) - (2 ^ w : Nat)

/-- The low `w` bits of a signed number. -/
def ofInt (w : Nat) (i : Int) : Nat := (i % (2 ^ w : Nat)).toNat

/-- `x` brought into `lo` to `hi`. -/
def clampInt (lo hi x : Int) : Int := max lo (min hi x)

/-- Quotient rounded up. -/
def ceilDiv (a b : Nat) : Nat := (a + b - 1) / b

/-- Element of a list replaced. -/
def listSet {α : Type} (l : List α) (i : Nat) (a : α) : List α := l.take i ++ (match l.drop i with | [] => [] | _ :: t => a :: t)

/-- One step of the reflected CRC-32C over a byte (R138, R189). -/
def crc32cByte (s : Nat) (b : Byte) : Nat :=
  (List.range 8).foldl (fun c _ => if c % 2 = 1 then (c / 2) ^^^ 0x82F63B78 else c / 2) (s ^^^ b.toNat)

/-- The CRC-32C state after `bs`, without initial value and final exclusive-OR (R189). -/
def crc32cState (s : Nat) (bs : Bytes) : Nat := bs.foldl crc32cByte s

/-- The CRC-32C of `bs` (R138). -/
def crc32c (bs : Bytes) : Nat := crc32cState 0xFFFFFFFF bs ^^^ 0xFFFFFFFF

/-- One step of the reflected IEEE 802.3 CRC-32 over a byte. -/
def crc32Byte (s : Nat) (b : Byte) : Nat :=
  (List.range 8).foldl (fun c _ => if c % 2 = 1 then (c / 2) ^^^ 0xEDB88320 else c / 2) (s ^^^ b.toNat)

/-- The FCS of `bs` as a number, least significant byte sent first (R44, R60). -/
def crc32 (bs : Bytes) : Nat := bs.foldl crc32Byte 0xFFFFFFFF ^^^ 0xFFFFFFFF

/-- The bits of bytes, bit 7 of a byte first. -/
def bitsMsb (bs : Bytes) : List Bool := bs.flatMap fun b => (List.range 8).map fun i => b.getLsbD (7 - i)

end Sys2Proof.Machine
end

