-- ==== Sys2Proof/Machine/Crypto.lean ====
section
/-! DEFINITION. The algorithms of the standards that R2 names, as functions on byte strings: AES and its modes (FIPS 197,
SP 800-38A and 38D), SHA-2 and HMAC (FIPS 180-4, FIPS 198-1), modular exponentiation, and ECDSA on P-256 and P-384
(FIPS 186-5). PRESUMED from those standards: the spec names them and does not repeat them (log entry 12). -/
namespace Sys2Proof.Machine

/-! ### Constants -/

/-- The S-box of FIPS 197. -/
def aesSbox : List Nat :=
  [0x63, 0x7c, 0x77, 0x7b, 0xf2, 0x6b, 0x6f, 0xc5, 0x30, 0x1, 0x67, 0x2b, 0xfe, 0xd7, 0xab, 0x76] ++
  [0xca, 0x82, 0xc9, 0x7d, 0xfa, 0x59, 0x47, 0xf0, 0xad, 0xd4, 0xa2, 0xaf, 0x9c, 0xa4, 0x72, 0xc0] ++
  [0xb7, 0xfd, 0x93, 0x26, 0x36, 0x3f, 0xf7, 0xcc, 0x34, 0xa5, 0xe5, 0xf1, 0x71, 0xd8, 0x31, 0x15] ++
  [0x4, 0xc7, 0x23, 0xc3, 0x18, 0x96, 0x5, 0x9a, 0x7, 0x12, 0x80, 0xe2, 0xeb, 0x27, 0xb2, 0x75] ++
  [0x9, 0x83, 0x2c, 0x1a, 0x1b, 0x6e, 0x5a, 0xa0, 0x52, 0x3b, 0xd6, 0xb3, 0x29, 0xe3, 0x2f, 0x84] ++
  [0x53, 0xd1, 0x0, 0xed, 0x20, 0xfc, 0xb1, 0x5b, 0x6a, 0xcb, 0xbe, 0x39, 0x4a, 0x4c, 0x58, 0xcf] ++
  [0xd0, 0xef, 0xaa, 0xfb, 0x43, 0x4d, 0x33, 0x85, 0x45, 0xf9, 0x2, 0x7f, 0x50, 0x3c, 0x9f, 0xa8] ++
  [0x51, 0xa3, 0x40, 0x8f, 0x92, 0x9d, 0x38, 0xf5, 0xbc, 0xb6, 0xda, 0x21, 0x10, 0xff, 0xf3, 0xd2] ++
  [0xcd, 0xc, 0x13, 0xec, 0x5f, 0x97, 0x44, 0x17, 0xc4, 0xa7, 0x7e, 0x3d, 0x64, 0x5d, 0x19, 0x73] ++
  [0x60, 0x81, 0x4f, 0xdc, 0x22, 0x2a, 0x90, 0x88, 0x46, 0xee, 0xb8, 0x14, 0xde, 0x5e, 0xb, 0xdb] ++
  [0xe0, 0x32, 0x3a, 0xa, 0x49, 0x6, 0x24, 0x5c, 0xc2, 0xd3, 0xac, 0x62, 0x91, 0x95, 0xe4, 0x79] ++
  [0xe7, 0xc8, 0x37, 0x6d, 0x8d, 0xd5, 0x4e, 0xa9, 0x6c, 0x56, 0xf4, 0xea, 0x65, 0x7a, 0xae, 0x8] ++
  [0xba, 0x78, 0x25, 0x2e, 0x1c, 0xa6, 0xb4, 0xc6, 0xe8, 0xdd, 0x74, 0x1f, 0x4b, 0xbd, 0x8b, 0x8a] ++
  [0x70, 0x3e, 0xb5, 0x66, 0x48, 0x3, 0xf6, 0xe, 0x61, 0x35, 0x57, 0xb9, 0x86, 0xc1, 0x1d, 0x9e] ++
  [0xe1, 0xf8, 0x98, 0x11, 0x69, 0xd9, 0x8e, 0x94, 0x9b, 0x1e, 0x87, 0xe9, 0xce, 0x55, 0x28, 0xdf] ++
  [0x8c, 0xa1, 0x89, 0xd, 0xbf, 0xe6, 0x42, 0x68, 0x41, 0x99, 0x2d, 0xf, 0xb0, 0x54, 0xbb, 0x16]

/-- Round constants of SHA-256. -/
def sha256K : List Nat :=
  [0x428a2f98, 0x71374491, 0xb5c0fbcf, 0xe9b5dba5, 0x3956c25b, 0x59f111f1, 0x923f82a4, 0xab1c5ed5] ++
  [0xd807aa98, 0x12835b01, 0x243185be, 0x550c7dc3, 0x72be5d74, 0x80deb1fe, 0x9bdc06a7, 0xc19bf174] ++
  [0xe49b69c1, 0xefbe4786, 0xfc19dc6, 0x240ca1cc, 0x2de92c6f, 0x4a7484aa, 0x5cb0a9dc, 0x76f988da] ++
  [0x983e5152, 0xa831c66d, 0xb00327c8, 0xbf597fc7, 0xc6e00bf3, 0xd5a79147, 0x6ca6351, 0x14292967] ++
  [0x27b70a85, 0x2e1b2138, 0x4d2c6dfc, 0x53380d13, 0x650a7354, 0x766a0abb, 0x81c2c92e, 0x92722c85] ++
  [0xa2bfe8a1, 0xa81a664b, 0xc24b8b70, 0xc76c51a3, 0xd192e819, 0xd6990624, 0xf40e3585, 0x106aa070] ++
  [0x19a4c116, 0x1e376c08, 0x2748774c, 0x34b0bcb5, 0x391c0cb3, 0x4ed8aa4a, 0x5b9cca4f, 0x682e6ff3] ++
  [0x748f82ee, 0x78a5636f, 0x84c87814, 0x8cc70208, 0x90befffa, 0xa4506ceb, 0xbef9a3f7, 0xc67178f2]

/-- Round constants of SHA-384 and SHA-512. -/
def sha512K : List Nat :=
  [0x428a2f98d728ae22, 0x7137449123ef65cd, 0xb5c0fbcfec4d3b2f, 0xe9b5dba58189dbbc] ++
  [0x3956c25bf348b538, 0x59f111f1b605d019, 0x923f82a4af194f9b, 0xab1c5ed5da6d8118] ++
  [0xd807aa98a3030242, 0x12835b0145706fbe, 0x243185be4ee4b28c, 0x550c7dc3d5ffb4e2] ++
  [0x72be5d74f27b896f, 0x80deb1fe3b1696b1, 0x9bdc06a725c71235, 0xc19bf174cf692694] ++
  [0xe49b69c19ef14ad2, 0xefbe4786384f25e3, 0xfc19dc68b8cd5b5, 0x240ca1cc77ac9c65] ++
  [0x2de92c6f592b0275, 0x4a7484aa6ea6e483, 0x5cb0a9dcbd41fbd4, 0x76f988da831153b5] ++
  [0x983e5152ee66dfab, 0xa831c66d2db43210, 0xb00327c898fb213f, 0xbf597fc7beef0ee4] ++
  [0xc6e00bf33da88fc2, 0xd5a79147930aa725, 0x6ca6351e003826f, 0x142929670a0e6e70] ++
  [0x27b70a8546d22ffc, 0x2e1b21385c26c926, 0x4d2c6dfc5ac42aed, 0x53380d139d95b3df] ++
  [0x650a73548baf63de, 0x766a0abb3c77b2a8, 0x81c2c92e47edaee6, 0x92722c851482353b] ++
  [0xa2bfe8a14cf10364, 0xa81a664bbc423001, 0xc24b8b70d0f89791, 0xc76c51a30654be30] ++
  [0xd192e819d6ef5218, 0xd69906245565a910, 0xf40e35855771202a, 0x106aa07032bbd1b8] ++
  [0x19a4c116b8d2d0c8, 0x1e376c085141ab53, 0x2748774cdf8eeb99, 0x34b0bcb5e19b48a8] ++
  [0x391c0cb3c5c95a63, 0x4ed8aa4ae3418acb, 0x5b9cca4f7763e373, 0x682e6ff3d6b2b8a3] ++
  [0x748f82ee5defb2fc, 0x78a5636f43172f60, 0x84c87814a1f0ab72, 0x8cc702081a6439ec] ++
  [0x90befffa23631e28, 0xa4506cebde82bde9, 0xbef9a3f7b2c67915, 0xc67178f2e372532b] ++
  [0xca273eceea26619c, 0xd186b8c721c0c207, 0xeada7dd6cde0eb1e, 0xf57d4f7fee6ed178] ++
  [0x6f067aa72176fba, 0xa637dc5a2c898a6, 0x113f9804bef90dae, 0x1b710b35131c471b] ++
  [0x28db77f523047d84, 0x32caab7b40c72493, 0x3c9ebe0a15c9bebc, 0x431d67c49c100d4c] ++
  [0x4cc5d4becb3e42b6, 0x597f299cfc657e2a, 0x5fcb6fab3ad6faec, 0x6c44198c4a475817]

/-- Initial hash value of SHA-256. -/
def sha256H : List Nat :=
  [0x6a09e667, 0xbb67ae85, 0x3c6ef372, 0xa54ff53a, 0x510e527f, 0x9b05688c, 0x1f83d9ab, 0x5be0cd19]

/-- Initial hash value of SHA-384. -/
def sha384H : List Nat :=
  [0xcbbb9d5dc1059ed8, 0x629a292a367cd507, 0x9159015a3070dd17, 0x152fecd8f70e5939] ++
  [0x67332667ffc00b31, 0x8eb44a8768581511, 0xdb0c2e0d64f98fa7, 0x47b5481dbefa4fa4]

/-- Initial hash value of SHA-512. -/
def sha512H : List Nat :=
  [0x6a09e667f3bcc908, 0xbb67ae8584caa73b, 0x3c6ef372fe94f82b, 0xa54ff53a5f1d36f1] ++
  [0x510e527fade682d1, 0x9b05688c2b3e6c1f, 0x1f83d9abfb41bd6b, 0x5be0cd19137e2179]

/-! ### AES -/

/-- A byte of the S-box. -/
def subByte (b : Byte) : Byte := BitVec.ofNat 8 (aesSbox.getD b.toNat 0)

/-- The inverse of the S-box. -/
def invSubByte (b : Byte) : Byte := BitVec.ofNat 8 (aesSbox.findIdx (· == b.toNat))

/-- Multiplication by x in the field of AES. -/
def xtime (b : Byte) : Byte := (b <<< (1 : Nat)) ^^^ (if b.getLsbD 7 then 0x1B else 0)

/-- Multiplication in the field of AES. -/
def gmul (a b : Byte) : Byte :=
  ((List.range 8).foldl (fun (p : Byte × Byte) i =>
    (if b.getLsbD i then p.1 ^^^ p.2 else p.1, xtime p.2)) (0, a)).1

/-- The words of the expanded key after `n` more words; `nk` words of key, `i` the next index. -/
def aesExpand (nk : Nat) : Nat → Nat → Byte → List Bytes → List Bytes
  | 0, _, _, ws => ws
  | n + 1, i, rc, ws =>
    let prev := ws.getD (i - 1) []
    let t :=
      if i % nk = 0 then xorBytes ((prev.drop 1 ++ prev.take 1).map subByte) [rc, 0, 0, 0]
      else if 6 < nk ∧ i % nk = 4 then prev.map subByte
      else prev
    aesExpand nk n (i + 1) (if i % nk = 0 then xtime rc else rc) (ws ++ [xorBytes (ws.getD (i - nk) []) t])

/-- A byte string cut into pieces of `k` bytes; `fuel` bounds their number. -/
def chunksOf (k : Nat) : Nat → Bytes → List Bytes
  | 0, _ => []
  | fuel + 1, bs => if bs.isEmpty then [] else bs.take k :: chunksOf k fuel (bs.drop k)

/-- Pieces of `k` bytes, the last possibly shorter. -/
def pieces (k : Nat) (bs : Bytes) : List Bytes := chunksOf k (bs.length + 1) bs

/-- The round keys, 16 bytes each: 11 for a 16-byte key, 15 for a 32-byte key. -/
def aesKeys (key : Bytes) : List Bytes :=
  let nk := key.length / 4
  let total := 4 * (nk + 7)
  pieces 16 (aesExpand nk (total - nk) nk 1 (pieces 4 key)).flatten

/-- Byte `i` of a state after ShiftRows comes from this index. -/
def shiftFrom (i : Nat) : Nat := (i + 4 * (i % 4)) % 16
/-- Byte `i` of a state after the inverse of ShiftRows comes from this index. -/
def unshiftFrom (i : Nat) : Nat := (i + 16 - 4 * (i % 4)) % 16

/-- A permutation of 16 bytes. -/
def permute (f : Nat → Nat) (s : Bytes) : Bytes := (List.range 16).map fun i => s.getD (f i) 0

/-- MixColumns with the coefficients `c` of a row. -/
def mixCols (c : List Byte) (s : Bytes) : Bytes :=
  (List.range 16).map fun i =>
    (List.range 4).foldl (fun acc k => acc ^^^ gmul (s.getD (i - i % 4 + k) 0) (c.getD ((k + 4 - i % 4) % 4) 0)) 0

/-- Encrypt a 16-byte block. -/
def aesEnc (key block : Bytes) : Bytes :=
  let ks := aesKeys key
  let s0 := xorBytes block (ks.headD [])
  let mid := (ks.drop 1).dropLast
  let s1 := mid.foldl (fun s k => xorBytes (mixCols [2, 3, 1, 1] (permute shiftFrom (s.map subByte))) k) s0
  xorBytes (permute shiftFrom (s1.map subByte)) (ks.getLastD [])

/-- Decrypt a 16-byte block. -/
def aesDec (key block : Bytes) : Bytes :=
  let ks := (aesKeys key).reverse
  let s0 := xorBytes block (ks.headD [])
  let mid := (ks.drop 1).dropLast
  let s1 := mid.foldl (fun s k =>
    mixCols [14, 11, 13, 9] (xorBytes ((permute unshiftFrom s).map invSubByte) k)) s0
  xorBytes ((permute unshiftFrom s1).map invSubByte) (ks.getLastD [])

/-- ECB over whole blocks. -/
def aesEcb (enc : Bool) (key data : Bytes) : Bytes :=
  (pieces 16 data).flatMap fun b => if enc then aesEnc key b else aesDec key b

/-- CBC over whole blocks from chaining value `iv`: the output and the next chaining value. -/
def aesCbc (enc : Bool) (key iv data : Bytes) : Bytes × Bytes :=
  (pieces 16 data).foldl (fun (p : Bytes × Bytes) b =>
    if enc then
      let c := aesEnc key (xorBytes b p.2)
      (p.1 ++ c, c)
    else (p.1 ++ xorBytes (aesDec key b) p.2, b)) ([], iv)

/-- The counter block after `k` steps of its last 32 bits (R246). -/
def ctrStep (ctr : Bytes) (k : Nat) : Bytes := ctr.take 12 ++ beBytes 4 (beNat (ctr.drop 12) + k)

/-- CTR from counter block `ctr`: the output and the next counter block. -/
def aesCtr (key ctr data : Bytes) : Bytes × Bytes :=
  (pieces 16 data).foldl (fun (p : Bytes × Bytes) b => (p.1 ++ xorBytes b (aesEnc key p.2), ctrStep p.2 1)) ([], ctr)

/-- Multiplication in the field of GHASH, blocks as numbers with the first bit the most significant. -/
def ghashMul (x y : Nat) : Nat :=
  ((List.range 128).foldl (fun (p : Nat × Nat) i =>
    (if x.testBit (127 - i) then p.1 ^^^ p.2 else p.1,
      if p.2 % 2 = 1 then (p.2 / 2) ^^^ (0xE1 <<< 120) else p.2 / 2)) (0, y)).1

/-- GHASH over bytes padded with zeros to whole blocks, from accumulator `y`. -/
def ghash (h y : Nat) (bs : Bytes) : Nat :=
  (pieces 16 bs).foldl (fun acc b => ghashMul (acc ^^^ beNat (padTo 16 b)) h) y

/-- The hash subkey of a key. -/
def ghashKey (key : Bytes) : Nat := beNat (aesEnc key (List.replicate 16 0))

/-- The GCM tag over additional data and ciphertext under a 96-bit initialisation vector. -/
def gcmTag (key iv aad ct : Bytes) : Bytes :=
  let h := ghashKey key
  let s := ghash h (ghash h (ghash h 0 aad) ct) (beBytes 8 (8 * aad.length) ++ beBytes 8 (8 * ct.length))
  xorBytes (beBytes 16 s) (aesEnc key (iv ++ [0, 0, 0, 1]))

/-- GCM encryption and decryption of the data alone. -/
def gcmCrypt (key iv data : Bytes) : Bytes := (aesCtr key (iv ++ [0, 0, 0, 2]) data).1

/-- GMAC: the GCM tag over additional data only. -/
def gmac (key iv msg : Bytes) : Bytes := gcmTag key iv msg []

/-! ### SHA-2 and HMAC -/

/-- A member of the SHA-2 family. -/
inductive Sha where
  | s256
  | s384
  | s512
  deriving DecidableEq, Repr

def Sha.width (s : Sha) : Nat := match s with | .s256 => 32 | _ => 64
/-- Block size in bytes. -/
def Sha.block (s : Sha) : Nat := match s with | .s256 => 64 | _ => 128
/-- Digest length in bytes. -/
def Sha.size (s : Sha) : Nat := match s with | .s256 => 32 | .s384 => 48 | .s512 => 64
def Sha.init (s : Sha) : List Nat := match s with | .s256 => sha256H | .s384 => sha384H | .s512 => sha512H
def Sha.consts (s : Sha) : List Nat := match s with | .s256 => sha256K | _ => sha512K

/-- Rotation to the right of a `w`-bit number. -/
def rotr (w x n : Nat) : Nat := (x >>> n) ||| ((x <<< (w - n)) % 2 ^ w)

/-- The rotations and shift of the two message functions and the two round functions. -/
def Sha.rots (s : Sha) : List (List Nat) :=
  match s with
  | .s256 => [[7, 18, 3], [17, 19, 10], [2, 13, 22], [6, 11, 25]]
  | _ => [[1, 8, 7], [19, 61, 6], [28, 34, 39], [14, 18, 41]]

/-- A message function (rotate, rotate, shift) or a round function (three rotations). -/
def Sha.mix (s : Sha) (k : Nat) (shift : Bool) (x : Nat) : Nat :=
  let r := s.rots.getD k []
  let w := s.width
  rotr w x (r.getD 0 0) ^^^ rotr w x (r.getD 1 0) ^^^ (if shift then x >>> r.getD 2 0 else rotr w x (r.getD 2 0))

/-- Extend the message schedule by `n` words. -/
def Sha.schedule (s : Sha) : Nat → List Nat → List Nat
  | 0, ws => ws
  | n + 1, ws =>
    let i := ws.length
    let v := s.mix 1 true (ws.getD (i - 2) 0) + ws.getD (i - 7) 0 + s.mix 0 true (ws.getD (i - 15) 0) + ws.getD (i - 16) 0
    s.schedule n (ws ++ [v % 2 ^ s.width])

/-- One round on the working variables a to h. -/
def Sha.round (s : Sha) (v : List Nat) (kw : Nat) : List Nat :=
  let m := 2 ^ s.width
  let g (i : Nat) := v.getD i 0
  let ch := (g 4 &&& g 5) ^^^ ((m - 1 - g 4) &&& g 6)
  let t1 := g 7 + s.mix 3 false (g 4) + ch + kw
  let maj := (g 0 &&& g 1) ^^^ (g 0 &&& g 2) ^^^ (g 1 &&& g 2)
  let t2 := s.mix 2 false (g 0) + maj
  [(t1 + t2) % m, g 0, g 1, g 2, (g 3 + t1) % m, g 4, g 5, g 6]

/-- The hash value after one block. -/
def Sha.compress (s : Sha) (h : List Nat) (block : Bytes) : List Nat :=
  let ws := s.schedule (s.consts.length - 16) ((pieces (s.width / 8) block).map beNat)
  let v := (List.zipWith (· + ·) s.consts ws).foldl s.round h
  List.zipWith (fun a b => (a + b) % 2 ^ s.width) h v

/-- The hash value after whole blocks. -/
def Sha.update (s : Sha) (h : List Nat) (bs : Bytes) : List Nat := (pieces s.block bs).foldl s.compress h

/-- The padding of a message of `n` bytes. -/
def Sha.padding (s : Sha) (n : Nat) : Bytes :=
  let b := s.block
  let lenBytes := b / 8
  0x80 :: List.replicate ((2 * b - 1 - lenBytes - n % b) % b) 0 ++ beBytes lenBytes (8 * n)

/-- The digest, from the hash value after the whole blocks of all but `tail`, for a message of `total` bytes. -/
def Sha.final (s : Sha) (h : List Nat) (tail : Bytes) (total : Nat) : Bytes :=
  ((s.update h (tail ++ s.padding total)).flatMap fun x => beBytes (s.width / 8) x).take s.size

/-- The digest of a message. -/
def Sha.hash (s : Sha) (msg : Bytes) : Bytes := s.final s.init msg msg.length

/-- The HMAC key of one block. -/
def Sha.hmacKey (s : Sha) (key : Bytes) : Bytes := padTo s.block (if s.block < key.length then s.hash key else key)

def Sha.hmacPad (s : Sha) (key : Bytes) (pad : Byte) : Bytes := (s.hmacKey key).map (· ^^^ pad)

/-- The inner hash value after the key's block. -/
def Sha.hmacInit (s : Sha) (key : Bytes) : List Nat := s.update s.init (s.hmacPad key 0x36)

/-- The outer hash of HMAC over the inner digest. -/
def Sha.hmacOuter (s : Sha) (key inner : Bytes) : Bytes := s.hash (s.hmacPad key 0x5C ++ inner)

/-- HMAC of a message. -/
def Sha.hmac (s : Sha) (key msg : Bytes) : Bytes :=
  s.hmacOuter key (s.hash (s.hmacPad key 0x36 ++ msg))

/-! ### Modular arithmetic and elliptic curves -/

/-- `b ^ e mod m` by squaring; `fuel` bounds the bits of `e`. -/
def powMod (m : Nat) : Nat → Nat → Nat → Nat
  | 0, _, _ => 1 % m
  | fuel + 1, b, e =>
    if e = 0 then 1 % m
    else
      let h := powMod m fuel (b * b % m) (e / 2)
      if e % 2 = 1 then h * b % m else h

/-- Modular exponentiation. -/
def modExp (b e m : Nat) : Nat := powMod m (Nat.log2 e + 2) (b % m) e

/-- Inverse modulo a prime. -/
def invMod (p x : Nat) : Nat := modExp x (p - 2) p

/-- A short Weierstrass curve with a = -3. -/
structure Curve where
  p : Nat
  b : Nat
  n : Nat
  gx : Nat
  gy : Nat
  /-- bytes of a coordinate -/
  len : Nat

def p256 : Curve where
  p := 0xffffffff00000001000000000000000000000000ffffffffffffffffffffffff
  b := 0x5ac635d8aa3a93e7b3ebbd55769886bc651d06b0cc53b0f63bce3c3e27d2604b
  n := 0xffffffff00000000ffffffffffffffffbce6faada7179e84f3b9cac2fc632551
  gx := 0x6b17d1f2e12c4247f8bce6e563a440f277037d812deb33a0f4a13945d898c296
  gy := 0x4fe342e2fe1a7f9b8ee7eb4a7c0f9e162bce33576b315ececbb6406837bf51f5
  len := 32

def p384 : Curve where
  p := 0xfffffffffffffffffffffffffffffffffffffffffffffffffffffffffffffffeffffffff0000000000000000ffffffff
  b := 0xb3312fa7e23ee7e4988e056be3f82d19181d9c6efe8141120314088f5013875ac656398d8a2ed19d2a85c8edd3ec2aef
  n := 0xffffffffffffffffffffffffffffffffffffffffffffffffc7634d81f4372ddf581a0db248b0a77aecec196accc52973
  gx := 0xaa87ca22be8b05378eb1c71ef320ad746e1d3b628ba79b9859f741e082542a385502f25dbf55296c3a545e3872760ab7
  gy := 0x3617de4a96262c6f5d9e98bf9292dc29f8f41dbd289a147ce9da3113b5f0b8c00a60b1ce1d7e819d7a431d7c90ea0e5f
  len := 48

/-- A point of a curve; none is the point at infinity. -/
abbrev Pt := Option (Nat × Nat)

def Curve.onCurve (c : Curve) (x y : Nat) : Bool :=
  decide (x < c.p) && decide (y < c.p) && y * y % c.p == (x * x * x + (c.p - 3) * x + c.b) % c.p

/-- Sum of two points. -/
def Curve.add (c : Curve) (a b : Pt) : Pt :=
  match a, b with
  | none, q => q
  | q, none => q
  | some (x1, y1), some (x2, y2) =>
    if x1 = x2 ∧ (y1 + y2) % c.p = 0 then none
    else
      let l :=
        if x1 = x2 then (3 * x1 * x1 + (c.p - 3)) * invMod c.p (2 * y1 % c.p) % c.p
        else (y2 + c.p - y1) * invMod c.p ((x2 + c.p - x1) % c.p) % c.p
      let x3 := (l * l + 2 * c.p - x1 - x2) % c.p
      some (x3, (l * (x1 + c.p - x3) + c.p - y1) % c.p)

/-- Scalar multiple of a point by double and add; `fuel` bounds the bits. -/
def Curve.mul (c : Curve) : Nat → Nat → Pt → Pt
  | 0, _, _ => none
  | fuel + 1, k, q =>
    if k = 0 then none
    else
      let h := c.mul fuel (k / 2) (c.add q q)
      if k % 2 = 1 then c.add h q else h

def Curve.scalar (c : Curve) (k : Nat) (q : Pt) : Pt := c.mul (8 * c.len + 1) k q

/-- The public point of a private scalar, as Qx then Qy. -/
def Curve.public (c : Curve) (d : Nat) : Bytes :=
  match c.scalar d (some (c.gx, c.gy)) with
  | some (x, y) => beBytes c.len x ++ beBytes c.len y
  | none => List.replicate (2 * c.len) 0

/-- A hash value truncated to the length of the order. -/
def Curve.hashNum (c : Curve) (h : Bytes) : Nat := beNat (h.take c.len)

/-- ECDSA signature, r then s, of a hash value with private key `d` and per-signature secret `k`. -/
def Curve.sign (c : Curve) (d k : Nat) (h : Bytes) : Bytes :=
  match c.scalar k (some (c.gx, c.gy)) with
  | some (x, _) =>
    let r := x % c.n
    beBytes c.len r ++ beBytes c.len (invMod c.n k * (c.hashNum h + r * d) % c.n)
  | none => List.replicate (2 * c.len) 0

/-- Does a signature verify? -/
def Curve.verify (c : Curve) (qx qy r s : Nat) (h : Bytes) : Bool :=
  let w := invMod c.n s
  let u1 := c.hashNum h * w % c.n
  let u2 := r * w % c.n
  match c.add (c.scalar u1 (some (c.gx, c.gy))) (c.scalar u2 (some (qx, qy))) with
  | some (x, _) => x % c.n == r % c.n
  | none => false

/-- A private scalar or per-signature secret from random bytes, from 1 to the order less one. -/
def Curve.secret (c : Curve) (random : Bytes) : Nat := beNat random % (c.n - 1) + 1

end Sys2Proof.Machine
end

