-- ==== Sys2Proof/Machine/State.lean ====
section
/-! DEFINITION. The state of the VC4820: everything the spec gives the block, as plain data, the queue of waiting
commands, and the state right after the AON domain first powers up. Registers that live on the bus are one sparse list
keyed by bus address (`Dev.regs`); what a block keeps beside its registers has a structure of its own. -/
namespace Sys2Proof.Machine

/-! ### The Enuth core (R159 to R196) -/

/-- A delay slot that executes next: the branch it belongs to and where execution goes after it (R177, R212). -/
structure Slot where
  branch : Word
  target : Word
  deriving DecidableEq, Repr

/-- The core's own registers. -/
structure Core where
  /-- general registers w0 to w31 (R159) -/
  regs : Vector Word 32
  /-- poison bit of each general register (R160) -/
  poison : BitVec 32
  pc : Word
  cst : Word
  mode : Word
  prog : Word
  pacc : Word
  /-- the poison mark PACC carries (R190) -/
  paccPoison : Bool
  ls : Vector Word 2
  le : Vector Word 2
  lc : Vector Word 2
  epc : Word
  etgt : Word
  ecause : Word
  eaddr : Word
  spc : Word
  sst : Word
  sysent : Word
  extb : Word
  estk : Word
  slim : Vector Word 4
  ssp : Vector Word 4
  /-- CORE cycles since core reset (R163) -/
  cycle : BitVec 64
  /-- the part of a CORE cycle that idle time has added, in thousandths (R18, R163) -/
  cyclePart : Nat
  /-- CYCLE_HI as latched for each privilege level (R163) -/
  cycleLatch : Vector (Option Word) 3
  /-- the next instruction is a delay slot -/
  slot : Option Slot
  /-- a MODE value whose shadow instruction is next (R166) -/
  shadow : Option Word
  /-- stopped in WAIT (R192) -/
  waiting : Bool
  /-- stopped by lockup or by a masked core fault (R206, R392) -/
  stopped : Bool
  /-- out of reset: the fills before its release have ended (R281) -/
  released : Bool
  deriving DecidableEq, Repr

/-- The core after a core reset (R161, R162), before its release. -/
def Core.reset : Core where
  regs := Vector.replicate 32 0
  poison := 0
  pc := 0
  cst := 0xF2
  mode := 0
  prog := 0
  pacc := 0
  paccPoison := false
  ls := Vector.replicate 2 0
  le := Vector.replicate 2 0
  lc := Vector.replicate 2 0
  epc := 0
  etgt := 0
  ecause := 0
  eaddr := 0
  spc := 0
  sst := 0
  sysent := 0
  extb := 0
  estk := 0
  slim := Vector.replicate 4 0
  ssp := Vector.replicate 4 0
  cycle := 0
  cyclePart := 0
  cycleLatch := Vector.replicate 3 none
  slot := none
  shadow := none
  waiting := false
  stopped := false
  released := false

/-- An entry of the store buffer (R193). -/
structure Store where
  addr : Nat
  /-- 1, 2 or 4 bytes -/
  size : Nat
  data : Word
  /-- poison mark of each byte -/
  poison : BitVec 4
  master : Master
  epoch : BitVec 4
  deriving DecidableEq, Repr

/-- A pending IMPRECISE_STORE (R217). -/
structure ImpStore where
  addr : Nat
  detail : Nat
  multi : Bool
  deriving DecidableEq, Repr

/-! ### What the block senses -/

/-- Levels sensed at the pins and inside the package, in mV, and Tj in half degrees (R355 to R368, R390, R443). -/
structure Env where
  vddCore : Nat
  vddSd : Nat
  vddIo0 : Nat
  vddIo1 : Nat
  vddIo2 : Nat
  vhold : Nat
  vbat : Nat
  voc : Nat
  tj : Int
  carrier : Bool
  test0Bad : Bool
  /-- raw bits that the noise source gives next (R258), eight to a byte; behind them they are free (log entry 3) -/
  noise : Bytes
  deriving DecidableEq, Repr

/-! ### Events (R377 to R385) -/

/-- An event request in its source's queue (R377, R381). -/
structure EvReq where
  src : Nat
  code : Nat
  cls : Nat
  arg0 : Word
  arg1 : Word
  /-- when the happening occurred, for the coalescing window -/
  since : Nat
  /-- the time unit's seconds and nanoseconds then, none with PUMP off (R382) -/
  time : Option (Nat × Nat)
  deriving DecidableEq, Repr

/-- The open record of a source (R383). -/
structure OpenRec where
  src : Nat
  code : Nat
  cls : Nat
  arg0 : Word
  arg1 : Word
  esn : Nat
  len : Nat
  /-- index of the ring slot reserved, none where ring 6 keeps nothing -/
  slot : Option Nat
  opened : Nat
  /-- PTP seconds and nanoseconds at the first occurrence, none with PUMP off (R382) -/
  time : Option (Nat × Nat)
  deriving DecidableEq, Repr

/-- The event issuer (R377, R383). -/
structure Evt where
  /-- the 48-bit ESN count -/
  esn : Nat
  queue : List EvReq
  open_ : List OpenRec
  /-- ESN of the latest event of entry into PASSIVE_READ or HOST (R330) -/
  entryEsn : Nat
  deriving DecidableEq, Repr

/-! ### Memory integrity (R271 to R294) -/

/-- A byte waiting for its correction write-back (R276). -/
structure WriteBack where
  addr : Nat
  data : Byte
  /-- the byte was uncorrectable: the poison pattern goes back -/
  poison : Bool
  deriving DecidableEq, Repr

/-- A correction offered to the repeat tracker (R285). -/
structure Offer where
  /-- word address, or page base address -/
  addr : Nat
  nvm : Bool
  src : Nat
  /-- bits corrected in the page -/
  bits : Nat
  deriving DecidableEq, Repr

/-- A row copy in progress (R286). -/
structure RowCopy where
  bank : Nat
  row : Nat
  /-- the tracker entry that asked for it, none for a command -/
  entry : Option Nat
  deriving DecidableEq, Repr

/-- What the memory-integrity block keeps beside its registers. -/
structure Integ where
  writeBack : List WriteBack
  offers : List Offer
  /-- rows served from a spare: bank and row (R286) -/
  remapped : List (Nat × Nat)
  copying : List RowCopy
  /-- age of each tracker entry, oldest smallest (R285) -/
  trkAge : List (Nat × Nat)
  trkClock : Nat
  /-- tracker entries whose want of a spare row has been reported (R287) -/
  told : List Nat
  /-- Buckets rows that a command named and that wait until nothing occupies them (R287, R288) -/
  deferred : List Nat
  /-- next block of the Dredge pass (R292) -/
  drgNext : Nat
  /-- the pass ends at its next block (R293) -/
  drgAbort : Bool
  deriving DecidableEq, Repr

/-! ### Ports and lanes (R42 to R79) -/

/-- Where a port stands in link start-up (R43). -/
inductive LinkStep where
  | off
  | serdes
  | pcs
  | autoneg
  | held
  | up
  deriving DecidableEq, Repr

/-- A port beside its registers. -/
structure Link where
  step : LinkStep
  /-- its ON bit was cleared and it waits for both directions to be between frames (R17) -/
  offPending : Bool
  /-- the ACT ball is driven low (R422) -/
  act : Bool
  /-- time of the latest frame received or sent on the port (R422) -/
  actAt : Nat
  /-- time at which the present step of link start-up began (R43) -/
  stepAt : Nat
  /-- time at which the latest frame received ends (R17) -/
  rxUntil : Nat
  deriving DecidableEq, Repr

/-- What a frame's verdict leaves to be written (R54). -/
structure Pending where
  /-- epoch slot whose value matched -/
  slot : Option Bool
  /-- counter fields of a frame that is placed in the window: stNum and sqNum, or smpCnt and 0 -/
  seq : Option (Nat × Nat)
  /-- continuity classes flagged (R106) -/
  classes : Nat
  /-- samples or sqNum values lost (R106, GAP) -/
  lost : Nat
  deriving DecidableEq, Repr

/-- Where a frame is on its way (R46 to R66). -/
inductive Stage where
  /-- in the input buffer, before egress -/
  | input
  /-- in the hold partition, or released by the rule for held frames -/
  | held
  /-- in egress -/
  | egress
  /-- in the restart reserve (R70) -/
  | reserve
  /-- written to a divert slot, waiting for its descriptor (R53) -/
  | divert
  deriving DecidableEq, Repr

/-- A frame in a lane. -/
structure Frame where
  /-- arrival number in the lane -/
  n : Nat
  rx : RxFrame
  /-- ingress timestamp, PTP seconds and nanoseconds (R146) -/
  ts : Nat × Nat
  looked : Bool
  /-- taken by the management function (R49) -/
  mgmt : Bool
  stream : Option (Fin 1024)
  /-- action code of R52 in force for the frame -/
  action : Nat
  ring : Nat
  /-- the frame is verified (R53) -/
  verify : Bool
  /-- GUARD_CFG and TIME_CFG as read at lookup (R82) -/
  guard : Word
  timeCfg : Word
  /-- epoch slots eligible at lookup (R94) -/
  elig0 : Bool
  elig1 : Bool
  /-- epoch slot chosen for tagging, whose count the frame reserved (R96) -/
  tagSlot : Option Bool
  failed : Option FailKind
  /-- the failure of a diverted frame has been counted and reported -/
  reported : Bool
  /-- the verdict is formed (R57) -/
  verdict : Bool
  pend : Option Pending
  /-- RESET_GUARD came while it was in flight: its update changes statistics only (R88) -/
  statsOnly : Bool
  stage : Stage
  /-- Buckets slot: hold or divert -/
  slot : Option Nat
  /-- divert slot of its PTP copy (R148) -/
  copy : Option Nat
  /-- its scheduled start found the egress busy (R65) -/
  waited : Bool
  /-- processed under the hold rules: store-and-forward or catch-up (R56, R71) -/
  asHeld : Bool
  /-- the frame was counted in MISMATCH and is not yet finally disposed of (R70, R108) -/
  mismatched : Bool
  /-- check bits of its bytes in the input buffer by position, as their difference from what was written (R46, R272, log
  entry 56) -/
  chk : List (Nat × BitVec 5)
  deriving DecidableEq, Repr

/-- An entry of a lane's key cache (R99): the CE slot, the algorithm it is bound to (1 HMAC, 2 GMAC-128, 4 GMAC-256),
the number of epochs that name it, and the key its schedule comes from. -/
structure CacheEntry where
  slot : Fin 64
  alg : Nat
  count : Nat
  key : Bytes
  deriving DecidableEq, Repr

/-- A lane beside its registers. -/
structure LaneSt where
  arrivals : Nat
  frames : List Frame
  /-- live counters 0 to 30 of R78 -/
  counters : Vector (BitVec 64) 31
  cache : List CacheEntry
  /-- times of the mismatches of the last 60 s (R74) -/
  mismatches : List Nat
  /-- the lane admits frames (R47) -/
  open_ : Bool
  /-- the lane's own restart waits for the other lane (R75) -/
  waitRestart : Bool
  /-- store-and-forward mode is in force (R56) -/
  saf : Bool
  deriving DecidableEq, Repr

def LaneSt.reset : LaneSt where
  arrivals := 0
  frames := []
  counters := Vector.replicate 31 0
  cache := []
  mismatches := []
  open_ := false
  waitRestart := false
  saf := false

/-- Where the frame in egress comes from. -/
inductive EgSrc where
  | lane (l : Lane) (n : Nat)
  /-- staged from a transmit ring -/
  | ring (r : Nat)
  /-- stomped by a lane mismatch; the frame itself is in the restart reserve (R70) -/
  | orphan
  deriving DecidableEq, Repr

/-- A code group handed to the transmit PCS (R60, R61): a byte, /V/, /T/ or /R/. -/
inductive CodeGroup where
  | data (b : Byte)
  | v
  | t
  | r
  deriving DecidableEq, Repr

/-- What an egress is sending (R65). -/
structure Egress where
  src : EgSrc
  /-- the bytes that leave: the frame's, or those of the stomped frame with the /V/ position as zero (R60) -/
  bytes : Bytes
  /-- stomp position, once stomped (R60) -/
  stomp : Option Nat
  /-- the code groups that end a stomped frame, from the stomp position on (R61) -/
  tail : List CodeGroup
  /-- the port went down while it was in egress (R65) -/
  lost : Bool
  /-- egress timestamp (R146) -/
  ts : Nat × Nat
  deriving DecidableEq, Repr


/-! ### Rings, staging and Windlass channels (R110 to R141) -/

/-- What a reserved ring slot is for. -/
inductive EntryKind where
  /-- a diverted frame, or a management frame -/
  | frame (l : Lane) (n : Nat)
  /-- a PTP copy (R148) -/
  | copy (n : Nat)
  /-- the open record of an event source (R383) -/
  | event (src : Nat)
  | lost
  deriving DecidableEq, Repr

/-- A reserved slot of a FROM_DEVICE ring (R125). -/
structure RingEntry where
  kind : EntryKind
  /-- ESN issued at the reservation (R131) -/
  esn : Nat
  /-- Buckets slot behind the entry -/
  bucket : Option Nat
  /-- words 0 to 7 once the entry is complete -/
  words : Option (List Word)
  /-- they are in memory; PROD has not passed the slot yet (R125) -/
  written : Bool
  deriving DecidableEq, Repr

/-- A ring beside its registers: reserved slots in order from index PROD, the Buckets slots behind posted indices, and the
first and last ESN of the entries lost (R125, R129, R130). -/
structure RingHw where
  reserved : List RingEntry
  held : List (Nat × Nat)
  lostFirst : Nat
  lostLast : Nat
  deriving DecidableEq, Repr

def RingHw.empty : RingHw := ⟨[], [], 0, 0⟩

/-- A TO_DEVICE descriptor in progress on a channel (R124, R132). -/
structure DescJob where
  ring : Nat
  index : Nat
  /-- words 0 to 7 as read -/
  words : List Word
  /-- the energy gauge has granted the descriptor (R140) -/
  granted : Bool
  /-- when it was first asked for -/
  since : Nat
  /-- bytes moved -/
  moved : Nat
  /-- CRC-32C state over the bytes read -/
  crc : Nat
  /-- a byte read carried poison -/
  poison : Bool
  /-- bytes read into the staging buffer -/
  buf : Bytes
  deriving DecidableEq, Repr

/-- A Windlass channel: its descriptor in progress, and the ring it served last (R132). -/
structure Chan where
  job : Option DescJob
  lastRing : Nat
  deriving DecidableEq, Repr

/-- A frame in an egress staging buffer (R137): its ring and index, its descriptor's words, and its bytes without FCS. -/
structure Staged where
  ring : Nat
  index : Nat
  words : List Word
  bytes : Bytes
  deriving DecidableEq, Repr

/-- The Pumphouse key command that executes (R98): its inputs as taken with the write. -/
structure KeyCmd where
  op : Nat
  alg : Nat
  slot : Fin 64
  stream : Fin 1024
  keyId : Word
  swSec : Nat
  swNs : Nat
  deriving DecidableEq, Repr

/-- A frame's place in the restart reserve (R114): lane, arrival number, offset of its header and bytes stored. -/
structure RsvEntry where
  lane : Lane
  n : Nat
  off : Nat
  len : Nat
  deriving DecidableEq, Repr


/-! ### Time unit (R142 to R157) -/

/-- The time unit beside its registers. -/
structure TimeUnit where
  /-- 48-bit PTP seconds -/
  sec : Nat
  /-- nanoseconds, 0 to 999,999,999 -/
  ns : Nat
  /-- 32-bit fraction of a nanosecond -/
  frac : Nat
  /-- PUMP edges since the PUMP domain's reset (R100) -/
  edges : Nat
  /-- PPS_OUT is active (R156) -/
  ppsOut : Bool
  /-- the PUMP edge on which the pulse ends (R156) -/
  ppsEnd : Nat
  /-- time of the latest edge taken at PPS_IN (R157) -/
  ppsInAt : Option Nat
  /-- time of the latest servo update, or of the lock's declaration if that is later (R153) -/
  servoAt : Nat
  /-- time of entry to HOLDOVER (R153) -/
  holdAt : Nat
  deriving DecidableEq, Repr


/-! ### Key slots (R250, R261, R262, R268) -/

/-- A key slot of keep-RAM. -/
structure KeySlot where
  /-- TYPE of R261; 0 is EMPTY -/
  typ : Nat
  key : Bytes
  usage : Nat
  /-- created by GENERATE -/
  origin : Bool
  fixed : Word
  inv : Nat
  damaged : Bool
  /-- check bits of the slot's bytes by place, as their difference from the computed ones (R271, R272): key bytes from 0, the
  header from 64, FIXED from 68 and INV from 72 (log entry 56) -/
  chk : List (Nat × BitVec 5)
  deriving DecidableEq, Repr

def KeySlot.empty : KeySlot := ⟨0, [], 0, false, 0, 0, false, []⟩


/-! ### Crypto engine pages (R244 to R259) -/

/-- Running state of a page between and within jobs (R244, R248). -/
structure CeRun where
  op : Nat
  dir : Nat
  slot : Nat
  /-- chaining value of CBC, or the next counter block of CTR and GCM -/
  chain : Bytes
  /-- GHASH accumulator -/
  gh : Nat
  /-- hash value after whole blocks, and the bytes behind them -/
  hash : List Nat
  tail : Bytes
  /-- bytes hashed so far, the key's block of an HMAC among them -/
  total : Nat
  /-- the last 32 bits of the counter block have passed their end (R246) -/
  wrapped : Bool
  deriving DecidableEq, Repr

/-- A page's job, with its inputs as taken at START. -/
structure CeJob where
  op : Nat
  dir : Nat
  part : Nat
  slot : Nat
  tagLen : Nat
  src : Nat
  dst : Nat
  len : Nat
  aad : Nat
  /-- IV0 to IV3 and TAG0 to TAG3 at START -/
  iv : Bytes
  tag : Bytes
  /-- order of STARTs and key commands (R249, R259) -/
  order : Nat
  /-- NPOL of the page at START (R250) -/
  npol : Bool
  /-- random bytes that it still waits for, and those that it has drawn -/
  want : Nat
  rnd : Bytes
  /-- it has passed every check and taken its invocation value (R247, R251) -/
  begun : Bool
  /-- the gauge has granted its next step (R268) -/
  granted : Bool
  /-- since when the gauge refuses its next step -/
  short : Option Nat
  /-- steps of the public-key engine that are done (R257, R268) -/
  steps : Nat
  run : CeRun
  /-- input bytes done, and output bytes written -/
  pos : Nat
  written : Nat
  /-- its last step is done: status and failing address -/
  ended : Option (Nat × Option Nat)
  abort : Bool
  /-- the page was switched off while it ran (R245) -/
  closing : Bool
  deriving DecidableEq, Repr

structure CePage where
  job : Option CeJob
  /-- running state between the parts of a sequence (R248) -/
  run : Option CeRun
  deriving DecidableEq, Repr

/-- The key command that executes, with its inputs as taken (R263). -/
structure CeKeyCmd where
  op : Nat
  kek : Nat
  slot : Nat
  addr : Nat
  plen : Nat
  typ : Nat
  usage : Nat
  fixed : Word
  order : Nat
  want : Nat
  rnd : Bytes
  /-- steps of the public-key engine that are done (R257, R268) -/
  steps : Nat
  deriving DecidableEq, Repr

/-- The state of the CTR_DRBG (R258). -/
structure Drbg where
  key : Bytes
  v : Bytes
  deriving DecidableEq, Repr

def Drbg.zero : Drbg := ⟨List.replicate 32 0, List.replicate 16 0⟩

/-- The two health tests (R258): the latest raw bit and how often it has repeated, none before the first; first bit, bits
equal to it and bits seen of the adaptive proportion test's window. -/
structure Health where
  last : Option Bool
  run : Nat
  first : Bool
  same : Nat
  seen : Nat
  deriving DecidableEq, Repr

def Health.start : Health := ⟨none, 0, false, 0, 0⟩

/-- The crypto engine beside its registers. -/
structure Ce where
  pages : Vector CePage 16
  key : Option CeKeyCmd
  order : Nat
  /-- a reseed runs; generate requests since the last one; it ended for a request that waits (R259) -/
  reseeding : Bool
  requests : Nat
  fresh : Bool
  drbg : Drbg
  health : Health
  /-- pages that the AES and the hash engine served last (R249) -/
  lastAes : Nat
  lastHash : Nat
  deriving DecidableEq, Repr

def Ce.reset : Ce := ⟨Vector.replicate 16 ⟨none, none⟩, none, 0, false, 0, false, Drbg.zero, Health.start, 15, 15⟩


/-! ### Cistern controller (R296 to R325) -/

/-- A journal intent (R313): what its twelve data bytes hold (log entry 10). -/
structure Intent where
  /-- 1 WRITE_PARAM, 2 ERASE_PARAM, 3 CARRY, 4 ADVANCE, 5 REFRESH -/
  op : Nat
  /-- cells that the final burst of a carry or an advance programs -/
  low : Nat
  /-- the target page: the twin written, twin A erased, the high twin, or the page refreshed -/
  page : Nat
  /-- the second target page: twin B erased, the thermometer, or the refresh spare -/
  other : Nat
  /-- the new SEQ or H; for REFRESH the CRC-32C of the copied page -/
  word : Nat
  deriving DecidableEq, Repr

/-- A burst that waits for its grant (R317). -/
inductive CstBurst where
  | erase (page : Nat)
  /-- 64-bit words from a word index -/
  | program (word : Nat) (data : List (BitVec 64))
  /-- the next journal slot takes the intent -/
  | intent (i : Intent)
  /-- the next slot of a log ring: ring, type, data, repeat count -/
  | append (ring typ : Nat) (data : Bytes) (rep : Nat)
  /-- the LOST record of a log ring (R311) -/
  | lost (ring : Nat)
  /-- the alarm record held in AON, and the LOST record behind it (R395) -/
  | held
  | heldLost
  deriving DecidableEq, Repr

/-- A command of the port, with its inputs as taken (R324). -/
structure CstCmd where
  m : Master
  op : Nat
  target : Nat
  rtype : Nat
  arg : Nat
  val : Nat
  data : Bytes
  /-- a poisoned store reached CST_BUF_A -/
  poison : Bool
  /-- requests coalesced into this one (R311) -/
  rep : Nat
  deriving DecidableEq, Repr

/-- What a job is for. -/
inductive CstKind where
  | command
  /-- the power-up journal: OP and OUTCOME of CST_JRNL, and the outcome of the intent itself (R315) -/
  | journal (op outcome did : Nat)
  /-- refresh of a page through a spare -/
  | refresh (page : Nat) (spare : Option Nat)
  /-- what a command ended with ENERGY_SHORT had begun is resolved: OP and outcome (R319) -/
  | resolve (op outcome : Nat)
  /-- upkeep of the controller's own -/
  | tidy
  deriving DecidableEq, Repr

/-- The work in progress: bursts to come, the one that runs, and what its completion delivers. -/
structure CstJob where
  kind : CstKind
  bursts : List CstBurst
  running : Option CstBurst
  /-- a burst of it has ended -/
  begun : Bool
  /-- the gauge has refused its next burst, which was first asked for at `since` (R319); a running burst began there -/
  refused : Bool
  since : Nat
  seq : Option Nat
  esn : Option Nat
  val : Option Nat
  deriving DecidableEq, Repr

/-- A log ring as the controller found it (R308, R309). -/
structure CstRing where
  first : Nat
  count : Nat
  /-- head page within the ring and next slot in it -/
  head : Nat
  slot : Nat
  /-- newest SEQ -/
  seq : Nat
  /-- pages up to the head that hold records of this layout -/
  used : Nat
  lost : Nat
  lostFirst : Nat
  lostLast : Nat
  deriving DecidableEq, Repr

/-- The Cistern controller. -/
structure Cst where
  /-- the power-up journal has not run since ISLE powered up (R314) -/
  due : Bool
  /-- layout and BP have been loaded since ISLE powered up (R308, R322) -/
  laid : Bool
  job : Option CstJob
  /-- an accepted command that waits for a burst or a job to end -/
  waiting : Option CstCmd
  /-- APPEND_LOG requests (R311) -/
  queue : List CstCmd
  rings : List CstRing
  /-- journal: next slot and newest SEQ -/
  jSlot : Nat
  jSeq : Nat
  /-- alarm log: head page, next slot, newest SEQ, acknowledged SEQ -/
  aPage : Nat
  aSlot : Nat
  aSeq : Nat
  aAck : Nat
  /-- next refresh spare, 0 to 7 (R321), and next page of the margin scan (R320) -/
  spare : Nat
  scan : Nat
  /-- the port's owner has changed and the buffers are not cleared yet (R323) -/
  clearDue : Bool
  /-- a poisoned store reached CST_BUF_A since the last command -/
  poison : Bool
  deriving DecidableEq, Repr


/-! ### Contactless side (R326 to R354) -/

/-- A frame that the device is to send (R336). -/
inductive OutKind where
  /-- an answer outside the block protocol -/
  | plain
  /-- an I-block or an R(ACK), kept for retransmission -/
  | block
  /-- an ISO/IEC 15693 answer to 0xA0 or 0xA1: the APDU's response if it is ready then, else BUSY (R334) -/
  | poll
  deriving DecidableEq, Repr

structure OutFrame where
  kind : OutKind
  bytes : Bytes
  /-- a CRC follows the bytes -/
  crc : Bool
  /-- its transmission ends a command under secure messaging: n advances (R350) -/
  bump : Bool
  /-- it carries a whole response: the command has ended -/
  last : Bool
  deriving DecidableEq, Repr

/-- A command APDU in work, after secure messaging is removed (R342, R350). -/
structure Apdu where
  cla : Nat
  ins : Nat
  p1 : Nat
  p2 : Nat
  data : Bytes
  /-- most bytes of response data that the PCD takes -/
  le : Nat
  /-- it arrived under secure messaging -/
  secure : Bool
  deriving DecidableEq, Repr

/-- The session keys of the secure channel and their key number (R348, R349). -/
structure SecKeys where
  keyNo : Nat
  enc : Bytes
  mac : Bytes
  rndA : Bytes
  rndB : Bytes
  deriving DecidableEq, Repr

/-- A command that is with firmware (R351). -/
structure FwCmd where
  apdu : Apdu
  record : Bytes
  pos : Nat
  /-- when it was handed over (R352) -/
  since : Nat
  deriving DecidableEq, Repr

/-- Handpump and the contactless front end. -/
structure Hp where
  /-- parameters 5 and 6 have been read since ISLE powered up (R329) -/
  loaded : Bool
  /-- CE slots of channel keys 0 to 3, open-ring mask, CE slot of the UID key -/
  cfg5 : Bytes
  /-- the three bytes of parameter 6 -/
  cfg6 : Bytes
  /-- random part of the UID in use: R0 to R3 (R330) -/
  rnd : Bytes
  /-- cascade level in progress (R331) -/
  level : Nat
  /-- it was woken from HALT -/
  fromHalt : Bool
  cid : Nat
  fsd : Nat
  /-- current block number of the device -/
  bn : Bool
  /-- INF bytes of a chained command so far -/
  chain : Bytes
  /-- an I-block answered with S(WTX) until the READ tier or the alarm's end: its chaining bit and INF (R335, R353) -/
  held : Option (Bool × Bytes)
  /-- no block has come since activation: PPS is still possible -/
  fresh : Bool
  apdu : Option Apdu
  /-- Cistern access of the APDU: 0 none, 1 and 2 the read that is issued -/
  stage : Nat
  /-- claims of the port that were refused -/
  tries : Nat
  /-- response bytes that chaining still has to send -/
  rest : Bytes
  /-- response of an APDU carried over ISO/IEC 15693 (R334), and whether its transmission advances n -/
  result : Option (Bytes × Bool)
  out : Option OutFrame
  /-- the WTXM of an S(WTX) that is to be sent -/
  wtx : Option Nat
  /-- an S(WTX) has been sent and waits for its answer -/
  wtxOpen : Bool
  /-- S(WTX) blocks sent for the command -/
  wtxCount : Nat
  /-- start of the waiting timer (ns), WTXM_prev, and the WTXM sent last (R338) -/
  wtxAt : Nat
  wtxPrev : Nat
  wtxSent : Nat
  /-- the gauge has granted the frame -/
  granted : Bool
  /-- the gauge has refused the frame that is ready -/
  refused : Bool
  /-- block of the protocol that was sent last -/
  lastBlock : Bytes
  /-- frame that left the antenna last -/
  sent : Bytes
  /-- application: 0 none, 1 identity file, 2 Handpump's own -/
  app : Nat
  file : Option Bytes
  auth : Option SecKeys
  session : Option SecKeys
  n : Nat
  fw : Option FwCmd
  /-- words of the response buffer whose latest store was poisoned (R347) -/
  fwPoison : List Nat
  reload : Bool
  deriving DecidableEq, Repr

def Hp.reset : Hp where
  loaded := false
  cfg5 := [0xFF, 0xFF, 0xFF, 0xFF, 0, 0xFF]
  cfg6 := [0x07, 3, 4]
  rnd := [0, 0, 0, 0]
  level := 0
  fromHalt := false
  cid := 0
  fsd := 256
  bn := true
  chain := []
  held := none
  fresh := false
  apdu := none
  stage := 0
  tries := 0
  rest := []
  result := none
  out := none
  wtx := none
  wtxOpen := false
  wtxCount := 0
  wtxAt := 0
  wtxPrev := 1
  wtxSent := 0
  granted := false
  refused := false
  lastBlock := []
  sent := []
  app := 0
  file := none
  auth := none
  session := none
  n := 0
  fw := none
  fwPoison := []
  reload := false


/-! ### Energy gauge and power modes (R361 to R366, R374, R375) -/

/-- A transfer of the PMBus master (R372): the regulator's address, the command, and the word that a write carries. -/
structure PmTransfer where
  addr : Nat
  command : Nat
  data : Option (BitVec 16)
  deriving DecidableEq, Repr

/-- Budgets in pJ of the grants whose bursts have not ended, and the power mode in force. -/
structure Well where
  /-- the Cistern burst -/
  cst : Nat
  /-- the response transmission -/
  tx : Nat
  /-- the steps of the CE pages' jobs, and of the key command -/
  ce : Vector Nat 16
  key : Nat
  /-- the descriptors of the Windlass channels -/
  dma : Vector Nat 8
  /-- consecutive refusals of the Cistern's request (R365) -/
  cstRefused : Nat
  /-- the power mode in force, and the one that a change in progress leads to -/
  pmode : Nat
  pmodeTo : Option Nat
  /-- VOUT_MODE has been read since the device reset (R372) -/
  pmRead : Bool
  /-- the transfers of the latest regulator write (R372) -/
  pm : List PmTransfer
  deriving DecidableEq, Repr


/-! ### Wellcap and watchdog (R388 to R395) -/

/-- An alarm record that waits to be programmed, with what R394 puts into its data. -/
structure AlarmRec where
  cause : Nat
  detail : Nat
  /-- STATE before ALARM -/
  before : Nat
  latch : Nat
  vhold : Nat
  vbat : Nat
  tj : Int
  count : Nat
  sec : Nat
  ns : Nat
  uptime : Nat
  /-- ESN of the alarm event, once it has been issued -/
  esn : Option Nat
  deriving DecidableEq, Repr

/-- Wellcap beside its registers. -/
structure Wellcap where
  /-- a mesh sample mismatched and waits for its resample (R390) -/
  resample : Bool
  /-- records of the alarm response in progress, oldest first (R391, R393) -/
  recs : List AlarmRec
  /-- the record held in AON (R395) -/
  held : Option AlarmRec
  /-- first and last ESN of the records that WC_PEND counts beside the held one -/
  lostFirst : Nat
  lostLast : Nat
  /-- the alarm charge runs (R366, R393) -/
  charging : Bool
  /-- the alarm charge stopped before MARK_WRITE (R366, R395) -/
  short : Bool
  /-- when the AON domain last powered up -/
  aonUp : Nat
  /-- when the alarm edge that began the response took place (R366) -/
  alarmAt : Nat
  /-- DETAIL of each condition as it was sensed last (R390) -/
  detail : Vector Nat 9
  deriving DecidableEq, Repr

/-- The watchdog's count (R388): nanoseconds counted before `since`, and the time since which it counts, none while it
holds its count. -/
structure Wdog where
  counted : Nat
  since : Option Nat
  deriving DecidableEq, Repr


/-! ### Host link, boot and flash (R400 to R419) -/

/-- A Wohial operation that waits behind a Cistern burst (R318, R404). -/
structure WohJob where
  cmd : Nat
  len : Nat
  addr : Nat
  data : Bytes
  /-- TIMEOUT has been sent: its outcome goes to WOHIAL_STAT only -/
  timedOut : Bool
  /-- the rule epoch of the access that waits (R224, R239) -/
  epoch : BitVec 4
  /-- time of the host check, from which the timeout counts (R404) -/
  start : Nat
  deriving DecidableEq, Repr

/-- The Wohial bridge beside its registers. -/
structure Woh where
  /-- the generation in effect (R400) -/
  gen : Nat
  /-- what the device sent in the latest transaction, from Start to its check (R401) -/
  answer : Bytes
  job : Option WohJob
  deriving DecidableEq, Repr

/-- Where the boot ROM stands (R413). -/
inductive BootStep where
  /-- the core has been released and the boot ROM has not decided yet -/
  | fresh
  /-- it waits for the INC_CTR of a trial -/
  | trial
  | firmware
  | recovery
  | halted
  deriving DecidableEq, Repr

/-- A flash operation that runs: ERASE_SECTOR or PROGRAM_PAGE, its page, and the bytes to program (R418). -/
structure FlashJob where
  erase : Bool
  page : Nat
  data : Bytes
  deriving DecidableEq, Repr


/-! ### The device outside the core -/

/-- A store on its way into an AON register (R20). -/
structure AonStore where
  addr : Nat
  val : Word
  master : Master
  /-- the rule epoch it carries (R237) -/
  epoch : BitVec 4
  deriving DecidableEq, Repr

/-- The 32-byte spare area of a page that has been programmed (R279): the BCH parity and the page check, each as its
difference from what the stored data give, and bytes 18 to 31. -/
structure Spare where
  parity : BitVec 112
  check : BitVec 32
  rest : BitVec 112
  deriving DecidableEq, Repr

/-- The check bits of the memories that hold no plain bytes of their own (R80, R271, R278, R279). -/
structure Codes where
  /-- context SRAM: check bits of a byte by bus address, as their difference from the computed ones -/
  ctx : List (Nat × BitVec 5)
  /-- light codes of a word by index, byte k in bits 4k+3:4k, as their difference from the computed ones -/
  flashLight : List (Nat × BitVec 32)
  cstLight : List (Nat × BitVec 32)
  /-- spare areas by page; an unlisted one reads all ones -/
  flashSpare : List (Nat × Spare)
  cstSpare : List (Nat × Spare)
  deriving DecidableEq, Repr

/-- Words of an NVM array whose program or erase was interrupted: they hold free values (log entry 5). -/
structure Torn where
  /-- true for the Cistern -/
  cst : Bool
  /-- first word and number of words -/
  first : Nat
  words : Nat
  /-- index of the free value that fills them -/
  draw : Nat
  /-- interrupted by an erase, not a program -/
  erase : Bool
  deriving DecidableEq, Repr

/-- Everything but the core's own registers and the command queue. -/
structure Dev where
  /-- elapsed time in ns; the idle step advances it (log entry 1) -/
  now : Nat
  /-- the MODEL's own counter of free values drawn (log entry 3) -/
  freeCount : Nat
  env : Env
  /-- bus registers by address, unlisted ones at their reset word -/
  regs : List (Nat × Word)
  /-- SRAM and Buckets bytes by address, unlisted ones zero (R281) -/
  ram : List Host.Cell
  /-- stored check bits of RAM bytes, kept as their difference from the computed ones (R272) -/
  chk : List (Nat × BitVec 5)
  /-- program flash: programmed 64-bit words by index, unlisted words erased (R278) -/
  flash : List (Nat × BitVec 64)
  /-- Cistern array: programmed 64-bit words by index -/
  cstArray : List (Nat × BitVec 64)
  /-- NVM words whose program or erase was interrupted (log entry 5) -/
  torn : List Torn
  codes : Codes
  /-- power domains on, bit numbers as in PWR_STAT (R15, R31) -/
  dom : BitVec 8
  /-- requested device reset and its EVT_RESET cause (R74, R389, R392, R417) -/
  resetReq : Option Nat
  /-- a write requested a core reset (R389, R416) -/
  coreResetReq : Bool
  /-- a block asks for the core to stop (R392) -/
  coreStopReq : Bool
  /-- fills that have ended since their power-up or reset (R281): CORE and PUMP, Buckets, bank 0 -/
  filled : Vector Bool 3
  /-- the AON clock runs on the crystal (R433) -/
  xtal : Bool
  /-- the main PLL is locked (R432) -/
  pll : Bool
  /-- I/O bank classes: true for the 3.3 V class (R427) -/
  ioClass : Vector Bool 3
  /-- owners that differ from R32's, by resource index -/
  own : List (Nat × BitVec 5)
  /-- OWN_RESULT of each master (R38) -/
  ownResult : List (Nat × Word)
  /-- high words latched per master and address (R109, R145) -/
  latches : List (Nat × Nat × Word)
  aonPend : List AonStore
  sbuf : List Store
  impStore : Option ImpStore
  /-- latched interrupt conditions of sources with no register bit (R222, log entry 6) -/
  irq : BitVec 192
  /-- active firewall rules of the previous epoch: registers that differ from their reset words (R239) -/
  prevFw : List (Nat × Word)
  linkA : Link
  linkB : Link
  laneV : LaneSt
  laneT : LaneSt
  egressA : Option Egress
  egressB : Option Egress
  integ : Integ
  evt : Evt
  /-- rings whose hardware side is not empty (R117) -/
  rings : List (Nat × RingHw)
  chans : Vector Chan 8
  /-- channel that the crossbar served last (R134) -/
  chanLast : Nat
  staging : List Staged
  /-- hold slots in use (R111) -/
  holdUsed : List Nat
  /-- divert slots in use (R111, R129) -/
  divertUsed : List Nat
  /-- the restart reserve, oldest first (R114) -/
  reserve : List RsvEntry
  keyCmd : Option KeyCmd
  tu : TimeUnit
  /-- key slots that are not EMPTY, by number (R261) -/
  slots : List (Nat × KeySlot)
  ce : Ce
  cst : Cst
  hp : Hp
  well : Well
  wellcap : Wellcap
  wdog : Wdog
  woh : Woh
  boot : BootStep
  flashJob : Option FlashJob
  deriving DecidableEq, Repr

/-- The whole machine: the core pair as software sees it (R196), the device, and the queue of waiting commands. -/
structure State where
  core : Core
  dev : Dev
  /-- commands that wait, first in, first out -/
  pending : List Instr
  deriving DecidableEq, Repr

/-- Why the machine stops. No command of this block stops it: every error the spec describes is a status, a bus error, a
trouble bit, an exception of the core or an alarm (INVENTORY.md, Faults). No meaning raises this one; it is here so
that the type has a name for a reader, and using it would be safe. -/
inductive Fault where
  /-- raised by nobody: safe -/
  | unused
  deriving DecidableEq, Repr

/-- Why a command has no meaning. -/
inductive Refusal where
  /-- raised by an arm of `exec` whose command has no meaning yet: safe, since nothing follows from it -/
  | notModelled (mnemonic : String)
  deriving DecidableEq, Repr

def Link.reset : Link := ⟨.off, false, false, 0, 0, 0⟩

/-- The device right after the AON domain first powers up (R21, R30, R433): DORMANT, domains AON and WELL on, every
register at its reset word, memories erased or zero, the AON clock on its internal oscillator. -/
def Dev.reset : Dev where
  now := 0
  freeCount := 0
  env := ⟨0, 0, 0, 0, 0, 0, 0, 0, 0, false, false, []⟩
  regs := []
  ram := []
  chk := []
  flash := []
  cstArray := []
  torn := []
  codes := ⟨[], [], [], [], []⟩
  dom := 0x03
  resetReq := none
  coreResetReq := false
  coreStopReq := false
  filled := Vector.replicate 3 false
  xtal := false
  pll := false
  ioClass := Vector.replicate 3 false
  own := []
  ownResult := []
  latches := []
  aonPend := []
  sbuf := []
  impStore := none
  irq := 0
  prevFw := []
  linkA := Link.reset
  linkB := Link.reset
  laneV := LaneSt.reset
  laneT := LaneSt.reset
  egressA := none
  egressB := none
  integ := ⟨[], [], [], [], [], 0, [], [], 0, false⟩
  evt := ⟨0, [], [], 0⟩
  rings := []
  chans := Vector.replicate 8 ⟨none, 255⟩
  chanLast := 7
  staging := []
  holdUsed := []
  divertUsed := []
  reserve := []
  keyCmd := none
  tu := ⟨0, 0, 0, 0, false, 0, none, 0, 0⟩
  slots := []
  ce := Ce.reset
  cst := ⟨true, false, none, none, [], [], 0, 0, 0, 0, 0, 0, 0, 0, false, false⟩
  hp := Hp.reset
  well := ⟨0, 0, Vector.replicate 16 0, 0, Vector.replicate 8 0, 0, 1, none, false, []⟩
  wellcap := ⟨false, [], none, 0, 0, false, false, 0, 0, Vector.replicate 9 0⟩
  wdog := ⟨0, none⟩
  woh := ⟨0, [], none⟩
  boot := .fresh
  flashJob := none

/-- The machine right after reset. -/
def State.reset : State where
  core := Core.reset
  dev := Dev.reset
  pending := []

end Sys2Proof.Machine
end

