-- ==== Sys2Proof/Machine/Random.lean ====
section
/-! DEFINITION. The random-number source: the CTR_DRBG and the health tests of its raw bits (R258, R259). PRESUMED from
SP 800-90A and SP 800-90B, which the spec names and does not repeat (log entry 58). -/
namespace Sys2Proof.Machine

/-! ### The CTR_DRBG with AES-256 and the derivation function (R258, R259, log entry 58) -/

/-- One block cipher chaining pass of the derivation function. -/
def drbgBcc (key data : Bytes) : Bytes :=
  (pieces 16 data).foldl (fun x b => aesEnc key (xorBytes x b)) (List.replicate 16 0)

/-- Three blocks of repeated encryption, the chain of the derivation function's second part. -/
def blockChain (key : Bytes) : Nat → Bytes → Bytes
  | 0, _ => []
  | n + 1, x => let y := aesEnc key x; y ++ blockChain key n y

/-- The derivation function: 48 seed bytes from an input. -/
def drbgDf (inp : Bytes) : Bytes :=
  let s0 := beBytes 4 inp.length ++ beBytes 4 48 ++ inp ++ [0x80]
  let s := s0 ++ List.replicate ((16 - s0.length % 16) % 16) 0
  let key := (List.range 32).map fun i => BitVec.ofNat 8 i
  let t := (List.range 3).flatMap fun i => drbgBcc key (beBytes 4 i ++ List.replicate 12 0 ++ s)
  blockChain (t.take 32) 3 (t.drop 32)

/-- `n` blocks of output after the value V, which advances as one 128-bit number. -/
def Drbg.blocks (g : Drbg) (n : Nat) : Bytes :=
  (List.range n).flatMap fun i => aesEnc g.key (beBytes 16 (beNat g.v + 1 + i))

/-- The update function with 48 bytes of provided data; `k` blocks of output have been taken before it. -/
def Drbg.update (g : Drbg) (k : Nat) (data : Bytes) : Drbg :=
  let t := xorBytes (Drbg.blocks ⟨g.key, beBytes 16 (beNat g.v + k)⟩ 3) data
  ⟨t.take 32, t.drop 32⟩

/-- Instantiation, or a reseed, from raw bits. -/
def Drbg.seed (g : Drbg) (raw : Bytes) : Drbg := g.update 0 (drbgDf raw)

/-- One generate request of `n` bytes: the bytes, and the state after it. -/
def Drbg.generate (g : Drbg) (n : Nat) : Bytes × Drbg :=
  let k := ceilDiv n 16
  ((g.blocks k).take n, g.update k (List.replicate 48 0))

/-! ### The health tests of the raw bits (R258) -/

/-- One raw bit: the tests after it, and whether the repetition count (true) or the adaptive proportion (false) fails. -/
def Health.bit (h : Health) (b : Bool) : Health × Option Bool :=
  let run := if h.last = some b then h.run + 1 else 1
  let first := if h.seen = 0 then b else h.first
  let same := if h.seen = 0 then 1 else h.same + b2n (b == h.first)
  let seen := if h.seen + 1 = 1024 then 0 else h.seen + 1
  (⟨some b, run, first, same, seen⟩, if 41 ≤ run then some true else if 800 ≤ same then some false else none)

/-- Raw bits in turn, until one fails. -/
def Health.bits (h : Health) : List Bool → Health × Option Bool
  | [] => (h, none)
  | b :: t =>
    match h.bit b with
    | (h1, none) => h1.bits t
    | x => x

/-- Raw bits as bytes, bit 7 of a byte first (log entry 58). -/
def Health.feed (h : Health) (raw : Bytes) : Health × Option Bool := h.bits (bitsMsb raw)

end Sys2Proof.Machine
end

