-- ==== Sys2Proof/Config.lean ====
section
/-! DEFINITION. What the spec leaves open: constants without a body, so that nothing can prove a value of them. Each is
applied to the arguments it depends on, or to the model's own counter of free values drawn (`Dev.freeCount`). -/
namespace Sys2Proof.Config

/-- Steps of the public-key engine beside the last one, by operation code and operand length (R257, R268, log entry 44). -/
opaque pkMoreSteps : Nat → Nat → Nat
/-- Raw bits of the noise source that the state does not hold, eight to a byte: draw index and place (R258, log entry 3). -/
opaque rawByte : Nat → Nat → Byte
/-- Contents of the boot ROM, by byte offset (log entry 4). -/
opaque romByte : Nat → Byte
/-- A 64-bit word of an NVM page whose program or erase was interrupted: draw index and word; none reads ERASED
(log entry 5). -/
opaque tornWord : Nat → Nat → Option (BitVec 64)
/-- The light code of such a word, as its difference from the computed one: draw index and word (log entry 5). -/
opaque tornLight : Nat → Nat → BitVec 32
/-- BCH parity and page check of a page whose program or erase was interrupted, as differences: draw index and page
(log entry 5). -/
opaque tornParity : Nat → Nat → BitVec 112
opaque tornCheck : Nat → Nat → BitVec 32
/-- What the error records show as the address of a word in a memory that has no bus address: the lane buffers and
keep-RAM, by source and place (R295, log entry 56). -/
opaque innerAddr : Nat → Nat → BitVec 32
/-- The master that the error records name for a read that a memory's own controller makes, by source (R29, R295, log
entry 56). -/
opaque ownMaster : Nat → Fin 16
/-- What fills the rest of the last word, or of a sealed page, behind a record, by offset (R300, log entry 5). -/
opaque recordPad : Nat → Byte
/-- The data of a LOST record (R311), from the count and the first and last ESN lost (log entry 10). -/
opaque lostData : Nat → Nat → Nat → Bytes
/-- Bytes of an IEC 62351-6 extension before its value, by algorithm code (R55, R90, log entry 9). -/
opaque extensionFront : Nat → Nat
/-- Those bytes, by algorithm code and key identifier (R91, log entry 9). -/
opaque extensionBytes : Nat → Nat → Bytes
/-- The reserved words of a GOOSE or SV header that signal an extension of so many bytes, from the words received; and the
words without one (R91, R92, log entry 9). -/
opaque reservedWith : Nat → Bytes → Bytes
opaque reservedWithout : Bytes → Bytes
/-- First position of the authenticated span and the position after it, in a frame as sent up to the value; and the GMAC
initialisation vector (R90, log entry 9). -/
opaque tagSpan : Bytes → Nat × Nat
opaque tagIv : Bytes → Bytes

/-- The exponent that the regulator's VOUT_MODE gives (R372, log entry 64). -/
opaque voutExponent : Fin 32

/-- UID1 to UID6, written at manufacture (R330), by their number. -/
opaque uidByte : Nat → Byte
/-- What fills the last block of the NDEF file behind the file's end (R333), by position (log entry 14). -/
opaque blockPad : Nat → Byte

/-- Level of an AON timer's ball after its channel expires (R37), by draw index (log entry 7). -/
opaque timerLevel : Nat → Bool

/-- What the boot ROM leaves in a general register at hand-over, by draw index and register number (R414, log entry 4). -/
opaque bootReg : Nat → Nat → Word
/-- What recovery programs behind the end of an image in the image's last page, by position (R413, log entry 4). -/
opaque recoveryPad : Nat → Byte

end Sys2Proof.Config
end

