-- ==== Sys2Proof/Machine/Fields.lean ====
section
/-! DEFINITION. The register fields of every register table of the spec: where each lies, how it is accessed (R8), its
Reset value, what a Wellcap alarm does to it and the lowest level that may write it (R7). The tables give the first
element of an array of equal registers; `canonAddr` takes an address of the array to it. -/
namespace Sys2Proof.Machine

/-- Access codes (R8). -/
inductive Acc where
  | ro
  | rw
  | wo
  | w1c
  | rws
  | rwl
  deriving DecidableEq, Repr

/-- What a Wellcap alarm does to a field (R7). -/
inductive OnAlarm where
  | keep
  | zero
  | reset
  deriving DecidableEq, Repr

/-- Lowest level that may write a field; `hw` is reached by no master (R7, R235). -/
inductive Owner where
  | user
  | supervisor
  | vault
  | hw
  deriving DecidableEq, Repr

/-- A row of a register table. -/
structure Fld where
  addr : Nat
  hi : Nat
  lo : Nat
  acc : Acc
  reset : Nat
  alarm : OnAlarm
  owner : Owner
  deriving DecidableEq, Repr

/-- The place of a field: register address and bits. -/
structure Fl where
  addr : Nat
  hi : Nat
  lo : Nat
  deriving DecidableEq, Repr

/-- The same field `k` bytes further on. -/
def Fl.plus (f : Fl) (k : Nat) : Fl := ⟨f.addr + k, f.hi, f.lo⟩

/-! ### Register tables -/

/-- Register fields of sysctl (R30, R31, R38, R416, R421). -/
def Fields.sysctl : List Fld := [
  ⟨0x40000000, 12, 12, .ro, 0x0, .keep, .hw⟩ /- RUNLOW -/,
  ⟨0x40000000, 11, 8, .ro, 0x0, .keep, .hw⟩ /- CAUSE -/,
  ⟨0x40000000, 6, 4, .ro, 0x0, .keep, .hw⟩ /- PREV -/,
  ⟨0x40000000, 2, 0, .ro, 0x0, .keep, .hw⟩ /- STATE -/,
  ⟨0x40000004, 7, 0, .ro, 0x0, .keep, .hw⟩ /- PWR_STAT.DOM_ON -/,
  ⟨0x40000008, 1, 1, .rw, 0x1, .reset, .supervisor⟩ /- PWR_REQ.LINKB_ON -/,
  ⟨0x40000008, 0, 0, .rw, 0x1, .reset, .supervisor⟩ /- PWR_REQ.LINKA_ON -/,
  ⟨0x40000020, 20, 16, .wo, 0x1f, .keep, .supervisor⟩ /- OWN_CLAIM.OWNER -/,
  ⟨0x40000020, 9, 8, .wo, 0x0, .keep, .supervisor⟩ /- OWN_CLAIM.OP -/,
  ⟨0x40000020, 7, 0, .wo, 0x0, .keep, .supervisor⟩ /- OWN_CLAIM.RES -/,
  ⟨0x40000024, 20, 16, .ro, 0x1f, .reset, .hw⟩ /- OWN_RESULT.HOLDER -/,
  ⟨0x40000024, 15, 8, .ro, 0x0, .reset, .hw⟩ /- OWN_RESULT.RES -/,
  ⟨0x40000024, 2, 0, .ro, 0x0, .reset, .hw⟩ /- OWN_RESULT.STATUS -/,
  ⟨0x40000400, 8, 8, .ro, 0x0, .keep, .hw⟩ /- OWN_TABLE.PERM -/,
  ⟨0x40000400, 4, 0, .ro, 0x0, .reset, .hw⟩ /- OWN_TABLE.OWNER -/,
  ⟨0x40000030, 15, 0, .wo, 0x0, .keep, .vault⟩ /- CORE_RESET.KEY -/,
  ⟨0x40000034, 15, 0, .wo, 0x0, .keep, .vault⟩ /- DEV_RESET.KEY -/,
  ⟨0x40000040, 31, 31, .ro, 0x0, .keep, .hw⟩ /- BOOT_STAT.UNPROV -/,
  ⟨0x40000040, 30, 30, .ro, 0x0, .keep, .hw⟩ /- BOOT_STAT.TRIAL_BOOTED -/,
  ⟨0x40000040, 29, 29, .ro, 0x0, .keep, .hw⟩ /- BOOT_STAT.RULES_KEPT -/,
  ⟨0x40000040, 27, 24, .ro, 0x9, .keep, .hw⟩ /- BOOT_STAT.CODE_B -/,
  ⟨0x40000040, 23, 20, .ro, 0x9, .keep, .hw⟩ /- BOOT_STAT.CODE_A -/,
  ⟨0x40000040, 19, 18, .ro, 0x0, .keep, .hw⟩ /- BOOT_STAT.KEYIDX -/,
  ⟨0x40000040, 16, 16, .ro, 0x0, .keep, .hw⟩ /- BOOT_STAT.BANK -/,
  ⟨0x40000044, 31, 0, .ro, 0x0, .keep, .hw⟩ /- BOOT_SVN.SVN -/,
  ⟨0x40000100, 31, 16, .ro, 0x0, .keep, .hw⟩ /- CLAMP_STAT.DROPPED -/,
  ⟨0x40000100, 4, 0, .ro, 0x0, .keep, .hw⟩ /- CLAMP_STAT.COUNT -/,
  ⟨0x40000104, 0, 0, .wo, 0x0, .keep, .supervisor⟩ /- CLAMP_CTL.CLEAR -/,
  ⟨0x40000110, 31, 0, .ro, 0x0, .keep, .hw⟩ /- CLAMP_ADDR k.ADDR -/,
  ⟨0x40000114, 19, 16, .ro, 0x0, .keep, .hw⟩ /- CLAMP_INFO k.MASTER -/,
  ⟨0x40000114, 12, 8, .ro, 0x0, .keep, .hw⟩ /- CLAMP_INFO k.LSB -/,
  ⟨0x40000114, 5, 0, .ro, 0x0, .keep, .hw⟩ /- CLAMP_INFO k.WIDTH -/,
  ⟨0x40000118, 31, 0, .ro, 0x0, .keep, .hw⟩ /- CLAMP_WRITTEN k.VALUE -/,
  ⟨0x4000011c, 31, 0, .ro, 0x0, .keep, .hw⟩ /- CLAMP_STORED k.VALUE -/]

/-- Register fields of link (R45). -/
def Fields.link : List Fld := [
  ⟨0x40200000, 4, 4, .wo, 0x0, .keep, .supervisor⟩ /- CTRL.AN_RESTART -/,
  ⟨0x40200000, 3, 2, .rw, 0x2, .keep, .supervisor⟩ /- CTRL.FORCE_SPEED -/,
  ⟨0x40200000, 1, 1, .rw, 0x1, .keep, .supervisor⟩ /- CTRL.AN_EN -/,
  ⟨0x40200000, 0, 0, .rw, 0x0, .keep, .supervisor⟩ /- CTRL.MODE -/,
  ⟨0x40200004, 6, 6, .ro, 0x0, .keep, .hw⟩ /- STAT.REMOTE_FAULT -/,
  ⟨0x40200004, 5, 5, .ro, 0x0, .keep, .hw⟩ /- STAT.HDX_REFUSED -/,
  ⟨0x40200004, 4, 3, .ro, 0x3, .keep, .hw⟩ /- STAT.SPEED -/,
  ⟨0x40200004, 2, 2, .ro, 0x0, .keep, .hw⟩ /- STAT.LINK_UP -/,
  ⟨0x40200004, 1, 1, .ro, 0x0, .keep, .hw⟩ /- STAT.AN_DONE -/,
  ⟨0x40200004, 0, 0, .ro, 0x0, .keep, .hw⟩ /- STAT.SYNC -/]

/-- Register fields of pumphouse (R77, R87, R97, R116). -/
def Fields.pumphouse : List Fld := [
  ⟨0x40100100, 15, 8, .rw, 0x10, .keep, .supervisor⟩ /- LANE_CFG.NOMATCH_RING -/,
  ⟨0x40100100, 6, 4, .rw, 0x6, .keep, .supervisor⟩ /- LANE_CFG.NOMATCH -/,
  ⟨0x40100100, 1, 1, .rw, 0x0, .keep, .supervisor⟩ /- LANE_CFG.SAF_FORCE -/,
  ⟨0x40100100, 0, 0, .rw, 0x0, .keep, .supervisor⟩ /- LANE_CFG.ENABLE -/,
  ⟨0x40100104, 9, 8, .ro, 0x0, .keep, .hw⟩ /- LANE_STAT.RESTARTS_60S -/,
  ⟨0x40100104, 3, 3, .ro, 0x0, .keep, .hw⟩ /- LANE_STAT.SAF -/,
  ⟨0x40100104, 2, 0, .ro, 0x0, .keep, .hw⟩ /- LANE_STAT.STATE -/,
  ⟨0x40100108, 17, 16, .ro, 0x3, .keep, .hw⟩ /- LANE_LAG.SPEED -/,
  ⟨0x40100108, 15, 0, .ro, 0x0, .keep, .hw⟩ /- LANE_LAG.LAG -/,
  ⟨0x4010010c, 26, 16, .ro, 0x7ff, .keep, .hw⟩ /- LANE_LAST.POS -/,
  ⟨0x4010010c, 15, 6, .ro, 0x0, .keep, .hw⟩ /- LANE_LAST.STREAM -/,
  ⟨0x4010010c, 5, 5, .ro, 0x0, .keep, .hw⟩ /- LANE_LAST.STOMPED -/,
  ⟨0x4010010c, 4, 4, .ro, 0x0, .keep, .hw⟩ /- LANE_LAST.NOMATCH -/,
  ⟨0x4010010c, 3, 0, .ro, 0x0, .keep, .hw⟩ /- LANE_LAST.REASON -/,
  ⟨0x40100110, 14, 5, .ro, 0x0, .keep, .hw⟩ /- LANE_FAULT.STREAM -/,
  ⟨0x40100110, 4, 4, .ro, 0x0, .keep, .hw⟩ /- LANE_FAULT.STREAM_VALID -/,
  ⟨0x40100110, 3, 0, .ro, 0x0, .keep, .hw⟩ /- LANE_FAULT.POINT -/,
  ⟨0x40100114, 1, 0, .wo, 0x0, .keep, .supervisor⟩ /- CNT_CTL.OP -/,
  ⟨0x40100300, 18, 16, .wo, 0x0, .keep, .supervisor⟩ /- CTX_CMD.OP -/,
  ⟨0x40100300, 9, 0, .wo, 0x0, .keep, .supervisor⟩ /- CTX_CMD.STREAM -/,
  ⟨0x40100304, 19, 10, .ro, 0x0, .keep, .hw⟩ /- CTX_RESULT.STREAM -/,
  ⟨0x40100304, 9, 9, .w1c, 0x0, .keep, .supervisor⟩ /- CTX_RESULT.LOCKED_WR -/,
  ⟨0x40100304, 2, 0, .ro, 0x0, .keep, .hw⟩ /- CTX_RESULT.STATUS -/,
  ⟨0x40100320, 29, 24, .wo, 0x0, .keep, .vault⟩ /- KEY_CMD.CE_SLOT -/,
  ⟨0x40100320, 22, 20, .wo, 0x0, .keep, .vault⟩ /- KEY_CMD.ALG -/,
  ⟨0x40100320, 18, 16, .wo, 0x0, .keep, .vault⟩ /- KEY_CMD.OP -/,
  ⟨0x40100320, 9, 0, .wo, 0x0, .keep, .vault⟩ /- KEY_CMD.STREAM -/,
  ⟨0x40100324, 31, 0, .rw, 0x0, .zero, .vault⟩ /- KEY_ID.KEYID -/,
  ⟨0x40100328, 31, 0, .rw, 0x0, .keep, .vault⟩ /- KEY_SW_SEC.SEC -/,
  ⟨0x4010032c, 29, 0, .rw, 0x0, .keep, .vault⟩ /- KEY_SW_NS.NS -/,
  ⟨0x40100330, 19, 10, .ro, 0x0, .keep, .hw⟩ /- KEY_RESULT.STREAM -/,
  ⟨0x40100330, 9, 9, .w1c, 0x0, .keep, .vault⟩ /- KEY_RESULT.CMD_LOST -/,
  ⟨0x40100330, 7, 4, .ro, 0x0, .reset, .hw⟩ /- KEY_RESULT.STATUS -/,
  ⟨0x40100330, 0, 0, .ro, 0x0, .reset, .hw⟩ /- KEY_RESULT.BUSY -/,
  ⟨0x40100400, 7, 0, .rw, 0x20, .keep, .vault⟩ /- BKT_PART.HOLD_SLOTS -/,
  ⟨0x40100404, 27, 20, .ro, 0x0, .keep, .hw⟩ /- BKT_STAT.RSV_KIB -/,
  ⟨0x40100404, 16, 16, .w1c, 0x0, .keep, .vault⟩ /- BKT_STAT.PART_BUSY -/,
  ⟨0x40100404, 15, 8, .ro, 0x0, .keep, .hw⟩ /- BKT_STAT.DIVERT_USED -/,
  ⟨0x40100404, 7, 0, .ro, 0x0, .keep, .hw⟩ /- BKT_STAT.HOLD_USED -/]

/-- Register fields of context (R83). -/
def Fields.context0 : List Fld := [
  ⟨0x40140000, 31, 31, .ro, 0x0, .keep, .hw⟩ /- 0x00 MATCH_CTL.VALID -/,
  ⟨0x40140000, 30, 30, .rw, 0x0, .keep, .supervisor⟩ /- 0x00.LANE -/,
  ⟨0x40140000, 29, 28, .rw, 0x0, .keep, .supervisor⟩ /- 0x00.VLAN_MODE -/,
  ⟨0x40140000, 27, 27, .rw, 0x0, .keep, .supervisor⟩ /- 0x00.DA_EN -/,
  ⟨0x40140000, 26, 26, .rw, 0x0, .keep, .supervisor⟩ /- 0x00.ETYPE_EN -/,
  ⟨0x40140000, 25, 25, .rw, 0x0, .keep, .supervisor⟩ /- 0x00.APPID_EN -/,
  ⟨0x40140000, 11, 0, .rw, 0x0, .keep, .supervisor⟩ /- 0x00.VID -/,
  ⟨0x40140004, 31, 0, .rw, 0x0, .keep, .supervisor⟩ /- 0x04 MATCH_DA_LO.DA_LO -/,
  ⟨0x40140008, 31, 16, .rw, 0x0, .keep, .supervisor⟩ /- 0x08 MATCH_DA_HI.ETYPE -/,
  ⟨0x40140008, 15, 0, .rw, 0x0, .keep, .supervisor⟩ /- 0x08.DA_HI -/,
  ⟨0x4014000c, 15, 0, .rw, 0x0, .keep, .supervisor⟩ /- 0x0C.APPID -/,
  ⟨0x40140010, 16, 16, .rw, 0x0, .keep, .supervisor⟩ /- 0x10.KEYED -/,
  ⟨0x40140010, 15, 8, .rw, 0x10, .keep, .supervisor⟩ /- 0x10.RING -/,
  ⟨0x40140010, 2, 0, .rw, 0x6, .keep, .supervisor⟩ /- 0x10.ACTION -/,
  ⟨0x40140014, 31, 24, .rw, 0x0, .keep, .supervisor⟩ /- 0x14 GUARD_CFG.FATAL -/,
  ⟨0x40140014, 20, 20, .rw, 0x0, .keep, .supervisor⟩ /- 0x14.TIME_CHK -/,
  ⟨0x40140014, 19, 16, .rw, 0x1, .keep, .supervisor⟩ /- 0x14.ASDU_N -/,
  ⟨0x40140014, 15, 0, .rw, 0x0, .keep, .supervisor⟩ /- 0x14.SMP_MOD -/,
  ⟨0x40140018, 15, 0, .rw, 0x0, .keep, .supervisor⟩ /- 0x18.TIME_TOL -/,
  ⟨0x4014001c, 31, 16, .rw, 0x0, .keep, .supervisor⟩ /- 0x1C ACC_WIN.POST -/,
  ⟨0x4014001c, 15, 0, .rw, 0x0, .keep, .supervisor⟩ /- 0x1C.PRE -/,
  ⟨0x40140020, 13, 8, .ro, 0x0, .zero, .hw⟩ /- 0x20, 0x30.CE_SLOT -/,
  ⟨0x40140030, 13, 8, .ro, 0x0, .zero, .hw⟩ /- 0x20, 0x30.CE_SLOT -/,
  ⟨0x40140020, 4, 2, .ro, 0x0, .zero, .hw⟩ /- 0x20, 0x30.ALG -/,
  ⟨0x40140030, 4, 2, .ro, 0x0, .zero, .hw⟩ /- 0x20, 0x30.ALG -/,
  ⟨0x40140020, 1, 0, .ro, 0x0, .zero, .hw⟩ /- 0x20, 0x30.STATE -/,
  ⟨0x40140030, 1, 0, .ro, 0x0, .zero, .hw⟩ /- 0x20, 0x30.STATE -/,
  ⟨0x40140024, 31, 0, .ro, 0x0, .zero, .hw⟩ /- 0x24 EP0_KEYID, 0x34 EP1_KEYID.KEYID -/,
  ⟨0x40140034, 31, 0, .ro, 0x0, .zero, .hw⟩ /- 0x24 EP0_KEYID, 0x34 EP1_KEYID.KEYID -/,
  ⟨0x40140028, 31, 0, .ro, 0x0, .zero, .hw⟩ /- 0x28 EP0_COUNT, 0x38 EP1_COUNT.COUNT -/,
  ⟨0x40140038, 31, 0, .ro, 0x0, .zero, .hw⟩ /- 0x28 EP0_COUNT, 0x38 EP1_COUNT.COUNT -/,
  ⟨0x40140040, 31, 0, .ro, 0x0, .keep, .hw⟩ /- 0x40 SW_SEC.SEC -/,
  ⟨0x40140044, 31, 31, .ro, 0x0, .keep, .hw⟩ /- 0x44 SW_NS.CUR -/,
  ⟨0x40140044, 29, 0, .ro, 0x0, .keep, .hw⟩ /- 0x44.NS -/,
  ⟨0x40140050, 31, 0, .ro, 0x0, .keep, .hw⟩ /- 0x50 SEQ_TOP.TOP -/,
  ⟨0x40140054, 31, 0, .ro, 0x0, .keep, .hw⟩ /- 0x54 SEQ_STATE.STATE -/,
  ⟨0x40140058, 31, 0, .ro, 0x0, .keep, .hw⟩ /- 0x58 REPLAY_MAP_LO.MAP -/,
  ⟨0x4014005c, 31, 0, .ro, 0x0, .keep, .hw⟩ /- 0x5C REPLAY_MAP_HI.MAP -/,
  ⟨0x40140060, 15, 8, .ro, 0x0, .keep, .hw⟩ /- 0x60.LAST_CLASS -/,
  ⟨0x40140060, 0, 0, .ro, 0x0, .keep, .hw⟩ /- 0x60.WIN_VALID -/]

/-- Register fields of context (R83). -/
def Fields.context1 : List Fld := [
  ⟨0x40140064, 31, 0, .ro, 0x0, .keep, .hw⟩ /- 0x64 TOP_TS_SEC.SEC -/,
  ⟨0x40140068, 31, 0, .ro, 0x0, .keep, .hw⟩ /- 0x68 TOP_TS_NS.NS -/,
  ⟨0x40140080, 31, 0, .ro, 0x0, .keep, .hw⟩ /- 0x80–0xC8.COUNT -/]

/-- Register fields of context. -/
def Fields.context : List Fld := Fields.context0 ++ Fields.context1

/-- Register fields of windlass (R141, R119). -/
def Fields.windlass : List Fld := [
  ⟨0x40080000, 15, 8, .rw, 0x0, .reset, .supervisor⟩ /- CH_CTRL.EWAIT -/,
  ⟨0x40080000, 2, 1, .rw, 0x0, .reset, .supervisor⟩ /- CH_CTRL.PRIO -/,
  ⟨0x40080000, 0, 0, .rw, 0x0, .reset, .supervisor⟩ /- CH_CTRL.ENABLE -/,
  ⟨0x40080004, 28, 16, .ro, 0x0, .reset, .hw⟩ /- CH_STAT.INDEX -/,
  ⟨0x40080004, 15, 8, .ro, 0x0, .reset, .hw⟩ /- CH_STAT.RING -/,
  ⟨0x40080004, 2, 0, .ro, 0x3, .reset, .hw⟩ /- CH_STAT.STATE -/,
  ⟨0x40080008, 15, 0, .ro, 0x0, .reset, .hw⟩ /- CH_PROG.DONE -/,
  ⟨0x40080100, 31, 0, .w1c, 0x0, .reset, .supervisor⟩ /- RING_PEND k.PEND -/,
  ⟨0x40081000, 31, 5, .rw, 0x0, .reset, .supervisor⟩ /- RING_BASE.BASE -/,
  ⟨0x40081004, 31, 31, .rw, 0x0, .reset, .supervisor⟩ /- RING_CFG.ENABLE -/,
  ⟨0x40081004, 30, 30, .rw, 0x0, .reset, .supervisor⟩ /- RING_CFG.IRQ_EN -/,
  ⟨0x40081004, 27, 24, .rw, 0x2, .reset, .supervisor⟩ /- RING_CFG.SIZE -/,
  ⟨0x40081004, 18, 16, .rw, 0x0, .reset, .supervisor⟩ /- RING_CFG.CHAN -/,
  ⟨0x40081004, 8, 8, .rw, 0x0, .reset, .supervisor⟩ /- RING_CFG.DIR -/,
  ⟨0x40081008, 12, 0, .rw, 0x0, .reset, .supervisor⟩ /- RING_PROD.INDEX -/,
  ⟨0x4008100c, 12, 0, .rw, 0x0, .reset, .supervisor⟩ /- RING_CONS.INDEX -/,
  ⟨0x40082000, 31, 30, .ro, 0x0, .reset, .hw⟩ /- RING_STAT.STATE -/,
  ⟨0x40082000, 23, 20, .ro, 0x0, .reset, .hw⟩ /- RING_STAT.ERR -/,
  ⟨0x40082000, 9, 9, .w1c, 0x0, .reset, .supervisor⟩ /- RING_STAT.CFG_LOCKED -/,
  ⟨0x40082000, 0, 0, .wo, 0x0, .keep, .supervisor⟩ /- RING_STAT.RESUME -/,
  ⟨0x40082004, 15, 0, .ro, 0x0, .reset, .hw⟩ /- RING_LOST.PENDING -/,
  ⟨0x40082008, 31, 0, .ro, 0x0, .reset, .hw⟩ /- RING_DROPS.COUNT -/]

/-- Register fields of time (R158). -/
def Fields.time : List Fld := [
  ⟨0x400a0000, 1, 1, .rw, 0x0, .keep, .supervisor⟩ /- TIME_CTRL.PTP_COPY -/,
  ⟨0x400a0000, 0, 0, .rw, 0x0, .keep, .supervisor⟩ /- TIME_CTRL.ONE_STEP -/,
  ⟨0x400a0004, 7, 7, .w1c, 0x0, .keep, .supervisor⟩ /- TIME_STAT.ONE_STEP_SKIP -/,
  ⟨0x400a0004, 6, 6, .w1c, 0x0, .keep, .supervisor⟩ /- TIME_STAT.PPS_REFUSED -/,
  ⟨0x400a0004, 5, 5, .w1c, 0x0, .keep, .supervisor⟩ /- TIME_STAT.CMD_REFUSED -/,
  ⟨0x400a0004, 4, 4, .w1c, 0x0, .keep, .supervisor⟩ /- TIME_STAT.STEPPED -/,
  ⟨0x400a0004, 1, 0, .ro, 0x0, .keep, .hw⟩ /- TIME_STAT.LOCK -/,
  ⟨0x400a0008, 2, 0, .wo, 0x0, .keep, .supervisor⟩ /- TIME_CMD.OP -/,
  ⟨0x400a000c, 29, 0, .ro, 0x0, .keep, .hw⟩ /- TIME_NOW_NS.NS -/,
  ⟨0x400a0010, 31, 0, .ro, 0x0, .keep, .hw⟩ /- TIME_NOW_SEC_LO.SEC -/,
  ⟨0x400a0014, 15, 0, .ro, 0x0, .keep, .hw⟩ /- TIME_NOW_SEC_HI.SEC -/,
  ⟨0x400a0018, 29, 0, .rw, 0x0, .keep, .supervisor⟩ /- TIME_SET_NS.NS -/,
  ⟨0x400a001c, 31, 0, .rw, 0x0, .keep, .supervisor⟩ /- TIME_SET_SEC_LO.SEC -/,
  ⟨0x400a0020, 15, 0, .rw, 0x0, .keep, .supervisor⟩ /- TIME_SET_SEC_HI.SEC -/,
  ⟨0x400a0024, 31, 0, .rw, 0x0, .keep, .supervisor⟩ /- TIME_ADD.NS -/,
  ⟨0x400a0028, 31, 0, .rw, 0x0, .keep, .supervisor⟩ /- TIME_FREQ.FREQ -/,
  ⟨0x400a002c, 31, 16, .rw, 0xa, .keep, .supervisor⟩ /- TIME_SERVO.HOLD_MAX -/,
  ⟨0x400a002c, 15, 0, .rw, 0xbb8, .keep, .supervisor⟩ /- TIME_SERVO.SERVO_TO -/,
  ⟨0x400a0030, 23, 4, .rw, 0x186a0, .keep, .supervisor⟩ /- TIME_PPS_CFG.OUT_WIDTH -/,
  ⟨0x400a0030, 3, 3, .rw, 0x0, .keep, .supervisor⟩ /- TIME_PPS_CFG.IN_EDGE -/,
  ⟨0x400a0030, 2, 2, .rw, 0x0, .keep, .supervisor⟩ /- TIME_PPS_CFG.IN_EN -/,
  ⟨0x400a0030, 1, 1, .rw, 0x0, .keep, .supervisor⟩ /- TIME_PPS_CFG.OUT_POL -/,
  ⟨0x400a0030, 0, 0, .rw, 0x0, .keep, .supervisor⟩ /- TIME_PPS_CFG.OUT_EN -/,
  ⟨0x400a0034, 29, 0, .ro, 0x0, .keep, .hw⟩ /- TIME_PPSIN_NS.NS -/,
  ⟨0x400a0038, 31, 0, .ro, 0x0, .keep, .hw⟩ /- TIME_PPSIN_SEC.SEC -/,
  ⟨0x400a003c, 15, 8, .ro, 0x0, .keep, .hw⟩ /- TIME_PPSIN_STAT.MISSED -/,
  ⟨0x400a003c, 0, 0, .w1c, 0x0, .keep, .supervisor⟩ /- TIME_PPSIN_STAT.VALID -/]

/-- Register fields of intc (R223). -/
def Fields.intc : List Fld := [
  ⟨0x400d0000, 3, 0, .rw, 0x0, .reset, .supervisor⟩ /- INTC_PRIO k.PRIO j -/,
  ⟨0x400d0000, 7, 4, .rw, 0x0, .reset, .supervisor⟩ /- INTC_PRIO k.PRIO j -/,
  ⟨0x400d0000, 11, 8, .rw, 0x0, .reset, .supervisor⟩ /- INTC_PRIO k.PRIO j -/,
  ⟨0x400d0000, 15, 12, .rw, 0x0, .reset, .supervisor⟩ /- INTC_PRIO k.PRIO j -/,
  ⟨0x400d0000, 19, 16, .rw, 0x0, .reset, .supervisor⟩ /- INTC_PRIO k.PRIO j -/,
  ⟨0x400d0000, 23, 20, .rw, 0x0, .reset, .supervisor⟩ /- INTC_PRIO k.PRIO j -/,
  ⟨0x400d0000, 27, 24, .rw, 0x0, .reset, .supervisor⟩ /- INTC_PRIO k.PRIO j -/,
  ⟨0x400d0000, 31, 28, .rw, 0x0, .reset, .supervisor⟩ /- INTC_PRIO k.PRIO j -/,
  ⟨0x400d0100, 31, 0, .ro, 0x0, .reset, .hw⟩ /- INTC_PEND k.PEND -/,
  ⟨0x400d0120, 31, 31, .ro, 0x0, .reset, .hw⟩ /- INTC_TOP.VALID -/,
  ⟨0x400d0120, 11, 8, .ro, 0x0, .reset, .hw⟩ /- INTC_TOP.PRIO -/,
  ⟨0x400d0120, 7, 0, .ro, 0x0, .reset, .hw⟩ /- INTC_TOP.SOURCE -/,
  ⟨0x400d0130, 7, 0, .rw, 0x0, .reset, .supervisor⟩ /- INTC_SOFT.SOFT -/]

/-- Register fields of access (R241, R230, R242, R228). -/
def Fields.access0 : List Fld := [
  ⟨0x40030000, 1, 1, .rwl, 0x1, .keep, .vault⟩ /- ACCESS_CTRL.VAULT_DEFAULT -/,
  ⟨0x40030000, 0, 0, .rwl, 0x0, .keep, .vault⟩ /- ACCESS_CTRL.LOCK -/,
  ⟨0x40030004, 16, 16, .ro, 0x0, .keep, .hw⟩ /- ACCESS_EPOCH.SET -/,
  ⟨0x40030004, 9, 9, .ro, 0x0, .reset, .hw⟩ /- ACCESS_EPOCH.PEND_FW -/,
  ⟨0x40030004, 8, 8, .ro, 0x0, .keep, .hw⟩ /- ACCESS_EPOCH.PREV_LIVE -/,
  ⟨0x40030004, 7, 4, .ro, 0xf, .keep, .hw⟩ /- ACCESS_EPOCH.PREV -/,
  ⟨0x40030004, 3, 0, .ro, 0x0, .keep, .hw⟩ /- ACCESS_EPOCH.CUR -/,
  ⟨0x40030008, 1, 0, .wo, 0x0, .keep, .vault⟩ /- ACCESS_FW_COMMIT.OP -/,
  ⟨0x4003000c, 1, 0, .ro, 0x0, .keep, .hw⟩ /- ACCESS_FW_RESULT.STATUS -/,
  ⟨0x40030010, 1, 1, .w1c, 0x0, .keep, .vault⟩ /- ACCESS_STAT.FW_LOCKED_WR -/,
  ⟨0x40030010, 0, 0, .w1c, 0x0, .keep, .supervisor⟩ /- ACCESS_STAT.ACTIVE_WR -/,
  ⟨0x40030100, 31, 0, .ro, 0x0, .keep, .hw⟩ /- ACCESS_MV_ADDR.ADDR -/,
  ⟨0x40030104, 31, 31, .w1c, 0x0, .keep, .supervisor⟩ /- ACCESS_MV_INFO.VALID -/,
  ⟨0x40030104, 30, 30, .w1c, 0x0, .keep, .supervisor⟩ /- ACCESS_MV_INFO.MULTI -/,
  ⟨0x40030104, 23, 20, .ro, 0x0, .keep, .hw⟩ /- ACCESS_MV_INFO.EPOCH -/,
  ⟨0x40030104, 19, 16, .ro, 0x0, .keep, .hw⟩ /- ACCESS_MV_INFO.MASTER -/,
  ⟨0x40030104, 15, 14, .ro, 0x0, .keep, .hw⟩ /- ACCESS_MV_INFO.KIND -/,
  ⟨0x40030104, 13, 13, .ro, 0x0, .keep, .hw⟩ /- ACCESS_MV_INFO.SET -/,
  ⟨0x40030104, 10, 8, .ro, 0x0, .keep, .hw⟩ /- ACCESS_MV_INFO.REASON -/,
  ⟨0x40030104, 5, 0, .ro, 0x0, .keep, .hw⟩ /- ACCESS_MV_INFO.REGION -/,
  ⟨0x40030040, 6, 0, .rwl, 0x0, .keep, .vault⟩ /- GROUPS -/,
  ⟨0x40030110, 31, 0, .ro, 0x0, .keep, .hw⟩ /- ACCESS_SV_ADDR.ADDR -/,
  ⟨0x40030114, 31, 31, .w1c, 0x0, .keep, .supervisor⟩ /- ACCESS_SV_INFO.VALID -/,
  ⟨0x40030114, 30, 30, .w1c, 0x0, .keep, .supervisor⟩ /- ACCESS_SV_INFO.MULTI -/,
  ⟨0x40030114, 29, 25, .ro, 0x0, .keep, .hw⟩ /- ACCESS_SV_INFO.FW -/,
  ⟨0x40030114, 24, 21, .ro, 0x0, .keep, .hw⟩ /- ACCESS_SV_INFO.EPOCH -/,
  ⟨0x40030114, 20, 17, .ro, 0x0, .keep, .hw⟩ /- ACCESS_SV_INFO.MASTER -/,
  ⟨0x40030114, 16, 15, .ro, 0x0, .keep, .hw⟩ /- ACCESS_SV_INFO.KIND -/,
  ⟨0x40030114, 14, 12, .ro, 0x0, .keep, .hw⟩ /- ACCESS_SV_INFO.REASON -/,
  ⟨0x40030114, 5, 0, .ro, 0x0, .keep, .hw⟩ /- ACCESS_SV_INFO.REGION -/,
  ⟨0x40030118, 31, 0, .ro, 0x0, .keep, .hw⟩ /- ACCESS_SV_COUNT.COUNT -/,
  ⟨0x40031000, 31, 0, .rw, 0x0, .keep, .supervisor⟩ /- MPU_BASE.BASE -/,
  ⟨0x40031004, 31, 0, .rw, 0x0, .keep, .supervisor⟩ /- MPU_LIMIT.LIMIT -/,
  ⟨0x40031008, 31, 31, .rw, 0x0, .keep, .supervisor⟩ /- MPU_ATTR.EN -/,
  ⟨0x40031008, 6, 6, .rw, 0x0, .keep, .supervisor⟩ /- MPU_ATTR.S_X -/,
  ⟨0x40031008, 5, 5, .rw, 0x0, .keep, .supervisor⟩ /- MPU_ATTR.S_W -/,
  ⟨0x40031008, 4, 4, .rw, 0x0, .keep, .supervisor⟩ /- MPU_ATTR.S_R -/,
  ⟨0x40031008, 2, 2, .rw, 0x0, .keep, .supervisor⟩ /- MPU_ATTR.U_X -/,
  ⟨0x40031008, 1, 1, .rw, 0x0, .keep, .supervisor⟩ /- MPU_ATTR.U_W -/,
  ⟨0x40031008, 0, 0, .rw, 0x0, .keep, .supervisor⟩ /- MPU_ATTR.U_R -/]

/-- Register fields of access (R236). -/
def Fields.access1 : List Fld := [
  ⟨0x40032000, 31, 0, .rw, 0x0, .keep, .vault⟩ /- FW_BASE.BASE -/,
  ⟨0x40032004, 31, 0, .rw, 0x0, .keep, .vault⟩ /- FW_LIMIT.LIMIT -/,
  ⟨0x40032008, 31, 31, .rw, 0x0, .keep, .vault⟩ /- FW_RULE.EN -/,
  ⟨0x40032008, 18, 18, .rw, 0x0, .keep, .vault⟩ /- FW_RULE.X -/,
  ⟨0x40032008, 17, 17, .rw, 0x0, .keep, .vault⟩ /- FW_RULE.W -/,
  ⟨0x40032008, 16, 16, .rw, 0x0, .keep, .vault⟩ /- FW_RULE.R -/,
  ⟨0x40032008, 15, 0, .rw, 0x0, .keep, .vault⟩ /- FW_RULE.MASTERS -/]

/-- Register fields of access. -/
def Fields.access : List Fld := Fields.access0 ++ Fields.access1

/-- Register fields of cePage (R269). -/
def Fields.cePage : List Fld := [
  ⟨0x50000000, 1, 0, .wo, 0x0, .keep, .user⟩ /- CE_CMD.OP -/,
  ⟨0x50000004, 31, 30, .rw, 0x0, .zero, .user⟩ /- CE_CFG.PART -/,
  ⟨0x50000004, 29, 24, .rw, 0x0, .zero, .user⟩ /- CE_CFG.SLOT -/,
  ⟨0x50000004, 23, 19, .rw, 0x10, .zero, .user⟩ /- CE_CFG.TAGLEN -/,
  ⟨0x50000004, 16, 16, .rw, 0x0, .zero, .user⟩ /- CE_CFG.DIR -/,
  ⟨0x50000004, 7, 0, .rw, 0x0, .zero, .user⟩ /- CE_CFG.OP -/,
  ⟨0x50000008, 31, 0, .rw, 0x0, .zero, .user⟩ /- CE_SRC.SRC -/,
  ⟨0x5000000c, 31, 0, .rw, 0x0, .zero, .user⟩ /- CE_DST.DST -/,
  ⟨0x50000010, 23, 0, .rw, 0x0, .zero, .user⟩ /- CE_LEN.LEN -/,
  ⟨0x50000014, 23, 0, .rw, 0x0, .zero, .user⟩ /- CE_AAD.AAD -/,
  ⟨0x50000018, 31, 31, .ro, 0x0, .zero, .hw⟩ /- CE_STAT.BUSY -/,
  ⟨0x50000018, 30, 30, .w1c, 0x0, .zero, .user⟩ /- CE_STAT.CMD_LOST -/,
  ⟨0x50000018, 29, 28, .ro, 0x0, .zero, .hw⟩ /- CE_STAT.WAIT -/,
  ⟨0x50000018, 8, 8, .w1c, 0x0, .zero, .user⟩ /- CE_STAT.DONE -/,
  ⟨0x50000018, 4, 0, .ro, 0x0, .zero, .hw⟩ /- CE_STAT.STATUS -/,
  ⟨0x5000001c, 23, 0, .ro, 0x0, .zero, .hw⟩ /- CE_PROG.DONE -/,
  ⟨0x50000020, 31, 0, .rw, 0x0, .zero, .user⟩ /- CE_IV0–3.IV -/,
  ⟨0x50000030, 31, 0, .rw, 0x0, .zero, .user⟩ /- CE_TAG0–3.TAG -/,
  ⟨0x50000040, 31, 0, .ro, 0x0, .zero, .hw⟩ /- CE_DIGEST0–15.DIGEST -/,
  ⟨0x50000080, 31, 0, .ro, 0x0, .zero, .hw⟩ /- CE_INV_LO, CE_INV_HI.INV -/,
  ⟨0x50000084, 31, 0, .ro, 0x0, .zero, .hw⟩ /- CE_INV_LO, CE_INV_HI.INV -/,
  ⟨0x50000088, 31, 0, .ro, 0x0, .zero, .hw⟩ /- CE_FAIL_ADDR.ADDR -/]

/-- Register fields of ce (R270). -/
def Fields.ce : List Fld := [
  ⟨0x40070000, 15, 8, .rw, 0x0, .reset, .supervisor⟩ /- CE_CTRL.EWAIT -/,
  ⟨0x40070000, 0, 0, .rwl, 0x0, .keep, .vault⟩ /- CE_CTRL.PROV_LOCK -/,
  ⟨0x40070004, 21, 16, .wo, 0x0, .keep, .vault⟩ /- CE_KEY_CMD.KEK -/,
  ⟨0x40070004, 13, 8, .wo, 0x0, .keep, .vault⟩ /- CE_KEY_CMD.SLOT -/,
  ⟨0x40070004, 2, 0, .wo, 0x0, .keep, .vault⟩ /- CE_KEY_CMD.OP -/,
  ⟨0x40070008, 31, 0, .rw, 0x0, .zero, .vault⟩ /- CE_KEY_ADDR.ADDR -/,
  ⟨0x4007000c, 31, 16, .rw, 0x0, .zero, .vault⟩ /- CE_KEY_HDR0.PLEN -/,
  ⟨0x4007000c, 7, 0, .rw, 0x0, .zero, .vault⟩ /- CE_KEY_HDR0.TYPE -/,
  ⟨0x40070010, 9, 0, .rw, 0x0, .zero, .vault⟩ /- CE_KEY_HDR1.USAGE -/,
  ⟨0x40070014, 31, 0, .rw, 0x0, .zero, .vault⟩ /- CE_KEY_HDR2.FIXED -/,
  ⟨0x40070018, 31, 31, .ro, 0x0, .reset, .hw⟩ /- CE_KEY_RESULT.BUSY -/,
  ⟨0x40070018, 30, 30, .w1c, 0x0, .reset, .vault⟩ /- CE_KEY_RESULT.CMD_LOST -/,
  ⟨0x40070018, 13, 8, .ro, 0x0, .reset, .hw⟩ /- CE_KEY_RESULT.SLOT -/,
  ⟨0x40070018, 3, 0, .ro, 0x0, .reset, .hw⟩ /- CE_KEY_RESULT.STATUS -/,
  ⟨0x40070400, 31, 31, .rw, 0x0, .reset, .vault⟩ /- CE_PAGE_CTL r.EN -/,
  ⟨0x40070400, 0, 0, .rw, 0x0, .reset, .vault⟩ /- CE_PAGE_CTL r.NPOL -/,
  ⟨0x40070404, 31, 0, .rw, 0x0, .reset, .vault⟩ /- CE_PAGE_GRANT_LO r, _HI r.GRANT -/,
  ⟨0x40070408, 31, 0, .rw, 0x0, .reset, .vault⟩ /- CE_PAGE_GRANT_LO r, _HI r.GRANT -/,
  ⟨0x4007040c, 31, 0, .rw, 0x0, .reset, .vault⟩ /- CE_PAGE_WIN_BASE r, _LIMIT r.ADDR -/,
  ⟨0x40070410, 31, 0, .rw, 0x0, .reset, .vault⟩ /- CE_PAGE_WIN_BASE r, _LIMIT r.ADDR -/,
  ⟨0x40070800, 31, 31, .ro, 0x0, .zero, .hw⟩ /- CE_SLOT_INFO s.VALID -/,
  ⟨0x40070800, 30, 30, .ro, 0x0, .zero, .hw⟩ /- CE_SLOT_INFO s.DAMAGED -/,
  ⟨0x40070800, 29, 29, .ro, 0x0, .zero, .hw⟩ /- CE_SLOT_INFO s.ORIGIN -/,
  ⟨0x40070800, 28, 28, .ro, 0x0, .zero, .hw⟩ /- CE_SLOT_INFO s.CACHED -/,
  ⟨0x40070800, 27, 27, .ro, 0x0, .zero, .hw⟩ /- CE_SLOT_INFO s.HELD -/,
  ⟨0x40070800, 25, 16, .ro, 0x0, .zero, .hw⟩ /- CE_SLOT_INFO s.USAGE -/,
  ⟨0x40070800, 15, 8, .ro, 0x0, .zero, .hw⟩ /- CE_SLOT_INFO s.LEN -/,
  ⟨0x40070800, 7, 0, .ro, 0x0, .zero, .hw⟩ /- CE_SLOT_INFO s.TYPE -/,
  ⟨0x40070804, 31, 0, .ro, 0x0, .zero, .hw⟩ /- CE_SLOT_FIXED s.FIXED -/,
  ⟨0x40070c00, 31, 0, .ro, 0x0, .zero, .hw⟩ /- CE_SLOT_INV_LO s, _HI s.INV -/,
  ⟨0x40070c04, 31, 0, .ro, 0x0, .zero, .hw⟩ /- CE_SLOT_INV_LO s, _HI s.INV -/,
  ⟨0x40070e00, 2, 2, .rw, 0x0, .reset, .supervisor⟩ /- CE_RNG_CTL.PR -/,
  ⟨0x40070e00, 1, 1, .wo, 0x0, .keep, .supervisor⟩ /- CE_RNG_CTL.RESEED -/,
  ⟨0x40070e00, 0, 0, .wo, 0x0, .keep, .vault⟩ /- CE_RNG_CTL.RESTART -/,
  ⟨0x40070e04, 31, 16, .ro, 0x0, .reset, .hw⟩ /- CE_RNG_STAT.RESEEDS -/,
  ⟨0x40070e04, 3, 3, .ro, 0x0, .reset, .hw⟩ /- CE_RNG_STAT.APT_FAIL -/,
  ⟨0x40070e04, 2, 2, .ro, 0x0, .reset, .hw⟩ /- CE_RNG_STAT.RCT_FAIL -/,
  ⟨0x40070e04, 1, 0, .ro, 0x0, .reset, .hw⟩ /- CE_RNG_STAT.STATE -/]

/-- Register fields of integrity (R295). -/
def Fields.integrity0 : List Fld := [
  ⟨0x40040000, 15, 12, .rw, 0x3, .keep, .supervisor⟩ /- INTEG_CTL.REFRESH_THR -/,
  ⟨0x40040000, 0, 0, .rw, 0x1, .keep, .vault⟩ /- INTEG_CTL.TRK_EN -/,
  ⟨0x40040004, 31, 0, .ro, 0x0, .keep, .hw⟩ /- INTEG_CE_COUNT.COUNT -/,
  ⟨0x40040008, 31, 0, .ro, 0x0, .keep, .hw⟩ /- INTEG_UE_COUNT.COUNT -/,
  ⟨0x4004000c, 2, 2, .w1c, 0x0, .keep, .supervisor⟩ /- INTEG_STAT.REFQ_LOST -/,
  ⟨0x4004000c, 1, 1, .w1c, 0x0, .keep, .supervisor⟩ /- INTEG_STAT.TRK_LOST -/,
  ⟨0x4004000c, 0, 0, .w1c, 0x0, .keep, .supervisor⟩ /- INTEG_STAT.POISON_WR -/,
  ⟨0x40040010, 31, 0, .ro, 0x0, .keep, .hw⟩ /- INTEG_CE_ADDR.ADDR -/,
  ⟨0x40040014, 31, 31, .w1c, 0x0, .keep, .supervisor⟩ /- INTEG_CE_INFO.VALID -/,
  ⟨0x40040014, 30, 30, .w1c, 0x0, .keep, .supervisor⟩ /- INTEG_CE_INFO.MULTI -/,
  ⟨0x40040014, 29, 25, .ro, 0x0, .keep, .hw⟩ /- INTEG_CE_INFO.SOURCE -/,
  ⟨0x40040014, 24, 21, .ro, 0x0, .keep, .hw⟩ /- INTEG_CE_INFO.MASTER -/,
  ⟨0x40040014, 20, 16, .ro, 0x0, .keep, .hw⟩ /- INTEG_CE_INFO.SYNDROME -/,
  ⟨0x40040014, 11, 8, .ro, 0x0, .keep, .hw⟩ /- INTEG_CE_INFO.BITS -/,
  ⟨0x40040014, 7, 0, .ro, 0x0, .keep, .hw⟩ /- INTEG_CE_INFO.LANES -/,
  ⟨0x40040100, 31, 0, .ro, 0x0, .keep, .hw⟩ /- INTEG_TRK_ADDR k.ADDR -/,
  ⟨0x40040104, 31, 31, .ro, 0x0, .keep, .hw⟩ /- INTEG_TRK_INFO k.VALID -/,
  ⟨0x40040104, 30, 30, .ro, 0x0, .keep, .hw⟩ /- INTEG_TRK_INFO k.KIND -/,
  ⟨0x40040104, 29, 25, .ro, 0x0, .keep, .hw⟩ /- INTEG_TRK_INFO k.SOURCE -/,
  ⟨0x40040104, 2, 0, .ro, 0x0, .keep, .hw⟩ /- INTEG_TRK_INFO k.COUNT -/,
  ⟨0x40040200, 27, 16, .ro, 0x0, .keep, .hw⟩ /- INTEG_REMAP_STAT b.LAST_ROW -/,
  ⟨0x40040200, 5, 5, .ro, 0x0, .keep, .hw⟩ /- INTEG_REMAP_STAT b.EXHAUSTED -/,
  ⟨0x40040200, 4, 0, .ro, 0x0, .keep, .hw⟩ /- INTEG_REMAP_STAT b.USED -/,
  ⟨0x40040240, 16, 16, .wo, 0x0, .keep, .vault⟩ /- INTEG_REMAP_CMD.GO -/,
  ⟨0x40040240, 15, 12, .wo, 0x0, .keep, .vault⟩ /- INTEG_REMAP_CMD.BANK -/,
  ⟨0x40040240, 10, 0, .wo, 0x0, .keep, .vault⟩ /- INTEG_REMAP_CMD.ROW -/,
  ⟨0x40040244, 1, 0, .ro, 0x0, .keep, .hw⟩ /- INTEG_REMAP_RESULT.STATUS -/,
  ⟨0x40040300, 31, 31, .ro, 0x0, .keep, .hw⟩ /- INTEG_REFQ k.VALID -/,
  ⟨0x40040300, 30, 30, .ro, 0x0, .keep, .hw⟩ /- INTEG_REFQ k.MEM -/,
  ⟨0x40040300, 15, 12, .ro, 0x0, .keep, .hw⟩ /- INTEG_REFQ k.BITS -/,
  ⟨0x40040300, 11, 0, .ro, 0x0, .keep, .hw⟩ /- INTEG_REFQ k.PAGE -/,
  ⟨0x40040320, 3, 3, .wo, 0x0, .keep, .vault⟩ /- INTEG_REFQ_CMD.REMOVE -/,
  ⟨0x40040320, 2, 0, .wo, 0x0, .keep, .vault⟩ /- INTEG_REFQ_CMD.ENTRY -/,
  ⟨0x40040400, 31, 31, .rw, 0x0, .reset, .vault⟩ /- INTEG_TEST_CTL.EN -/,
  ⟨0x40040400, 3, 0, .rw, 0x0, .reset, .vault⟩ /- INTEG_TEST_CTL.TARGET -/,
  ⟨0x40040404, 19, 0, .rw, 0x0, .reset, .vault⟩ /- INTEG_TEST_CHK.CHK -/,
  ⟨0x40040408, 19, 0, .ro, 0x0, .reset, .hw⟩ /- INTEG_TEST_RAW.CHK -/,
  ⟨0x40040500, 31, 6, .rw, 0x0, .reset, .supervisor⟩ /- DRG_BASE.ADDR -/,
  ⟨0x40040508, 11, 8, .rw, 0x4, .reset, .supervisor⟩ /- DRG_CTL.PACE -/,
  ⟨0x40040508, 1, 0, .wo, 0x0, .keep, .supervisor⟩ /- DRG_CTL.OP -/]

/-- Register fields of integrity (R295). -/
def Fields.integrity1 : List Fld := [
  ⟨0x4004050c, 31, 31, .w1c, 0x0, .reset, .supervisor⟩ /- DRG_STAT.DONE -/,
  ⟨0x4004050c, 30, 30, .ro, 0x0, .reset, .hw⟩ /- DRG_STAT.RUN -/,
  ⟨0x4004050c, 2, 0, .ro, 0x0, .reset, .hw⟩ /- DRG_STAT.STATUS -/,
  ⟨0x40040510, 31, 0, .ro, 0x0, .reset, .hw⟩ /- DRG_SUM.COUNT -/]

/-- Register fields of integrity. -/
def Fields.integrity : List Fld := Fields.integrity0 ++ Fields.integrity1

/-- Register fields of cistern (R325). -/
def Fields.cistern : List Fld := [
  ⟨0x40050000, 31, 28, .wo, 0x0, .keep, .supervisor⟩ /- CST_CMD.OP -/,
  ⟨0x40050000, 27, 20, .wo, 0x0, .keep, .supervisor⟩ /- CST_CMD.RTYPE -/,
  ⟨0x40050000, 10, 0, .wo, 0x0, .keep, .supervisor⟩ /- CST_CMD.TARGET -/,
  ⟨0x40050004, 31, 0, .rw, 0x0, .reset, .supervisor⟩ /- CST_ARG.ARG -/,
  ⟨0x40050008, 31, 0, .rw, 0x0, .reset, .supervisor⟩ /- CST_VAL_LO.VAL -/,
  ⟨0x4005000c, 5, 0, .rw, 0x0, .reset, .supervisor⟩ /- CST_VAL_HI.VAL -/,
  ⟨0x40050010, 31, 31, .ro, 0x0, .reset, .hw⟩ /- CST_STAT.BUSY -/,
  ⟨0x40050010, 30, 30, .w1c, 0x0, .reset, .supervisor⟩ /- CST_STAT.CMD_LOST -/,
  ⟨0x40050010, 29, 29, .w1c, 0x0, .reset, .supervisor⟩ /- CST_STAT.DONE -/,
  ⟨0x40050010, 28, 26, .ro, 0x1, .reset, .hw⟩ /- CST_STAT.PHASE -/,
  ⟨0x40050010, 19, 16, .ro, 0x0, .reset, .hw⟩ /- CST_STAT.STATUS -/,
  ⟨0x40050010, 10, 0, .ro, 0x0, .reset, .hw⟩ /- CST_STAT.LEN -/,
  ⟨0x40050014, 31, 0, .ro, 0x0, .reset, .hw⟩ /- CST_SEQ.SEQ -/,
  ⟨0x4005001c, 31, 0, .ro, 0x0, .reset, .hw⟩ /- CST_ESN_LO.ESN -/,
  ⟨0x40050020, 15, 0, .ro, 0x0, .reset, .hw⟩ /- CST_ESN_HI.ESN -/,
  ⟨0x40050024, 23, 16, .rw, 0x3c, .keep, .supervisor⟩ /- CST_CTL.SCAN_INT -/,
  ⟨0x40050024, 15, 8, .rw, 0x0, .reset, .supervisor⟩ /- CST_CTL.EWAIT -/,
  ⟨0x40050028, 1, 0, .rw, 0x0, .keep, .vault⟩ /- CST_PROT.BP -/,
  ⟨0x4005002c, 31, 16, .ro, 0x0, .keep, .hw⟩ /- CST_HEALTH.REFRESHES -/,
  ⟨0x4005002c, 15, 0, .ro, 0x0, .keep, .hw⟩ /- CST_HEALTH.WEAK_FOUND -/,
  ⟨0x40050030, 7, 5, .ro, 0x0, .keep, .hw⟩ /- CST_JRNL.OP -/,
  ⟨0x40050030, 4, 3, .ro, 0x0, .keep, .hw⟩ /- CST_JRNL.OUTCOME -/,
  ⟨0x40050034, 10, 0, .ro, 0x0, .keep, .hw⟩ /- CST_ALARM.UNACKED -/,
  ⟨0x40050400, 31, 0, .rw, 0x0, .zero, .supervisor⟩ /- CST_BUF_A.DATA -/,
  ⟨0x40050800, 31, 0, .ro, 0x0, .zero, .hw⟩ /- CST_BUF_B.DATA -/]

/-- Register fields of rfif (R354). -/
def Fields.rfif : List Fld := [
  ⟨0x400b0000, 15, 13, .ro, 0x0, .reset, .hw⟩ /- RFIF_STAT.TIER -/,
  ⟨0x400b0000, 12, 12, .ro, 0x0, .reset, .hw⟩ /- RFIF_STAT.SESSION -/,
  ⟨0x400b0000, 10, 8, .ro, 0x0, .reset, .hw⟩ /- RFIF_STAT.LAYER -/,
  ⟨0x400b0000, 5, 4, .ro, 0x0, .reset, .hw⟩ /- RFIF_STAT.RATE -/,
  ⟨0x400b0000, 3, 2, .ro, 0x0, .reset, .hw⟩ /- RFIF_STAT.PROTO -/,
  ⟨0x400b0000, 1, 1, .ro, 0x0, .keep, .hw⟩ /- RFIF_STAT.CFG_DEFAULT -/,
  ⟨0x400b0000, 0, 0, .ro, 0x0, .keep, .hw⟩ /- RFIF_STAT.FIELD -/,
  ⟨0x400b0004, 2, 2, .wo, 0x0, .keep, .vault⟩ /- RFIF_CTL.RELOAD -/,
  ⟨0x400b0004, 1, 1, .rw, 0x0, .reset, .vault⟩ /- RFIF_CTL.DISABLE -/,
  ⟨0x400b0004, 0, 0, .rw, 0x0, .reset, .supervisor⟩ /- RFIF_CTL.FW_READY -/,
  ⟨0x400b0008, 31, 31, .ro, 0x0, .reset, .hw⟩ /- RFIF_FW_CMD.VALID -/,
  ⟨0x400b0008, 30, 30, .ro, 0x0, .reset, .hw⟩ /- RFIF_FW_CMD.SECURE -/,
  ⟨0x400b0008, 29, 28, .ro, 0x0, .reset, .hw⟩ /- RFIF_FW_CMD.KEYNO -/,
  ⟨0x400b0008, 8, 0, .ro, 0x0, .reset, .hw⟩ /- RFIF_FW_CMD.LEN -/,
  ⟨0x400b000c, 31, 0, .ro, 0x0, .reset, .hw⟩ /- RFIF_FW_DATA.DATA -/,
  ⟨0x400b0010, 31, 16, .wo, 0x0, .keep, .supervisor⟩ /- RFIF_FW_RESP.SW -/,
  ⟨0x400b0010, 8, 0, .wo, 0x0, .keep, .supervisor⟩ /- RFIF_FW_RESP.LEN -/,
  ⟨0x400b0014, 29, 24, .rw, 0x20, .reset, .supervisor⟩ /- RFIF_FW_CFG.WTX_MAX -/,
  ⟨0x400b0014, 21, 16, .rw, 0xa, .reset, .supervisor⟩ /- RFIF_FW_CFG.WTXM -/,
  ⟨0x400b0014, 15, 0, .rw, 0x3e8, .reset, .supervisor⟩ /- RFIF_FW_CFG.TMO_MS -/,
  ⟨0x400b0018, 6, 6, .w1c, 0x0, .keep, .supervisor⟩ /- RFIF_ERR.LATE_RESP -/,
  ⟨0x400b0018, 5, 5, .w1c, 0x0, .keep, .supervisor⟩ /- RFIF_ERR.FW_LOST -/,
  ⟨0x400b0018, 4, 4, .w1c, 0x0, .keep, .supervisor⟩ /- RFIF_ERR.FW_TIMEOUT -/,
  ⟨0x400b0018, 3, 3, .w1c, 0x0, .keep, .supervisor⟩ /- RFIF_ERR.POISON -/,
  ⟨0x400b0018, 2, 2, .w1c, 0x0, .keep, .supervisor⟩ /- RFIF_ERR.MAC_FAIL -/,
  ⟨0x400b0018, 1, 1, .w1c, 0x0, .keep, .supervisor⟩ /- RFIF_ERR.PROTO_ERR -/,
  ⟨0x400b0018, 0, 0, .w1c, 0x0, .keep, .supervisor⟩ /- RFIF_ERR.CRC_ERR -/,
  ⟨0x400b001c, 31, 0, .ro, 0x0, .reset, .hw⟩ /- RFIF_UID_LO.UID -/,
  ⟨0x400b0020, 23, 0, .ro, 0x0, .reset, .hw⟩ /- RFIF_UID_HI.UID -/,
  ⟨0x400b0024, 0, 0, .w1c, 0x0, .keep, .supervisor⟩ /- RFIF_EVT.FIELD_CHG -/,
  ⟨0x400b0400, 31, 0, .rw, 0x0, .zero, .supervisor⟩ /- RFIF_FW_RESP_BUF.DATA -/]

/-- Register fields of wellhead (R376). -/
def Fields.wellhead : List Fld := [
  ⟨0x40010000, 15, 13, .ro, 0x0, .keep, .hw⟩ /- WH_STAT.MARK -/,
  ⟨0x40010000, 11, 10, .ro, 0x0, .keep, .hw⟩ /- WH_STAT.AON_SRC -/,
  ⟨0x40010000, 9, 9, .ro, 0x0, .keep, .hw⟩ /- WH_STAT.PV_OK -/,
  ⟨0x40010000, 8, 8, .ro, 0x0, .keep, .hw⟩ /- WH_STAT.VBAT_OK -/,
  ⟨0x40010000, 0, 0, .ro, 0x0, .keep, .hw⟩ /- WH_STAT.HOST_GOOD -/,
  ⟨0x40010004, 31, 16, .ro, 0x0, .keep, .hw⟩ /- WH_VHOLD.E_AVAIL -/,
  ⟨0x40010004, 11, 0, .ro, 0x0, .keep, .hw⟩ /- WH_VHOLD.MV -/,
  ⟨0x40010008, 31, 16, .ro, 0x0, .reset, .hw⟩ /- WH_GAUGE.HELD -/,
  ⟨0x40010008, 4, 4, .ro, 0x0, .reset, .hw⟩ /- WH_GAUGE.CST_FIRST -/,
  ⟨0x40010008, 3, 0, .ro, 0x0, .reset, .hw⟩ /- WH_GAUGE.WAITING -/,
  ⟨0x4001000c, 31, 0, .ro, 0x0, .keep, .hw⟩ /- WH_REFUSED.COUNT -/,
  ⟨0x40010010, 31, 16, .ro, 0x0, .keep, .hw⟩ /- WH_PV.VMPP -/,
  ⟨0x40010010, 15, 0, .ro, 0x0, .keep, .hw⟩ /- WH_PV.VOC -/,
  ⟨0x40010014, 11, 0, .ro, 0x0, .keep, .hw⟩ /- WH_VBAT.MV -/,
  ⟨0x40010018, 4, 4, .w1c, 0x0, .keep, .supervisor⟩ /- WH_EVT.AVS_LINK -/,
  ⟨0x40010018, 3, 3, .w1c, 0x0, .keep, .supervisor⟩ /- WH_EVT.AVS_LIMIT -/,
  ⟨0x40010018, 2, 2, .w1c, 0x0, .keep, .supervisor⟩ /- WH_EVT.PV_CHG -/,
  ⟨0x40010018, 1, 1, .w1c, 0x0, .keep, .supervisor⟩ /- WH_EVT.VBAT_LOW -/,
  ⟨0x40010018, 0, 0, .w1c, 0x0, .keep, .supervisor⟩ /- WH_EVT.MARK_CHG -/,
  ⟨0x4001001c, 4, 0, .rw, 0x1f, .reset, .supervisor⟩ /- WH_EVT_EN.EN -/,
  ⟨0x40010020, 31, 31, .rwl, 0x0, .keep, .vault⟩ /- WH_AVS_CFG.LOCK -/,
  ⟨0x40010020, 6, 0, .rwl, 0x40, .keep, .vault⟩ /- WH_AVS_CFG.ADDR -/,
  ⟨0x40010024, 31, 31, .ro, 0x0, .keep, .hw⟩ /- WH_AVS_STAT.LINK_FAIL -/,
  ⟨0x40010024, 30, 30, .ro, 0x0, .keep, .hw⟩ /- WH_AVS_STAT.LIMIT -/,
  ⟨0x40010024, 9, 0, .ro, 0x384, .keep, .hw⟩ /- WH_AVS_STAT.VSET -/,
  ⟨0x40010028, 31, 31, .ro, 0x0, .reset, .hw⟩ /- WH_PMODE.BUSY -/,
  ⟨0x40010028, 1, 0, .rw, 0x1, .reset, .supervisor⟩ /- WH_PMODE.MODE -/]

/-- Register fields of events (R397). -/
def Fields.events : List Fld := [
  ⟨0x40090000, 31, 0, .ro, 0x0, .keep, .hw⟩ /- EVT_ESN_LO.ESN -/,
  ⟨0x40090004, 15, 0, .ro, 0x0, .keep, .hw⟩ /- EVT_ESN_HI.ESN -/,
  ⟨0x40090008, 15, 8, .rw, 0x10, .keep, .supervisor⟩ /- EVT_CFG.COAL -/,
  ⟨0x40090008, 5, 0, .rw, 0x1f, .keep, .supervisor⟩ /- EVT_CFG.CLASS_EN -/,
  ⟨0x4009000c, 31, 29, .wo, 0x0, .keep, .user⟩ /- EVT_SW.CLASS -/,
  ⟨0x4009000c, 15, 0, .wo, 0x0, .keep, .user⟩ /- EVT_SW.CODE -/,
  ⟨0x40090010, 31, 0, .rw, 0x0, .keep, .user⟩ /- EVT_SW_ARG0, _ARG1.ARG -/,
  ⟨0x40090014, 31, 0, .rw, 0x0, .keep, .user⟩ /- EVT_SW_ARG0, _ARG1.ARG -/,
  ⟨0x40090020, 18, 0, .rws, 0x0, .keep, .vault⟩ /- EVT_TRBL.TRBL -/,
  ⟨0x40090024, 18, 0, .rw, 0x7ffff, .keep, .supervisor⟩ /- EVT_TRBL_EN.EN -/,
  ⟨0x40090028, 0, 0, .ro, 0x0, .keep, .hw⟩ /- EVT_STAT.SATURATED -/,
  ⟨0x40090030, 31, 16, .ro, 0x0, .keep, .hw⟩ /- EVT_RESET.COUNT -/,
  ⟨0x40090030, 3, 0, .ro, 0x0, .keep, .hw⟩ /- EVT_RESET.CAUSE -/,
  ⟨0x40090040, 31, 31, .rwl, 0x0, .reset, .supervisor⟩ /- WDOG_CTL.EN -/,
  ⟨0x40090040, 15, 0, .rwl, 0x3e8, .reset, .supervisor⟩ /- WDOG_CTL.TIMEOUT -/,
  ⟨0x40090044, 15, 0, .wo, 0x0, .keep, .supervisor⟩ /- WDOG_KICK.KEY -/,
  ⟨0x40090048, 31, 31, .ro, 0x0, .reset, .hw⟩ /- WDOG_STAT.ESCALATE -/,
  ⟨0x40090048, 15, 0, .ro, 0x0, .reset, .hw⟩ /- WDOG_STAT.REMAIN -/]

/-- Register fields of wellcap (R398). -/
def Fields.wellcap : List Fld := [
  ⟨0x40020000, 1, 1, .rwl, 0x0, .keep, .vault⟩ /- WC_CTL.LOCK -/,
  ⟨0x40020000, 0, 0, .rwl, 0x1, .keep, .vault⟩ /- WC_CTL.LIGHT_EN -/,
  ⟨0x40020004, 8, 0, .ro, 0x0, .keep, .hw⟩ /- WC_STAT.PRESENT -/,
  ⟨0x40020008, 8, 0, .rws, 0x0, .keep, .vault⟩ /- WC_LATCH.LATCH -/,
  ⟨0x4002000c, 2, 0, .w1c, 0x0, .keep, .supervisor⟩ /- WC_WARN.WARN -/,
  ⟨0x40020010, 31, 16, .ro, 0x0, .keep, .hw⟩ /- WC_LAST.ALARM_COUNT -/,
  ⟨0x40020010, 15, 8, .ro, 0x0, .keep, .hw⟩ /- WC_LAST.DETAIL -/,
  ⟨0x40020010, 7, 0, .ro, 0xff, .keep, .hw⟩ /- WC_LAST.CAUSE -/,
  ⟨0x40020014, 15, 0, .ro, 0x0, .keep, .hw⟩ /- WC_PEND.COUNT -/,
  ⟨0x40020018, 9, 0, .ro, 0x0, .keep, .hw⟩ /- WC_TEMP.TJ -/]

/-- Register fields of wohial (R407). -/
def Fields.wohial : List Fld := [
  ⟨0x400c0000, 16, 16, .rw, 0x0, .reset, .supervisor⟩ /- WOHIAL_CTL.GEN -/,
  ⟨0x400c0000, 15, 0, .rw, 0x2710, .reset, .supervisor⟩ /- WOHIAL_CTL.TMO -/,
  ⟨0x400c0004, 31, 31, .w1c, 0x0, .reset, .supervisor⟩ /- WOHIAL_STAT.ERR -/,
  ⟨0x400c0004, 30, 30, .ro, 0x0, .reset, .hw⟩ /- WOHIAL_STAT.PEND -/,
  ⟨0x400c0004, 23, 16, .ro, 0x0, .reset, .hw⟩ /- WOHIAL_STAT.LAST_CMD -/,
  ⟨0x400c0004, 3, 0, .ro, 0x0, .reset, .hw⟩ /- WOHIAL_STAT.LAST_STATUS -/,
  ⟨0x400c0008, 31, 0, .ro, 0x0, .reset, .hw⟩ /- WOHIAL_ERR_ADDR.ADDR -/,
  ⟨0x400c000c, 31, 16, .ro, 0x0, .reset, .hw⟩ /- WOHIAL_COUNT.ERRORS -/,
  ⟨0x400c000c, 15, 0, .ro, 0x0, .reset, .hw⟩ /- WOHIAL_COUNT.TXNS -/,
  ⟨0x400c0010, 31, 0, .wo, 0x0, .keep, .supervisor⟩ /- WOHIAL_HOST_DB.SET -/,
  ⟨0x400c0014, 31, 0, .w1c, 0x0, .reset, .supervisor⟩ /- WOHIAL_DB.DB -/,
  ⟨0x400c0018, 31, 0, .rw, 0xffffffff, .reset, .supervisor⟩ /- WOHIAL_DB_EN.EN -/,
  ⟨0x400c001c, 0, 0, .rw, 0x0, .reset, .supervisor⟩ /- WOHIAL_IRQ_OUT.ASSERT -/,
  ⟨0x400c0020, 31, 0, .rw, 0x0, .reset, .supervisor⟩ /- WOHIAL_MSG.MSG -/,
  ⟨0x400c0030, 31, 0, .rw, 0x0, .keep, .supervisor⟩ /- WOHIAL_MGMT_MAC_LO.MAC -/,
  ⟨0x400c0034, 31, 16, .rw, 0x88b5, .keep, .supervisor⟩ /- WOHIAL_MGMT_MAC_HI.ETYPE -/,
  ⟨0x400c0034, 15, 0, .rw, 0x0, .keep, .supervisor⟩ /- WOHIAL_MGMT_MAC_HI.MAC -/]

/-- Register fields of flashctl (R419). -/
def Fields.flashctl : List Fld := [
  ⟨0x40060000, 17, 16, .wo, 0x0, .keep, .vault⟩ /- FLASH_CMD.OP -/,
  ⟨0x40060000, 11, 0, .wo, 0x0, .keep, .vault⟩ /- FLASH_CMD.PAGE -/,
  ⟨0x40060004, 31, 31, .ro, 0x0, .reset, .hw⟩ /- FLASH_STAT.BUSY -/,
  ⟨0x40060004, 30, 30, .w1c, 0x0, .reset, .vault⟩ /- FLASH_STAT.DONE -/,
  ⟨0x40060004, 29, 29, .w1c, 0x0, .reset, .vault⟩ /- FLASH_STAT.CMD_LOST -/,
  ⟨0x40060004, 28, 28, .ro, 0x0, .reset, .hw⟩ /- FLASH_STAT.BUF_POISON -/,
  ⟨0x40060004, 3, 0, .ro, 0x0, .reset, .hw⟩ /- FLASH_STAT.STATUS -/,
  ⟨0x40060008, 1, 1, .rw, 0x0, .keep, .vault⟩ /- FLASH_PROT.PROT_B -/,
  ⟨0x40060008, 0, 0, .rw, 0x0, .keep, .vault⟩ /- FLASH_PROT.PROT_A -/,
  ⟨0x40060400, 31, 0, .rw, 0x0, .zero, .vault⟩ /- FLASH_BUF.DATA -/]

/-- Register fields of gpio (R424). -/
def Fields.gpio : List Fld := [
  ⟨0x400e0000, 31, 31, .w1c, 0x0, .reset, .supervisor⟩ /- IRQ_PEND -/,
  ⟨0x400e0000, 17, 16, .rw, 0x0, .reset, .supervisor⟩ /- IRQ_MODE -/,
  ⟨0x400e0000, 12, 12, .ro, 0x0, .keep, .hw⟩ /- IN -/,
  ⟨0x400e0000, 11, 11, .rw, 0x0, .reset, .supervisor⟩ /- OUT -/,
  ⟨0x400e0000, 10, 10, .rw, 0x0, .reset, .supervisor⟩ /- OE -/,
  ⟨0x400e0000, 9, 8, .rw, 0x1, .reset, .supervisor⟩ /- PULL -/,
  ⟨0x400e0000, 7, 6, .rw, 0x1, .reset, .supervisor⟩ /- DRIVE -/,
  ⟨0x400e0000, 1, 0, .rw, 0x0, .reset, .supervisor⟩ /- FUNC -/]

/-! ### Names of the fields, BLOCK_REGISTER_FIELD as the spec writes them -/

namespace F

def SYS_RUNLOW : Fl := ⟨0x40000000, 12, 12⟩
def SYS_CAUSE : Fl := ⟨0x40000000, 11, 8⟩
def SYS_PREV : Fl := ⟨0x40000000, 6, 4⟩
def SYS_STATE : Fl := ⟨0x40000000, 2, 0⟩
def SYS_PWR_STAT_DOM_ON : Fl := ⟨0x40000004, 7, 0⟩
def SYS_PWR_REQ_LINKB_ON : Fl := ⟨0x40000008, 1, 1⟩
def SYS_PWR_REQ_LINKA_ON : Fl := ⟨0x40000008, 0, 0⟩
def SYS_OWN_CLAIM_OWNER : Fl := ⟨0x40000020, 20, 16⟩
def SYS_OWN_CLAIM_OP : Fl := ⟨0x40000020, 9, 8⟩
def SYS_OWN_CLAIM_RES : Fl := ⟨0x40000020, 7, 0⟩
def SYS_OWN_RESULT_HOLDER : Fl := ⟨0x40000024, 20, 16⟩
def SYS_OWN_RESULT_RES : Fl := ⟨0x40000024, 15, 8⟩
def SYS_OWN_RESULT_STATUS : Fl := ⟨0x40000024, 2, 0⟩
def SYS_OWN_TABLE_PERM : Fl := ⟨0x40000400, 8, 8⟩
def SYS_OWN_TABLE_OWNER : Fl := ⟨0x40000400, 4, 0⟩
def LINK_CTRL_AN_RESTART : Fl := ⟨0x40200000, 4, 4⟩
def LINK_CTRL_FORCE_SPEED : Fl := ⟨0x40200000, 3, 2⟩
def LINK_CTRL_AN_EN : Fl := ⟨0x40200000, 1, 1⟩
def LINK_CTRL_MODE : Fl := ⟨0x40200000, 0, 0⟩
def LINK_STAT_REMOTE_FAULT : Fl := ⟨0x40200004, 6, 6⟩
def LINK_STAT_HDX_REFUSED : Fl := ⟨0x40200004, 5, 5⟩
def LINK_STAT_SPEED : Fl := ⟨0x40200004, 4, 3⟩
def LINK_STAT_LINK_UP : Fl := ⟨0x40200004, 2, 2⟩
def LINK_STAT_AN_DONE : Fl := ⟨0x40200004, 1, 1⟩
def LINK_STAT_SYNC : Fl := ⟨0x40200004, 0, 0⟩
def LANE_CFG_NOMATCH_RING : Fl := ⟨0x40100100, 15, 8⟩
def LANE_CFG_NOMATCH : Fl := ⟨0x40100100, 6, 4⟩
def LANE_CFG_SAF_FORCE : Fl := ⟨0x40100100, 1, 1⟩
def LANE_CFG_ENABLE : Fl := ⟨0x40100100, 0, 0⟩
def LANE_STAT_RESTARTS_60S : Fl := ⟨0x40100104, 9, 8⟩
def LANE_STAT_SAF : Fl := ⟨0x40100104, 3, 3⟩
def LANE_STAT_STATE : Fl := ⟨0x40100104, 2, 0⟩
def LANE_LAG_SPEED : Fl := ⟨0x40100108, 17, 16⟩
def LANE_LAG_LAG : Fl := ⟨0x40100108, 15, 0⟩
def LANE_LAST_POS : Fl := ⟨0x4010010c, 26, 16⟩
def LANE_LAST_STREAM : Fl := ⟨0x4010010c, 15, 6⟩
def LANE_LAST_STOMPED : Fl := ⟨0x4010010c, 5, 5⟩
def LANE_LAST_NOMATCH : Fl := ⟨0x4010010c, 4, 4⟩
def LANE_LAST_REASON : Fl := ⟨0x4010010c, 3, 0⟩
def LANE_FAULT_STREAM : Fl := ⟨0x40100110, 14, 5⟩
def LANE_FAULT_STREAM_VALID : Fl := ⟨0x40100110, 4, 4⟩
def LANE_FAULT_POINT : Fl := ⟨0x40100110, 3, 0⟩
def CNT_CTL_OP : Fl := ⟨0x40100114, 1, 0⟩
def CTX_VALID : Fl := ⟨0x40140000, 31, 31⟩
def CTX_LANE : Fl := ⟨0x40140000, 30, 30⟩
def CTX_VLAN_MODE : Fl := ⟨0x40140000, 29, 28⟩
def CTX_DA_EN : Fl := ⟨0x40140000, 27, 27⟩
def CTX_ETYPE_EN : Fl := ⟨0x40140000, 26, 26⟩
def CTX_APPID_EN : Fl := ⟨0x40140000, 25, 25⟩
def CTX_VID : Fl := ⟨0x40140000, 11, 0⟩
def CTX_DA_LO : Fl := ⟨0x40140004, 31, 0⟩
def CTX_ETYPE : Fl := ⟨0x40140008, 31, 16⟩
def CTX_DA_HI : Fl := ⟨0x40140008, 15, 0⟩
def CTX_APPID : Fl := ⟨0x4014000c, 15, 0⟩
def CTX_KEYED : Fl := ⟨0x40140010, 16, 16⟩
def CTX_RING : Fl := ⟨0x40140010, 15, 8⟩
def CTX_ACTION : Fl := ⟨0x40140010, 2, 0⟩
def CTX_FATAL : Fl := ⟨0x40140014, 31, 24⟩
def CTX_TIME_CHK : Fl := ⟨0x40140014, 20, 20⟩
def CTX_ASDU_N : Fl := ⟨0x40140014, 19, 16⟩
def CTX_SMP_MOD : Fl := ⟨0x40140014, 15, 0⟩
def CTX_TIME_TOL : Fl := ⟨0x40140018, 15, 0⟩
def CTX_POST : Fl := ⟨0x4014001c, 31, 16⟩
def CTX_PRE : Fl := ⟨0x4014001c, 15, 0⟩
def CTX_EP_CE_SLOT : Fl := ⟨0x40140020, 13, 8⟩
def CTX_EP_ALG : Fl := ⟨0x40140020, 4, 2⟩
def CTX_EP_STATE : Fl := ⟨0x40140020, 1, 0⟩
def CTX_EP_KEYID : Fl := ⟨0x40140024, 31, 0⟩
def CTX_EP_COUNT : Fl := ⟨0x40140028, 31, 0⟩
def CTX_SW_SEC : Fl := ⟨0x40140040, 31, 0⟩
def CTX_SW_CUR : Fl := ⟨0x40140044, 31, 31⟩
def CTX_SW_NS : Fl := ⟨0x40140044, 29, 0⟩
def CTX_SEQ_TOP : Fl := ⟨0x40140050, 31, 0⟩
def CTX_SEQ_STATE : Fl := ⟨0x40140054, 31, 0⟩
def CTX_LO_MAP : Fl := ⟨0x40140058, 31, 0⟩
def CTX_HI_MAP : Fl := ⟨0x4014005c, 31, 0⟩
def CTX_LAST_CLASS : Fl := ⟨0x40140060, 15, 8⟩
def CTX_WIN_VALID : Fl := ⟨0x40140060, 0, 0⟩
def CTX_TOP_SEC : Fl := ⟨0x40140064, 31, 0⟩
def CTX_TOP_NS : Fl := ⟨0x40140068, 31, 0⟩
def CTX_CMD_OP : Fl := ⟨0x40100300, 18, 16⟩
def CTX_CMD_STREAM : Fl := ⟨0x40100300, 9, 0⟩
def CTX_RESULT_STREAM : Fl := ⟨0x40100304, 19, 10⟩
def CTX_RESULT_LOCKED_WR : Fl := ⟨0x40100304, 9, 9⟩
def CTX_RESULT_STATUS : Fl := ⟨0x40100304, 2, 0⟩
def PK_KEY_CMD_CE_SLOT : Fl := ⟨0x40100320, 29, 24⟩
def PK_KEY_CMD_ALG : Fl := ⟨0x40100320, 22, 20⟩
def PK_KEY_CMD_OP : Fl := ⟨0x40100320, 18, 16⟩
def PK_KEY_CMD_STREAM : Fl := ⟨0x40100320, 9, 0⟩
def PK_KEY_ID_KEYID : Fl := ⟨0x40100324, 31, 0⟩
def PK_KEY_SW_SEC_SEC : Fl := ⟨0x40100328, 31, 0⟩
def PK_KEY_SW_NS_NS : Fl := ⟨0x4010032c, 29, 0⟩
def PK_KEY_RESULT_STREAM : Fl := ⟨0x40100330, 19, 10⟩
def PK_KEY_RESULT_CMD_LOST : Fl := ⟨0x40100330, 9, 9⟩
def PK_KEY_RESULT_STATUS : Fl := ⟨0x40100330, 7, 4⟩
def PK_KEY_RESULT_BUSY : Fl := ⟨0x40100330, 0, 0⟩
def BKT_PART_HOLD_SLOTS : Fl := ⟨0x40100400, 7, 0⟩
def BKT_STAT_RSV_KIB : Fl := ⟨0x40100404, 27, 20⟩
def BKT_STAT_PART_BUSY : Fl := ⟨0x40100404, 16, 16⟩
def BKT_STAT_DIVERT_USED : Fl := ⟨0x40100404, 15, 8⟩
def BKT_STAT_HOLD_USED : Fl := ⟨0x40100404, 7, 0⟩
def RING_BASE_BASE : Fl := ⟨0x40081000, 31, 5⟩
def RING_CFG_ENABLE : Fl := ⟨0x40081004, 31, 31⟩
def RING_CFG_IRQ_EN : Fl := ⟨0x40081004, 30, 30⟩
def RING_CFG_SIZE : Fl := ⟨0x40081004, 27, 24⟩
def RING_CFG_CHAN : Fl := ⟨0x40081004, 18, 16⟩
def RING_CFG_DIR : Fl := ⟨0x40081004, 8, 8⟩
def RING_PROD_INDEX : Fl := ⟨0x40081008, 12, 0⟩
def RING_CONS_INDEX : Fl := ⟨0x4008100c, 12, 0⟩
def RING_STAT_STATE : Fl := ⟨0x40082000, 31, 30⟩
def RING_STAT_ERR : Fl := ⟨0x40082000, 23, 20⟩
def RING_STAT_CFG_LOCKED : Fl := ⟨0x40082000, 9, 9⟩
def RING_STAT_RESUME : Fl := ⟨0x40082000, 0, 0⟩
def RING_LOST_PENDING : Fl := ⟨0x40082004, 15, 0⟩
def RING_DROPS_COUNT : Fl := ⟨0x40082008, 31, 0⟩
def CH_CTRL_EWAIT : Fl := ⟨0x40080000, 15, 8⟩
def CH_CTRL_PRIO : Fl := ⟨0x40080000, 2, 1⟩
def CH_CTRL_ENABLE : Fl := ⟨0x40080000, 0, 0⟩
def CH_STAT_INDEX : Fl := ⟨0x40080004, 28, 16⟩
def CH_STAT_RING : Fl := ⟨0x40080004, 15, 8⟩
def CH_STAT_STATE : Fl := ⟨0x40080004, 2, 0⟩
def CH_PROG_DONE : Fl := ⟨0x40080008, 15, 0⟩
def RING_PEND_PEND : Fl := ⟨0x40080100, 31, 0⟩
def TIME_CTRL_PTP_COPY : Fl := ⟨0x400a0000, 1, 1⟩
def TIME_CTRL_ONE_STEP : Fl := ⟨0x400a0000, 0, 0⟩
def TIME_STAT_ONE_STEP_SKIP : Fl := ⟨0x400a0004, 7, 7⟩
def TIME_STAT_PPS_REFUSED : Fl := ⟨0x400a0004, 6, 6⟩
def TIME_STAT_CMD_REFUSED : Fl := ⟨0x400a0004, 5, 5⟩
def TIME_STAT_STEPPED : Fl := ⟨0x400a0004, 4, 4⟩
def TIME_STAT_LOCK : Fl := ⟨0x400a0004, 1, 0⟩
def TIME_CMD_OP : Fl := ⟨0x400a0008, 2, 0⟩
def TIME_NOW_NS_NS : Fl := ⟨0x400a000c, 29, 0⟩
def TIME_NOW_SEC_LO_SEC : Fl := ⟨0x400a0010, 31, 0⟩
def TIME_NOW_SEC_HI_SEC : Fl := ⟨0x400a0014, 15, 0⟩
def TIME_SET_NS_NS : Fl := ⟨0x400a0018, 29, 0⟩
def TIME_SET_SEC_LO_SEC : Fl := ⟨0x400a001c, 31, 0⟩
def TIME_SET_SEC_HI_SEC : Fl := ⟨0x400a0020, 15, 0⟩
def TIME_ADD_NS : Fl := ⟨0x400a0024, 31, 0⟩
def TIME_FREQ_FREQ : Fl := ⟨0x400a0028, 31, 0⟩
def TIME_SERVO_HOLD_MAX : Fl := ⟨0x400a002c, 31, 16⟩
def TIME_SERVO_SERVO_TO : Fl := ⟨0x400a002c, 15, 0⟩
def TIME_PPS_CFG_OUT_WIDTH : Fl := ⟨0x400a0030, 23, 4⟩
def TIME_PPS_CFG_IN_EDGE : Fl := ⟨0x400a0030, 3, 3⟩
def TIME_PPS_CFG_IN_EN : Fl := ⟨0x400a0030, 2, 2⟩
def TIME_PPS_CFG_OUT_POL : Fl := ⟨0x400a0030, 1, 1⟩
def TIME_PPS_CFG_OUT_EN : Fl := ⟨0x400a0030, 0, 0⟩
def TIME_PPSIN_NS_NS : Fl := ⟨0x400a0034, 29, 0⟩
def TIME_PPSIN_SEC_SEC : Fl := ⟨0x400a0038, 31, 0⟩
def TIME_PPSIN_STAT_MISSED : Fl := ⟨0x400a003c, 15, 8⟩
def TIME_PPSIN_STAT_VALID : Fl := ⟨0x400a003c, 0, 0⟩
def INTC_PRIO_PRIO : Fl := ⟨0x400d0000, 3, 0⟩
def INTC_PEND_PEND : Fl := ⟨0x400d0100, 31, 0⟩
def INTC_TOP_VALID : Fl := ⟨0x400d0120, 31, 31⟩
def INTC_TOP_PRIO : Fl := ⟨0x400d0120, 11, 8⟩
def INTC_TOP_SOURCE : Fl := ⟨0x400d0120, 7, 0⟩
def INTC_SOFT_SOFT : Fl := ⟨0x400d0130, 7, 0⟩
def MPU_BASE_BASE : Fl := ⟨0x40031000, 31, 0⟩
def MPU_LIMIT_LIMIT : Fl := ⟨0x40031004, 31, 0⟩
def MPU_ATTR_EN : Fl := ⟨0x40031008, 31, 31⟩
def MPU_ATTR_S_X : Fl := ⟨0x40031008, 6, 6⟩
def MPU_ATTR_S_W : Fl := ⟨0x40031008, 5, 5⟩
def MPU_ATTR_S_R : Fl := ⟨0x40031008, 4, 4⟩
def MPU_ATTR_U_X : Fl := ⟨0x40031008, 2, 2⟩
def MPU_ATTR_U_W : Fl := ⟨0x40031008, 1, 1⟩
def MPU_ATTR_U_R : Fl := ⟨0x40031008, 0, 0⟩
def REACH_GROUPS : Fl := ⟨0x40030040, 6, 0⟩
def FW_BASE_BASE : Fl := ⟨0x40032000, 31, 0⟩
def FW_LIMIT_LIMIT : Fl := ⟨0x40032004, 31, 0⟩
def FW_RULE_EN : Fl := ⟨0x40032008, 31, 31⟩
def FW_RULE_X : Fl := ⟨0x40032008, 18, 18⟩
def FW_RULE_W : Fl := ⟨0x40032008, 17, 17⟩
def FW_RULE_R : Fl := ⟨0x40032008, 16, 16⟩
def FW_RULE_MASTERS : Fl := ⟨0x40032008, 15, 0⟩
def ACCESS_CTRL_VAULT_DEFAULT : Fl := ⟨0x40030000, 1, 1⟩
def ACCESS_CTRL_LOCK : Fl := ⟨0x40030000, 0, 0⟩
def ACCESS_EPOCH_SET : Fl := ⟨0x40030004, 16, 16⟩
def ACCESS_EPOCH_PEND_FW : Fl := ⟨0x40030004, 9, 9⟩
def ACCESS_EPOCH_PREV_LIVE : Fl := ⟨0x40030004, 8, 8⟩
def ACCESS_EPOCH_PREV : Fl := ⟨0x40030004, 7, 4⟩
def ACCESS_EPOCH_CUR : Fl := ⟨0x40030004, 3, 0⟩
def ACCESS_FW_COMMIT_OP : Fl := ⟨0x40030008, 1, 0⟩
def ACCESS_FW_RESULT_STATUS : Fl := ⟨0x4003000c, 1, 0⟩
def ACCESS_STAT_FW_LOCKED_WR : Fl := ⟨0x40030010, 1, 1⟩
def ACCESS_STAT_ACTIVE_WR : Fl := ⟨0x40030010, 0, 0⟩
def ACCESS_MV_ADDR_ADDR : Fl := ⟨0x40030100, 31, 0⟩
def ACCESS_MV_INFO_VALID : Fl := ⟨0x40030104, 31, 31⟩
def ACCESS_MV_INFO_MULTI : Fl := ⟨0x40030104, 30, 30⟩
def ACCESS_MV_INFO_EPOCH : Fl := ⟨0x40030104, 23, 20⟩
def ACCESS_MV_INFO_MASTER : Fl := ⟨0x40030104, 19, 16⟩
def ACCESS_MV_INFO_KIND : Fl := ⟨0x40030104, 15, 14⟩
def ACCESS_MV_INFO_SET : Fl := ⟨0x40030104, 13, 13⟩
def ACCESS_MV_INFO_REASON : Fl := ⟨0x40030104, 10, 8⟩
def ACCESS_MV_INFO_REGION : Fl := ⟨0x40030104, 5, 0⟩
def ACCESS_SV_ADDR_ADDR : Fl := ⟨0x40030110, 31, 0⟩
def ACCESS_SV_INFO_VALID : Fl := ⟨0x40030114, 31, 31⟩
def ACCESS_SV_INFO_MULTI : Fl := ⟨0x40030114, 30, 30⟩
def ACCESS_SV_INFO_FW : Fl := ⟨0x40030114, 29, 25⟩
def ACCESS_SV_INFO_EPOCH : Fl := ⟨0x40030114, 24, 21⟩
def ACCESS_SV_INFO_MASTER : Fl := ⟨0x40030114, 20, 17⟩
def ACCESS_SV_INFO_KIND : Fl := ⟨0x40030114, 16, 15⟩
def ACCESS_SV_INFO_REASON : Fl := ⟨0x40030114, 14, 12⟩
def ACCESS_SV_INFO_REGION : Fl := ⟨0x40030114, 5, 0⟩
def ACCESS_SV_COUNT_COUNT : Fl := ⟨0x40030118, 31, 0⟩
def CE_CMD_OP : Fl := ⟨0x50000000, 1, 0⟩
def CE_CFG_PART : Fl := ⟨0x50000004, 31, 30⟩
def CE_CFG_SLOT : Fl := ⟨0x50000004, 29, 24⟩
def CE_CFG_TAGLEN : Fl := ⟨0x50000004, 23, 19⟩
def CE_CFG_DIR : Fl := ⟨0x50000004, 16, 16⟩
def CE_CFG_OP : Fl := ⟨0x50000004, 7, 0⟩
def CE_SRC_SRC : Fl := ⟨0x50000008, 31, 0⟩
def CE_DST_DST : Fl := ⟨0x5000000c, 31, 0⟩
def CE_LEN_LEN : Fl := ⟨0x50000010, 23, 0⟩
def CE_AAD_AAD : Fl := ⟨0x50000014, 23, 0⟩
def CE_STAT_BUSY : Fl := ⟨0x50000018, 31, 31⟩
def CE_STAT_CMD_LOST : Fl := ⟨0x50000018, 30, 30⟩
def CE_STAT_WAIT : Fl := ⟨0x50000018, 29, 28⟩
def CE_STAT_DONE : Fl := ⟨0x50000018, 8, 8⟩
def CE_STAT_STATUS : Fl := ⟨0x50000018, 4, 0⟩
def CE_PROG_DONE : Fl := ⟨0x5000001c, 23, 0⟩
def CE_IV_IV : Fl := ⟨0x50000020, 31, 0⟩
def CE_TAG_TAG : Fl := ⟨0x50000030, 31, 0⟩
def CE_DIGEST_DIGEST : Fl := ⟨0x50000040, 31, 0⟩
def CE_INV_LO_INV : Fl := ⟨0x50000080, 31, 0⟩
def CE_FAIL_ADDR_ADDR : Fl := ⟨0x50000088, 31, 0⟩
def CE_CTRL_EWAIT : Fl := ⟨0x40070000, 15, 8⟩
def CE_CTRL_PROV_LOCK : Fl := ⟨0x40070000, 0, 0⟩
def CE_KEY_CMD_KEK : Fl := ⟨0x40070004, 21, 16⟩
def CE_KEY_CMD_SLOT : Fl := ⟨0x40070004, 13, 8⟩
def CE_KEY_CMD_OP : Fl := ⟨0x40070004, 2, 0⟩
def CE_KEY_ADDR_ADDR : Fl := ⟨0x40070008, 31, 0⟩
def CE_KEY_HDR0_PLEN : Fl := ⟨0x4007000c, 31, 16⟩
def CE_KEY_HDR0_TYPE : Fl := ⟨0x4007000c, 7, 0⟩
def CE_KEY_HDR1_USAGE : Fl := ⟨0x40070010, 9, 0⟩
def CE_KEY_HDR2_FIXED : Fl := ⟨0x40070014, 31, 0⟩
def CE_KEY_RESULT_BUSY : Fl := ⟨0x40070018, 31, 31⟩
def CE_KEY_RESULT_CMD_LOST : Fl := ⟨0x40070018, 30, 30⟩
def CE_KEY_RESULT_SLOT : Fl := ⟨0x40070018, 13, 8⟩
def CE_KEY_RESULT_STATUS : Fl := ⟨0x40070018, 3, 0⟩
def CE_PAGE_CTL_EN : Fl := ⟨0x40070400, 31, 31⟩
def CE_PAGE_CTL_NPOL : Fl := ⟨0x40070400, 0, 0⟩
def CE_PAGE_GRANT_LO_GRANT : Fl := ⟨0x40070404, 31, 0⟩
def CE_PAGE_WIN_BASE_ADDR : Fl := ⟨0x4007040c, 31, 0⟩
def CE_SLOT_INFO_VALID : Fl := ⟨0x40070800, 31, 31⟩
def CE_SLOT_INFO_DAMAGED : Fl := ⟨0x40070800, 30, 30⟩
def CE_SLOT_INFO_ORIGIN : Fl := ⟨0x40070800, 29, 29⟩
def CE_SLOT_INFO_CACHED : Fl := ⟨0x40070800, 28, 28⟩
def CE_SLOT_INFO_HELD : Fl := ⟨0x40070800, 27, 27⟩
def CE_SLOT_INFO_USAGE : Fl := ⟨0x40070800, 25, 16⟩
def CE_SLOT_INFO_LEN : Fl := ⟨0x40070800, 15, 8⟩
def CE_SLOT_INFO_TYPE : Fl := ⟨0x40070800, 7, 0⟩
def CE_SLOT_FIXED_FIXED : Fl := ⟨0x40070804, 31, 0⟩
def CE_SLOT_INV_LO_INV : Fl := ⟨0x40070c00, 31, 0⟩
def CE_RNG_CTL_PR : Fl := ⟨0x40070e00, 2, 2⟩
def CE_RNG_CTL_RESEED : Fl := ⟨0x40070e00, 1, 1⟩
def CE_RNG_CTL_RESTART : Fl := ⟨0x40070e00, 0, 0⟩
def CE_RNG_STAT_RESEEDS : Fl := ⟨0x40070e04, 31, 16⟩
def CE_RNG_STAT_APT_FAIL : Fl := ⟨0x40070e04, 3, 3⟩
def CE_RNG_STAT_RCT_FAIL : Fl := ⟨0x40070e04, 2, 2⟩
def CE_RNG_STAT_STATE : Fl := ⟨0x40070e04, 1, 0⟩
def INTEG_CTL_REFRESH_THR : Fl := ⟨0x40040000, 15, 12⟩
def INTEG_CTL_TRK_EN : Fl := ⟨0x40040000, 0, 0⟩
def INTEG_CE_COUNT_COUNT : Fl := ⟨0x40040004, 31, 0⟩
def INTEG_UE_COUNT_COUNT : Fl := ⟨0x40040008, 31, 0⟩
def INTEG_STAT_REFQ_LOST : Fl := ⟨0x4004000c, 2, 2⟩
def INTEG_STAT_TRK_LOST : Fl := ⟨0x4004000c, 1, 1⟩
def INTEG_STAT_POISON_WR : Fl := ⟨0x4004000c, 0, 0⟩
def INTEG_CE_ADDR_ADDR : Fl := ⟨0x40040010, 31, 0⟩
def INTEG_CE_INFO_VALID : Fl := ⟨0x40040014, 31, 31⟩
def INTEG_CE_INFO_MULTI : Fl := ⟨0x40040014, 30, 30⟩
def INTEG_CE_INFO_SOURCE : Fl := ⟨0x40040014, 29, 25⟩
def INTEG_CE_INFO_MASTER : Fl := ⟨0x40040014, 24, 21⟩
def INTEG_CE_INFO_SYNDROME : Fl := ⟨0x40040014, 20, 16⟩
def INTEG_CE_INFO_BITS : Fl := ⟨0x40040014, 11, 8⟩
def INTEG_CE_INFO_LANES : Fl := ⟨0x40040014, 7, 0⟩
def INTEG_TRK_ADDR_ADDR : Fl := ⟨0x40040100, 31, 0⟩
def INTEG_TRK_INFO_VALID : Fl := ⟨0x40040104, 31, 31⟩
def INTEG_TRK_INFO_KIND : Fl := ⟨0x40040104, 30, 30⟩
def INTEG_TRK_INFO_SOURCE : Fl := ⟨0x40040104, 29, 25⟩
def INTEG_TRK_INFO_COUNT : Fl := ⟨0x40040104, 2, 0⟩
def INTEG_REMAP_STAT_LAST_ROW : Fl := ⟨0x40040200, 27, 16⟩
def INTEG_REMAP_STAT_EXHAUSTED : Fl := ⟨0x40040200, 5, 5⟩
def INTEG_REMAP_STAT_USED : Fl := ⟨0x40040200, 4, 0⟩
def INTEG_REMAP_CMD_GO : Fl := ⟨0x40040240, 16, 16⟩
def INTEG_REMAP_CMD_BANK : Fl := ⟨0x40040240, 15, 12⟩
def INTEG_REMAP_CMD_ROW : Fl := ⟨0x40040240, 10, 0⟩
def INTEG_REMAP_RESULT_STATUS : Fl := ⟨0x40040244, 1, 0⟩
def INTEG_REFQ_VALID : Fl := ⟨0x40040300, 31, 31⟩
def INTEG_REFQ_MEM : Fl := ⟨0x40040300, 30, 30⟩
def INTEG_REFQ_BITS : Fl := ⟨0x40040300, 15, 12⟩
def INTEG_REFQ_PAGE : Fl := ⟨0x40040300, 11, 0⟩
def INTEG_REFQ_CMD_REMOVE : Fl := ⟨0x40040320, 3, 3⟩
def INTEG_REFQ_CMD_ENTRY : Fl := ⟨0x40040320, 2, 0⟩
def INTEG_TEST_CTL_EN : Fl := ⟨0x40040400, 31, 31⟩
def INTEG_TEST_CTL_TARGET : Fl := ⟨0x40040400, 3, 0⟩
def INTEG_TEST_CHK_CHK : Fl := ⟨0x40040404, 19, 0⟩
def INTEG_TEST_RAW_CHK : Fl := ⟨0x40040408, 19, 0⟩
def DRG_BASE_ADDR : Fl := ⟨0x40040500, 31, 6⟩
def DRG_CTL_PACE : Fl := ⟨0x40040508, 11, 8⟩
def DRG_CTL_OP : Fl := ⟨0x40040508, 1, 0⟩
def DRG_STAT_DONE : Fl := ⟨0x4004050c, 31, 31⟩
def DRG_STAT_RUN : Fl := ⟨0x4004050c, 30, 30⟩
def DRG_STAT_STATUS : Fl := ⟨0x4004050c, 2, 0⟩
def DRG_SUM_COUNT : Fl := ⟨0x40040510, 31, 0⟩
def CST_CMD_OP : Fl := ⟨0x40050000, 31, 28⟩
def CST_CMD_RTYPE : Fl := ⟨0x40050000, 27, 20⟩
def CST_CMD_TARGET : Fl := ⟨0x40050000, 10, 0⟩
def CST_ARG_ARG : Fl := ⟨0x40050004, 31, 0⟩
def CST_VAL_LO_VAL : Fl := ⟨0x40050008, 31, 0⟩
def CST_VAL_HI_VAL : Fl := ⟨0x4005000c, 5, 0⟩
def CST_STAT_BUSY : Fl := ⟨0x40050010, 31, 31⟩
def CST_STAT_CMD_LOST : Fl := ⟨0x40050010, 30, 30⟩
def CST_STAT_DONE : Fl := ⟨0x40050010, 29, 29⟩
def CST_STAT_PHASE : Fl := ⟨0x40050010, 28, 26⟩
def CST_STAT_STATUS : Fl := ⟨0x40050010, 19, 16⟩
def CST_STAT_LEN : Fl := ⟨0x40050010, 10, 0⟩
def CST_SEQ_SEQ : Fl := ⟨0x40050014, 31, 0⟩
def CST_ESN_LO_ESN : Fl := ⟨0x4005001c, 31, 0⟩
def CST_ESN_HI_ESN : Fl := ⟨0x40050020, 15, 0⟩
def CST_CTL_SCAN_INT : Fl := ⟨0x40050024, 23, 16⟩
def CST_CTL_EWAIT : Fl := ⟨0x40050024, 15, 8⟩
def CST_PROT_BP : Fl := ⟨0x40050028, 1, 0⟩
def CST_HEALTH_REFRESHES : Fl := ⟨0x4005002c, 31, 16⟩
def CST_HEALTH_WEAK_FOUND : Fl := ⟨0x4005002c, 15, 0⟩
def CST_JRNL_OP : Fl := ⟨0x40050030, 7, 5⟩
def CST_JRNL_OUTCOME : Fl := ⟨0x40050030, 4, 3⟩
def CST_ALARM_UNACKED : Fl := ⟨0x40050034, 10, 0⟩
def CST_BUF_A_DATA : Fl := ⟨0x40050400, 31, 0⟩
def CST_BUF_B_DATA : Fl := ⟨0x40050800, 31, 0⟩
def RFIF_STAT_TIER : Fl := ⟨0x400b0000, 15, 13⟩
def RFIF_STAT_SESSION : Fl := ⟨0x400b0000, 12, 12⟩
def RFIF_STAT_LAYER : Fl := ⟨0x400b0000, 10, 8⟩
def RFIF_STAT_RATE : Fl := ⟨0x400b0000, 5, 4⟩
def RFIF_STAT_PROTO : Fl := ⟨0x400b0000, 3, 2⟩
def RFIF_STAT_CFG_DEFAULT : Fl := ⟨0x400b0000, 1, 1⟩
def RFIF_STAT_FIELD : Fl := ⟨0x400b0000, 0, 0⟩
def RFIF_CTL_RELOAD : Fl := ⟨0x400b0004, 2, 2⟩
def RFIF_CTL_DISABLE : Fl := ⟨0x400b0004, 1, 1⟩
def RFIF_CTL_FW_READY : Fl := ⟨0x400b0004, 0, 0⟩
def RFIF_FW_CMD_VALID : Fl := ⟨0x400b0008, 31, 31⟩
def RFIF_FW_CMD_SECURE : Fl := ⟨0x400b0008, 30, 30⟩
def RFIF_FW_CMD_KEYNO : Fl := ⟨0x400b0008, 29, 28⟩
def RFIF_FW_CMD_LEN : Fl := ⟨0x400b0008, 8, 0⟩
def RFIF_FW_DATA_DATA : Fl := ⟨0x400b000c, 31, 0⟩
def RFIF_FW_RESP_SW : Fl := ⟨0x400b0010, 31, 16⟩
def RFIF_FW_RESP_LEN : Fl := ⟨0x400b0010, 8, 0⟩
def RFIF_FW_CFG_WTX_MAX : Fl := ⟨0x400b0014, 29, 24⟩
def RFIF_FW_CFG_WTXM : Fl := ⟨0x400b0014, 21, 16⟩
def RFIF_FW_CFG_TMO_MS : Fl := ⟨0x400b0014, 15, 0⟩
def RFIF_ERR_LATE_RESP : Fl := ⟨0x400b0018, 6, 6⟩
def RFIF_ERR_FW_LOST : Fl := ⟨0x400b0018, 5, 5⟩
def RFIF_ERR_FW_TIMEOUT : Fl := ⟨0x400b0018, 4, 4⟩
def RFIF_ERR_POISON : Fl := ⟨0x400b0018, 3, 3⟩
def RFIF_ERR_MAC_FAIL : Fl := ⟨0x400b0018, 2, 2⟩
def RFIF_ERR_PROTO_ERR : Fl := ⟨0x400b0018, 1, 1⟩
def RFIF_ERR_CRC_ERR : Fl := ⟨0x400b0018, 0, 0⟩
def RFIF_UID_LO_UID : Fl := ⟨0x400b001c, 31, 0⟩
def RFIF_UID_HI_UID : Fl := ⟨0x400b0020, 23, 0⟩
def RFIF_EVT_FIELD_CHG : Fl := ⟨0x400b0024, 0, 0⟩
def RFIF_FW_RESP_BUF_DATA : Fl := ⟨0x400b0400, 31, 0⟩
def WH_STAT_MARK : Fl := ⟨0x40010000, 15, 13⟩
def WH_STAT_AON_SRC : Fl := ⟨0x40010000, 11, 10⟩
def WH_STAT_PV_OK : Fl := ⟨0x40010000, 9, 9⟩
def WH_STAT_VBAT_OK : Fl := ⟨0x40010000, 8, 8⟩
def WH_STAT_HOST_GOOD : Fl := ⟨0x40010000, 0, 0⟩
def WH_VHOLD_E_AVAIL : Fl := ⟨0x40010004, 31, 16⟩
def WH_VHOLD_MV : Fl := ⟨0x40010004, 11, 0⟩
def WH_GAUGE_HELD : Fl := ⟨0x40010008, 31, 16⟩
def WH_GAUGE_CST_FIRST : Fl := ⟨0x40010008, 4, 4⟩
def WH_GAUGE_WAITING : Fl := ⟨0x40010008, 3, 0⟩
def WH_REFUSED_COUNT : Fl := ⟨0x4001000c, 31, 0⟩
def WH_PV_VMPP : Fl := ⟨0x40010010, 31, 16⟩
def WH_PV_VOC : Fl := ⟨0x40010010, 15, 0⟩
def WH_VBAT_MV : Fl := ⟨0x40010014, 11, 0⟩
def WH_EVT_AVS_LINK : Fl := ⟨0x40010018, 4, 4⟩
def WH_EVT_AVS_LIMIT : Fl := ⟨0x40010018, 3, 3⟩
def WH_EVT_PV_CHG : Fl := ⟨0x40010018, 2, 2⟩
def WH_EVT_VBAT_LOW : Fl := ⟨0x40010018, 1, 1⟩
def WH_EVT_MARK_CHG : Fl := ⟨0x40010018, 0, 0⟩
def WH_EVT_EN_EN : Fl := ⟨0x4001001c, 4, 0⟩
def WH_AVS_CFG_LOCK : Fl := ⟨0x40010020, 31, 31⟩
def WH_AVS_CFG_ADDR : Fl := ⟨0x40010020, 6, 0⟩
def WH_AVS_STAT_LINK_FAIL : Fl := ⟨0x40010024, 31, 31⟩
def WH_AVS_STAT_LIMIT : Fl := ⟨0x40010024, 30, 30⟩
def WH_AVS_STAT_VSET : Fl := ⟨0x40010024, 9, 0⟩
def WH_PMODE_BUSY : Fl := ⟨0x40010028, 31, 31⟩
def WH_PMODE_MODE : Fl := ⟨0x40010028, 1, 0⟩
def EVT_ESN_LO_ESN : Fl := ⟨0x40090000, 31, 0⟩
def EVT_ESN_HI_ESN : Fl := ⟨0x40090004, 15, 0⟩
def EVT_CFG_COAL : Fl := ⟨0x40090008, 15, 8⟩
def EVT_CFG_CLASS_EN : Fl := ⟨0x40090008, 5, 0⟩
def EVT_SW_CLASS : Fl := ⟨0x4009000c, 31, 29⟩
def EVT_SW_CODE : Fl := ⟨0x4009000c, 15, 0⟩
def EVT_SW_ARG0_ARG : Fl := ⟨0x40090010, 31, 0⟩
def EVT_TRBL_TRBL : Fl := ⟨0x40090020, 18, 0⟩
def EVT_TRBL_EN_EN : Fl := ⟨0x40090024, 18, 0⟩
def EVT_STAT_SATURATED : Fl := ⟨0x40090028, 0, 0⟩
def EVT_RESET_COUNT : Fl := ⟨0x40090030, 31, 16⟩
def EVT_RESET_CAUSE : Fl := ⟨0x40090030, 3, 0⟩
def WDOG_CTL_EN : Fl := ⟨0x40090040, 31, 31⟩
def WDOG_CTL_TIMEOUT : Fl := ⟨0x40090040, 15, 0⟩
def WDOG_KICK_KEY : Fl := ⟨0x40090044, 15, 0⟩
def WDOG_STAT_ESCALATE : Fl := ⟨0x40090048, 31, 31⟩
def WDOG_STAT_REMAIN : Fl := ⟨0x40090048, 15, 0⟩
def WC_CTL_LOCK : Fl := ⟨0x40020000, 1, 1⟩
def WC_CTL_LIGHT_EN : Fl := ⟨0x40020000, 0, 0⟩
def WC_STAT_PRESENT : Fl := ⟨0x40020004, 8, 0⟩
def WC_LATCH_LATCH : Fl := ⟨0x40020008, 8, 0⟩
def WC_WARN_WARN : Fl := ⟨0x4002000c, 2, 0⟩
def WC_LAST_ALARM_COUNT : Fl := ⟨0x40020010, 31, 16⟩
def WC_LAST_DETAIL : Fl := ⟨0x40020010, 15, 8⟩
def WC_LAST_CAUSE : Fl := ⟨0x40020010, 7, 0⟩
def WC_PEND_COUNT : Fl := ⟨0x40020014, 15, 0⟩
def WC_TEMP_TJ : Fl := ⟨0x40020018, 9, 0⟩
def WOHIAL_CTL_GEN : Fl := ⟨0x400c0000, 16, 16⟩
def WOHIAL_CTL_TMO : Fl := ⟨0x400c0000, 15, 0⟩
def WOHIAL_STAT_ERR : Fl := ⟨0x400c0004, 31, 31⟩
def WOHIAL_STAT_PEND : Fl := ⟨0x400c0004, 30, 30⟩
def WOHIAL_STAT_LAST_CMD : Fl := ⟨0x400c0004, 23, 16⟩
def WOHIAL_STAT_LAST_STATUS : Fl := ⟨0x400c0004, 3, 0⟩
def WOHIAL_ERR_ADDR_ADDR : Fl := ⟨0x400c0008, 31, 0⟩
def WOHIAL_COUNT_ERRORS : Fl := ⟨0x400c000c, 31, 16⟩
def WOHIAL_COUNT_TXNS : Fl := ⟨0x400c000c, 15, 0⟩
def WOHIAL_HOST_DB_SET : Fl := ⟨0x400c0010, 31, 0⟩
def WOHIAL_DB_DB : Fl := ⟨0x400c0014, 31, 0⟩
def WOHIAL_DB_EN_EN : Fl := ⟨0x400c0018, 31, 0⟩
def WOHIAL_IRQ_OUT_ASSERT : Fl := ⟨0x400c001c, 0, 0⟩
def WOHIAL_MSG_MSG : Fl := ⟨0x400c0020, 31, 0⟩
def WOHIAL_MGMT_MAC_LO_MAC : Fl := ⟨0x400c0030, 31, 0⟩
def WOHIAL_MGMT_MAC_HI_ETYPE : Fl := ⟨0x400c0034, 31, 16⟩
def WOHIAL_MGMT_MAC_HI_MAC : Fl := ⟨0x400c0034, 15, 0⟩
def SYS_CORE_RESET_KEY : Fl := ⟨0x40000030, 15, 0⟩
def SYS_DEV_RESET_KEY : Fl := ⟨0x40000034, 15, 0⟩
def SYS_BOOT_STAT_UNPROV : Fl := ⟨0x40000040, 31, 31⟩
def SYS_BOOT_STAT_TRIAL_BOOTED : Fl := ⟨0x40000040, 30, 30⟩
def SYS_BOOT_STAT_RULES_KEPT : Fl := ⟨0x40000040, 29, 29⟩
def SYS_BOOT_STAT_CODE_B : Fl := ⟨0x40000040, 27, 24⟩
def SYS_BOOT_STAT_CODE_A : Fl := ⟨0x40000040, 23, 20⟩
def SYS_BOOT_STAT_KEYIDX : Fl := ⟨0x40000040, 19, 18⟩
def SYS_BOOT_STAT_BANK : Fl := ⟨0x40000040, 16, 16⟩
def SYS_BOOT_SVN_SVN : Fl := ⟨0x40000044, 31, 0⟩
def FLASH_CMD_OP : Fl := ⟨0x40060000, 17, 16⟩
def FLASH_CMD_PAGE : Fl := ⟨0x40060000, 11, 0⟩
def FLASH_STAT_BUSY : Fl := ⟨0x40060004, 31, 31⟩
def FLASH_STAT_DONE : Fl := ⟨0x40060004, 30, 30⟩
def FLASH_STAT_CMD_LOST : Fl := ⟨0x40060004, 29, 29⟩
def FLASH_STAT_BUF_POISON : Fl := ⟨0x40060004, 28, 28⟩
def FLASH_STAT_STATUS : Fl := ⟨0x40060004, 3, 0⟩
def FLASH_PROT_PROT_B : Fl := ⟨0x40060008, 1, 1⟩
def FLASH_PROT_PROT_A : Fl := ⟨0x40060008, 0, 0⟩
def FLASH_BUF_DATA : Fl := ⟨0x40060400, 31, 0⟩
def CLAMP_STAT_DROPPED : Fl := ⟨0x40000100, 31, 16⟩
def CLAMP_STAT_COUNT : Fl := ⟨0x40000100, 4, 0⟩
def CLAMP_CTL_CLEAR : Fl := ⟨0x40000104, 0, 0⟩
def CLAMP_ADDR_ADDR : Fl := ⟨0x40000110, 31, 0⟩
def CLAMP_INFO_MASTER : Fl := ⟨0x40000114, 19, 16⟩
def CLAMP_INFO_LSB : Fl := ⟨0x40000114, 12, 8⟩
def CLAMP_INFO_WIDTH : Fl := ⟨0x40000114, 5, 0⟩
def CLAMP_WRITTEN_VALUE : Fl := ⟨0x40000118, 31, 0⟩
def CLAMP_STORED_VALUE : Fl := ⟨0x4000011c, 31, 0⟩
def GPIO_IRQ_PEND : Fl := ⟨0x400e0000, 31, 31⟩
def GPIO_IRQ_MODE : Fl := ⟨0x400e0000, 17, 16⟩
def GPIO_IN : Fl := ⟨0x400e0000, 12, 12⟩
def GPIO_OUT : Fl := ⟨0x400e0000, 11, 11⟩
def GPIO_OE : Fl := ⟨0x400e0000, 10, 10⟩
def GPIO_PULL : Fl := ⟨0x400e0000, 9, 8⟩
def GPIO_DRIVE : Fl := ⟨0x400e0000, 7, 6⟩
def GPIO_FUNC : Fl := ⟨0x400e0000, 1, 0⟩

end F

/-- The context table, firewall regions, rings and the other arrays of equal registers: the address of the first
element's register (R77, R80, R119, R141, R223, R228, R230, R236, R243, R270, R295, R325, R354, R419, R421, R424). -/
def canonAddr (a : Nat) : Nat :=
  let off := a % 0x10000
  let blk := a / 0x10000
  if blk = 0x4000 then
    if 0x110 ≤ off ∧ off < 0x210 then 0x40000110 + (off - 0x110) % 0x10
    else if 0x400 ≤ off ∧ off < 0x800 then 0x40000400
    else a
  else if blk = 0x4003 then
    if 0x40 ≤ off ∧ off ≤ 0x70 then 0x40030040
    else if 0x1000 ≤ off ∧ off < 0x1400 then 0x40031000 + off % 0x10
    else if 0x2000 ≤ off ∧ off < 0x2000 + 0x200 * 19 then
      let f := (off - 0x2000) / 0x200
      let r := off % 0x200
      let n := if f = 15 then 16 else 8
      if r < 0x10 * n then 0x40032000 + off % 0x10
      else if 0x100 ≤ r ∧ r < 0x100 + 0x10 * n then 0x40032100 + off % 0x10
      else a
    else a
  else if blk = 0x4004 then
    if 0x100 ≤ off ∧ off < 0x180 then 0x40040100 + off % 8
    else if 0x200 ≤ off ∧ off < 0x234 then 0x40040200
    else if 0x300 ≤ off ∧ off < 0x320 then 0x40040300
    else if 0x510 ≤ off ∧ off < 0x530 then 0x40040510
    else if off = 0x18 ∨ off = 0x1C then a - 8
    else if off = 0x504 then 0x40040500
    else a
  else if blk = 0x4005 then
    if 0x400 ≤ off ∧ off < 0x800 then 0x40050400
    else if 0x800 ≤ off ∧ off < 0xC00 then 0x40050800
    else if off = 0x18 then 0x40050014
    else a
  else if blk = 0x4006 then
    if 0x400 ≤ off ∧ off < 0x800 then 0x40060400 else a
  else if blk = 0x4007 then
    if 0x400 ≤ off ∧ off < 0x600 then 0x40070400 + off % 0x20
    else if 0x800 ≤ off ∧ off < 0xA00 then 0x40070800 + off % 8
    else if 0xC00 ≤ off ∧ off < 0xE00 then 0x40070C00 + off % 8
    else a
  else if blk = 0x4008 then
    if off < 0x100 then 0x40080000 + off % 0x20
    else if off < 0x120 then 0x40080100
    else if 0x1000 ≤ off ∧ off < 0x2000 then 0x40081000 + off % 0x10
    else if 0x2000 ≤ off ∧ off < 0x3000 then 0x40082000 + off % 0x10
    else a
  else if blk = 0x400B then
    if 0x400 ≤ off ∧ off < 0x500 then 0x400B0400 else a
  else if blk = 0x400D then
    if off < 0x60 then 0x400D0000
    else if 0x100 ≤ off ∧ off < 0x118 then 0x400D0100
    else a
  else if blk = 0x400E then
    if off < 0x60 then 0x400E0000 else a
  else if blk = 0x4010 then
    if 0x200 ≤ off ∧ off < 0x218 then a - 0x100 else a
  else if 0x4014 ≤ blk ∧ blk ≤ 0x4017 then
    let o := off % 0x100
    if 0x80 ≤ o ∧ o < 0xCC then 0x40140080 else 0x40140000 + o
  else if blk = 0x4021 then 0x40200000 + off
  else if blk = 0x5000 then
    let o := off % 0x1000
    if 0x20 ≤ o ∧ o < 0x30 then 0x50000020
    else if 0x30 ≤ o ∧ o < 0x40 then 0x50000030
    else if 0x40 ≤ o ∧ o < 0x80 then 0x50000040
    else 0x50000000 + o
  else a

/-- The register table of an address's block. -/
def blockFields (a : Nat) : List Fld :=
  let blk := a / 0x10000
  if blk = 0x4000 then Fields.sysctl
  else if blk = 0x4001 then Fields.wellhead
  else if blk = 0x4002 then Fields.wellcap
  else if blk = 0x4003 then Fields.access
  else if blk = 0x4004 then Fields.integrity
  else if blk = 0x4005 then Fields.cistern
  else if blk = 0x4006 then Fields.flashctl
  else if blk = 0x4007 then Fields.ce
  else if blk = 0x4008 then Fields.windlass
  else if blk = 0x4009 then Fields.events
  else if blk = 0x400A then Fields.time
  else if blk = 0x400B then Fields.rfif
  else if blk = 0x400C then Fields.wohial
  else if blk = 0x400D then Fields.intc
  else if blk = 0x400E then Fields.gpio
  else if blk = 0x4010 then Fields.pumphouse
  else if 0x4014 ≤ blk ∧ blk ≤ 0x4017 then Fields.context
  else if blk = 0x4020 ∨ blk = 0x4021 then Fields.link
  else if blk = 0x5000 then Fields.cePage
  else []

/-- The fields of the register at `a`; a reserved offset has none (R10, R28). -/
def fieldsAt (a : Nat) : List Fld :=
  let c := canonAddr a
  (blockFields a).filter fun f => f.addr == c

/-- Is `a` in the staged or active copy of a firewall region (R236)? -/
def isFwReg (a : Nat) : Bool := 0x40032000 ≤ a && a < 0x40032000 + 0x200 * 19

/-- Reset words that the register tables give by element: the KEYPAGES bounds (R236), the reach table (R230) and the
direction of the system rings (R118). -/
def specialReset (a : Nat) : Option Nat :=
  if isFwReg a ∧ (a - 0x40032000) / 0x200 = 15 then
    let o := (a - 0x40032000) % 0x100
    if o % 0x10 = 0 then some (0x50000000 + 0x1000 * (o / 0x10))
    else if o % 0x10 = 4 then some (0x50000FFF + 0x1000 * (o / 0x10))
    else none
  else if 0x40030040 ≤ a ∧ a ≤ 0x40030070 then
    let m := (a - 0x40030040) / 4 + 3
    some (if m ≤ 10 then 0x5C else if m = 11 then 0x0C else if m = 12 then 0x34 else if m = 13 then 0x3E
      else if m = 14 then 0x4C else 0x1E)
  else if a = 0x40081024 ∨ a = 0x40081044 ∨ a = 0x40081064 then some 0x02000100
  else none

/-- The word a register holds at reset (R7): write-only fields hold nothing. -/
def regReset (a : Nat) : Word :=
  match specialReset a with
  | some n => BitVec.ofNat 32 n
  | none => BitVec.ofNat 32
      (((fieldsAt a).filter fun f => f.acc != .wo).foldl (fun n f => n + f.reset <<< f.lo) 0)

/-- Which reset returns a register's fields (R13, R325, R354, R397): the AON power-up, an ISLE power-up, or a device
reset. -/
inductive ResetKind where
  | aon
  | isle
  | device
  deriving DecidableEq, Repr

/-- The reset of the register at `a`. The watchdog is reset with the device (R397); the slot registers of the crypto
engine are AON-domain (R270). -/
def resetKind (a : Nat) : ResetKind :=
  let blk := a / 0x10000
  if blk = 0x4002 then .aon
  else if blk = 0x4009 then (if 0x40 ≤ a % 0x10000 then .device else .aon)
  else if a = 0x40000000 then .aon
  else if blk = 0x4007 ∧ 0x800 ≤ a % 0x10000 ∧ a % 0x10000 < 0xE00 then .aon
  else if blk = 0x4005 ∨ blk = 0x400B then .isle
  else .device

end Sys2Proof.Machine
end

