-- ==== Sys2Proof/Machine/Sparse.lean ====
section
/-! DEFINITION. Sparse contents: a list of key and value pairs in one canonical form, keys strictly rising and no value
equal to what an unlisted key reads as, so that equal contents are equal lists. Register files, RAM bytes and check
bits are held so. -/
namespace Sys2Proof.Machine

/-- Value at key `k`; `dflt` says what an unlisted key reads as. -/
def Sparse.get {β : Type} (dflt : Nat → β) (k : Nat) : List (Nat × β) → β
  | [] => dflt k
  | (j, v) :: t => if j = k then v else Sparse.get dflt k t

/-- The contents with key `k` unlisted. -/
def Sparse.del {β : Type} (k : Nat) : List (Nat × β) → List (Nat × β)
  | [] => []
  | (j, v) :: t => if j = k then Sparse.del k t else (j, v) :: Sparse.del k t

/-- The contents with `k` listed as `v`, at its place in the rising order. -/
def Sparse.ins {β : Type} (k : Nat) (v : β) : List (Nat × β) → List (Nat × β)
  | [] => [(k, v)]
  | (j, w) :: t =>
    if k < j then (k, v) :: (j, w) :: t
    else if j = k then (k, v) :: t
    else (j, w) :: Sparse.ins k v t

/-- The contents after `v` is written at `k`: a value that an unlisted key reads as is not listed. -/
def Sparse.set {β : Type} [DecidableEq β] (dflt : Nat → β) (k : Nat) (v : β) (l : List (Nat × β)) : List (Nat × β) :=
  if v = dflt k then Sparse.del k l else Sparse.ins k v l

/-- Keys strictly rising, all above `lo`. -/
def Sparse.rising {β : Type} : Option Nat → List (Nat × β) → Bool
  | _, [] => true
  | none, (j, _) :: t => Sparse.rising (some j) t
  | some lo, (j, _) :: t => decide (lo < j) && Sparse.rising (some j) t

/-- The canonical form. -/
def Sparse.wf {β : Type} [DecidableEq β] (dflt : Nat → β) (l : List (Nat × β)) : Bool :=
  Sparse.rising none l && l.all fun p => decide (p.2 ≠ dflt p.1)

/-- Drop every key that `p` holds of: those keys read as unlisted again. -/
def Sparse.drop {β : Type} (p : Nat → Bool) (l : List (Nat × β)) : List (Nat × β) :=
  l.filter fun e => !p e.1

end Sys2Proof.Machine
end

