-- ==== Sys2Proof/Machine/Ops.lean ====
section
/-! DEFINITION. The operations every block shares: registers and their fields, trouble bits, event requests, interrupt
conditions, power domains, and the choice of a port or a lane. -/
namespace Sys2Proof.Machine

/-! ### Registers -/

/-- The word a register stores. -/
def Dev.reg (d : Dev) (a : Nat) : Word := Sparse.get regReset a d.regs

/-- Is the address in the context SRAM (R80)? -/
def inCtx (a : Nat) : Bool := 0x40140000 ≤ a && a < 0x40180000

/-- Check bits after the word at `a` is written: a write computes those of the bytes it writes (R275). -/
def Codes.written (c : Codes) (a : Nat) : Codes :=
  if inCtx a then { c with ctx := Sparse.drop (fun x => x / 4 == a / 4) c.ctx } else c

/-- The device with `w` stored in the register at `a`. -/
def Dev.setReg (d : Dev) (a : Nat) (w : Word) : Dev :=
  { d with regs := Sparse.set regReset a w d.regs, codes := d.codes.written a }

/-- Value of a field. -/
def Dev.get (d : Dev) (f : Fl) : Nat := bitsOf (d.reg f.addr).toNat f.hi f.lo

/-- The device with `v` in a field. -/
def Dev.put (d : Dev) (f : Fl) (v : Nat) : Dev :=
  d.setReg f.addr (BitVec.ofNat 32 (withBits (d.reg f.addr).toNat f.hi f.lo v))

/-- A one-bit field as a truth value. -/
def Dev.flag (d : Dev) (f : Fl) : Bool := d.get f != 0

/-- The device with a saturating counter field raised by `k`. -/
def Dev.bump (d : Dev) (f : Fl) (k : Nat) : Dev := d.put f (satAdd (f.hi + 1 - f.lo) (d.get f) k)

/-- Is `a` the address of the register of this field? -/
def Fl.is (f : Fl) (a : Nat) : Bool := f.addr == a

/-! ### Power domains (R15) -/

/-- The power domains by their bit in PWR_STAT (R31). -/
inductive Dom where
  | aon
  | well
  | isle
  | core
  | pump
  | linkA
  | linkB
  | flash
  deriving DecidableEq, Repr

def Dom.bit : Dom → Nat
  | .aon => 0
  | .well => 1
  | .isle => 2
  | .core => 3
  | .pump => 4
  | .linkA => 5
  | .linkB => 6
  | .flash => 7

/-- Is the domain on? -/
def Dev.on (d : Dev) (x : Dom) : Bool := d.dom.getLsbD x.bit

/-- The operating states (R21). -/
def stDormant : Nat := 0
def stPassiveRead : Nat := 1
def stPassiveRun : Nat := 2
def stHost : Nat := 3
def stAlarm : Nat := 4

/-- The operating state (R30). -/
def Dev.opState (d : Dev) : Nat := d.get F.SYS_STATE

/-- Does an alarm wait for the state controller, or is its response in progress? -/
def Dev.alarming (d : Dev) : Bool := !d.wellcap.recs.isEmpty || d.opState == stAlarm

end Sys2Proof.Machine

namespace Sys2Proof

/-- Power domain of a port. -/
def Port.dom : Port → Machine.Dom
  | .a => .linkA
  | .b => .linkB

/-- The port whose frames enter the lane, and the port they leave by. -/
def Lane.ingress : Lane → Port
  | .verify => .a
  | .tag => .b

def Lane.egress : Lane → Port
  | .verify => .b
  | .tag => .a

/-- The lane that delivers to an egress. -/
def Port.laneTo : Port → Lane
  | .a => .tag
  | .b => .verify

/-- Event source of a lane (R381). -/
def Lane.source : Lane → Nat
  | .verify => 16
  | .tag => 17

end Sys2Proof

namespace Sys2Proof.Machine

/-! ### Ports and lanes -/

def Dev.link (d : Dev) : Port → Link
  | .a => d.linkA
  | .b => d.linkB

def Dev.setLink (d : Dev) (p : Port) (x : Link) : Dev :=
  match p with
  | .a => { d with linkA := x }
  | .b => { d with linkB := x }

/-- A register field of a port (R45). -/
def portField (p : Port) (f : Fl) : Fl :=
  match p with
  | .a => f
  | .b => f.plus 0x10000

def Dev.lane (d : Dev) : Lane → LaneSt
  | .verify => d.laneV
  | .tag => d.laneT

def Dev.setLane (d : Dev) (l : Lane) (x : LaneSt) : Dev :=
  match l with
  | .verify => { d with laneV := x }
  | .tag => { d with laneT := x }

/-- A register field of a lane (R77). -/
def laneField (l : Lane) (f : Fl) : Fl :=
  match l with
  | .verify => f
  | .tag => f.plus 0x100

def Dev.egress (d : Dev) : Port → Option Egress
  | .a => d.egressA
  | .b => d.egressB

def Dev.setEgress (d : Dev) (p : Port) (x : Option Egress) : Dev :=
  match p with
  | .a => { d with egressA := x }
  | .b => { d with egressB := x }

/-! ### Events, trouble bits and interrupt conditions -/

/-- The event classes (R380). -/
def clsAlarm : Nat := 0
def clsFault : Nat := 1
def clsTrouble : Nat := 2
def clsState : Nat := 3
def clsInfo : Nat := 4
def clsTrace : Nat := 5

/-- A nanosecond value as the time unit reports it (R142). -/
def report2 (ns : Nat) : Nat := ns - ns % 2

/-- A block's event request joins its source's queue (R377); an event of a class that is not enabled is not issued, and
ALARM cannot be disabled (R380). -/
def Dev.event (d : Dev) (src code cls : Nat) (arg0 arg1 : Word) : Dev :=
  if cls = clsAlarm ∨ bitAt (d.get F.EVT_CFG_CLASS_EN) cls then
    let t := if d.on .pump then some (d.tu.sec % 2 ^ 32, report2 d.tu.ns) else none
    { d with evt := { d.evt with queue := d.evt.queue ++ [⟨src, code, cls, arg0, arg1, d.now, t⟩] } }
  else d

/-- The trouble bits by number (R397). -/
def tCLAIM : Nat := 0
def tTWIN_SAME : Nat := 1
def tLANE : Nat := 2
def tRING : Nat := 3
def tACCESS : Nat := 4
def tCRYPTO : Nat := 5
def tPOISON : Nat := 6
def tUE : Nat := 7
def tREMAP : Nat := 8
def tREFRESH : Nat := 9
def tCISTERN : Nat := 10
def tTIME : Nat := 11
def tVBAT : Nat := 12
def tAVS : Nat := 13
def tLOST : Nat := 14
def tWDOG : Nat := 15
def tALARM : Nat := 16
def tESN : Nat := 17
def tRESET : Nat := 18

/-- Set a sticky trouble bit (R386). -/
def Dev.trouble (d : Dev) (k : Nat) : Dev :=
  d.put F.EVT_TRBL_TRBL (d.get F.EVT_TRBL_TRBL ||| 2 ^ k)

/-- Latch the condition of an interrupt source that has no register bit (R222, log entry 6). -/
def Dev.latchIrq (d : Dev) (src : Nat) : Dev := { d with irq := d.irq ||| BitVec.ofNat 192 (2 ^ src) }

/-- Is interrupt source `s` requesting (R222)? -/
def Dev.source (d : Dev) (s : Nat) : Bool :=
  if s = 1 then d.flag F.SYS_RUNLOW
  else if s = 2 then ((d.reg F.WH_EVT_MARK_CHG.addr).toNat &&& d.get F.WH_EVT_EN_EN) % 32 != 0
  else if s = 3 then d.get F.WC_WARN_WARN != 0
  else if s = 4 then d.get F.EVT_TRBL_TRBL &&& d.get F.EVT_TRBL_EN_EN != 0
  else if s = 8 then (List.range 8).any fun k => d.reg (F.RING_PEND_PEND.addr + 4 * k) != 0
  else if s = 12 then d.flag F.TIME_PPSIN_STAT_VALID
  else if 24 ≤ s ∧ s < 40 then d.flag (F.CE_STAT_DONE.plus (0x1000 * (s - 24)))
  else if s = 40 then d.flag F.CE_RNG_STAT_APT_FAIL || d.flag F.CE_RNG_STAT_RCT_FAIL
  else if s = 44 then d.flag F.INTEG_CE_INFO_VALID || d.flag (F.INTEG_CE_INFO_VALID.plus 8)
  else if s = 45 then d.flag F.DRG_STAT_DONE
  else if s = 48 then d.flag F.CST_STAT_DONE
  else if s = 52 then d.flag F.RFIF_FW_CMD_VALID
  else if s = 53 then d.flag F.RFIF_EVT_FIELD_CHG
  else if s = 56 then d.flag F.WOHIAL_STAT_ERR || (d.get F.WOHIAL_DB_DB &&& d.get F.WOHIAL_DB_EN_EN) != 0
  else if s = 60 then d.flag F.ACCESS_SV_INFO_VALID
  else if 64 ≤ s ∧ s < 88 then d.flag (F.GPIO_IRQ_PEND.plus (4 * (s - 64)))
  else if 184 ≤ s then bitAt (d.get F.INTC_SOFT_SOFT) (s - 184)
  else d.irq.getLsbD s

/-- Priority of source `s` (R223). -/
def Dev.prio (d : Dev) (s : Nat) : Nat :=
  bitsOf (d.reg (0x400D0000 + 4 * (s / 8))).toNat (4 * (s % 8) + 3) (4 * (s % 8))

/-- The pending source with the highest priority above `above`, lowest number among equals (R219, R223), with its
priority. -/
def Dev.topSource (d : Dev) (above : Nat) : Option (Nat × Nat) :=
  (List.range 192).foldl (fun best s =>
    let p := d.prio s
    if p = 0 ∨ p ≤ above then best
    else if d.source s then
      match best with
      | some (_, bp) => if bp < p then some (s, p) else best
      | none => some (s, p)
    else best) none

/-! ### Resource ownership (R32) -/

/-- Owner codes of the ownership table (R38). -/
def ownHW : BitVec 5 := 0x10
def ownFree : BitVec 5 := 0x1F

/-- Owner after device reset and whether the resource can be released; none for an unused index (R32). -/
def resourceInit (i : Nat) : Option (BitVec 5 × Bool) :=
  if i ≤ 0x17 then some (ownFree, true)
  else if 0x20 ≤ i ∧ i ≤ 0x27 then some (ownFree, true)
  else if i = 0x30 ∨ i = 0x31 then some (11, true)
  else if i = 0x32 then some (11, false)
  else if i = 0x40 then some (ownFree, true)
  else if i = 0x48 then some (ownHW, false)
  else none

def ownReset (i : Nat) : BitVec 5 := ((resourceInit i).map Prod.fst).getD 0

/-- The owner of resource `i`. -/
def Dev.owner (d : Dev) (i : Nat) : BitVec 5 := Sparse.get ownReset i d.own

def Dev.setOwner (d : Dev) (i : Nat) (o : BitVec 5) : Dev := { d with own := Sparse.set ownReset i o d.own }

/-- Report a claim conflict: TRBL_CLAIM and its event (R33, R36, R37, R381). -/
def Dev.claimConflict (d : Dev) (i : Nat) (requester : Nat) : Dev :=
  (d.trouble tCLAIM).event 0 2 clsTrouble (BitVec.ofNat 32 i) (BitVec.ofNat 32 (requester * 256 + (d.owner i).toNat))

/-! ### The clamp log (R420, R421) -/

/-- Record a clamp: field place, writing master, written and stored value. Only the first 16 are kept, the others
counted. -/
def Dev.logClamp (d : Dev) (a : Nat) (hi lo : Nat) (m : Master) (written stored : Nat) : Dev :=
  let k := d.get F.CLAMP_STAT_COUNT
  if k < 16 then
    let e := 0x10 * k
    ((((d.put (F.CLAMP_ADDR_ADDR.plus e) a).setReg (F.CLAMP_INFO_MASTER.addr + e)
      (BitVec.ofNat 32 (m.val <<< 16 ||| lo <<< 8 ||| (hi + 1 - lo)))).put
      (F.CLAMP_WRITTEN_VALUE.plus e) written).put (F.CLAMP_STORED_VALUE.plus e) stored).put F.CLAMP_STAT_COUNT (k + 1)
  else d.bump F.CLAMP_STAT_DROPPED 1

/-! ### Poison reports (R283) -/

/-- The bits that a poisoned write or program sets; INTEGRITY is in CORE (R283). -/
def Dev.poisonBits (d : Dev) : Dev := (if d.on .core then d.put F.INTEG_STAT_POISON_WR 1 else d).trouble tPOISON

/-- A poisoned write to a register is discarded (R283). -/
def Dev.poisonWrite (d : Dev) (a : Nat) (m : Master) : Dev :=
  d.poisonBits.event 4 4 clsFault (BitVec.ofNat 32 a) (BitVec.ofNat 32 m.val)

/-! ### Privilege of a master (R235) -/

/-- The level that a master's writes reach: 0 User, 1 Supervisor, 2 Vault. -/
def masterLevel (m : Master) : Nat := if m.val < 3 then m.val else 1

/-- Does level `lv` reach a field of this owner (R235)? -/
def Owner.reached (o : Owner) (lv : Nat) : Bool :=
  match o with
  | .user => true
  | .supervisor => decide (1 ≤ lv)
  | .vault => decide (2 ≤ lv)
  | .hw => false

/-! ### Free values (log entry 3) -/

/-- Advance the counter of free values by `k`: the values drawn are those of the indices passed. -/
def Dev.draw (d : Dev) (k : Nat) : Dev := { d with freeCount := d.freeCount + k }

end Sys2Proof.Machine
end

