-- ==== Sys2Proof/Machine/PageCode.lean ====
section
/-! DEFINITION. The BCH code of a non-volatile page (R279, R280): arithmetic in GF(2^14), the generator polynomial, the
parity of 8,192 data bits, and the decoder. A polynomial over GF(2) is a number whose bit i is the coefficient of x^i. -/
namespace Sys2Proof.Machine

/-! ### GF(2^14) with x^14 + x^10 + x^6 + x + 1 -/

/-- Product of two field elements. -/
def gfMul (a b : Nat) : Nat :=
  ((List.range 14).foldl (fun (s : Nat × Nat) i =>
    let acc := if b.testBit i then s.1 ^^^ s.2 else s.1
    let twice := 2 * s.2
    (acc, if twice.testBit 14 then twice ^^^ 0x4443 else twice)) (0, a)).1

/-- `a` to the power whose binary digits are the lowest `k` of `e`. -/
def gfPowBits (a e : Nat) : Nat → Nat
  | 0 => 1
  | k + 1 => if e % 2 = 1 then gfMul a (gfPowBits (gfMul a a) (e / 2) k) else gfPowBits (gfMul a a) (e / 2) k

/-- `a` to the power `e`, an exponent below 2^14. -/
def gfPow (a e : Nat) : Nat := gfPowBits a e 14

/-- Inverse of an element that is not zero. -/
def gfInv (a : Nat) : Nat := gfPow a (2 ^ 14 - 2)

/-- Power `e` of the primitive element. -/
def alphaPow (e : Nat) : Nat := gfPow 2 (e % (2 ^ 14 - 1))

/-! ### The generator and the parity (R279) -/

/-- A polynomial over the field, lowest coefficient first, times x + r. -/
def gfTimesRoot (p : List Nat) (r : Nat) : List Nat :=
  (List.range (p.length + 1)).map fun i => (if i = 0 then 0 else p.getD (i - 1) 0) ^^^ gfMul r (p.getD i 0)

/-- The minimal polynomial of the j-th power of the primitive element, for an odd j below 16: its 14 conjugates are the
roots. -/
def minPoly (j : Nat) : Nat :=
  let p := (List.range 14).foldl (fun q i => gfTimesRoot q (alphaPow (j * 2 ^ i))) [1]
  leNat2 p
where
  /-- coefficients 0 or 1 as a number -/
  leNat2 : List Nat → Nat
    | [] => 0
    | c :: t => c % 2 + 2 * leNat2 t

/-- Product of two polynomials over GF(2), the second of degree at most 14. -/
def polyMul (a b : Nat) : Nat := (List.range 15).foldl (fun s i => if b.testBit i then s ^^^ (a <<< i) else s) 0

/-- The generator: the product of the minimal polynomials of the odd powers 1 to 15. -/
def bchGenerator : Nat := [1, 3, 5, 7, 9, 11, 13, 15].foldl (fun g j => polyMul g (minPoly j)) 1

/-- The parity of data bits, given highest-order coefficient first: the remainder of message times x^112. -/
def bchParity (bits : List Bool) : BitVec 112 :=
  let g := bchGenerator
  BitVec.ofNat 112 (bits.foldl (fun s b =>
    let top := s.testBit 111 ^^ b
    let s1 := (2 * s) % 2 ^ 112
    if top then s1 ^^^ (g % 2 ^ 112) else s1) 0)

/-! ### The decoder (R280) -/

/-- Syndromes 1 to 16 of a remainder polynomial of degree below 112. -/
def bchSyndromes (r : BitVec 112) : List Nat :=
  (List.range 16).map fun j =>
    let a := alphaPow (j + 1)
    (List.range 112).foldl (fun s i => gfMul s a ^^^ b2n (r.getLsbD (111 - i))) 0

/-- State of the search for the error locator: the locator, the one before its last change, the number of errors, the
steps since then, and the discrepancy then. -/
structure Locator where
  c : List Nat
  b : List Nat
  len : Nat
  m : Nat
  d : Nat
  deriving DecidableEq, Repr

/-- The sum of two polynomials over the field, the second times `k` and x^`m`. -/
def gfAddShift (p q : List Nat) (k m : Nat) : List Nat :=
  (List.range (max p.length (q.length + m))).map fun i =>
    p.getD i 0 ^^^ (if i < m then 0 else gfMul k (q.getD (i - m) 0))

/-- One step over syndrome `n` (counted from 0). -/
def Locator.step (s : List Nat) (x : Locator) (n : Nat) : Locator :=
  let disc := (List.range x.len).foldl (fun e i => e ^^^ gfMul (x.c.getD (i + 1) 0) (s.getD (n - 1 - i) 0)) (s.getD n 0)
  if disc = 0 then { x with m := x.m + 1 }
  else
    let c := gfAddShift x.c x.b (gfMul disc (gfInv x.d)) x.m
    if 2 * x.len ≤ n then ⟨c, x.c, n + 1 - x.len, 1, disc⟩ else { x with c := c, m := x.m + 1 }

/-- Bits of a code word: 8,192 data bits and 112 parity bits. -/
def bchLength : Nat := 8304

/-- Value of a polynomial over the field at `a`. -/
def gfEval (p : List Nat) (a : Nat) : Nat := p.foldr (fun c s => gfMul s a ^^^ c) 0

/-- The positions in error, by degree, for the difference between stored and computed parity; none where there are more
than 8. -/
def bchErrors (r : BitVec 112) : Option (List Nat) :=
  let s := bchSyndromes r
  let x := (List.range 16).foldl (Locator.step s) ⟨[1], [1], 0, 1, 1⟩
  let at_ := (List.range bchLength).filter fun k => gfEval x.c (alphaPow (2 ^ 14 - 1 - k)) == 0
  if x.len ≤ 8 ∧ at_.length = x.len then some at_ else none

/-- The data bit at a degree of the code word, as byte and bit; none for a parity bit. -/
def bchDataBit (k : Nat) : Option (Nat × Nat) :=
  if k < 112 then none else some ((bchLength - 1 - k) / 8, 7 - (bchLength - 1 - k) % 8)

end Sys2Proof.Machine
end

