-- ==== Sys2Proof/Machine/Memory.lean ====
section
/-! DEFINITION. The memories (R271 to R291): RAM bytes with their SEC-DED check bits and the poison mark, the
non-volatile arrays with their erased words, and the error records that a read makes. -/
namespace Sys2Proof.Machine

/-- A byte with its poison mark. -/
abbrev MByte := Byte × Bool

/-- Bytes with one mark for all of them. -/
def marked (bs : Bytes) (p : Bool) : List MByte := bs.map fun b => (b, p)

/-! ### The per-byte SEC-DED code (R272, R273) -/

/-- The check bits c4 to c0 of a byte. -/
def checkBits (b : Byte) : BitVec 5 :=
  let x (i : Nat) : Bool := b.getLsbD i
  let c0 := x 0 ^^ x 1 ^^ x 3 ^^ x 4 ^^ x 6
  let c1 := x 0 ^^ x 2 ^^ x 3 ^^ x 5 ^^ x 6
  let c2 := x 1 ^^ x 2 ^^ x 3 ^^ x 7
  let c3 := x 4 ^^ x 5 ^^ x 6 ^^ x 7
  let c4 := x 0 ^^ x 1 ^^ x 2 ^^ x 3 ^^ x 4 ^^ x 5 ^^ x 6 ^^ x 7 ^^ c0 ^^ c1 ^^ c2 ^^ c3
  BitVec.ofNat 5 (b2n c0 + 2 * b2n c1 + 4 * b2n c2 + 8 * b2n c3 + 16 * b2n c4)

/-- Data bit at Hamming position `s`, none for the position of a check bit (R272). -/
def hammingBit (s : Nat) : Option Nat :=
  match s with
  | 3 => some 0
  | 5 => some 1
  | 6 => some 2
  | 7 => some 3
  | 9 => some 4
  | 10 => some 5
  | 11 => some 6
  | 12 => some 7
  | _ => none

/-- The classes of R273. -/
inductive EccClass where
  | clean
  | corrected
  | uncorrectable
  | poison
  deriving DecidableEq, Repr

/-- The syndrome pair P, S as the 5-bit value of R273, from the difference of stored and computed check bits: the parity
over all 13 stored bits is the parity of that difference. -/
def syndrome (e : BitVec 5) : Nat :=
  let p := e.getLsbD 0 ^^ e.getLsbD 1 ^^ e.getLsbD 2 ^^ e.getLsbD 3 ^^ e.getLsbD 4
  16 * b2n p + e.toNat % 16

/-- Class of a read byte (R273). -/
def eccClass (e : BitVec 5) : EccClass :=
  let s := syndrome e
  if s = 0 then .clean
  else if 16 ≤ s ∧ s ≤ 28 then .corrected
  else if s = 15 then .poison
  else .uncorrectable

/-- The byte delivered (R273): the bit at position S is inverted in a correctable byte. -/
def eccData (b : Byte) (e : BitVec 5) : Byte :=
  if eccClass e = .corrected then
    match hammingBit (syndrome e % 16) with
    | some i => b ^^^ BitVec.ofNat 8 (2 ^ i)
    | none => b
  else b

/-- Does a byte with this difference of check bits carry poison when it is read? -/
def eccBad (e : BitVec 5) : Bool := eccClass e == .uncorrectable || eccClass e == .poison

/-- The poison pattern as a difference of check bits: c3 to c0 inverted, c4 unchanged (R274). -/
def poisonPattern : BitVec 5 := 0x0F

/-! ### Places -/

def ramBase : Nat := 0x10000000
def bktBase : Nat := 0x18000000
def flashBase : Nat := 0x08000000
def cstWinBase : Nat := 0x20000000

/-- SRAM addresses (R27). -/
def inSram (a : Nat) : Bool := ramBase ≤ a && a < ramBase + 0x180000
/-- Buckets addresses (R27). -/
def inBkt (a : Nat) : Bool := bktBase ≤ a && a < bktBase + 0x80000
/-- RAM of either kind. -/
def inRam (a : Nat) : Bool := inSram a || inBkt a
def inRom (a : Nat) : Bool := a < 0x18000
def inFlash (a : Nat) : Bool := flashBase ≤ a && a < flashBase + 0x400000
def inCstWin (a : Nat) : Bool := cstWinBase ≤ a && a < cstWinBase + 0x200000

/-- Source number of a RAM address (R271): the SRAM bank, or 12 for Buckets. -/
def ramSource (a : Nat) : Nat := if inBkt a then 12 else (a - ramBase) / 0x20000

/-- Row of a RAM address within its bank (R271). -/
def ramRow (a : Nat) : Nat := if inBkt a then (a - bktBase) / 256 else (a - ramBase) / 256 % 512

/-- Is the byte at `a` in the memory that the checker test mode targets (R294)? -/
def Dev.testTarget (d : Dev) (a : Nat) : Bool :=
  d.flag F.INTEG_TEST_CTL_EN && inRam a && ramSource a == d.get F.INTEG_TEST_CTL_TARGET

/-! ### Error records (R291) -/

/-- The layout of INTEG_CE_INFO and INTEG_UE_INFO with VALID = 1 and MULTI = 0 (R295). -/
def infoWord (src : Nat) (m : Master) (syn bits lanes : Nat) : Nat :=
  2 ^ 31 + src * 2 ^ 25 + m.val * 2 ^ 21 + syn * 2 ^ 16 + bits * 2 ^ 8 + lanes

/-- Record a CORRECTED or UNCORRECTABLE result (R291). While CORE is off only the event is issued. -/
def Dev.eccRecord (d : Dev) (ue : Bool) (addr src : Nat) (m : Master) (syn bits lanes : Nat) : Dev :=
  let k := if ue then 8 else 0
  let info := infoWord src m syn bits lanes
  let d1 :=
    if d.on .core then
      let dc := d.bump (if ue then F.INTEG_UE_COUNT_COUNT else F.INTEG_CE_COUNT_COUNT) 1
      if dc.flag (F.INTEG_CE_INFO_VALID.plus k) then dc.put (F.INTEG_CE_INFO_MULTI.plus k) 1
      else (dc.put (F.INTEG_CE_ADDR_ADDR.plus k) addr).setReg (F.INTEG_CE_INFO_VALID.addr + k) (BitVec.ofNat 32 info)
    else d
  let d2 := if ue ∧ d.on .core then d1.trouble tUE else d1
  d2.event 4 (if ue then 2 else 1) (if ue then clsFault else clsInfo) (BitVec.ofNat 32 addr) (BitVec.ofNat 32 info)

/-! ### The refresh queue and the repeat tracker's offers (R285, R289, R290) -/

/-- A field of refresh queue entry `k`. -/
def refqField (k : Nat) (f : Fl) : Fl := f.plus (4 * k)

/-- Entry of the refresh queue that holds a page. -/
def Dev.refqFind (d : Dev) (cst : Bool) (page : Nat) : Option Nat :=
  (List.range 8).find? fun k => d.flag (refqField k F.INTEG_REFQ_VALID) &&
    d.flag (refqField k F.INTEG_REFQ_MEM) == cst && d.get (refqField k F.INTEG_REFQ_PAGE) == page

/-- A summary word of Dredge goes up while a pass runs (R295). -/
def Dev.drgCount (d : Dev) (k n : Nat) : Dev :=
  if d.flag F.DRG_STAT_RUN then d.bump (F.DRG_SUM_COUNT.plus (4 * k)) n else d

/-- A page is queued for refresh (R289, R290); `bits` is the most corrected. -/
def Dev.refqAdd (d : Dev) (cst : Bool) (page bits : Nat) : Dev :=
  match d.refqFind cst page with
  | some k => d.put (refqField k F.INTEG_REFQ_BITS) (max bits (d.get (refqField k F.INTEG_REFQ_BITS)))
  | none =>
    match (List.range 8).find? fun k => !d.flag (refqField k F.INTEG_REFQ_VALID) with
    | some k =>
      (((d.put (refqField k F.INTEG_REFQ_VALID) 1).put (refqField k F.INTEG_REFQ_MEM) (b2n cst)).put
        (refqField k F.INTEG_REFQ_BITS) bits).put (refqField k F.INTEG_REFQ_PAGE) page |>.drgCount 5 1
    | none => (d.put F.INTEG_STAT_REFQ_LOST 1).trouble tREFRESH

/-- A field of tracker entry `k`. -/
def trkField (k : Nat) (f : Fl) : Fl := f.plus (8 * k)

/-- An entry is cleared. -/
def Dev.trkClear (d : Dev) (k : Nat) : Dev :=
  { d.setReg (F.INTEG_TRK_INFO_VALID.addr + 8 * k) 0 |>.setReg (F.INTEG_TRK_ADDR_ADDR.addr + 8 * k) 0 with
    integ := { d.integ with
      trkAge := d.integ.trkAge.filter fun e => e.1 != k
      told := d.integ.told.filter fun e => e != k } }

/-- Entry of the tracker that holds an address. -/
def Dev.trkFind (d : Dev) (o : Offer) : Option Nat :=
  (List.range 16).find? fun k => d.flag (trkField k F.INTEG_TRK_INFO_VALID) &&
    d.flag (trkField k F.INTEG_TRK_INFO_KIND) == o.nvm && d.get (trkField k F.INTEG_TRK_ADDR_ADDR) == o.addr

/-- A page is queued for refresh, which clears its tracker entry; a Cistern page counts as weak (R289, R320). -/
def Dev.pageQueue (d : Dev) (o : Offer) : Dev :=
  let d1 := match d.trkFind o with
    | some k => d.trkClear k
    | none => d
  if o.src = 19 then (d1.refqAdd true ((o.addr - cstWinBase) / 1024) o.bits).bump F.CST_HEALTH_WEAK_FOUND 1
  else d1.refqAdd false ((o.addr - flashBase) / 1024) o.bits

/-- Offer a correction to the repeat tracker (R285): a queue of four; an offer that finds it full sets TRK_LOST. A
correction of many bits in a page queues the page at once, whatever the tracker does (R289). -/
def Dev.offer (d : Dev) (o : Offer) : Dev :=
  if !d.on .core then d
  else if o.nvm ∧ d.get F.INTEG_CTL_REFRESH_THR ≤ o.bits then d.pageQueue o
  else if d.flag F.INTEG_CTL_TRK_EN then
    if d.integ.offers.length < 4 then
      { d with integ := { d.integ with offers := d.integ.offers ++ [o] } }
    else d.put F.INTEG_STAT_TRK_LOST 1
  else d

/-! ### Reading and writing RAM -/

def byteDflt (_ : Nat) : Byte := 0
def chkDflt (_ : Nat) : BitVec 5 := 0

/-- Stored data bits of the RAM byte at `a`. -/
def Dev.ramByte (d : Dev) (a : Nat) : Byte := Sparse.get byteDflt a d.ram
/-- Stored check bits of the RAM byte at `a`, as their difference from the computed ones. -/
def Dev.ramChk (d : Dev) (a : Nat) : BitVec 5 := Sparse.get chkDflt a d.chk

/-- What a read of the RAM byte at `a` delivers. -/
def Dev.ramView (d : Dev) (a : Nat) : MByte :=
  let e := d.ramChk a
  (eccData (d.ramByte a) e, eccBad e)

/-- Store a RAM byte with its mark (R272, R274); a pending write-back of the byte is cancelled (R276). -/
def Dev.ramPut (d : Dev) (a : Nat) (b : MByte) : Dev :=
  { d with
    ram := Sparse.set byteDflt a b.1 d.ram
    chk := Sparse.set chkDflt a (if b.2 then poisonPattern else 0) d.chk
    integ := { d.integ with writeBack := d.integ.writeBack.filter fun w => w.addr != a } }

/-- Store bytes from `a` upward. -/
def Dev.ramPutAll (d : Dev) (a : Nat) : List MByte → Dev
  | [] => d
  | b :: t => (d.ramPut a b).ramPutAll (a + 1) t

/-- The check bits that a Vault word store to the test target writes (R294). -/
def Dev.testChk (d : Dev) (a : Nat) : Nat → Dev
  | 0 => d
  | k + 1 =>
    let d1 := d.testChk a k
    let c : BitVec 5 := BitVec.ofNat 5 (d.get F.INTEG_TEST_CHK_CHK >>> (5 * k))
    { d1 with chk := Sparse.set chkDflt (a + k) (c ^^^ checkBits (d1.ramByte (a + k))) d1.chk }

/-- A RAM write by master `m`: in test mode a Vault word store to the target takes its check bits from
INTEG_TEST_CHK (R294). -/
def Dev.ramWrite (d : Dev) (m : Master) (a : Nat) (bs : List MByte) : Dev :=
  let d1 := d.ramPutAll a bs
  if m.val = 2 ∧ bs.length = 4 ∧ a % 4 = 0 ∧ d.testTarget a then d1.testChk a 4 else d1

/-- Lanes of a word whose bytes from `a`, `n` of them, are of class `c` and wait for no write-back. -/
def Dev.badLanes (d : Dev) (c : EccClass) (a n : Nat) : List Nat :=
  (List.range n).filter fun i =>
    eccClass (d.ramChk (a + i)) == c && !(d.integ.writeBack.any fun w => w.addr == a + i)

/-- The effects of finding class `c` in a piece of a word that starts at `a` and has `n` bytes: one record, the
write-backs, and for a correction one offer (R276, R277, R285, R291, R294). -/
def Dev.ramFound (d : Dev) (m : Master) (c : EccClass) (a n : Nat) : Dev :=
  match d.badLanes c a n with
  | [] => d
  | i :: t =>
    let ue := c == .uncorrectable
    let lanes := (i :: t).foldl (fun acc j => acc + 2 ^ ((a + j) % 4)) 0
    let word := a - a % 4
    let d1 := d.eccRecord ue word (ramSource a) m (syndrome (d.ramChk (a + i))) 1 lanes
    if d.testTarget a then d1
    else
      let wb := (i :: t).map fun j =>
        let v := d.ramView (a + j)
        (⟨a + j, v.1, ue⟩ : WriteBack)
      let d2 := { d1 with integ := { d1.integ with writeBack := d1.integ.writeBack ++ wb } }
      if ue then d2 else d2.offer ⟨word, false, ramSource a, 1⟩

/-- Read `n` bytes that lie within one word. -/
def Dev.ramPiece (d : Dev) (m : Master) (a n : Nat) : Dev × List MByte :=
  let vals := (List.range n).map fun i => d.ramView (a + i)
  let d1 := (d.ramFound m .corrected a n).ramFound m .uncorrectable a n
  let d2 :=
    if m.val = 2 ∧ n = 4 ∧ a % 4 = 0 ∧ d.testTarget a then
      d1.put F.INTEG_TEST_RAW_CHK ((List.range 4).foldl (fun acc k =>
        acc + (d.ramChk (a + k) ^^^ checkBits (d.ramByte (a + k))).toNat <<< (5 * k)) 0)
    else d1
  (d2, vals)

/-- Read `n` RAM bytes from `a`, word by word; `fuel` bounds the number of words. -/
def Dev.ramRead (m : Master) : Nat → Dev → Nat → Nat → Dev × List MByte
  | 0, d, _, _ => (d, [])
  | fuel + 1, d, a, n =>
    if n = 0 then (d, [])
    else
      let k := min n (4 - a % 4)
      let (d1, v1) := d.ramPiece m a k
      let (d2, v2) := Dev.ramRead m fuel d1 (a + k) (n - k)
      (d2, v1 ++ v2)

/-! ### Memories without a bus address: lane buffers and keep-RAM (R271) -/

/-- Lanes of word `w` that are of class `c`, among listed differences. -/
def innerLanes (chk : List (Nat × BitVec 5)) (c : EccClass) (w : Nat) : List Nat :=
  (List.range 4).filter fun k => eccClass (Sparse.get chkDflt (4 * w + k) chk) == c

/-- The records of a read that finds the differences `chk` in a memory: word by word, corrections first (R291). -/
def Dev.innerFound (d : Dev) (m : Master) (src place : Nat) (chk : List (Nat × BitVec 5)) : Dev :=
  ((chk.map fun e => e.1 / 4).eraseDups).foldl (fun x w =>
    [EccClass.corrected, .uncorrectable].foldl (fun (y : Dev) c =>
      match innerLanes chk c w with
      | [] => y
      | k :: t => y.eccRecord (c == .uncorrectable) (Config.innerAddr src (place + 4 * w)).toNat src m
          (syndrome (Sparse.get chkDflt (4 * w + k) chk)) 1 ((k :: t).foldl (fun acc i => acc + 2 ^ i) 0)) x) d

/-- The bytes that a read delivers. -/
def mendBytes (bs : Bytes) (chk : List (Nat × BitVec 5)) : Bytes :=
  (bs.zipIdx).map fun p => eccData p.1 (Sparse.get chkDflt p.2 chk)

/-- The check bits behind the write-backs of a read: corrected bytes are fresh, uncorrectable ones carry the poison
pattern (R276, log entry 56). -/
def mendChk (chk : List (Nat × BitVec 5)) : List (Nat × BitVec 5) :=
  (chk.filter fun e => eccBad e.2).map fun e => (e.1, poisonPattern)

/-- The first byte of a range that carries poison. -/
def firstPoison (chk : List (Nat × BitVec 5)) (n : Nat) : Option Nat :=
  ((chk.filter fun e => e.1 < n && eccBad e.2).map Prod.fst).head?

/-! ### The context SRAM (R80) -/

/-- Check bits of a context byte, as their difference from the computed ones. -/
def Dev.ctxChk (d : Dev) (a : Nat) : BitVec 5 := Sparse.get chkDflt a d.codes.ctx

/-- Does the context word at `a` carry poison? -/
def Dev.ctxPoisoned (d : Dev) (a : Nat) : Bool := (List.range 4).any fun k => eccBad (d.ctxChk (a + k))

/-- A read of the context word at `a` by master `m`: its records and its write-backs, which leave the corrected data and
check bits or the poison pattern (R273, R276, log entry 56). -/
def Dev.ctxRead (d : Dev) (m : Master) (a : Nat) : Dev :=
  let chk := (List.range 4).map fun k => (k, d.ctxChk (a + k))
  if chk.all fun e => e.2 == 0 then d
  else
    let found := [EccClass.corrected, .uncorrectable].foldl (fun (y : Dev) c =>
      match innerLanes chk c 0 with
      | [] => y
      | k :: t => y.eccRecord (c == .uncorrectable) a 13 m (syndrome (d.ctxChk (a + k))) 1
          ((k :: t).foldl (fun acc i => acc + 2 ^ i) 0)) d
    let mended := found.setReg a (BitVec.ofNat 32 (leNat (mendBytes (leBytes 4 (d.reg a).toNat) chk)))
    (mendChk chk).foldl (fun x e => { x with codes := { x.codes with
      ctx := Sparse.set chkDflt (a + e.1) e.2 x.codes.ctx } }) mended

/-- The words of a context read in turn, `n` of them from `a`. -/
def Dev.ctxReads (d : Dev) (m : Master) (a : Nat) : Nat → Dev
  | 0 => d
  | n + 1 => (d.ctxRead m a).ctxReads m (a + 4) n

/-! ### The non-volatile arrays (R278 to R280) -/

/-- What a 64-bit NVM word reads as: erased, data with the number of bits that the page code repaired in its page if it was
needed, or data with the bytes that are delivered poisoned. -/
inductive NvmWord where
  | erased
  | data (w : BitVec 64) (bits : Option Nat)
  | bad (w : BitVec 64) (bytes : BitVec 8)
  deriving DecidableEq, Repr

/-- Has the Cistern page no BCH parity: a slot page (R296, R297)? -/
def cstSlotPage (p : Nat) : Bool := p < 8 || (16 ≤ p && p < 80) || (176 ≤ p && p < 1024)

/-- Is the Cistern page a thermometer, whose cells are read raw (R297)? -/
def isCellPage (p : Nat) : Bool := 80 ≤ p && p < 176 && (p - 80) % 3 == 2

/-- Does a page of the array have a spare area that is programmed with its data (R279, R297)? -/
def nvmSealed (cst : Bool) (p : Nat) : Bool := !(cst && (cstSlotPage p || isCellPage p))

/-- Does a torn range hold word `i`? -/
def Torn.holds (t : Torn) (cst : Bool) (i : Nat) : Bool := t.cst == cst && t.first ≤ i && i < t.first + t.words

/-- The torn range that holds word `i`. -/
def Dev.tornAt (d : Dev) (cst : Bool) (i : Nat) : Option Torn := d.torn.find? fun t => t.holds cst i

def lightDflt (_ : Nat) : BitVec 32 := 0

/-- The 96 bits of word `i` of an array (true for the Cistern): none where they all read 1, else the data and the
difference of its light codes. Words left by an interrupted burst hold free values (log entry 5). -/
def Dev.nvmRaw (d : Dev) (cst : Bool) (i : Nat) : Option (BitVec 64 × BitVec 32) :=
  match d.tornAt cst i with
  | some t => (Config.tornWord t.draw i).map fun w => (w, Config.tornLight t.draw i)
  | none =>
    ((if cst then d.cstArray else d.flash).find? fun e => e.1 == i).map fun e =>
      (e.2, Sparse.get lightDflt i (if cst then d.codes.cstLight else d.codes.flashLight))

/-- The data bytes of a page as stored. -/
def Dev.pageData (d : Dev) (cst : Bool) (p : Nat) : Bytes :=
  (List.range 128).flatMap fun k =>
    match d.nvmRaw cst (128 * p + k) with
    | some (w, _) => leBytes 8 w.toNat
    | none => List.replicate 8 0xFF

/-- The spare area of a page: differences of parity and page check, and the bytes behind them. One that was never
programmed reads all ones; one that was interrupted holds free values (R279). -/
def Dev.spare (d : Dev) (cst : Bool) (p : Nat) : Spare :=
  let torn := (d.tornAt cst (128 * p)).filter fun t => decide (128 * p + 128 ≤ t.first + t.words)
  match torn with
  | some t => ⟨Config.tornParity t.draw p, Config.tornCheck t.draw p, BitVec.allOnes 112⟩
  | none =>
    match (if cst then d.codes.cstSpare else d.codes.flashSpare).find? fun e => e.1 == p with
    | some e => e.2
    | none =>
      let bs := d.pageData cst p
      ⟨bchParity (bitsMsb bs) ^^^ BitVec.allOnes 112, BitVec.ofNat 32 (crc32c bs) ^^^ BitVec.allOnes 32, BitVec.allOnes 112⟩

/-- The 32 bytes of the spare area as they are stored. -/
def Dev.spareBytes (d : Dev) (cst : Bool) (p : Nat) : Bytes :=
  let x := d.spare cst p
  let bs := d.pageData cst p
  beBytes 14 (bchParity (bitsMsb bs) ^^^ x.parity).toNat ++ leBytes 4 (crc32c bs ^^^ x.check.toNat) ++ leBytes 14 x.rest.toNat

/-- A page's data with the data bits at the given degrees inverted. -/
def flipBits (bs : Bytes) (ks : List Nat) : Bytes :=
  ks.foldl (fun x k =>
    match bchDataBit k with
    | some (i, b) => listSet x i (x.getD i 0 ^^^ BitVec.ofNat 8 (2 ^ b))
    | none => x) bs

/-- The BCH decoder over a page, with the page check over its result (R280): the positions corrected, none where the page
is uncorrectable. -/
def Dev.pageDecode (d : Dev) (cst : Bool) (p : Nat) : Option (List Nat) :=
  let x := d.spare cst p
  if x.parity = 0 then (if x.check = 0 then some [] else none)
  else
    match bchErrors x.parity with
    | none => none
    | some ks =>
      let bs := d.pageData cst p
      if crc32c (flipBits bs ks) = crc32c bs ^^^ x.check.toNat then some ks else none

/-- The bytes of a word whose light code fails. -/
def lightFails (e : BitVec 32) : BitVec 8 :=
  BitVec.ofNat 8 ((List.range 8).foldl (fun acc k => acc + if e.toNat / 16 ^ k % 16 = 0 then 0 else 2 ^ k) 0)

/-- The bits inverted in word `k` of a page. -/
def flipMask (ks : List Nat) (k : Nat) : BitVec 64 :=
  ks.foldl (fun m x =>
    match bchDataBit x with
    | some (i, b) => if i / 8 = k then m ^^^ BitVec.ofNat 64 (2 ^ (8 * (i % 8) + b)) else m
    | none => m) 0

/-- A word once the page code has been applied. -/
def nvmDecoded (w : BitVec 64) (k : Nat) : Option (List Nat) → NvmWord
  | some ks => .data (w ^^^ flipMask ks k) (some ks.length)
  | none => .bad w 0xFF

/-- Word `i` of an array as a read delivers it (R278, R280, R297). -/
def Dev.nvmWord (d : Dev) (cst : Bool) (i : Nat) : NvmWord :=
  match d.nvmRaw cst i with
  | none => .erased
  | some (w, e) =>
    if e = 0 ∨ (cst && isCellPage (i / 128)) then .data w none
    else if cst && cstSlotPage (i / 128) then .bad w (lightFails e)
    else nvmDecoded w (i % 128) (d.pageDecode cst (i / 128))

/-- Byte `a` of an array (offset from its start). -/
def Dev.nvmByte (d : Dev) (cst : Bool) (a : Nat) : MByte :=
  match d.nvmWord cst (a / 8) with
  | .erased => (0xFF, false)
  | .data w _ => (BitVec.ofNat 8 (w.toNat >>> (8 * (a % 8))), false)
  | .bad w m => (BitVec.ofNat 8 (w.toNat >>> (8 * (a % 8))), m.getLsbD (a % 8))

/-- Does every byte of the range lie in erased words? -/
def Dev.nvmErased (d : Dev) (cst : Bool) (a n : Nat) : Bool :=
  (List.range n).all fun i => d.nvmWord cst ((a + i) / 8) == .erased

/-- Is the page erased: data and spare area all read 1 (R279)? -/
def Dev.nvmPageErased (d : Dev) (cst : Bool) (p : Nat) : Bool :=
  d.nvmErased cst (1024 * p) 1024 && !((if cst then d.codes.cstSpare else d.codes.flashSpare).any fun e => e.1 == p)

/-- Word address on the bus, and page base address, of an offset in an array. -/
def nvmBase (cst : Bool) : Nat := if cst then cstWinBase else flashBase

/-- The record of what the page code found in the page of offset `a` (R280, R291), and the offer it makes (R285). -/
def Dev.nvmRecord (d : Dev) (m : Master) (cst : Bool) (a : Nat) (bits : Option Nat) : Dev :=
  let src := if cst then 19 else 18
  let word := nvmBase cst + a - a % 4
  match bits with
  | some b => (d.eccRecord false word src m 0 b 0xFF).offer ⟨nvmBase cst + a - a % 1024, true, src, b⟩
  | none => d.eccRecord true word src m 0 0 0xFF

/-- The record of a read of offset `a` that needed its page code, or found a failure that has none. -/
def Dev.nvmFound (d : Dev) (m : Master) (cst : Bool) (a : Nat) : Dev :=
  match d.nvmWord cst (a / 8) with
  | .data _ (some b) => d.nvmRecord m cst a (some b)
  | .bad _ _ => d.nvmRecord m cst a none
  | _ => d

/-- Does word `i` of an array fail its light code? -/
def Dev.needsCode (d : Dev) (cst : Bool) (i : Nat) : Bool :=
  match d.nvmWord cst i with
  | .data _ (some _) | .bad _ _ => true
  | _ => false

/-- Read `n` bytes from offset `a` of an array, with the record of the first word that failed its light code. -/
def Dev.nvmRead (d : Dev) (m : Master) (cst : Bool) (a n : Nat) : Dev × List MByte :=
  let vals := (List.range n).map fun i => d.nvmByte cst (a + i)
  let words := (List.range (ceilDiv (a % 8 + n) 8)).map fun i => a / 8 * 8 + 8 * i
  match words.find? fun w => d.needsCode cst (w / 8) with
  | some w => (d.nvmFound m cst (max a w), vals)
  | none => (d, vals)

/-- Does a whole-page read apply the page code: a light code fails, or the page check does not match (R280)? An erased page
is never decoded. -/
def Dev.pageSuspect (d : Dev) (cst : Bool) (p : Nat) : Bool :=
  nvmSealed cst p && !d.nvmPageErased cst p &&
    ((d.spare cst p).check != 0 || (List.range 128).any fun k => d.needsCode cst (128 * p + k))

/-- A whole-page read (R280): its record, and the bytes it delivers. Where the page cannot be corrected every byte of it is
poisoned. -/
def Dev.pageRead (d : Dev) (m : Master) (cst : Bool) (p : Nat) : Dev × List MByte :=
  if d.pageSuspect cst p then
    let bs := d.pageData cst p
    match d.pageDecode cst p with
    | some ks => (d.nvmRecord m cst (1024 * p) (some ks.length), marked (flipBits bs ks) false)
    | none => (d.nvmRecord m cst (1024 * p) none, marked bs true)
  else d.nvmRead m cst (1024 * p) 1024

/-- An array with a page erased. -/
def nvmErase (arr : List (Nat × BitVec 64)) (page : Nat) : List (Nat × BitVec 64) :=
  arr.filter fun e => e.1 / 128 != page

/-- What a torn range keeps when the words from `first` on are erased or programmed: its words before and behind them. -/
def Torn.outside (first words : Nat) (t : Torn) : List Torn :=
  let last := t.first + t.words
  let before := { t with words := min last first - t.first }
  let behind := { t with first := max t.first (first + words), words := last - max t.first (first + words) }
  [before, behind].filter fun x => x.words != 0

/-- Words that are erased or programmed are torn no longer. -/
def Dev.untear (d : Dev) (cst : Bool) (first words : Nat) : Dev :=
  { d with torn := d.torn.flatMap fun t => if t.cst = cst then t.outside first words else [t] }

/-- A program or erase of some words is interrupted: their contents are free from now on (log entry 5). -/
def Dev.tear (d : Dev) (cst erase : Bool) (first words : Nat) : Dev :=
  let d1 := (d.untear cst first words).draw 1
  { d1 with torn := ⟨cst, first, words, d.freeCount, erase⟩ :: d1.torn }

/-- Words programmed into an array, from word `i`. -/
def nvmPutWords (arr : List (Nat × BitVec 64)) (i : Nat) (ws : List (BitVec 64)) : List (Nat × BitVec 64) :=
  (ws.zipIdx).foldl (fun a p => Sparse.ins (i + p.2) p.1 a) arr

/-- The spare area that is programmed with a page's data (R279). -/
def Spare.fresh : Spare := ⟨0, 0, BitVec.allOnes 112⟩

/-- Light codes and spare areas after words are programmed: those of the words match, and a whole page that has a spare
area takes it with its data (R278, R279, R297). -/
def Codes.put (c : Codes) (cst : Bool) (i : Nat) (n : Nat) : Codes :=
  let light := Sparse.drop fun k => decide (i ≤ k) && decide (k < i + n)
  let spare (l : List (Nat × Spare)) : List (Nat × Spare) :=
    if nvmSealed cst (i / 128) ∧ i % 128 = 0 ∧ n = 128 then Sparse.ins (i / 128) Spare.fresh l else l
  if cst then { c with cstLight := light c.cstLight, cstSpare := spare c.cstSpare }
  else { c with flashLight := light c.flashLight, flashSpare := spare c.flashSpare }

/-- The same after a page is erased. -/
def Codes.erase (c : Codes) (cst : Bool) (page : Nat) : Codes :=
  let light := Sparse.drop (β := BitVec 32) fun k => k / 128 == page
  let spare := Sparse.drop (β := Spare) fun k => k == page
  if cst then { c with cstLight := light c.cstLight, cstSpare := spare c.cstSpare }
  else { c with flashLight := light c.flashLight, flashSpare := spare c.flashSpare }

/-- Words programmed into an array, with their codes. -/
def Dev.nvmPut (d : Dev) (cst : Bool) (i : Nat) (ws : List (BitVec 64)) : Dev :=
  let d1 := { d.untear cst i ws.length with codes := d.codes.put cst i ws.length }
  if cst then { d1 with cstArray := nvmPutWords d1.cstArray i ws } else { d1 with flash := nvmPutWords d1.flash i ws }

/-- A page erased. -/
def Dev.nvmErasePage (d : Dev) (cst : Bool) (page : Nat) : Dev :=
  let d1 := { d.untear cst (128 * page) 128 with codes := d.codes.erase cst page }
  if cst then { d1 with cstArray := nvmErase d1.cstArray page } else { d1 with flash := nvmErase d1.flash page }

/-- The 64-bit words of bytes, the last one completed with `fill`. -/
def words64 (fill : Nat → Byte) (bs : Bytes) : List (BitVec 64) :=
  (List.range (ceilDiv bs.length 8)).map fun k =>
    BitVec.ofNat 64 (leNat ((List.range 8).map fun i => bs.getD (8 * k + i) (fill (8 * k + i))))

/-! ### Reading any memory below the registers -/

/-- A read of the boot ROM (R271): its bytes have check bits, but nothing is written back. -/
def Dev.romRead (d : Dev) (m : Master) (a n : Nat) : Dev × List MByte :=
  let one (i : Nat) : MByte := let e := d.ramChk (a + i); (eccData (Config.romByte (a + i)) e, eccBad e)
  let lanes (c : EccClass) (w : Nat) : List Nat :=
    (List.range n).filter fun i => (a + i) / 4 == w && eccClass (d.ramChk (a + i)) == c
  let words := ((List.range n).map fun i => (a + i) / 4).eraseDups
  let d1 := words.foldl (fun x w => [EccClass.corrected, .uncorrectable].foldl (fun (y : Dev) c =>
    match lanes c w with
    | [] => y
    | i :: t => y.eccRecord (c == .uncorrectable) (4 * w) 17 m (syndrome (d.ramChk (a + i))) 1
        ((i :: t).foldl (fun acc j => acc + 2 ^ ((a + j) % 4)) 0)) x) d
  (d1, (List.range n).map one)

/-- Read `n` bytes at `a` from ROM, flash, RAM or the Cistern read window. -/
def Dev.memRead (d : Dev) (m : Master) (a n : Nat) : Dev × List MByte :=
  if inRam a then Dev.ramRead m (n + 1) d a n
  else if inFlash a then d.nvmRead m false (a - flashBase) n
  else if inCstWin a then d.nvmRead m true (a - cstWinBase) n
  else d.romRead m a n

/-- A word from four bytes with their marks. -/
def wordOf (bs : List MByte) : Word := BitVec.ofNat 32 (leNat (bs.map Prod.fst))

/-- Does any byte carry the poison mark? -/
def anyPoison (bs : List MByte) : Bool := bs.any Prod.snd

/-! ### The canonical form of the stored contents -/

/-- The canonical form of the codes: differences that are not zero, spare areas by rising page. -/
def Codes.wf (c : Codes) : Bool :=
  Sparse.wf chkDflt c.ctx && Sparse.wf lightDflt c.flashLight && Sparse.wf lightDflt c.cstLight &&
    Sparse.rising none c.flashSpare && Sparse.rising none c.cstSpare

/-- RAM, its check bits and the registers are in the one form of Sparse.lean; the arrays list programmed words by rising
index. -/
def Memory.wf (d : Dev) : Bool :=
  Sparse.wf byteDflt d.ram && Sparse.wf chkDflt d.chk && Sparse.wf regReset d.regs && Sparse.rising none d.flash &&
    Sparse.rising none d.cstArray && d.codes.wf

end Sys2Proof.Machine
end

