-- ==== Sys2Proof/Machine/Access.lean ====
section
/-! DEFINITION. The access rules: the MPU rule sets and the reach table at the master end, address decode and power
domains, the firewalls at the slave end, their records, and the rule epochs (R224 to R242). -/
namespace Sys2Proof.Machine

/-- Kind of an access (R226, R242). -/
inductive Kind where
  | read
  | write
  | exec
  deriving DecidableEq, Repr

def Kind.code : Kind → Nat
  | .read => 0
  | .write => 1
  | .exec => 2

/-! ### Decode and domains (R16, R27, R28) -/

/-- Reach group of an address (R230), none for an address in no group. -/
def reachGroup (a : Nat) : Option Nat :=
  let blk := a / 0x10000
  if inRom a then some 0
  else if inFlash a then some 1
  else if inSram a then some 2
  else if inBkt a then some 3
  else if inCstWin a then some 4
  else if 0x4000 ≤ blk ∧ blk ≤ 0x4021 then some 5
  else if blk = 0x5000 then some 6
  else none

/-- Is the address decoded at all (R27, R28)? Group 5 holds one 64 KiB range that no region takes. -/
def decoded (a : Nat) : Bool := (reachGroup a).isSome && a / 0x10000 != 0x400F

/-- Power domain that must be on for the address (R27). SYSCTL is in CORE; its AON fields are reached through it. -/
def addrDomain (a : Nat) : Dom :=
  let blk := a / 0x10000
  if inRom a then .core
  else if inFlash a then .flash
  else if inSram a then (if a < ramBase + 0x20000 then .isle else .core)
  else if inBkt a then .pump
  else if inCstWin a then .isle
  else if blk = 0x4001 then .well
  else if blk = 0x4002 ∨ blk = 0x4009 then .aon
  else if blk = 0x4005 ∨ blk = 0x400B then .isle
  else if blk = 0x4006 then .flash
  else if blk = 0x400A then .pump
  else if 0x4010 ≤ blk ∧ blk ≤ 0x401F then .pump
  else if blk = 0x4020 then .linkA
  else if blk = 0x4021 then .linkB
  else .core

/-- Is the address in the register space? -/
def isRegAddr (a : Nat) : Bool := 0x40000000 ≤ a

/-- Power domain of a master (R29). -/
def masterDomain (m : Master) : Dom :=
  if m.val = 11 then .pump else if m.val = 12 then .isle else .core

/-! ### Rule epochs (R237) -/

/-- The rule epoch in force. -/
def Dev.epoch (d : Dev) : BitVec 4 := BitVec.ofNat 4 (d.get F.ACCESS_EPOCH_CUR)

/-- A register of the active firewall copy, as the rules of epoch `e` have it (R239): the previous epoch's rules are kept
while PREV_LIVE = 1. -/
def Dev.fwReg (d : Dev) (e : BitVec 4) (a : Nat) : Word :=
  if d.flag F.ACCESS_EPOCH_PREV_LIVE && d.get F.ACCESS_EPOCH_PREV == e.toNat && d.get F.ACCESS_EPOCH_CUR != e.toNat
  then Sparse.get regReset a d.prevFw
  else d.reg a

/-! ### The slave end (R231 to R234) -/

/-- Index of the firewall in front of an address (R231). -/
def firewallOf (a : Nat) : Nat :=
  let blk := a / 0x10000
  if inRom a then 19
  else if inFlash a then 0
  else if inSram a then 1 + (a - ramBase) / 0x20000
  else if inBkt a then 13
  else if inCstWin a then 14
  else if blk = 0x4005 ∨ blk = 0x400B then 14
  else if blk = 0x4006 then 0
  else if blk = 0x5000 then 15
  else if blk ≤ 0x4004 ∨ blk = 0x4009 then 16
  else if 0x4010 ≤ blk ∨ blk = 0x400A ∨ blk = 0x4008 then 17
  else 18

/-- Number of programmable regions, and granule (R231). -/
def fwRegions (f : Nat) : Nat := if f = 15 then 16 else if f = 19 then 0 else 8
def fwGranule (f : Nat) : Nat :=
  if f = 0 ∨ f = 15 then 4096 else if 1 ≤ f ∧ f ≤ 13 then 32 else 256

/-- The outcome of a firewall: permitted with the lowest hitting region, or refused with reason and region (R242). -/
inductive FwRes where
  | permit (region : Nat)
  | refuse (reason region : Nat)
  deriving DecidableEq, Repr

/-- Refusal reasons of R242. -/
def rNoHit : Nat := 0
def rDenied : Nat := 1
def rOverlap : Nat := 2
def rField : Nat := 3

/-- The fixed rules (R232): what they grant of kind `k`, none where no fixed rule covers the transaction. -/
def fixedRule (m : Master) (priv : Bool) (k : Kind) (a : Nat) : Option Bool :=
  if inRom a then some (decide (m.val < 3) && k != .write)
  else if m.val = 11 ∧ priv then
    if inBkt a then some (k != .exec)
    else if 0x40140000 ≤ a ∧ a < 0x40180000 then some (k != .exec)
    else none
  else if m.val = 12 then
    if inCstWin a then some (k == .read)
    else if a / 0x10000 = 0x4005 ∨ a / 0x10000 = 0x400B then some (k != .exec)
    else if 0x1001C000 ≤ a ∧ a < 0x10020000 then some (k != .exec)
    else none
  else if m.val = 15 ∧ inRam a then some (k == .read)
  else none

/-- Address of region `r` of firewall `f` in the active copy (R236). -/
def fwActive (f r : Nat) : Nat := 0x40032100 + 0x200 * f + 0x10 * r

/-- Does region `r` hit (R233)? A bound outside the firewall's range hits nothing (R236). -/
def Dev.fwHits (d : Dev) (e : BitVec 4) (f r : Nat) (m : Master) (a : Nat) : Bool :=
  let x := fwActive f r
  let base := (d.fwReg e x).toNat
  let limit := (d.fwReg e (x + 4)).toNat
  let rule := (d.fwReg e (x + 8)).toNat
  bitAt rule 31 && bitAt rule m.val && decide (base ≤ a) && decide (a ≤ limit) &&
    decoded base && decoded limit && firewallOf base == f && firewallOf limit == f

/-- Does region `r` grant kind `k`? -/
def Dev.fwGrants (d : Dev) (e : BitVec 4) (f r : Nat) (k : Kind) : Bool :=
  let rule := (d.fwReg e (fwActive f r + 8)).toNat
  match k with
  | .read => bitAt rule 16
  | .write => bitAt rule 17
  | .exec => bitAt rule 18 && decide (f ≤ 12)

/-- A firewall's decision on one granule's part of a transaction (R232, R233). -/
def Dev.fwJudge (d : Dev) (e : BitVec 4) (m : Master) (priv : Bool) (k : Kind) (a : Nat) : FwRes :=
  match fixedRule m priv k a with
  | some true => .permit 0x3E
  | some false => .refuse rDenied 0x3E
  | none =>
    let f := firewallOf a
    let hits := (List.range (fwRegions f)).filter fun r => d.fwHits e f r m a
    match hits with
    | [] =>
      if m.val = 2 ∧ d.flag F.ACCESS_CTRL_VAULT_DEFAULT then .permit 0x3F else .refuse rNoHit 0x3F
    | r :: t =>
      if m.val < 3 then
        match (r :: t).find? fun x => !d.fwGrants e f x k with
        | some x => .refuse rDenied x
        | none => .permit r
      else
        match t with
        | [] => if d.fwGrants e f r k then .permit r else .refuse rDenied r
        | _ => .refuse rOverlap r

/-! ### Records -/

/-- The layout of ACCESS_SV_INFO with VALID = 1 and MULTI = 0 (R242). -/
def svInfo (f : Nat) (e : BitVec 4) (m : Master) (k : Kind) (reason region : Nat) : Nat :=
  2 ^ 31 + f * 2 ^ 25 + e.toNat * 2 ^ 21 + m.val * 2 ^ 17 + k.code * 2 ^ 15 + reason * 2 ^ 12 + region

/-- A firewall refusal or a FIELD case (R242). The record and its count lie in CORE, and hold nothing while it is off
(R15); the trouble and the event lie in AON. -/
def Dev.recordSv (d : Dev) (a : Nat) (e : BitVec 4) (m : Master) (k : Kind) (reason region : Nat) : Dev :=
  let info := svInfo (firewallOf a) e m k reason region
  let d1 :=
    if !d.on .core then d
    else
      let d0 :=
        if d.flag F.ACCESS_SV_INFO_VALID then d.put F.ACCESS_SV_INFO_MULTI 1
        else (d.put F.ACCESS_SV_ADDR_ADDR a).setReg F.ACCESS_SV_INFO_VALID.addr (BitVec.ofNat 32 info)
      d0.bump F.ACCESS_SV_COUNT_COUNT 1
  (d1.trouble tACCESS).event 3 1 clsFault (BitVec.ofNat 32 a) (BitVec.ofNat 32 info)

/-- Master-end refusal reasons (R241). -/
def mvNoHit : Nat := 0
def mvDenied : Nat := 1
def mvReach : Nat := 2

/-- The first master-end violation is recorded, a later one sets MULTI (R241); there is no record while CORE is off (R15). -/
def Dev.recordMv (d : Dev) (a : Nat) (m : Master) (k : Kind) (reason region : Nat) : Dev :=
  if !d.on .core then d
  else if d.flag F.ACCESS_MV_INFO_VALID then d.put F.ACCESS_MV_INFO_MULTI 1
  else
    let info := 2 ^ 31 + d.get F.ACCESS_EPOCH_CUR * 2 ^ 20 + m.val * 2 ^ 16 + k.code * 2 ^ 14 +
      d.get F.ACCESS_EPOCH_SET * 2 ^ 13 + reason * 2 ^ 8 + region
    (d.put F.ACCESS_MV_ADDR_ADDR a).setReg F.ACCESS_MV_INFO_VALID.addr (BitVec.ofNat 32 info)

/-! ### The master end -/

/-- Is a device master's address outside its reach (R230)? The group refused; an address in no group is no reach case. -/
def Dev.reachRefuses (d : Dev) (m : Master) (a : Nat) : Option Nat :=
  match reachGroup a with
  | none => none
  | some g => if bitAt (d.reg (0x40030040 + 4 * (m.val - 3))).toNat g then none else some g

/-- The reach check of a device master, with its record (R230, R241). -/
def Dev.reachCheck (d : Dev) (m : Master) (k : Kind) (a : Nat) : Dev × Bool :=
  if m.val < 3 then (d, true)
  else
    match d.reachRefuses m a with
    | some g => (d.recordMv a m k mvReach g, false)
    | none => (d, true)

/-- First register of region `r` of MPU set `s` (R228). -/
def mpuAddr (s r : Nat) : Nat := 0x40031000 + 0x200 * s + 0x10 * r

/-- Does region `r` of the active MPU set hit byte `a` (R226)? -/
def Dev.mpuHits (d : Dev) (r a : Nat) : Bool :=
  let x := mpuAddr (d.get F.ACCESS_EPOCH_SET) r
  bitAt (d.reg (x + 8)).toNat 31 && decide ((d.reg x).toNat ≤ a) && decide (a ≤ (d.reg (x + 4)).toNat)

/-- Bit of MPU_ATTR that grants kind `k` at level `lv`, 0 User or 1 Supervisor (R228). -/
def mpuBit (lv : Nat) (k : Kind) : Nat :=
  4 * lv + (match k with | .read => 0 | .write => 1 | .exec => 2)

/-- Reason and region if the MPU refuses byte `a` (R226). -/
def Dev.mpuByte (d : Dev) (lv : Nat) (k : Kind) (a : Nat) : Option (Nat × Nat) :=
  let hits := (List.range 32).filter fun r => d.mpuHits r a
  match hits with
  | [] => some (mvNoHit, 0x3F)
  | _ =>
    match hits.find? fun r => !bitAt (d.reg (mpuAddr (d.get F.ACCESS_EPOCH_SET) r + 8)).toNat (mpuBit lv k) with
    | some r => some (mvDenied, r)
    | none => none

/-- First byte of an access of `n` bytes that the MPU refuses, with reason and region (R227). -/
def Dev.mpuRefuses (d : Dev) (lv : Nat) (k : Kind) (a n : Nat) : Option (Nat × Nat × Nat) :=
  (List.range n).findSome? fun i => (d.mpuByte lv k (a + i)).map fun x => (a + i, x)

/-! ### Decode, domain and firewall in order (R224, steps 2 and 3) -/

/-- How a slave answers. -/
inductive Resp where
  | ok
  /-- refused by the firewall -/
  | refused
  | decode
  | domainOff
  /-- register width or alignment (R9) -/
  | width
  deriving DecidableEq, Repr

/-- DETAIL of BUS_ERROR and IMPRECISE_STORE (R210). -/
def Resp.detail : Resp → Nat
  | .ok => 0
  | .refused => 0
  | .decode => 1
  | .domainOff => 2
  | .width => 3

/-- Steps 2 and 3 of R224 for a part of a transaction that lies within one granule, with the record a refusal makes.
`priv` marks Pumphouse's private port. -/
def Dev.slaveCheck (d : Dev) (e : BitVec 4) (m : Master) (priv : Bool) (k : Kind) (a : Nat) : Dev × Resp :=
  if !decoded a then (d, .decode)
  else if !d.on (addrDomain a) then (d, .domainOff)
  else
    match d.fwJudge e m priv k a with
    | .permit _ => (d, .ok)
    | .refuse reason region => (d.recordSv a e m k reason region, .refused)

/-! ### Advancing the epoch (R237 to R240) -/

/-- Does any transaction of the current epoch remain: a buffered store, or a store on its way to an AON register? -/
def Dev.transactionsLive (d : Dev) : Bool := !d.sbuf.isEmpty || !d.aonPend.isEmpty || d.woh.job.isSome

/-- The active firewall copy as it stands, to be kept as the previous epoch's rules. -/
def Dev.activeFw (d : Dev) : List (Nat × Word) := d.regs.filter fun e => isFwReg e.1 && 0x100 ≤ (e.1 - 0x40032000) % 0x200

/-- The active copy of the firewall regions replaced by the staged one (R238). -/
def Dev.commitFw (d : Dev) : Dev :=
  let staged := d.regs.filter fun e => isFwReg e.1 && (e.1 - 0x40032000) % 0x200 < 0x100
  let cleared := { d with regs := d.regs.filter fun e => !(isFwReg e.1 && 0x100 ≤ (e.1 - 0x40032000) % 0x200) }
  staged.foldl (fun x e => x.setReg (e.1 + 0x100) e.2) cleared

/-- The epoch advances by one (R237); the previous epoch's rules are kept while its transactions live (R239). -/
def Dev.advanceEpoch (d : Dev) (oldFw : List (Nat × Word)) : Dev :=
  let cur := d.get F.ACCESS_EPOCH_CUR
  (({ d with prevFw := oldFw }.put F.ACCESS_EPOCH_PREV cur).put F.ACCESS_EPOCH_CUR ((cur + 1) % 16)).put
    F.ACCESS_EPOCH_PREV_LIVE (b2n d.transactionsLive)

/-- SWAPRULES, or RETX with SWAP: the MPU sets are exchanged, an armed commit happens, the epoch advances once (R229,
R237, R238). -/
def Dev.swapRules (d : Dev) : Dev :=
  let old := d.activeFw
  let d1 := d.put F.ACCESS_EPOCH_SET (1 - d.get F.ACCESS_EPOCH_SET)
  let d2 := if d1.flag F.ACCESS_EPOCH_PEND_FW then (d1.commitFw).put F.ACCESS_EPOCH_PEND_FW 0 else d1
  d2.advanceEpoch old

/-- A commit command (R238, R240): NOW is refused while PREV_LIVE = 1, WITH_SWAP arms, CANCEL disarms. -/
def Dev.fwCommit (d : Dev) (op : Nat) : Dev :=
  if op = 1 then
    if d.flag F.ACCESS_EPOCH_PREV_LIVE then d.put F.ACCESS_FW_RESULT_STATUS 1
    else
      let old := d.activeFw
      (((d.commitFw).put F.ACCESS_EPOCH_PEND_FW 0).advanceEpoch old).put F.ACCESS_FW_RESULT_STATUS 0
  else if op = 2 then (d.put F.ACCESS_EPOCH_PEND_FW 1).put F.ACCESS_FW_RESULT_STATUS 0
  else if op = 3 then
    if d.flag F.ACCESS_EPOCH_PEND_FW then (d.put F.ACCESS_EPOCH_PEND_FW 0).put F.ACCESS_FW_RESULT_STATUS 0
    else d.put F.ACCESS_FW_RESULT_STATUS 2
  else d

end Sys2Proof.Machine
end

