-- ==== Sys2Proof/Machine/TimeUnit.lean ====
section
/-! DEFINITION. The time unit (chapter 05): the time base and its clock edge, the commands that move it, the lock state,
pulse-per-second, and what a write to one of its registers does. -/
namespace Sys2Proof.Machine

/-! ### The time base (R142 to R145) -/

/-- The increment of a PUMP edge in units of 2^-32 ns: the sum of R142, truncated to a whole unit. -/
def Dev.timeInc (d : Dev) : Nat :=
  ((256 * 10 ^ 9 + sgn 32 (d.get F.TIME_FREQ_FREQ)) * (4 * 2 ^ 32) / (256 * 10 ^ 9)).toNat

/-- One PUMP edge: the time advances by `inc` (R142). -/
def TimeUnit.edge (inc : Nat) (t : TimeUnit) : TimeUnit :=
  let f := t.frac + inc
  let n := t.ns + f / 2 ^ 32
  if n < 10 ^ 9 then { t with ns := n, frac := f % 2 ^ 32, edges := t.edges + 1 }
  else
    { t with
      sec := (t.sec + 1) % 2 ^ 48
      ns := n - 10 ^ 9
      frac := f % 2 ^ 32
      edges := t.edges + 1 }

/-- Does the PUMP clock run: the domain is on and the main PLL has locked (R18, R432)? -/
def Dev.pumpClock (d : Dev) : Bool := d.on .pump && d.pll

/-- Does the nanoseconds count pass 999,999,999 on the next edge? -/
def TimeUnit.passes (inc : Nat) (t : TimeUnit) : Bool := decide (10 ^ 9 ≤ t.ns + (t.frac + inc) / 2 ^ 32)

/-- PPS_OUT on an edge, from the advanced count (R144, R156): a pulse starts where the count has passed 999,999,999 and
lasts OUT_WIDTH microseconds of 250 PUMP cycles, and ends on its last edge. -/
def Dev.ppsDecide (d : Dev) (t : TimeUnit) (passed : Bool) : TimeUnit :=
  if d.flag F.TIME_PPS_CFG_OUT_EN ∧ passed then
    { t with ppsOut := true, ppsEnd := t.edges + 250 * d.get F.TIME_PPS_CFG_OUT_WIDTH }
  else if t.edges = t.ppsEnd then { t with ppsOut := false }
  else t

/-- One PUMP clock period of 4 ns: a PUMP edge happens while the PUMP clock runs (R18, log entry 1). -/
def Dev.tick (d : Dev) : Dev :=
  let d1 := { d with now := d.now + 4 }
  if d.pumpClock then { d1 with tu := d.ppsDecide (d.tu.edge d.timeInc) (d.tu.passes d.timeInc) } else d1

/-- The CORE clock in MHz (R18): 240 in HOST, 60 there under power mode LOW, and nominally 24 in PASSIVE_RUN. -/
def Dev.coreMhz (d : Dev) : Nat := if d.opState = stHost then (if d.well.pmode = 2 then 60 else 240) else 24

/-- CYCLE goes on for 4 ns (R163). -/
def Core.clock (c : Core) (mhz : Nat) : Core :=
  let n := c.cyclePart + 4 * mhz
  { c with cycle := c.cycle + BitVec.ofNat 64 (n / 1000), cyclePart := n % 1000 }

/-- On an empty queue the block idles for one PUMP clock period (log entry 1). -/
def State.idle (s : State) : State :=
  { s with
    core := if s.dev.on .core ∧ s.core.released then s.core.clock s.dev.coreMhz else s.core
    dev := s.dev.tick }

/-- The stamp that the time unit takes now, `fine` in the second half of the PUMP cycle: the fine stage's offset of 2 ns
from the preceding edge (R142, R146). -/
def Dev.stampAt (d : Dev) (fine : Bool) : Nat × Nat :=
  let n := d.tu.ns + 2 * b2n fine
  if n < 10 ^ 9 then (d.tu.sec, report2 n) else ((d.tu.sec + 1) % 2 ^ 48, report2 (n - 10 ^ 9))

/-- The stamp of what the device itself starts on a PUMP edge (R18, R146). -/
def Dev.stamp (d : Dev) : Nat × Nat := d.stampAt false

/-- The 62-bit time of the key epochs: low 32 bits of the seconds, and nanoseconds, as one number of nanoseconds. -/
def ptp62 (sec ns : Nat) : Nat := sec % 2 ^ 32 * 10 ^ 9 + ns

/-- The time unit's time as a 62-bit time. -/
def Dev.time62 (d : Dev) : Nat := ptp62 d.tu.sec d.tu.ns

/-! ### Lock state (R152, R153) -/

def lockFREE : Nat := 0
def lockLOCKED : Nat := 1
def lockHOLDOVER : Nat := 2
def lockUNLOCKED : Nat := 3

/-- The TIME_STAT word as an event argument (R381). -/
def Dev.timeStat (d : Dev) : Word := d.reg F.TIME_STAT_LOCK.addr

/-- The SERVO_TO count starts again (R153). -/
def Dev.servoUpdate (d : Dev) : Dev := { d with tu := { d.tu with servoAt := d.now } }

/-- Change the lock state; every change issues an event, and the count of the new state starts (R153, log entry 31). -/
def Dev.setLock (d : Dev) (v : Nat) : Dev :=
  if d.get F.TIME_STAT_LOCK = v then d
  else
    let d1 := (d.put F.TIME_STAT_LOCK v).latchIrq 13
    let d2 :=
      if v = lockLOCKED then d1.servoUpdate
      else if v = lockHOLDOVER then { d1 with tu := { d1.tu with holdAt := d1.now } } else d1
    d2.event 10 2 clsState d2.timeStat 0

/-- Does the time unit report itself locked (R152)? -/
def Dev.timeLocked (d : Dev) : Bool :=
  d.get F.TIME_STAT_LOCK == lockLOCKED || d.get F.TIME_STAT_LOCK == lockHOLDOVER

/-- STEP (R143, R144): the edge's advance first, then the time is the value set. -/
def Dev.timeStep (d : Dev) : Dev :=
  let d1 := d.tick
  let d2 := { d1 with tu := { d1.tu with
    sec := d1.get F.TIME_SET_SEC_LO_SEC + 2 ^ 32 * d1.get F.TIME_SET_SEC_HI_SEC
    ns := d1.get F.TIME_SET_NS_NS
    frac := 0 } }
  let d3 := d2.put F.TIME_STAT_STEPPED 1
  (d3.event 10 1 clsInfo d3.timeStat 0).setLock lockUNLOCKED

/-- ADD (R143, R144): refused where the result would lie before time zero. -/
def Dev.timeAddApply (d : Dev) : Dev :=
  let d1 := d.tick
  let t : Int := (d1.tu.sec * 10 ^ 9 + d1.tu.ns : Nat) + sgn 32 (d1.get F.TIME_ADD_NS)
  if t < 0 then d1.put F.TIME_STAT_CMD_REFUSED 1
  else
    let n := t.toNat
    let d2 := { d1 with tu := { d1.tu with sec := n / 10 ^ 9 % 2 ^ 48, ns := n % 10 ^ 9 } }
    let d3 := d2.servoUpdate.put F.TIME_STAT_STEPPED 1
    d3.event 10 1 clsInfo d3.timeStat 0

/-- DECLARE_LOCK (R153). -/
def Dev.declareLockOp (d : Dev) : Dev :=
  let l := d.get F.TIME_STAT_LOCK
  if l = lockFREE then d.put F.TIME_STAT_CMD_REFUSED 1
  else if l = lockLOCKED then d
  else d.setLock lockLOCKED

/-- DECLARE_HOLDOVER (R153). -/
def Dev.declareHoldoverOp (d : Dev) : Dev :=
  let l := d.get F.TIME_STAT_LOCK
  if l = lockLOCKED then d.setLock lockHOLDOVER
  else if l = lockHOLDOVER then d
  else d.put F.TIME_STAT_CMD_REFUSED 1

/-- A value written to TIME_CMD.OP (R158). -/
def Dev.timeCmd (d : Dev) (op : Nat) : Dev :=
  if op = 1 then d.timeStep
  else if op = 2 then d.timeAddApply
  else if op = 3 then d.declareLockOp
  else if op = 4 then d.declareHoldoverOp
  else d

/-- SERVO_TO ms have passed since the latest servo update: an update on the edge itself is in time (R39, R153). -/
def Dev.servoTimeoutOp (d : Dev) : Dev :=
  let limit := d.get F.TIME_SERVO_SERVO_TO
  if d.on .pump ∧ d.get F.TIME_STAT_LOCK = lockLOCKED ∧ limit ≠ 0 ∧ d.tu.servoAt + limit * 10 ^ 6 < d.now
  then d.setLock lockHOLDOVER else d

/-- HOLD_MAX s have passed in HOLDOVER (R39, R153). -/
def Dev.holdoverExpiryOp (d : Dev) : Dev :=
  if d.on .pump ∧ d.get F.TIME_STAT_LOCK = lockHOLDOVER ∧
      d.tu.holdAt + d.get F.TIME_SERVO_HOLD_MAX * 10 ^ 9 < d.now
  then (d.trouble tTIME).setLock lockUNLOCKED else d

/-! ### Pulse-per-second (R155 to R157) -/

/-- The PUMP edge on which PPS_OUT goes active, if the next one is that edge (R156). -/
def Dev.ppsOutPulseOp (d : Dev) : Dev :=
  if d.pumpClock ∧ d.flag F.TIME_PPS_CFG_OUT_EN ∧ d.tu.passes d.timeInc then d.tick else d

/-- The PUMP edge on which the pulse ends, if the next one is that edge (R156). -/
def Dev.ppsOutEndOp (d : Dev) : Dev :=
  if d.pumpClock ∧ d.tu.ppsOut ∧ d.tu.ppsEnd = d.tu.edges + 1 then d.tick else d

/-- An edge at PPS_IN; one less than 100 ns behind the edge before is the same edge (R157). -/
def Dev.ppsInEdgeOp (d : Dev) (rising fine : Bool) : Dev :=
  let at_ := d.now + 2 * b2n fine
  if d.on .pump ∧ d.flag F.TIME_PPS_CFG_IN_EN ∧ rising = !d.flag F.TIME_PPS_CFG_IN_EDGE ∧
      (d.tu.ppsInAt.all fun t => t + 100 ≤ at_) then
    let d0 := { d with tu := { d.tu with ppsInAt := some at_ } }
    if d0.flag F.TIME_PPSIN_STAT_VALID then d0.bump F.TIME_PPSIN_STAT_MISSED 1
    else
      let t := d0.stampAt fine
      ((d0.put F.TIME_PPSIN_NS_NS t.2).put F.TIME_PPSIN_SEC_SEC (t.1 % 2 ^ 32)).put F.TIME_PPSIN_STAT_VALID 1
  else d

/-- Enabling a PPS ball takes effect only for the ball's owner (R37, R155): `ball` is the resource index. -/
def Dev.ppsEnable (d : Dev) (m : Master) (ball : Nat) (f : Fl) (was : Bool) : Dev :=
  if d.flag f ∧ !was ∧ d.owner ball ≠ BitVec.ofNat 5 m.val then
    ((d.put f 0).put F.TIME_STAT_PPS_REFUSED 1).claimConflict ball m.val
  else d

/-- The owner of a resource changes: a PPS enable of the ball is cleared (R155), and the Cistern port's buffers are to be
cleared (R323). -/
def Dev.changeOwner (d : Dev) (i : Nat) (o : BitVec 5) : Dev :=
  if d.owner i = o then d
  else
    let d1 := d.setOwner i o
    if i = 6 then d1.put F.TIME_PPS_CFG_IN_EN 0
    else if i = 7 then { d1.put F.TIME_PPS_CFG_OUT_EN 0 with tu := { d1.tu with ppsOut := false } }
    else if i = 0x40 then { d1 with cst := { d1.cst with clearDue := true } }
    else d1

/-- What a write to a register of the time unit does beside storing it: `old` is the word before, `acted` the word that
the write carried in its write-only fields. -/
def Dev.timeWritten (d : Dev) (m : Master) (a old acted : Nat) : Dev :=
  if a = F.TIME_CMD_OP.addr then d.timeCmd (acted % 8)
  else if a = F.TIME_FREQ_FREQ.addr then d.servoUpdate
  else if a = F.TIME_PPS_CFG_IN_EN.addr then
    let d1 := (d.ppsEnable m 6 F.TIME_PPS_CFG_IN_EN (bitAt old 2)).ppsEnable m 7 F.TIME_PPS_CFG_OUT_EN (bitAt old 0)
    if d1.flag F.TIME_PPS_CFG_OUT_EN then d1
    else { d1 with tu := { d1.tu with ppsOut := false } }
  else if a = F.TIME_PPSIN_STAT_VALID.addr then
    if bitAt old 0 ∧ !d.flag F.TIME_PPSIN_STAT_VALID then d.put F.TIME_PPSIN_STAT_MISSED 0 else d
  else d

end Sys2Proof.Machine
end

