-- ==== Sys2Proof/Machine/Rings.lean ====
section
/-! DEFINITION. Event sequence numbers, the Buckets partitions, and the hardware side of the descriptor rings: reserving
slots, dropping entries, and what writes to ring registers do (R110 to R131, R377). Reading and writing descriptors in
memory is in Posting. -/
namespace Sys2Proof.Machine

/-! ### The ESN issuer (R377, R379) -/

/-- Issue one ESN: the current count, which then advances and saturates (R377, R379). -/
def Dev.takeEsn (d : Dev) : Dev × Nat :=
  let n := d.evt.esn
  let d1 := { d with evt := { d.evt with esn := min (n + 1) (2 ^ 48 - 1) } }
  let d2 := if n + 1 = 2 ^ 47 then d1.trouble tESN else d1
  (d2, n)

/-! ### Ring registers (R119) -/

/-- A register field of ring `n`. -/
def ringField (n : Nat) (f : Fl) : Fl := f.plus (0x10 * n)

/-- The hardware side of ring `n`. -/
def Dev.ring (d : Dev) (n : Nat) : RingHw := Sparse.get (fun _ => RingHw.empty) n d.rings

def Dev.setRing (d : Dev) (n : Nat) (r : RingHw) : Dev :=
  { d with rings := Sparse.set (fun _ => RingHw.empty) n r d.rings }

def Dev.ringSize (d : Dev) (n : Nat) : Nat := 2 ^ d.get (ringField n F.RING_CFG_SIZE)
def Dev.ringProd (d : Dev) (n : Nat) : Nat := d.get (ringField n F.RING_PROD_INDEX)
def Dev.ringCons (d : Dev) (n : Nat) : Nat := d.get (ringField n F.RING_CONS_INDEX)
def Dev.ringEnabled (d : Dev) (n : Nat) : Bool := d.flag (ringField n F.RING_CFG_ENABLE)
/-- Is the ring FROM_DEVICE (R117)? -/
def Dev.ringFrom (d : Dev) (n : Nat) : Bool := d.flag (ringField n F.RING_CFG_DIR)
def Dev.ringState (d : Dev) (n : Nat) : Nat := d.get (ringField n F.RING_STAT_STATE)
/-- Number of descriptors in the ring (R117). -/
def Dev.ringCount (d : Dev) (n : Nat) : Nat := (d.ringProd n + 8192 - d.ringCons n) % 8192
/-- Memory address of index `j` (R117). -/
def Dev.descAddr (d : Dev) (n j : Nat) : Nat :=
  d.get (ringField n F.RING_BASE_BASE) * 32 + 32 * (j % d.ringSize n)

/-- States of RING_STAT. -/
def ringOFF : Nat := 0
def ringRUN : Nat := 1
def ringSTOPPED : Nat := 2

/-- Set the ring's pending bit (R141). -/
def Dev.ringPend (d : Dev) (n : Nat) : Dev :=
  let f := F.RING_PEND_PEND.plus (4 * (n / 32))
  d.put f (d.get f ||| 2 ^ (n % 32))

/-- Free slots, reserved ones counted as used (R384). -/
def Dev.ringSpace (d : Dev) (n : Nat) : Nat :=
  d.ringSize n - d.ringCount n - (d.ring n).reserved.length

/-- Can a FROM_DEVICE ring take an entry at all (R125, R130)? -/
def Dev.ringTakes (d : Dev) (n : Nat) : Bool :=
  d.on .core && d.ringEnabled n && d.ringFrom n && d.ringState n == ringRUN

/-- An entry that the ring cannot take is dropped: it takes an ESN and is counted (R130). -/
def Dev.dropEntry (d : Dev) (n : Nat) : Dev :=
  let (d1, e) := d.takeEsn
  let r := d1.ring n
  let first := if d1.get (ringField n F.RING_LOST_PENDING) = 0 then e else r.lostFirst
  ((d1.setRing n { r with lostFirst := first, lostLast := e }).bump (ringField n F.RING_LOST_PENDING) 1).bump
    (ringField n F.RING_DROPS_COUNT) 1

/-- Words 0 to 7 of a LOST descriptor, before OWN is cleared and IRQ is set by the posting (R122, R130). -/
def lostWords (count first last : Nat) : List Word :=
  [BitVec.ofNat 32 (4 * 2 ^ 28 + count), 0, 0, 0, BitVec.ofNat 32 first, BitVec.ofNat 32 (first / 2 ^ 32),
   BitVec.ofNat 32 last, BitVec.ofNat 32 (last / 2 ^ 32)]

/-- Reserve the LOST descriptor that is due, if a slot is free (R130). -/
def Dev.reserveLost (d : Dev) (n : Nat) : Dev :=
  let k := d.get (ringField n F.RING_LOST_PENDING)
  if k ≠ 0 ∧ d.ringTakes n ∧ 0 < d.ringSpace n then
    let r := d.ring n
    (d.setRing n { r with
      reserved := r.reserved ++ [⟨.lost, r.lostFirst, none, some (lostWords k r.lostFirst r.lostLast), false⟩] }).put
      (ringField n F.RING_LOST_PENDING) 0
  else d

/-- Reserve a slot for an entry that needs more than `need` free slots; none if it is dropped instead (R125, R130,
R384). -/
def Dev.reserveSlot (d : Dev) (n need : Nat) (kind : EntryKind) (bucket : Option Nat) : Dev × Bool :=
  let d1 := d.reserveLost n
  if d1.ringTakes n ∧ need < d1.ringSpace n then
    let (d2, e) := d1.takeEsn
    let r := d2.ring n
    (d2.setRing n { r with reserved := r.reserved ++ [⟨kind, e, bucket, none, false⟩] }, true)
  else (d1.dropEntry n, false)

/-- The words of a reserved entry are complete. -/
def Dev.completeEntry (d : Dev) (n : Nat) (kind : EntryKind) (esn : Nat) (ws : List Word) : Dev :=
  let r := d.ring n
  d.setRing n { r with
    reserved := r.reserved.map fun e => if e.kind = kind ∧ e.esn = esn ∧ e.words = none then { e with words := some ws } else e }

/-- A ring stops (R128): STATE, ERR, event, trouble bit and pending bit. -/
def Dev.ringStop (d : Dev) (n err : Nat) : Dev :=
  let d1 := (d.put (ringField n F.RING_STAT_STATE) ringSTOPPED).put (ringField n F.RING_STAT_ERR) err
  ((d1.event 8 1 clsFault (BitVec.ofNat 32 n) (d1.reg (ringField n F.RING_STAT_STATE).addr)).trouble tRING).ringPend n

/-! ### Buckets (R110 to R116) -/

/-- Address of slot `i`. -/
def slotAddr (i : Nat) : Nat := bktBase + 0x800 * i
/-- First address and size of the restart reserve (R110). -/
def rsvBase : Nat := bktBase + 0x50000
def rsvSize : Nat := 0x30000

/-- Does Pumphouse own the partition (R113)? -/
def Dev.partOwned (d : Dev) (res : Nat) : Bool := d.owner res == 11

/-- A free hold slot, if Pumphouse owns the partition (R111, R113). -/
def Dev.freeHold (d : Dev) : Option Nat :=
  if d.partOwned 0x30 then
    (List.range (d.get F.BKT_PART_HOLD_SLOTS)).find? fun i => !d.holdUsed.contains i
  else none

/-- A free divert slot, if Pumphouse owns the partition. -/
def Dev.freeDivert (d : Dev) : Option Nat :=
  if d.partOwned 0x31 then
    let h := d.get F.BKT_PART_HOLD_SLOTS
    ((List.range (160 - h)).map (h + ·)).find? fun i => !d.divertUsed.contains i
  else none

def Dev.takeHold (d : Dev) (i : Nat) : Dev := { d with holdUsed := d.holdUsed ++ [i] }
def Dev.dropHold (d : Dev) (i : Nat) : Dev := { d with holdUsed := d.holdUsed.filter (· != i) }
def Dev.takeDivert (d : Dev) (i : Nat) : Dev := { d with divertUsed := d.divertUsed ++ [i] }

/-- BKT_PART takes effect only from the owner of both partitions with every slot free; `old` is the stored word (R113).
A refused write sets PART_BUSY where slots are in use; one by a master that is not the owner is a claim conflict
(R36). -/
def Dev.bktPartAllowed (d : Dev) (m : Master) : Dev × Bool :=
  if d.owner 0x30 ≠ BitVec.ofNat 5 m.val then (d.claimConflict 0x30 m.val, false)
  else if d.owner 0x31 ≠ BitVec.ofNat 5 m.val then (d.claimConflict 0x31 m.val, false)
  else if d.holdUsed.isEmpty ∧ d.divertUsed.isEmpty then (d, true)
  else (d.put F.BKT_STAT_PART_BUSY 1, false)

/-- Bytes of the reserve in use (R114). -/
def Dev.rsvUsed (d : Dev) : Nat := d.reserve.foldl (fun n e => n + e.len) 0

/-- The computed word of BKT_STAT: slots in use and reserve KiB beside the stored PART_BUSY (R116). -/
def Dev.bktStat (d : Dev) : Nat :=
  ceilDiv d.rsvUsed 1024 * 2 ^ 20 + d.get F.BKT_STAT_PART_BUSY * 2 ^ 16 + d.divertUsed.length % 256 * 2 ^ 8 +
    d.holdUsed.length % 256

/-! ### Writes to ring registers (R120, R121, R128, R129) -/

/-- The Buckets slots that hardware records behind a ring's slots, posted or reserved (R129). -/
def RingHw.buckets (r : RingHw) : List Nat := r.held.map Prod.snd ++ r.reserved.filterMap RingEntry.bucket

/-- They are freed (R120, R129); slots of the ring that are still reserved stay so (log entry 62). -/
def Dev.freeBehind (d : Dev) (n : Nat) : Dev :=
  let r := d.ring n
  { d.setRing n { r with held := [], reserved := r.reserved.map fun e => { e with bucket := none } } with
    divertUsed := d.divertUsed.filter fun i => !r.buckets.contains i }

/-- ENABLE goes from 0 to 1 (R120). ERR is cleared with the return to RUN (DESIGN CHOICE, log entry 62). -/
def Dev.ringStart (d : Dev) (n : Nat) : Dev :=
  let d1 := d.freeBehind n
  ((((((d1.setRing n { d1.ring n with lostFirst := 0, lostLast := 0 }).put (ringField n F.RING_PROD_INDEX) 0).put
    (ringField n F.RING_CONS_INDEX) 0).put (ringField n F.RING_LOST_PENDING) 0).put
    (ringField n F.RING_DROPS_COUNT) 0).put (ringField n F.RING_STAT_ERR) 0).put
    (ringField n F.RING_STAT_STATE) ringRUN

/-- Has every channel finished with ring `n`? -/
def Dev.ringBusy (d : Dev) (n : Nat) : Bool :=
  !(d.ring n).reserved.isEmpty || d.chans.toList.any (fun c => match c.job with | some j => j.ring == n | none => false) ||
    d.staging.any fun s => s.ring == n

/-- A disabled ring whose last descriptor has ended is OFF (R120); a TO_DEVICE ring too (DESIGN CHOICE, log entry 62). -/
def Dev.ringSettle (d : Dev) (n : Nat) : Dev :=
  if !d.ringEnabled n ∧ d.ringState n ≠ ringOFF ∧ !d.ringBusy n
  then d.put (ringField n F.RING_STAT_STATE) ringOFF else d

/-- RING_CFG has been written: `old` and `new` are the stored words before and after (R120). -/
def Dev.ringCfgWritten (d : Dev) (n old new : Nat) : Dev :=
  if !bitAt old 31 ∧ bitAt new 31 then d.ringStart n
  else if bitAt old 31 ∧ !bitAt new 31 then d.ringSettle n
  else d

/-- The value an index write stores (R121): the span runs from `cur` to `far`. -/
def indexClamp (cur far v : Nat) : Nat :=
  let span := (far + 8192 - cur) % 8192
  let off := (v + 8192 - cur) % 8192
  if off ≤ span then v
  else
    let toFar := off - span
    let toCur := 8192 - off
    if toFar < toCur then far else cur

/-- The furthest legal value of the software-side index (R121). -/
def Dev.indexFar (d : Dev) (n : Nat) : Nat :=
  if d.ringFrom n then d.ringProd n else (d.ringCons n + d.ringSize n) % 8192

/-- CONS of a FROM_DEVICE ring has moved from `old` (R129, R130): the Buckets slots of the entries passed are freed, and a
LOST descriptor that is due is reserved. -/
def Dev.ringConsMoved (d : Dev) (n old : Nat) : Dev :=
  let k := (d.ringCons n + 8192 - old) % 8192
  let r := d.ring n
  let gone := r.held.filter fun h => (h.1 + 8192 - old) % 8192 < k
  let d1 := { d.setRing n { r with held := r.held.filter fun h => !decide ((h.1 + 8192 - old) % 8192 < k) } with
    divertUsed := d.divertUsed.filter fun i => !(gone.map Prod.snd).contains i }
  d1.reserveLost n

/-- RESUME (R128). -/
def Dev.ringResume (d : Dev) (n : Nat) : Dev :=
  if d.ringState n = ringSTOPPED then
    let d1 := (d.put (ringField n F.RING_STAT_STATE) ringRUN).put (ringField n F.RING_STAT_ERR) 0
    (d1.reserveLost n).ringSettle n
  else d

/-- A Wellcap alarm frees every divert slot that any ring holds and resets the rings' hardware side (R129, R136). -/
def Dev.ringsAlarm (d : Dev) : Dev :=
  let gone := d.rings.flatMap fun p => p.2.buckets
  { d with rings := [], divertUsed := d.divertUsed.filter fun i => !gone.contains i }

end Sys2Proof.Machine
end

