-- ==== Sys2Proof/Machine/Links.lean ====
section
/-! DEFINITION. The ports LINK A and LINK B: the start-up sequence, power, and the activity balls (R17, R42, R43, R45,
R422). What the loss of a link does to frames is in Lanes. -/
namespace Sys2Proof.Machine

/-- A port's speed codes: 3 is no link (R45). -/
def speedNone : Nat := 3

def Dev.linkGet (d : Dev) (p : Port) (f : Fl) : Nat := d.get (portField p f)

/-- Interrupt source of a port's status (R222). -/
def portIrq : Port → Nat
  | .a => 20
  | .b => 21

/-- A field of LINKx_STAT takes a value; a change is a link status change (R222, log entry 6). -/
def Dev.linkPut (d : Dev) (p : Port) (f : Fl) (v : Nat) : Dev :=
  if d.linkGet p f = v then d else (d.put (portField p f) v).latchIrq (portIrq p)

/-- Is the port up (R43)? -/
def Dev.linkUp (d : Dev) (p : Port) : Bool := d.on p.dom && d.linkGet p F.LINK_STAT_LINK_UP == 1

/-- The speed that a port reports (R45). -/
def Dev.linkSpeed (d : Dev) (p : Port) : Nat := if d.on p.dom then d.linkGet p F.LINK_STAT_SPEED else speedNone

/-- A step of link start-up begins (R43). -/
def Dev.linkStep (d : Dev) (p : Port) (x : LinkStep) : Dev :=
  d.setLink p { d.link p with step := x, stepAt := d.now }

/-- Have `ns` passed since the present step began (R39, R43, log entry 13)? -/
def Dev.stepOver (d : Dev) (p : Port) (ns : Nat) : Bool := decide ((d.link p).stepAt + ns < d.now)

/-- Nanoseconds of a byte at a speed (R42). -/
def byteNs (speed : Nat) : Nat := if speed = 0 then 800 else if speed = 1 then 80 else 8

/-- Times that the PCS repeats a byte at a speed (R61). -/
def byteReps (speed : Nat) : Nat := if speed = 0 then 100 else if speed = 1 then 10 else 1

/-- LINK_UP and AN_DONE fall and SPEED shows no link (R43, R45). -/
def Dev.linkFall (d : Dev) (p : Port) : Dev :=
  ((d.linkPut p F.LINK_STAT_LINK_UP 0).linkPut p F.LINK_STAT_AN_DONE 0).linkPut p F.LINK_STAT_SPEED speedNone

/-- The port starts from SerDes lock (R43); a refusal of half duplex is judged anew. -/
def Dev.linkFromSerdes (d : Dev) (p : Port) : Dev :=
  (((d.linkFall p).linkPut p F.LINK_STAT_SYNC 0).linkPut p F.LINK_STAT_HDX_REFUSED 0).linkStep p .serdes

/-- The port starts from PCS synchronisation (R43). -/
def Dev.linkFromPcs (d : Dev) (p : Port) : Dev :=
  (((d.linkFall p).linkPut p F.LINK_STAT_SYNC 0).linkPut p F.LINK_STAT_HDX_REFUSED 0).linkStep p .pcs

/-- The port's domain is powered (R17, R43): its registers start at their Reset values. -/
def Dev.linkPowerOn (d : Dev) (p : Port) : Dev :=
  let blk := match p with | .a => 0x4020 | .b => 0x4021
  let d1 := { d with dom := d.dom ||| BitVec.ofNat 8 (2 ^ p.dom.bit), regs := Sparse.drop (fun a => a / 0x10000 == blk) d.regs }
  (d1.setLink p { d1.link p with offPending := false }).linkFromSerdes p

/-- The port comes up (R43): at the partner's SGMII speed, the forced SGMII speed, or 1000 Mb/s in 1000BASE-X. -/
def Dev.linkComeUp (d : Dev) (p : Port) (sgmiiSpeed : Nat) : Dev :=
  let speed := if d.linkGet p F.LINK_CTRL_MODE = 1 then sgmiiSpeed else 2
  (((d.linkPut p F.LINK_STAT_AN_DONE 1).linkPut p F.LINK_STAT_SPEED speed).linkPut p F.LINK_STAT_LINK_UP 1).linkStep p .up

/-- The auto-negotiation step begins, or is skipped with AN_EN = 0 (R43). -/
def Dev.linkNegotiate (d : Dev) (p : Port) : Dev :=
  if d.linkGet p F.LINK_CTRL_AN_EN = 1 then d.linkStep p .autoneg
  else d.linkComeUp p (d.linkGet p F.LINK_CTRL_FORCE_SPEED)

/-- Is the port powered and in the step? -/
def Dev.linkIn (d : Dev) (p : Port) (x : LinkStep) : Bool := d.on p.dom && (d.link p).step == x

/-- SerDes lock is reached. -/
def Dev.serdesLockOp (d : Dev) (p : Port) : Dev := if d.linkIn p .serdes then d.linkStep p .pcs else d

/-- SerDes lock takes longer than 100 us: the port stays in the step with SYNC = 0. -/
def Dev.serdesLockTimeoutOp (d : Dev) (p : Port) : Dev :=
  if d.linkIn p .serdes ∧ d.stepOver p 100000 then d.linkPut p F.LINK_STAT_SYNC 0 else d

/-- Code-group synchronisation is acquired. -/
def Dev.pcsSyncOp (d : Dev) (p : Port) : Dev :=
  if d.linkIn p .pcs then (d.linkPut p F.LINK_STAT_SYNC 1).linkNegotiate p else d

/-- Synchronisation takes longer than 20 us: back to SerDes lock. -/
def Dev.pcsSyncTimeoutOp (d : Dev) (p : Port) : Dev :=
  if d.linkIn p .pcs ∧ d.stepOver p 20000 then d.linkFromSerdes p else d

/-- The exchange completes (R42, R43). -/
def Dev.anDoneOp (d : Dev) (p : Port) (w : AnWord) : Dev :=
  if d.linkIn p .autoneg then
    let d1 := (d.linkPut p F.LINK_STAT_REMOTE_FAULT (b2n w.remoteFault)).linkPut p F.LINK_STAT_AN_DONE 1
    if w.halfDuplex then (d1.linkPut p F.LINK_STAT_HDX_REFUSED 1).linkStep p .held
    else d1.linkComeUp p w.speed.val
  else d

/-- The link timer of a port's mode in ns (R43). -/
def Dev.linkTimer (d : Dev) (p : Port) : Nat := if d.linkGet p F.LINK_CTRL_MODE = 0 then 10000000 else 1600000

/-- The link timer expires: the auto-negotiation step restarts, and is skipped where AN_EN has been cleared meanwhile. -/
def Dev.anLinkTimerOp (d : Dev) (p : Port) : Dev :=
  if d.linkIn p .autoneg ∧ d.stepOver p (d.linkTimer p) then d.linkNegotiate p else d

/-- A frame was received or sent on the port: its ACT function is low for 50 ms (R422). -/
def Dev.linkActive (d : Dev) (p : Port) : Dev := d.setLink p { d.link p with act := true, actAt := d.now }

/-- A frame of `n` bytes starts at the port's ingress; it ends behind its preamble and its bytes (R17, R422). -/
def Dev.linkReceives (d : Dev) (p : Port) (n : Nat) : Dev :=
  (d.setLink p { d.link p with rxUntil := d.now + (8 + n) * byteNs (d.linkSpeed p) }).linkActive p

/-- 50 ms after the latest frame the ACT function goes inactive (R39, R422). -/
def Dev.actTimeoutOp (d : Dev) (p : Port) : Dev :=
  if (d.link p).actAt + 50000000 < d.now then d.setLink p { d.link p with act := false } else d

/-- The computed word of LANE_LAG (R63, R77). -/
def Dev.laneLag (d : Dev) (l : Lane) : Nat :=
  let p := l.egress
  if d.linkUp p then
    let s := d.linkSpeed p
    let lag := if s = 2 then (match l with | .verify => 172 | .tag => 188) else 29
    s * 2 ^ 16 + lag
  else speedNone * 2 ^ 16

end Sys2Proof.Machine
end

