-- ==== Sys2Proof/Machine/Frames.lean ====
section
/-! DEFINITION. What the hardware reads from a frame: header fields, the failures of the ingress MAC, the PRP trailer,
the stomp, and the sequence judgements of the replay window and the continuity guards (R44, R48, R60, R67, R84, R102 to
R107). Byte positions count from the DA; the last four bytes are the FCS. -/
namespace Sys2Proof

/-- Number of bytes from DA to FCS. -/
def RxFrame.len (f : RxFrame) : Nat := f.bytes.length

/-- The bytes that enter the lane: at most 1536 (R4). -/
def RxFrame.body (f : RxFrame) : Bytes := f.bytes.take 1536

/-- The position after the value. -/
def Ext.valEnd (x : Ext) : Nat := x.valLo + x.valLen

end Sys2Proof

namespace Sys2Proof.Machine

/-- A two-byte field in network order. -/
def be16 (bs : Bytes) (i : Nat) : Nat := byteAt bs i * 256 + byteAt bs (i + 1)

/-! ### Header parse (R48, R84, R5) -/

/-- Does the frame carry a C-tag (R2, R48)? -/
def cTagged (bs : Bytes) : Bool := be16 bs 12 == 0x8100
/-- Position of the EtherType, after a C-tag if there is one. -/
def etypeAt (bs : Bytes) : Nat := if cTagged bs then 16 else 12
def etypeOf (bs : Bytes) : Nat := be16 bs (etypeAt bs)
def vidOf (bs : Bytes) : Nat := be16 bs 14 % 4096
def appidOf (bs : Bytes) : Nat := be16 bs (etypeAt bs + 2)
def isGoose (bs : Bytes) : Bool := etypeOf bs == 0x88B8
def isSv (bs : Bytes) : Bool := etypeOf bs == 0x88BA
def isPtp (bs : Bytes) : Bool := etypeOf bs == 0x88F7
/-- MAC control: the EtherType right after the addresses (R44). -/
def isMacControl (bs : Bytes) : Bool := be16 bs 12 == 0x8808

/-- The check value that travels with a frame: CRC-32C over bytes 0 to LEN - 5 (R138). -/
def frameCheck (bs : Bytes) : Nat := crc32c (bs.take (bs.length - 4))

/-- Does the FCS match (R44)? -/
def fcsGood (bs : Bytes) : Bool := leNat (bs.drop (bs.length - 4)) == crc32 (bs.take (bs.length - 4))

/-- The failure of the ingress MAC that decides a frame (R44, R57): the first to become known. -/
def macFail (f : RxFrame) : Option FailKind :=
  let len := f.bytes.length
  let code := match f.codeErr with | some p => decide (p < min len 1536) | none => false
  if code then some .rxCode
  else if 1536 < len then some .oversize
  else if len < 64 then some .runt
  else if f.aborted then some .abort
  else if !fcsGood f.bytes then some .fcs
  else none

/-- Does the frame end in a PRP trailer (R67)? -/
def hasPrp (bs : Bytes) : Bool :=
  let n := bs.length
  decide (etypeAt bs + 12 ≤ n) && be16 bs (n - 6) == 0x88FB &&
    be16 bs (n - 8) % 4096 == n - 4 - (etypeAt bs + 2)

/-- Does a frame whose end enters the lane carry a trailer (R4, R67)? -/
def trailed (f : RxFrame) : Bool := f.len ≤ 1536 && hasPrp f.bytes

/-- The position of what follows the frame's content: a trailer, or the FCS. -/
def tailAt (f : RxFrame) : Nat := f.body.length - 4 - (if trailed f then 6 else 0)

/-- A trailer whose LSDU size goes up by `up` and down by `down`; sequence number and LAN identifier stay (R68). -/
def prpResized (t : Bytes) (up down : Nat) : Bytes :=
  let w := be16 t 2
  patch t 2 (beBytes 2 (w / 4096 * 4096 + (w % 4096 + up + (4096 - down)) % 4096))

/-- The frame's trailer, resized. -/
def trailerOf (f : RxFrame) (up down : Nat) : Bytes :=
  if trailed f then prpResized (slice f.body (tailAt f) 6) up down else []

/-- The Length field of a GOOSE or SV header: from APPID to the end of the APDU or of the extension (R48). -/
def lengthOf (bs : Bytes) : Nat := be16 bs (etypeAt bs + 4)

/-- The header with another Length and other reserved words (R91, R92). -/
def reheaded (bs : Bytes) (len : Nat) (reserved : Bytes) : Bytes :=
  patch (patch bs (etypeAt bs + 4) (beBytes 2 (len % 65536))) (etypeAt bs + 6) (padTo 4 (reserved.take 4))

/-- The two reserved words of the header. -/
def reservedOf (bs : Bytes) : Bytes := slice bs (etypeAt bs + 6) 4

/-- A frame with its FCS. -/
def withFcs (bs : Bytes) : Bytes := bs ++ leBytes 4 (crc32 bs)

/-- The reason codes of R57. -/
def failCode : FailKind → Nat
  | .value => 1
  | .algorithm => 2
  | .key => 3
  | .replay => 4
  | .continuity => 5
  | .format => 6
  | .fcs => 7
  | .rxCode => 8
  | .runt => 9
  | .oversize => 10
  | .abort => 11
  | .poison => 12
  | .lane => 13

/-- A failure of R44 or POISON, as against a verdict failure (R53). -/
def frameLevel (k : FailKind) : Bool := 7 ≤ failCode k && failCode k ≤ 12

/-- The complement of the FCS of a frame truncated at `p`, the /V/ position read as zero (R60). -/
def stompCheck (bs : Bytes) (p : Nat) : Bytes := leBytes 4 (0xFFFFFFFF - crc32 (bs.take p ++ [0]))

/-- What leaves when a frame is stomped at `p`: the bytes before it, the /V/ position as zero, and the complement of the
FCS (R60). -/
def stompedBytes (bs : Bytes) (p : Nat) : Bytes := bs.take p ++ [0] ++ stompCheck bs p

/-- The code groups from the stomp position on, where every byte is repeated `reps` times: /V/, the complement of the FCS,
/T/R/, and a further /R/ when /T/ falls on an odd position, counted from the start of the packet, eight byte times before
byte 0 (R60, R61, R63). -/
def stompTail (reps : Nat) (bs : Bytes) (p : Nat) : List CodeGroup :=
  List.replicate reps .v ++ (stompCheck bs p).flatMap (fun b => List.replicate reps (.data b)) ++ [.t, .r] ++
    (if reps * (p + 13) % 2 = 1 then [.r] else [])

/-! ### Format (R51, R86) -/

/-- Does the APDU give the counter fields that the replay window tests (R51, R102, R103)? -/
def hasCounters (f : RxFrame) : Bool :=
  if isGoose f.body then f.deep.stNum.isSome && f.deep.sqNum.isSome
  else !f.deep.smpCnt.isEmpty && f.deep.smpCnt.all (·.isSome)

/-- A FORMAT failure of a GOOSE or SV frame under a verifying action that is known before its last byte, or whose frame
ends before its header words are complete (R51). -/
def formatEarly (f : RxFrame) : Bool :=
  decide (f.body.length < etypeAt f.body + 10) || !f.deep.lengthsOk || f.deep.ext.isNone || !hasCounters f

/-- One that is known with the last byte: the frame ends inside the value, or excess bytes follow it (R51). -/
def formatLate (f : RxFrame) : Bool :=
  f.len ≤ 1536 && f.deep.ext.any fun x => decide (tailAt f < x.valEnd) || (x.valEnd != tailAt f && f.len != 64)

/-- Does a GOOSE or SV frame under a verifying action fail FORMAT (R51)? -/
def formatBad (f : RxFrame) : Bool := formatEarly f || formatLate f

/-! ### Sequence counters (R102, R103, R104, R106, R107) -/

/-- The replay window and continuity state of a context (R83). -/
structure Win where
  valid : Bool
  top : Nat
  st : Nat
  map : Nat
  sec : Nat
  ns : Nat
  deriving DecidableEq, Repr

/-- Counter fields of a frame: GOOSE stNum and sqNum, or the SV smpCnt of the first ASDU (R102, R103). -/
inductive Seq where
  | goose (st sq : Nat)
  | sv (s : Nat)
  deriving DecidableEq, Repr

/-- What the window says of a frame: not fresh, or fresh with the window after it, the classes flagged and the values
lost. A frame that is not placed leaves the window as it was. -/
inductive Judge where
  | replay
  | fresh (w : Win) (classes lost : Nat)
  deriving DecidableEq, Repr

def cGAP : Nat := 1
def cREORDER : Nat := 2
def cSTATE_JUMP : Nat := 4
def cSTATE_START : Nat := 8
def cRANGE : Nat := 16
def cALIGN : Nat := 32
def cTIME : Nat := 64
def cWRAP : Nat := 128

/-- Serial distance of `a` relative to `b` in a 32-bit counter that skips 0 at its wrap (R103). -/
def dist32 (a b : Nat) : Int :=
  let d : Nat := (a + 2 ^ 32 - b) % 2 ^ 32
  if d = 0 then 0
  else if d < 2 ^ 31 then (if a < b then (d : Int) - 1 else d)
  else
    let e : Nat := (b + 2 ^ 32 - a) % 2 ^ 32
    if a > b then -((e : Int) - 1) else -(e : Int)

/-- The window test of R104 for distance `k`; `topped` is the window with the frame as its top, `classes` and `lost` what
a forward move flags. -/
def windowTest (w topped : Win) (k : Int) (classes lost : Nat) : Judge :=
  if 0 < k then
    .fresh { topped with map := if 64 ≤ k then 1 else (w.map <<< k.toNat % 2 ^ 64) ||| 1 } classes lost
  else if k = 0 ∨ 64 ≤ -k ∨ w.map.testBit (-k).toNat then .replay
  else .fresh { w with map := w.map ||| 2 ^ (-k).toNat } cREORDER 0

/-- The judgement of a GOOSE frame (R103, R104, R106). -/
def judgeGoose (w : Win) (st sq : Nat) (ts : Nat × Nat) : Judge :=
  let start : Win := ⟨true, sq, st, 1, ts.1, ts.2⟩
  if !w.valid then .fresh start 0 0
  else
    let e := dist32 st w.st
    if e < 0 then .replay
    else if 0 < e then
      .fresh start ((if 1 < e then cSTATE_JUMP else 0) + (if sq ≠ 0 then cSTATE_START else 0) +
        (if st < w.st then cWRAP else 0)) 0
    else
      let k := dist32 sq w.top
      windowTest w { start with map := w.map } k
        ((if 1 < k then cGAP else 0) + (if sq < w.top then cWRAP else 0)) (k - 1).toNat

/-- The judgement of an SV frame whose ASDUs are consecutive, in range and as many as they must be (R102, R104, R106);
`m` is the modulus and `n` the number of ASDUs. -/
def judgeSv (w : Win) (m n s : Nat) (ts : Nat × Nat) : Judge :=
  if !w.valid then .fresh ⟨true, s, 0, 1, ts.1, ts.2⟩ 0 0
  else
    let d := (s + m - w.top % m) % m
    if d = 0 then .replay
    else if d ≤ m / 2 then
      if d % n ≠ 0 then .fresh w cALIGN 0
      else
        let topped : Win := ⟨true, s, if s < w.top then satAdd 32 w.st 1 else w.st, w.map, ts.1, ts.2⟩
        windowTest w topped (d / n : Nat) (if 1 < d / n then cGAP else 0) (d - n)
    else
      let b := m - d
      if b % n ≠ 0 then .fresh w cALIGN 0 else windowTest w w (-((b / n : Nat) : Int)) 0 0

/-- The judgement by counter fields. -/
def judgeSeq (w : Win) (m n : Nat) (q : Seq) (ts : Nat × Nat) : Judge :=
  match q with
  | .goose st sq => judgeGoose w st sq ts
  | .sv s => judgeSv w m n s ts

/-- SMP_MOD and ASDU_N of a GUARD_CFG word (R83). -/
def guardM (g : Word) : Nat := if g.toNat % 65536 = 0 then 65536 else g.toNat % 65536
def guardN (g : Word) : Nat := max 1 (bitsOf g.toNat 19 16)

/-- RANGE and ALIGN of the ASDUs of an SV frame (R102, R106). -/
def svShape (m n : Nat) (cnt : List Nat) : Nat :=
  let s := cnt.headD 0
  let consecutive := (cnt.zipIdx).all fun p => p.2 == 0 || p.1 == (s + p.2) % m
  (if cnt.any fun c => decide (m ≤ c) then cRANGE else 0) +
    (if cnt.length ≠ n ∨ !consecutive then cALIGN else 0)

/-- Does the time check flag TIME (R107)? -/
def timeFlag (guard timeCfg : Word) (s ns : Nat) : Bool :=
  let m := guardM guard
  let e := ns * m / 10 ^ 9
  let a := (e + m - s % m) % m
  !(decide (a ≤ timeCfg.toNat % 65536) || a == m - 1)

end Sys2Proof.Machine
end

