-- ==== Sys2Proof/Machine/Streams.lean ====
section
/-! DEFINITION. Stream contexts: classification, key epochs and the key caches, replay window and statistics, context
commands and key commands (chapter 03). -/
namespace Sys2Proof.Machine

/-! ### Context words (R80, R83) -/

/-- A field of context `i`. -/
def ctxField (i : Fin 1024) (f : Fl) : Fl := f.plus (0x100 * i.val)
def Dev.ctx (d : Dev) (i : Fin 1024) (f : Fl) : Nat := d.get (ctxField i f)
def Dev.ctxPut (d : Dev) (i : Fin 1024) (f : Fl) (v : Nat) : Dev := d.put (ctxField i f) v
/-- Address of a word of context `i`. -/
def ctxWord (i : Fin 1024) (off : Nat) : Nat := 0x40140000 + 0x100 * i.val + off

/-- A field of epoch slot `s` of a context (false is slot 0). -/
def epField (i : Fin 1024) (s : Bool) (f : Fl) : Fl := (ctxField i f).plus (if s then 0x10 else 0)
def Dev.ep (d : Dev) (i : Fin 1024) (s : Bool) (f : Fl) : Nat := d.get (epField i s f)

/-- Epoch states. -/
def epVACANT : Nat := 0
def epARMED : Nat := 1
def epCURRENT : Nat := 2
def epRETIRING : Nat := 3

def Dev.epState (d : Dev) (i : Fin 1024) (s : Bool) : Nat := d.ep i s F.CTX_EP_STATE

/-- The lane of a context. -/
def Dev.ctxLane (d : Dev) (i : Fin 1024) : Lane := if d.ctx i F.CTX_LANE = 0 then .verify else .tag

/-- Raise a 32-bit counter of a context by `k`. The word is read first; a poisoned one keeps its mark and is not counted in
(R80, log entry 56). -/
def Dev.ctxCount (d : Dev) (i : Fin 1024) (off k : Nat) : Dev :=
  let d1 := d.ctxRead 11 (ctxWord i off)
  if d1.ctxPoisoned (ctxWord i off) then d1 else d1.bump ⟨ctxWord i off, 31, 0⟩ k

/-- Raise a 64-bit counter of a context by `k` (R108). -/
def Dev.ctxCount64 (d : Dev) (i : Fin 1024) (off k : Nat) : Dev :=
  let lo := ctxWord i off
  let d1 := d.ctxReads 11 lo 2
  if d1.ctxPoisoned lo ∨ d1.ctxPoisoned (lo + 4) then d1
  else
    let n := satAdd 64 ((d1.reg lo).toNat + 2 ^ 32 * (d1.reg (lo + 4)).toNat) k
    (d1.setReg lo (BitVec.ofNat 32 n)).setReg (lo + 4) (BitVec.ofNat 32 (n / 2 ^ 32))

/-- Zero the words of a context from `off`, `k` of them. -/
def Dev.ctxZero (d : Dev) (i : Fin 1024) (off : Nat) : Nat → Dev
  | 0 => d
  | k + 1 => (d.setReg (ctxWord i off) 0).ctxZero i (off + 4) k

/-! ### Classification (R84, R85) -/

/-- Does context `i` match a frame of the lane (R84)? -/
def Dev.ctxMatches (d : Dev) (l : Lane) (bs : Bytes) (i : Fin 1024) : Bool :=
  let c (f : Fl) := d.ctx i f
  let da := leNat (slice bs 0 6)
  c F.CTX_VALID == 1 && d.ctxLane i == l &&
  (c F.CTX_DA_EN == 0 || c F.CTX_DA_LO + 2 ^ 32 * c F.CTX_DA_HI == da) &&
  (c F.CTX_ETYPE_EN == 0 || c F.CTX_ETYPE == etypeOf bs) &&
  (c F.CTX_APPID_EN == 0 || ((isGoose bs || isSv bs) && c F.CTX_APPID == appidOf bs)) &&
  (match c F.CTX_VLAN_MODE with
    | 0 => true
    | 1 => !cTagged bs
    | 2 => cTagged bs && c F.CTX_VID == vidOf bs
    | _ => cTagged bs)

/-- The score of a context (R85). -/
def Dev.ctxScore (d : Dev) (i : Fin 1024) : Nat :=
  let v := d.ctx i F.CTX_VLAN_MODE
  16 * d.ctx i F.CTX_DA_EN + 8 * d.ctx i F.CTX_APPID_EN + 4 * d.ctx i F.CTX_ETYPE_EN +
    (if v = 2 then 2 else if v = 0 then 0 else 1)

/-- The contexts that are valid: only they can match. -/
def Dev.validCtx (d : Dev) : List (Fin 1024) :=
  (d.regs.filter fun e => 0x40140000 ≤ e.1 && e.1 < 0x40180000 && e.1 % 0x100 == 0 && e.2.getLsbD 31).map
    fun e => ⟨(e.1 - 0x40140000) / 0x100 % 1024, Nat.mod_lt _ (by decide)⟩

/-- The context of a frame: the highest score, the lowest index among equals (R85). -/
def Dev.classify (d : Dev) (l : Lane) (bs : Bytes) : Option (Fin 1024) :=
  d.validCtx.foldl (fun best i =>
    if d.ctxMatches l bs i then
      match best with
      | none => some i
      | some b => if d.ctxScore b < d.ctxScore i ∨ (d.ctxScore b = d.ctxScore i ∧ i < b) then some i else some b
    else best) none

/-! ### Key slots and key caches (R89, R99) -/

/-- Key slot `s`. -/
def Dev.slot (d : Dev) (s : Nat) : KeySlot := Sparse.get (fun _ => KeySlot.empty) s d.slots
def Dev.setSlot (d : Dev) (s : Nat) (k : KeySlot) : Dev :=
  { d with slots := Sparse.set (fun _ => KeySlot.empty) s k d.slots }

/-- The bytes of a key slot in keep-RAM (R261, log entry 56). -/
def KeySlot.bytes (k : KeySlot) : Bytes :=
  padTo 64 k.key ++ leBytes 1 k.typ ++ leBytes 1 k.key.length ++ leBytes 2 (k.usage + 2 ^ 15 * b2n k.origin) ++
    leBytes 4 k.fixed.toNat ++ leBytes 8 k.inv

/-- The slot that such bytes hold. -/
def KeySlot.ofBytes (bs : Bytes) (damaged : Bool) (chk : List (Nat × BitVec 5)) : KeySlot :=
  ⟨byteAt bs 64, bs.take (byteAt bs 65), leNat (slice bs 66 2) % 1024, bitAt (byteAt bs 67) 7,
    BitVec.ofNat 32 (leNat (slice bs 68 4)), leNat (slice bs 72 8), damaged, chk⟩

/-- A read of key slot `s` for a job, an install or the cipher unit, by master `m`: its records and its write-backs (R271,
R291); an uncorrectable byte makes the slot DAMAGED (R268). -/
def Dev.keyRead (d : Dev) (m : Master) (s : Nat) : Dev :=
  let k := d.slot s
  if k.chk.isEmpty then d
  else
    let bad := k.chk.any fun e => eccBad e.2
    let d1 := (d.innerFound m 16 (128 * s) k.chk).setSlot s
      (KeySlot.ofBytes (mendBytes k.bytes k.chk) (k.damaged || bad) (mendChk k.chk))
    if bad ∧ !k.damaged then d1.trouble tCRYPTO else d1

/-- The algorithm to which a cache entry is bound: value lengths do not distinguish (R99). -/
def algClass (alg : Nat) : Nat := if alg = 1 then 1 else if alg = 2 ∨ alg = 3 then 2 else 4

/-- Does the slot's key fit the algorithm (R89), with PUMPHOUSE use permitted (R262)? -/
def KeySlot.fits (k : KeySlot) (alg : Nat) : Bool :=
  !k.damaged && bitAt k.usage 6 &&
  (if alg = 1 then k.typ == 3 && (k.key.length == 16 || k.key.length == 32)
   else if alg = 2 ∨ alg = 3 then k.typ == 1 else k.typ == 2)

/-- The cache entry of a lane for a key slot. -/
def LaneSt.entry (x : LaneSt) (s : Fin 64) : Option CacheEntry := x.cache.find? fun e => e.slot == s

/-- Does any cache entry name the slot (R99)? -/
def Dev.cached (d : Dev) (s : Fin 64) : Bool := (d.laneV.entry s).isSome || (d.laneT.entry s).isSome

/-- One more epoch of the lane names the slot. -/
def Dev.cacheAdd (d : Dev) (l : Lane) (s : Fin 64) (alg : Nat) : Dev :=
  let x := d.lane l
  d.setLane l (match x.entry s with
    | some _ => { x with cache := x.cache.map fun e => if e.slot = s then { e with count := e.count + 1 } else e }
    | none => { x with cache := x.cache ++ [⟨s, algClass alg, 1, (d.slot s.val).key⟩] })

/-- One epoch of the lane no longer names the slot; an entry that no epoch names is cleared. -/
def Dev.cacheDrop (d : Dev) (l : Lane) (s : Fin 64) : Dev :=
  let x := d.lane l
  d.setLane l { x with
    cache := (x.cache.map fun e => if e.slot = s then { e with count := e.count - 1 } else e).filter fun e => 0 < e.count }

/-- Bytes of an algorithm's value (R89). -/
def valueLen (alg : Nat) : Nat := if alg = 2 ∨ alg = 4 then 8 else 16

/-- The value that the lane computes over a span (R89, R90). -/
def authValue (alg : Nat) (key iv span : Bytes) : Bytes :=
  if alg = 1 then (Sha.s256.hmac key span).take 16
  else (gmac key iv span).take (valueLen alg)

/-! ### Epoch states (R93, R94, R100, R101) -/

/-- An epoch slot as an index into the key slots. -/
def Dev.epSlot (d : Dev) (i : Fin 1024) (s : Bool) : Fin 64 := ⟨d.ep i s F.CTX_EP_CE_SLOT % 64, Nat.mod_lt _ (by decide)⟩

/-- Mismatches within the last 60 s (R74, R77). -/
def Dev.recentMismatches (d : Dev) (l : Lane) : List Nat :=
  (d.lane l).mismatches.filter fun t => d.now ≤ t + 60 * 10 ^ 9

/-- The computed word of LANE_STAT (R77). -/
def Dev.laneStat (d : Dev) (l : Lane) : Nat :=
  min 3 (d.recentMismatches l).length * 2 ^ 8 + (d.reg (laneField l F.LANE_STAT_STATE).addr).toNat % 16

/-- The event of an epoch state change (R93, R381). -/
def Dev.epEvent (d : Dev) (i : Fin 1024) (s : Bool) (st : Nat) : Dev :=
  let l := d.ctxLane i
  d.event l.source 3 clsState (BitVec.ofNat 32 (st * 2 ^ 16 + b2n s * 2 ^ 12 + i.val))
    (BitVec.ofNat 32 (d.laneStat l))

/-- Put an epoch slot into a state, with its event. -/
def Dev.epMove (d : Dev) (i : Fin 1024) (s : Bool) (st : Nat) : Dev :=
  (d.put (epField i s F.CTX_EP_STATE) st).epEvent i s st

/-- A slot becomes VACANT: its words are zeroed and its cache entry loses a name (R93, R99), in the lane that the context
names then (DESIGN CHOICE, log entry 61). -/
def Dev.epVacate (d : Dev) (i : Fin 1024) (s : Bool) : Dev :=
  if d.epState i s = epVACANT then d
  else
    let d1 := d.cacheDrop (d.ctxLane i) (d.epSlot i s)
    let a := (epField i s F.CTX_EP_STATE).addr
    (((d1.setReg a 0).setReg (a + 4) 0).setReg (a + 8) 0).epEvent i s epVACANT

/-- The switch time of a context. -/
def Dev.tSw (d : Dev) (i : Fin 1024) : Nat := ptp62 (d.ctx i F.CTX_SW_SEC) (d.ctx i F.CTX_SW_NS)
/-- The acceptance windows in ns (R94). -/
def Dev.wPre (d : Dev) (i : Fin 1024) : Nat := d.ctx i F.CTX_PRE * 16000
def Dev.wPost (d : Dev) (i : Fin 1024) : Nat := d.ctx i F.CTX_POST * 16000

/-- Is epoch slot `s` eligible for a frame stamped `t` (R94)? -/
def Dev.eligible (d : Dev) (i : Fin 1024) (s : Bool) (t : Nat) : Bool :=
  let me := d.epState i s
  let other := d.epState i (!s)
  if me = epCURRENT then other != epARMED || decide (t < d.tSw i + d.wPost i)
  else if me = epARMED then decide (d.tSw i ≤ t + d.wPre i)
  else if me = epRETIRING then decide (t < d.tSw i + d.wPost i)
  else false

/-- The switch to the ARMED slot, if there is one and time `t` has reached it (R93, R100). The event of RETIRING comes before
that of CURRENT (DESIGN CHOICE, log entry 61). -/
def Dev.commitSwitch (d : Dev) (i : Fin 1024) (t : Nat) : Dev :=
  let armed : Option Bool := if d.epState i false = epARMED then some false
    else if d.epState i true = epARMED then some true else none
  match armed with
  | some s =>
    if d.tSw i ≤ t then
      (((d.epMove i (!s) epRETIRING).epMove i s epCURRENT).ctxPut i F.CTX_SW_CUR (b2n s)).ctxCount i 0xC8 1
    else d
  | none => d

/-- Does a frame in flight use the slot: found it eligible, or chose it for tagging (R101)? -/
def Dev.epInUse (d : Dev) (i : Fin 1024) (s : Bool) : Bool :=
  (d.laneV.frames ++ d.laneT.frames).any fun f =>
    f.looked && f.stream == some i &&
      ((if s then f.elig1 else f.elig0) || f.tagSlot == some s)

/-- Is a frame in flight on the context (R88)? -/
def Dev.inFlight (d : Dev) (i : Fin 1024) : Bool :=
  (d.laneV.frames ++ d.laneT.frames).any fun f => f.looked && f.stream == some i

/-- Lane states of LANE_STAT.STATE (R77). -/
def laneOFF : Nat := 0
def laneRUN : Nat := 1
def laneRESTART : Nat := 2
def laneCATCH_UP : Nat := 3
def laneFAILED : Nat := 4

def Dev.laneState (d : Dev) (l : Lane) : Nat := d.get (laneField l F.LANE_STAT_STATE)

/-- Retire a RETIRING slot that is past its window and that no frame uses (R101). -/
def Dev.retire (d : Dev) (i : Fin 1024) (s : Bool) : Dev :=
  let st := d.laneState (d.ctxLane i)
  if d.epState i s = epRETIRING ∧ d.tSw i + d.wPost i ≤ d.time62 ∧ !d.epInUse i s ∧ st ≠ laneRESTART ∧ st ≠ laneCATCH_UP
  then d.epVacate i s else d

/-- Is the PUMP edge the one of each 2^18 on which the sweep visits context `i` (R100)? -/
def Dev.sweepVisits (d : Dev) (i : Fin 1024) : Bool := d.tu.edges % 2 ^ 18 == 256 * i.val

/-- The epoch sweep visits a context (R100, R101). -/
def Dev.sweep (d : Dev) (i : Fin 1024) : Dev :=
  if d.on .pump ∧ d.sweepVisits i then
    if d.epState i false = epRETIRING ∨ d.epState i true = epRETIRING then (d.retire i false).retire i true
    else d.commitSwitch i d.time62
  else d

/-! ### Window words (R83, R104) -/

/-- The window and continuity words of a context. -/
def Dev.win (d : Dev) (i : Fin 1024) : Win :=
  ⟨d.ctx i F.CTX_WIN_VALID == 1, d.ctx i F.CTX_SEQ_TOP, d.ctx i F.CTX_SEQ_STATE,
   d.ctx i F.CTX_LO_MAP + 2 ^ 32 * d.ctx i F.CTX_HI_MAP, d.ctx i F.CTX_TOP_SEC, d.ctx i F.CTX_TOP_NS⟩

def Dev.setWin (d : Dev) (i : Fin 1024) (w : Win) : Dev :=
  ((((((d.ctxPut i F.CTX_WIN_VALID (b2n w.valid)).ctxPut i F.CTX_SEQ_TOP w.top).ctxPut i F.CTX_SEQ_STATE w.st).ctxPut i
    F.CTX_LO_MAP w.map).ctxPut i F.CTX_HI_MAP (w.map / 2 ^ 32)).ctxPut i F.CTX_TOP_SEC w.sec).ctxPut i F.CTX_TOP_NS w.ns

/-- The counter fields of a frame as they are kept with its pending update. -/
def pendSeq (bs : Bytes) (p : Nat × Nat) : Seq := if isGoose bs then .goose p.1 p.2 else .sv p.1

/-- The window after a frame's pending update; what does not apply leaves it (R54). -/
def applyPend (w : Win) (f : Frame) : Win :=
  match f.pend.bind Pending.seq with
  | some q =>
    match judgeSeq w (guardM f.guard) (guardN f.guard) (pendSeq f.rx.bytes q) (f.ts.1 % 2 ^ 32, f.ts.2) with
    | .fresh w1 _ _ => w1
    | .replay => w
  | none => w

/-- The window that a frame of the lane is tested against: the committed state with the pending updates of the earlier
frames of the stream that passed (R54, R105). -/
def Dev.winView (d : Dev) (l : Lane) (i : Fin 1024) (n : Nat) : Win :=
  ((d.lane l).frames.filter fun f => f.n < n && f.stream == some i && f.failed.isNone && !f.statsOnly).foldl
    applyPend (d.win i)

/-! ### Context commands (R87, R88) -/

/-- Do two contexts match the same frames by the same fields (R88)? -/
def Dev.ctxSame (d : Dev) (i j : Fin 1024) : Bool :=
  let eq (f : Fl) := d.ctx i f == d.ctx j f
  eq F.CTX_LANE && eq F.CTX_VLAN_MODE && eq F.CTX_DA_EN && eq F.CTX_ETYPE_EN && eq F.CTX_APPID_EN &&
  (d.ctx i F.CTX_VLAN_MODE != 2 || eq F.CTX_VID) &&
  (d.ctx i F.CTX_DA_EN == 0 || (eq F.CTX_DA_LO && eq F.CTX_DA_HI)) &&
  (d.ctx i F.CTX_ETYPE_EN == 0 || eq F.CTX_ETYPE) &&
  (d.ctx i F.CTX_APPID_EN == 0 || eq F.CTX_APPID)

/-- Frames in flight on the context change statistics only (R88). -/
def LaneSt.statsOnly (x : LaneSt) (i : Fin 1024) : LaneSt :=
  { x with frames := x.frames.map fun f => if f.looked ∧ f.stream = some i then { f with statsOnly := true } else f }

/-- A value written to CTX_CMD (R88). -/
def Dev.ctxCmd (d : Dev) (op : Nat) (i : Fin 1024) : Dev :=
  let result (x : Dev) (st : Nat) : Dev := (x.put F.CTX_RESULT_STREAM i.val).put F.CTX_RESULT_STATUS st
  if op = 1 then
    if d.validCtx.any fun j => j != i && d.ctxSame i j then result d 1
    else if d.inFlight i then result d 2
    else result (((d.ctxZero i 0x50 7).ctxZero i 0x80 19).ctxPut i F.CTX_VALID 1) 0
  else if op = 2 then result (d.ctxPut i F.CTX_VALID 0) 0
  else if op = 3 then
    let d1 := d.ctxZero i 0x50 7
    result { d1 with laneV := d1.laneV.statsOnly i, laneT := d1.laneT.statsOnly i } 0
  else if op = 4 then result (d.ctxZero i 0x80 19) 0
  else d

/-! ### Key commands (R97, R98) -/

/-- A context index from a field. -/
def ctxIdx (n : Nat) : Fin 1024 := ⟨n % 1024, Nat.mod_lt _ (by decide)⟩
/-- A key slot index from a field. -/
def slotIdx (n : Nat) : Fin 64 := ⟨n % 64, Nat.mod_lt _ (by decide)⟩

/-- A value written to KEY_CMD: the command takes its inputs, or is lost while one executes (R98). -/
def Dev.keyCmdWritten (d : Dev) (v : Nat) : Dev :=
  let op := bitsOf v 18 16
  if op = 0 ∨ 5 ≤ op then d
  else
    match d.keyCmd with
    | some _ => d.put F.PK_KEY_RESULT_CMD_LOST 1
    | none =>
      let c : KeyCmd := ⟨op, bitsOf v 22 20, slotIdx (bitsOf v 29 24), ctxIdx v, d.reg F.PK_KEY_ID_KEYID.addr,
        d.get F.PK_KEY_SW_SEC_SEC, d.get F.PK_KEY_SW_NS_NS⟩
      ({ d with keyCmd := some c }.put F.PK_KEY_RESULT_STREAM c.stream.val).put F.PK_KEY_RESULT_BUSY 1

/-- Install an epoch into slot `s` of the context. -/
def Dev.install (d : Dev) (c : KeyCmd) (s : Bool) (st : Nat) : Dev :=
  let d1 := d.cacheAdd (d.ctxLane c.stream) c.slot c.alg
  let a := (epField c.stream s F.CTX_EP_STATE).addr
  (((d1.setReg a (BitVec.ofNat 32 (c.slot.val * 2 ^ 8 + c.alg * 4 + st))).setReg (a + 4) c.keyId).setReg (a + 8) 0).epEvent
    c.stream s st

/-- The key checks of an install: status 4 or none (R98, R99). -/
def Dev.keyRefused (d : Dev) (c : KeyCmd) : Bool :=
  !(d.slot c.slot.val).fits c.alg ||
    (match (d.lane (d.ctxLane c.stream)).entry c.slot with
      | some e => e.alg != algClass c.alg
      | none => false)

/-- A key command is executed: the checks in order, then its effect; the status it leaves (R98). REVOKE clears slot 0 before
slot 1 (DESIGN CHOICE, log entry 61). -/
def Dev.keyRun (d : Dev) (c : KeyCmd) : Dev × Nat :=
  let i := c.stream
  let cur := d.ctx i F.CTX_SW_CUR == 1
  let st (s : Bool) := d.epState i s
  let badAlg := c.alg = 0 ∨ 6 ≤ c.alg
  let sw := ptp62 c.swSec c.swNs
  if c.op = 1 then
    if badAlg then (d, 1)
    else if st false ≠ epVACANT ∨ st true ≠ epVACANT then (d, 2)
    else if d.keyRefused c then (d, 4)
    else (d.install c cur epCURRENT, 0)
  else if c.op = 2 then
    if badAlg then (d, 1)
    else if st (!cur) = epARMED ∨ st (!cur) = epRETIRING then (d, 2)
    else if st cur ≠ epCURRENT then (d, 3)
    else if d.keyRefused c then (d, 4)
    else if sw < d.time62 + 100000 + d.wPre i then (d, 5)
    else
      (((d.ctxPut i F.CTX_SW_SEC c.swSec).ctxPut i F.CTX_SW_NS c.swNs).install c (!cur) epARMED, 0)
  else if c.op = 3 then
    if st (!cur) ≠ epARMED then (d, 6)
    else if d.tSw i ≤ d.time62 + d.wPre i then (d, 7)
    else (d.epVacate i (!cur), 0)
  else ((d.epVacate i false).epVacate i true, 0)

/-- The key command that executes completes (R98): REVOKE only when no frame in flight uses either slot. -/
def Dev.keyCmdDoneOp (d : Dev) : Dev :=
  match d.keyCmd with
  | none => d
  | some c =>
    if !d.on .pump ∨ (c.op = 4 ∧ (d.epInUse c.stream false ∨ d.epInUse c.stream true)) then d
    else
      let (d1, st) := (if c.op = 1 ∨ c.op = 2 then d.keyRead 11 c.slot.val else d).keyRun c
      ({ d1 with keyCmd := none }.put F.PK_KEY_RESULT_STATUS st).put F.PK_KEY_RESULT_BUSY 0 |>.latchIrq 18

/-! ### Alarm and reset of the contexts (R76, R83, R93) -/

/-- A TAG frame whose value is not formed yet fails: the lane holds no key (R76). The count that it reserved goes with the
slot's words. -/
def Frame.keyless (f : Frame) : Frame :=
  let bare := { f with tagSlot := none }
  if f.tagSlot.isSome ∧ f.failed.isNone ∧ !(f.verdict && f.stage == .egress) then { bare with failed := some .key } else bare

/-- The epoch words of every context are zeroed and the key caches cleared; no epoch event is issued (R76, R93). -/
def Dev.epochsAlarm (d : Dev) : Dev :=
  let gone (a : Nat) : Bool := inCtx a && 0x20 ≤ a % 0x100 && a % 0x100 < 0x40
  let bare (x : LaneSt) : LaneSt := { x with cache := [], frames := x.frames.map Frame.keyless }
  { d with
    regs := Sparse.drop gone d.regs
    codes := { d.codes with ctx := Sparse.drop gone d.codes.ctx }
    laneV := bare d.laneV
    laneT := bare d.laneT }

end Sys2Proof.Machine
end

