-- ==== Sys2Proof/Machine/Events.lean ====
section
/-! DEFINITION. The event issuer with its open records, firmware's events, and the watchdog (R377 to R389). -/
namespace Sys2Proof.Machine

/-! ### Open records (R382, R383) -/

/-- The open record of a source. -/
def Dev.openOf (d : Dev) (src : Nat) : Option OpenRec := d.evt.open_.find? fun r => r.src == src

/-- Width of the coalescing window in ns. -/
def Dev.coalNs (d : Dev) : Nat := d.get F.EVT_CFG_COAL * 64000

/-- Words 0 to 7 of an EVENT descriptor (R122, R382). -/
def OpenRec.words (r : OpenRec) : List Word :=
  let t := match r.time with
    | some (s, ns) => (s, 2 ^ 31 + ns)
    | none => (0, 0)
  [BitVec.ofNat 32 (3 * 2 ^ 28 + r.len), BitVec.ofNat 32 (r.cls * 2 ^ 29 + r.src * 2 ^ 16 + r.code), r.arg0, r.arg1,
   BitVec.ofNat 32 r.esn, BitVec.ofNat 32 (r.esn / 2 ^ 32), BitVec.ofNat 32 t.1, BitVec.ofNat 32 t.2]

/-- The source's open record is closed: its descriptor is complete and can be posted (R383). -/
def Dev.closeOpen (d : Dev) (src : Nat) : Dev :=
  match d.openOf src with
  | none => d
  | some r =>
    let d1 := { d with evt := { d.evt with open_ := d.evt.open_.filter fun x => x.src != src } }
    if r.slot.isSome then d1.completeEntry 6 (.event src) r.esn r.words else d1

/-- Slots of ring 6 that must stay free beside the one taken, by class (R384). -/
def Dev.eventNeed (d : Dev) (cls : Nat) : Nat :=
  if cls = clsAlarm then 0
  else if cls = clsTrace then d.ringSize 6 / 2
  else if cls = clsInfo then d.ringSize 6 / 4
  else 4

/-- A frame lost to a full restart reserve: code 4 of a lane (R385). -/
def EvReq.isLost (q : EvReq) : Bool := (q.src == 16 || q.src == 17) && q.code == 4

/-- An event that joins no open record: it closes its source's open record, takes its ESN, and opens a record where
ring 6 keeps it (R382 to R385). Result: the ESN. -/
def Dev.issueNew (d : Dev) (q : EvReq) : Dev × Nat :=
  let d1 := d.closeOpen q.src
  let n := d1.evt.esn
  if q.isLost then (d1.dropEntry 6, n)
  else if !d1.on .core ∨ !d1.ringEnabled 6 then
    if d1.on .core then (d1.dropEntry 6, n) else (d1.takeEsn.1, n)
  else
    let (d2, kept) := d1.reserveSlot 6 (d1.eventNeed q.cls) (.event q.src) none
    if kept then
      let d3 := { d2 with evt := { d2.evt with
        open_ := d2.evt.open_ ++ [⟨q.src, q.code, q.cls, q.arg0, q.arg1, n, 1, some 6, q.since, q.time⟩] } }
      (if d3.get F.EVT_CFG_COAL = 0 then d3.closeOpen q.src else d3, n)
    else (d2, n)

/-- An equal event within the window joins the open record and takes no ESN (R383). -/
def Dev.joins (d : Dev) (q : EvReq) : Option OpenRec :=
  match d.openOf q.src with
  | some r =>
    if r.code = q.code ∧ r.arg0 = q.arg0 ∧ q.since ≤ r.opened + d.coalNs ∧ d.get F.EVT_CFG_COAL ≠ 0 then some r else none
  | none => none

/-- The ESN of an alarm event goes to the oldest alarm record that has none (R393, R394). -/
def giveEsn (n : Nat) : List AlarmRec → List AlarmRec
  | [] => []
  | r :: t => if r.esn.isNone then { r with esn := some n } :: t else r :: giveEsn n t

/-- What follows from the ESN that an event has (R330, R394). -/
def Dev.noteEsn (d : Dev) (q : EvReq) (n : Nat) : Dev :=
  let d1 :=
    if q.src = 0 ∧ q.code = 1 ∧ (q.arg0.toNat % 8 = stPassiveRead ∨ q.arg0.toNat % 8 = stHost)
    then { d with evt := { d.evt with entryEsn := n } } else d
  if q.src = 2 ∧ q.code = 2 then { d1 with wellcap := { d1.wellcap with recs := giveEsn n d1.wellcap.recs } } else d1

/-- LEN of the source's open record increases, saturating (R383). -/
def OpenRec.oneMore (src : Nat) (x : OpenRec) : OpenRec :=
  if x.src = src then { x with len := min 65535 (x.len + 1) } else x

/-- The issuer serves one request (R377, R383). -/
def Dev.issueReq (d : Dev) (q : EvReq) : Dev :=
  match d.joins q with
  | some r =>
    let d1 := { d with evt := { d.evt with
      open_ := d.evt.open_.map (OpenRec.oneMore q.src) } }
    d1.noteEsn q r.esn
  | none =>
    let (d1, n) := d.issueNew q
    d1.noteEsn q n

/-- Take the oldest request of a source from the queue. -/
def takeReq (src : Nat) : List EvReq → Option EvReq × List EvReq
  | [] => (none, [])
  | q :: t =>
    if q.src = src then (some q, t)
    else
      let (r, t') := takeReq src t
      (r, q :: t')

/-- EVENT_ISSUE (R377): the oldest request of the source is served. The issuer is in AON (R15). -/
def Dev.eventIssueOp (d : Dev) (src : Nat) : Dev :=
  if !d.on .aon then d
  else
  match takeReq src d.evt.queue with
  | (some q, t) => Dev.issueReq { d with evt := { d.evt with queue := t } } q
  | (none, _) => d

/-- Serve every request of a source. -/
def Dev.issueAll (src : Nat) : Nat → Dev → Dev
  | 0, d => d
  | n + 1, d => Dev.issueAll src n (d.eventIssueOp src)

/-- COAL_WINDOW_CLOSE (R383): the window of the source's open record is over, its end included. -/
def Dev.coalWindowCloseOp (d : Dev) (src : Nat) : Dev :=
  match d.openOf src with
  | some r => if r.opened + d.coalNs < d.now then d.closeOpen src else d
  | none => d

/-- A write to EVT_SW (R397): CLASS 0 is clamped to 1, 6 and 7 to 5, with an entry in the clamp log as R12 has it. -/
def Dev.evtSwWritten (d : Dev) (m : Master) (acted : Nat) : Dev :=
  let c := bitsOf acted 31 29
  let cls := if c = 0 then 1 else if 5 < c then 5 else c
  let d1 := if cls = c then d else d.logClamp F.EVT_SW_CLASS.addr 31 29 m c cls
  d1.event 31 (acted % 65536) cls (d.reg F.EVT_SW_ARG0_ARG.addr) (d.reg (F.EVT_SW_ARG0_ARG.addr + 4))

/-! ### Watchdog (R388, R389) -/

/-- Does the watchdog count in the operating state? -/
def wdogCounts (st : Nat) : Bool := st == stHost || st == stPassiveRun

/-- Nanoseconds counted since the last reload. -/
def Dev.wdogElapsed (d : Dev) : Nat :=
  d.wdog.counted + (match d.wdog.since with | some t => d.now - t | none => 0)

/-- AON cycles of the TIMEOUT: ms times 32.768, rounded up. -/
def Dev.wdogCycles (d : Dev) : Nat := ceilDiv (d.get F.WDOG_CTL_TIMEOUT * 4096) 125

/-- Has the count run out? -/
def Dev.wdogExpired (d : Dev) : Bool :=
  d.flag F.WDOG_CTL_EN && decide (d.wdogCycles * 10 ^ 9 ≤ d.wdogElapsed * 32768)

/-- The count starts afresh. -/
def Dev.wdogReload (d : Dev) : Dev :=
  { d with wdog := ⟨0, if d.flag F.WDOG_CTL_EN ∧ wdogCounts d.opState then some d.now else none⟩ }

/-- The operating state has changed: the count is held or goes on. -/
def Dev.wdogState (d : Dev) : Dev :=
  { d with wdog := ⟨d.wdogElapsed, if d.flag F.WDOG_CTL_EN ∧ wdogCounts d.opState then some d.now else none⟩ }

/-- A write to WDOG_KICK (R388): it is too late on the edge of expiry. -/
def Dev.wdogKickWritten (d : Dev) (acted : Nat) : Dev :=
  if acted % 65536 = 0x6B17 ∧ !d.wdogExpired then d.wdogReload.put F.WDOG_STAT_ESCALATE 0 else d

/-- A write to WDOG_CTL: setting EN starts the watchdog (R389). -/
def Dev.wdogCtlWritten (d : Dev) (old : Nat) : Dev :=
  if !bitAt old 31 ∧ d.flag F.WDOG_CTL_EN then d.wdogReload else d

/-- Request a device reset with its cause; the first request stands until it is applied (R74, R389, R392, R417). -/
def Dev.requestReset (d : Dev) (cause : Nat) : Dev :=
  { d with resetReq := some (d.resetReq.getD cause) }

/-- WDOG_EXPIRY (R389): never before the count has run out (R388), and on its edge before a kick (R41). -/
def Dev.wdogExpiryOp (d : Dev) : Dev :=
  if d.wdogExpired ∧ wdogCounts d.opState then
    let d1 := (d.trouble tWDOG).wdogReload
    if d1.flag F.WDOG_STAT_ESCALATE then (d1.event 9 1 clsFault 2 0).requestReset 4
    else { (d1.event 9 1 clsFault 1 0).put F.WDOG_STAT_ESCALATE 1 with coreResetReq := true }
  else d

/-- Whole milliseconds remaining (R397). -/
def Dev.wdogRemain (d : Dev) : Nat :=
  if d.flag F.WDOG_CTL_EN then (d.wdogCycles * 10 ^ 9 - d.wdogElapsed * 32768) / (32768 * 10 ^ 6) else 0

end Sys2Proof.Machine
end

