-- ==== Sys2Proof/Machine/Wellhead.lean ====
section
/-! DEFINITION. Wellhead: the source of the AON domain, the marks on VHOLD, the energy gauge, the PV and VBAT samples, the
voltage loop and the power modes (R355 to R376). -/
namespace Sys2Proof.Machine

/-! ### Source of the AON domain (R356) -/

/-- The first source of the list that is available. -/
def Dev.aonSource (d : Dev) : Nat :=
  if d.flag F.WH_STAT_HOST_GOOD then 3
  else if 1 ≤ d.get F.WH_STAT_MARK then 2
  else if d.flag F.WH_STAT_PV_OK then 1
  else 0

/-- AON_SRC follows the choice. -/
def Dev.updateSource (d : Dev) : Dev := d.put F.WH_STAT_AON_SRC d.aonSource

/-! ### Marks (R359, R360) -/

/-- Rising and falling threshold of a mark in mV. -/
def markRise (k : Nat) : Nat := [0, 1800, 2100, 2550, 2800, 3000].getD k 0
def markFall (k : Nat) : Nat := [0, 1700, 2050, 2500, 2750, 2800].getD k 0

/-- Highest mark reached at `mv`, after `old`. -/
def markAt (old mv : Nat) : Nat :=
  (List.range 6).foldl (fun best k => if markRise k ≤ mv ∨ (k ≤ old ∧ markFall k ≤ mv) then k else best) 0

/-- The gauge's MARK. -/
def Dev.mark (d : Dev) : Nat := d.get F.WH_STAT_MARK

/-! ### The energy gauge (R361 to R366) -/

/-- Energy in pJ of the 18 uF at `v` mV above `w` mV. -/
def energyAbove (v w : Nat) : Int := 9 * ((v * v : Nat) - (w * w : Nat) : Int)

/-- VHOLD as the gauge computes with it. -/
def Dev.vGauge (d : Dev) : Nat := d.env.vhold - 15

/-- E_isle in pJ (R361, R364): from VHOLD less 15 mV, capped at V_cap while CORE is on. -/
def Dev.eIsle (d : Dev) : Int :=
  energyAbove (if d.on .core then min d.vGauge 2800 else d.vGauge) 1752 - (d.well.cst + d.well.tx : Nat)

/-- E_core in pJ. -/
def Dev.eCore (d : Dev) : Int :=
  energyAbove d.vGauge 2800 - (d.well.ce.toList.sum + d.well.key + d.well.dma.toList.sum : Nat)

/-- The computed words of WH_VHOLD and WH_GAUGE (R376). -/
def Dev.whVhold (d : Dev) : Nat :=
  (if d.opState = stHost then 0xFFFF else min 65535 (d.eIsle.toNat / 100000)) * 2 ^ 16 + d.env.vhold % 4096
def Dev.whGauge (d : Dev) : Nat :=
  (d.well.cst + d.well.tx) / 100000 % 65536 * 2 ^ 16 + d.get F.WH_GAUGE_CST_FIRST * 16 + d.get F.WH_GAUGE_WAITING

/-- Bit of WAITING of a requester. -/
def askBit : Requester → Nat
  | .cistern => 0
  | .response => 1
  | .ce _ | .key => 2
  | .windlass _ => 3

/-- Is the requester's budget counted against E_core? -/
def askCore : Requester → Bool
  | .ce _ | .key | .windlass _ => true
  | _ => false

/-- Hold a budget for the requester; 0 releases it. -/
def Dev.hold (d : Dev) (who : Requester) (b : Nat) : Dev :=
  match who with
  | .cistern => { d with well := { d.well with cst := b } }
  | .response => { d with well := { d.well with tx := b } }
  | .ce r => { d with well := { d.well with ce := d.well.ce.set r.val b r.isLt } }
  | .key => { d with well := { d.well with key := b } }
  | .windlass c => { d with well := { d.well with dma := d.well.dma.set c.val b c.isLt } }

/-- A request is granted: its budget is held, and a Cistern grant ends the precedence of R365. -/
def Dev.grantHold (d : Dev) (who : Requester) (b : Nat) : Dev :=
  let d1 := d.hold who b
  let w := d1.get F.WH_GAUGE_WAITING
  let d2 := if w.testBit (askBit who) then d1.put F.WH_GAUGE_WAITING (w - 2 ^ (askBit who)) else d1
  if who = .cistern then { d2.put F.WH_GAUGE_CST_FIRST 0 with well := { d2.well with cstRefused := 0 } } else d2

/-- A request is refused (R365, R376). -/
def Dev.refuse (d : Dev) (who : Requester) : Dev :=
  let d1 := (d.bump F.WH_REFUSED_COUNT 1).put F.WH_GAUGE_WAITING (d.get F.WH_GAUGE_WAITING ||| 2 ^ (askBit who))
  if who = .cistern then
    let d2 := { d1 with well := { d1.well with cstRefused := min 8 (d1.well.cstRefused + 1) } }
    if 8 ≤ d2.well.cstRefused then d2.put F.WH_GAUGE_CST_FIRST 1 else d2
  else d1

/-- A request for a burst of `budget` pJ that needs mark `m` is judged (R362, R365, R366). -/
def Dev.askEnergy (d : Dev) (who : Requester) (m budget : Nat) : Dev × Bool :=
  if d.opState = stHost then (d.grantHold who budget, true)
  else if askCore who ∧ (d.opState ≠ stPassiveRun ∨ d.flag F.WH_GAUGE_CST_FIRST) then (d.refuse who, false)
  else if m ≤ d.mark ∧ (budget : Int) ≤ (if askCore who then d.eCore else d.eIsle) then (d.grantHold who budget, true)
  else (d.refuse who, false)

/-- The burst ends, or its grant is withdrawn or abandoned. -/
def Dev.energyEnd (d : Dev) (who : Requester) : Dev := d.hold who 0

/-! ### VHOLD changes (R359, R360) -/

/-- RUNLOW means PASSIVE_RUN with VHOLD below 2.90 V: a sample that finds VHOLD back clears it (R30). The sample that finds
it low is RUNLOW's own command (R22). -/
def Dev.runlowSampled (d : Dev) : Dev :=
  if d.flag F.SYS_RUNLOW ∧ 2900 ≤ d.env.vhold then d.put F.SYS_RUNLOW 0 else d

/-- VHOLD is measured at `mv` (MARK_CHANGE). The comparators are in WELL: without it only the level itself is there. -/
def Dev.markChangeOp (d : Dev) (mv : Nat) : Dev :=
  let d1 := { d with env := { d.env with vhold := mv } }
  if !d.on .well then d1
  else
    let d2 := d1.runlowSampled
    let k := markAt d.mark mv
    if k = d.mark then d2
    else
      let d3 := ((d2.put F.WH_STAT_MARK k).put F.WH_EVT_MARK_CHG 1).updateSource
      d3.event 1 1 clsInfo (d3.reg F.WH_STAT_MARK.addr) (BitVec.ofNat 32 d3.whVhold)

/-! ### PV and VBAT (R367, R368) -/

/-- PV_OK changes (R367). -/
def Dev.setPvOk (d : Dev) (ok : Bool) : Dev :=
  if d.flag F.WH_STAT_PV_OK = ok then d
  else ((d.put F.WH_STAT_PV_OK (b2n ok)).put F.WH_EVT_PV_CHG 1).updateSource

/-- A VBAT measurement (R368). -/
def Dev.vbatMeasured (d : Dev) (mv : Nat) : Dev :=
  let first := d.get F.WH_VBAT_MV = 0
  let d1 := { d with env := { d.env with vbat := mv } }.put F.WH_VBAT_MV mv
  if 2500 ≤ mv then d1.put F.WH_STAT_VBAT_OK 1
  else if d.flag F.WH_STAT_VBAT_OK ∨ first then
    (((d1.put F.WH_STAT_VBAT_OK 0).put F.WH_EVT_VBAT_LOW 1).trouble tVBAT).event 1 2 clsTrouble (BitVec.ofNat 32 mv) 0
  else d1

/-- PV_SAMPLE (R367, R368): a sampling window that meets the alarm charge is abandoned. -/
def Dev.pvSampleOp (d : Dev) (voc : Nat) (covers : Bool) (vbat : Nat) : Dev :=
  if d.wellcap.charging ∨ !d.on .well then d
  else
    let d1 := ({ d with env := { d.env with voc := voc } }.put F.WH_PV_VOC voc).put F.WH_PV_VMPP (voc * 76 / 100)
    (d1.setPvOk (decide (1500 ≤ voc) && covers)).vbatMeasured vbat

/-- PV_AON_RAIL_LOSS (R367). -/
def Dev.pvRailLossOp (d : Dev) : Dev := if d.on .well then d.setPvOk false else d

/-! ### The voltage loop (R371 to R373) -/

/-- Does the loop run? -/
def Dev.loopRuns (d : Dev) : Bool :=
  d.opState == stHost && d.well.pmode != 0 && d.well.pmodeTo != some 0 && !d.flag F.WH_AVS_STAT_LINK_FAIL

/-- A set point in LINEAR16 with the exponent that VOUT_MODE gave, a five-bit two's complement number (R372, log entry 64). -/
def linear16 (mode : Fin 32) (mv : Nat) : BitVec 16 :=
  BitVec.ofNat 16 (if 16 ≤ mode.val then mv * 2 ^ (32 - mode.val) / 1000 else mv / (1000 * 2 ^ mode.val))

/-- The loop writes set point `mv` to the regulator: VOUT_COMMAND, and before the first one VOUT_MODE is read (R372). -/
def Dev.setPoint (d : Dev) (mv : Nat) : Dev :=
  let a := d.get F.WH_AVS_CFG_ADDR
  let first : List PmTransfer := if d.well.pmRead then [] else [⟨a, 0x20, none⟩]
  { d.put F.WH_AVS_STAT_VSET mv with
    well := { d.well with pmRead := true, pm := first ++ [⟨a, 0x21, some (linear16 Config.voutExponent mv)⟩] } }

/-- The event of an AVS failure (R373, R381). -/
def Dev.avsEvent (d : Dev) : Dev := (d.trouble tAVS).event 1 3 clsTrouble (d.reg F.WH_AVS_STAT_VSET.addr) 0

/-- CANARY_LATE (R371, R373). -/
def Dev.canaryLateOp (d : Dev) : Dev :=
  if d.loopRuns then
    let v := d.get F.WH_AVS_STAT_VSET
    if 900 ≤ v then ((d.put F.WH_AVS_STAT_LIMIT 1).put F.WH_EVT_AVS_LIMIT 1).avsEvent
    else d.setPoint (min 900 (v + 10))
  else d

/-- AVS_LOWER (R371). -/
def Dev.avsLowerOp (d : Dev) : Dev :=
  if d.loopRuns then d.setPoint (max 720 (d.get F.WH_AVS_STAT_VSET - 5)) else d

/-- AVS_LINK_FAIL (R373). -/
def Dev.avsLinkFailOp (d : Dev) : Dev :=
  if d.opState = stHost ∧ !d.flag F.WH_AVS_STAT_LINK_FAIL then
    ((d.put F.WH_AVS_STAT_LINK_FAIL 1).put F.WH_EVT_AVS_LINK 1).avsEvent
  else d

/-! ### Power modes (R374, R375) -/

/-- A change to mode `m` begins: raising the clock, and PERF, first need 0.90 V; a lower clock is in force at once. -/
def Dev.pmodeBegin (d : Dev) (m : Nat) : Dev :=
  let d1 := { d with well := { d.well with pmode := if m = 2 then 2 else d.well.pmode, pmodeTo := some m } }.put F.WH_PMODE_BUSY 1
  if (m = 0 ∨ d.well.pmode = 2) ∧ !d1.flag F.WH_AVS_STAT_LINK_FAIL then d1.setPoint 900 else d1

/-- WH_PMODE has been written (R375). -/
def Dev.pmodeWritten (d : Dev) : Dev :=
  let m := d.get F.WH_PMODE_MODE
  if d.flag F.WH_PMODE_BUSY ∨ m = d.well.pmode then d
  else if d.opState = stHost then d.pmodeBegin m
  else { d with well := { d.well with pmode := m } }

/-- PMODE_DONE (R375): a value stored meanwhile is applied next. -/
def Dev.pmodeDoneOp (d : Dev) : Dev :=
  match d.well.pmodeTo with
  | none => d
  | some m =>
    let d1 := { d with well := { d.well with pmode := m, pmodeTo := none } }.put F.WH_PMODE_BUSY 0
    if d1.get F.WH_PMODE_MODE = m then d1 else d1.pmodeBegin (d1.get F.WH_PMODE_MODE)

end Sys2Proof.Machine
end

