-- ==== Sys2Proof/Machine/CryptoEngine.lean ====
section
/-! DEFINITION. The crypto engine without its memory traffic: pages and their jobs, the checks of START, the random-number
source, key commands as they are written, and the views of the slot registers (R243 to R270). The chunks, which read and
write memory, are in CryptoJobs. -/
namespace Sys2Proof.Machine

/-! ### Pages (R243, R269, R270) -/

/-- A register field of page `r`, and of the CE's own registers of the page. -/
def pageField (r : Fin 16) (f : Fl) : Fl := f.plus (0x1000 * r.val)
def pageCtl (r : Fin 16) (f : Fl) : Fl := f.plus (0x20 * r.val)

def Dev.page (d : Dev) (r : Fin 16) : CePage := d.ce.pages[r.val]
def Dev.setPage (d : Dev) (r : Fin 16) (p : CePage) : Dev :=
  { d with ce := { d.ce with pages := d.ce.pages.set r.val p r.isLt } }

def Dev.setJobCe (d : Dev) (r : Fin 16) (j : Option CeJob) : Dev := d.setPage r { d.page r with job := j }

/-- The bytes of consecutive registers. -/
def Dev.regBytes (d : Dev) (a n : Nat) : Bytes := (List.range n).flatMap fun i => leBytes 4 (d.reg (a + 4 * i)).toNat

/-- Bytes into consecutive registers; missing bytes are zero. -/
def Dev.putRegBytes (d : Dev) (a n : Nat) (bs : Bytes) : Dev :=
  (List.range n).foldl (fun x i => x.setReg (a + 4 * i) (BitVec.ofNat 32 (leNat (slice bs (4 * i) 4)))) d

def pageIv (r : Fin 16) : Nat := (pageField r F.CE_IV_IV).addr
def pageTag (r : Fin 16) : Nat := (pageField r F.CE_TAG_TAG).addr
def pageDigest (r : Fin 16) : Nat := (pageField r F.CE_DIGEST_DIGEST).addr

/-- Statuses of a job (R269). -/
def jsOK : Nat := 0
def jsAUTH_FAIL : Nat := 1
def jsBAD_CFG : Nat := 2
def jsKEY_DENIED : Nat := 3
def jsPOLICY : Nat := 4
def jsWINDOW : Nat := 5
def jsNONCE : Nat := 6
def jsRNG_FAIL : Nat := 7
def jsENERGY : Nat := 8
def jsACCESS : Nat := 9
def jsBUS_ERROR : Nat := 10
def jsPOISON : Nat := 11
def jsABORTED : Nat := 12
def jsUNCLEARED : Nat := 13
def jsBAD_INPUT : Nat := 14
def jsPAGE_OFF : Nat := 15

/-! ### Operations (R246) -/

/-- The listed operation codes. -/
def ceOps : List Nat :=
  [0, 1, 2, 3, 4, 5, 0x10, 0x11, 0x12, 0x18, 0x19, 0x1A, 0x20, 0x21, 0x24, 0x30]

def isSha (op : Nat) : Bool := 0x10 ≤ op && op ≤ 0x12
def isHmac (op : Nat) : Bool := 0x18 ≤ op && op ≤ 0x1A
/-- AES_ECB, AES_CBC or AES_CTR. -/
def isAesRun (op : Nat) : Bool := 1 ≤ op && op ≤ 3
def isEcdsa (op : Nat) : Bool := op == 0x20 || op == 0x21
def isPk (op : Nat) : Bool := isEcdsa op || op == 0x24

/-- Hash of a SHA or HMAC operation. -/
def opSha (op : Nat) : Sha := if op % 8 = 0 then .s256 else if op % 8 = 1 then .s384 else .s512
def opCurve (op : Nat) : Curve := if op = 0x20 then p256 else p384

/-- Can the operation run in parts (R248)? -/
def isParted (op : Nat) : Bool := isAesRun op || isSha op || isHmac op
/-- Block size of R248. -/
def opBlock (op : Nat) : Nat := if isAesRun op then 16 else (opSha op).block

/-- Does the job use a key slot? -/
def usesSlot (op dir : Nat) : Bool :=
  !isSha op && op != 0x30 && !((isEcdsa op || op == 0x24) && dir == 1)

/-- Bit of the usage flag that the job needs. -/
def usageBit (op dir : Nat) : Nat :=
  if op = 5 ∨ isHmac op then 2 + dir
  else if isEcdsa op then 4
  else if op = 0x24 then 5
  else dir

/-- Types that fit the operation. -/
def typeFits (op typ : Nat) : Bool :=
  if isHmac op then typ == 3
  else if op = 0x20 then typ == 4
  else if op = 0x21 then typ == 5
  else if op = 0x24 then typ == 2
  else typ == 1 || typ == 2

/-- Does a job of its own beginning take an IV under the page policy (R250)? -/
def takesIv (op dir part : Nat) : Bool :=
  dir == 0 && (op == 2 || op == 3 || op == 4 || op == 5) && (part == 0 || part == 1)

/-- Bytes read from SRC, and written to DST (R246, R256). -/
def CeJob.inLen (j : CeJob) : Nat :=
  if j.op = 4 then j.aad + j.len
  else if isEcdsa j.op then j.len + if j.dir = 1 then 4 * (opCurve j.op).len else 0
  else if j.op = 0x24 then (if j.dir = 1 then 2 * j.len + 4 else j.len + 44 + 5 * j.len / 2)
  else if j.op = 0x30 then 0
  else j.len
def CeJob.outLen (j : CeJob) : Nat :=
  if isAesRun j.op ∨ j.op = 4 ∨ j.op = 0x24 ∨ j.op = 0x30 then j.len
  else if isEcdsa j.op ∧ j.dir = 0 then 2 * (opCurve j.op).len
  else 0

/-! ### The checks of START (R247, R248) -/

/-- The job that START would begin, from the page's registers. -/
def Dev.jobOf (d : Dev) (r : Fin 16) : CeJob :=
  let g (f : Fl) : Nat := d.get (pageField r f)
  ⟨g F.CE_CFG_OP, g F.CE_CFG_DIR, g F.CE_CFG_PART, g F.CE_CFG_SLOT, g F.CE_CFG_TAGLEN, g F.CE_SRC_SRC, g F.CE_DST_DST,
    g F.CE_LEN_LEN, g F.CE_AAD_AAD, d.regBytes (pageIv r) 4, d.regBytes (pageTag r) 4, d.ce.order,
    d.flag (pageCtl r F.CE_PAGE_CTL_NPOL), 0, [], false, false, none, 0,
    ⟨g F.CE_CFG_OP, g F.CE_CFG_DIR, g F.CE_CFG_SLOT, [], 0, [], [], 0, false⟩, 0, 0, none, false, false⟩

/-- Does the running state serve this MIDDLE or LAST? -/
def CeJob.follows (j : CeJob) (x : Option CeRun) : Bool :=
  match x with
  | some v => v.op == j.op && v.dir == j.dir && v.slot == j.slot
  | none => false

/-- The counter block with which a CTR job begins, as far as it is known at START. -/
def Dev.ctrBlock (d : Dev) (r : Fin 16) (j : CeJob) : Bytes :=
  if j.part = 2 ∨ j.part = 3 then match (d.page r).run with | some v => v.chain | none => []
  else if j.dir = 1 then j.iv else [0, 0, 0, 0, 0, 0, 0, 0, 0, 0, 0, 0, 0, 0, 0, 1]

/-- Is the configuration legal (step 2 of R247)? -/
def Dev.cfgLegal (d : Dev) (r : Fin 16) (j : CeJob) : Bool :=
  let lenOk :=
    if j.op = 1 ∨ j.op = 2 then decide (j.len % 16 = 0)
    else if isEcdsa j.op then decide (1 ≤ j.len ∧ j.len ≤ 64)
    else if j.op = 0x24 then decide (j.len % 8 = 0 ∧ 128 ≤ j.len ∧ j.len ≤ 512)
    else if j.op = 0x30 then decide (1 ≤ j.len ∧ j.len ≤ 65536)
    else true
  let partOk :=
    if isParted j.op then
      (j.part == 0 || j.part == 3 || j.len % opBlock j.op == 0) && (j.part < 2 || j.follows (d.page r).run)
    else j.part == 0
  let tagOk := j.tagLen == 8 || j.tagLen == 12 || j.tagLen == 16
  let tagUsed := j.op == 4 || j.op == 5 || (isHmac j.op && j.dir == 1)
  let apart := j.outLen == 0 || j.inLen == 0 || j.dst == j.src || j.dst + j.outLen ≤ j.src || j.src + j.inLen ≤ j.dst
  let passed := decide (2 ≤ j.part) && (match (d.page r).run with | some v => v.wrapped | none => false)
  let wrap := j.op == 3 && j.len != 0 && (passed || decide (2 ^ 32 < beNat ((d.ctrBlock r j).drop 12) + ceilDiv j.len 16))
  ceOps.contains j.op && j.op != 0 && lenOk && partOk && (!tagUsed || tagOk) && apart && !wrap

/-- Is the slot granted and fit (step 3)? -/
def Dev.keyAllowed (d : Dev) (r : Fin 16) (j : CeJob) : Bool :=
  !usesSlot j.op j.dir ||
    let k := d.slot j.slot
    let grant := d.get (pageCtl r (F.CE_PAGE_GRANT_LO_GRANT.plus (4 * (j.slot / 32))))
    bitAt grant (j.slot % 32) && k.typ != 0 && !k.damaged && typeFits j.op k.typ && bitAt k.usage 9 &&
      bitAt k.usage (usageBit j.op j.dir)

/-- Does the nonce policy permit the job (step 4, R250)? NPOL 1 is COUNTER. -/
def Dev.policyOk (d : Dev) (j : CeJob) : Bool :=
  let k := d.slot j.slot
  !takesIv j.op j.dir j.part || !j.npol || (j.op != 2 && k.origin && !bitAt k.usage 8)

/-- The page's window: first and last byte (R244). -/
def Dev.pageWindow (d : Dev) (r : Fin 16) : Nat × Nat :=
  (d.get (pageCtl r F.CE_PAGE_WIN_BASE_ADDR), d.get (pageCtl r (F.CE_PAGE_WIN_BASE_ADDR.plus 4)))

/-- Do `n` bytes at `a` lie in a window? -/
def inWindow (w : Nat × Nat) (a n : Nat) : Bool := n == 0 || (decide (w.1 ≤ a) && decide (a + n ≤ w.2 + 1))

/-- Does every byte lie in the page's window (step 5)? -/
def Dev.windowOk (d : Dev) (r : Fin 16) (j : CeJob) : Bool :=
  inWindow (d.pageWindow r) j.src j.inLen && inWindow (d.pageWindow r) j.dst j.outLen

/-- Is the slot's invocation count below its limit (step 6, R250)? -/
def Dev.invBelow (d : Dev) (j : CeJob) : Bool :=
  !takesIv j.op j.dir j.part || decide ((d.slot j.slot).inv < if j.npol then 2 ^ 64 - 1 else 2 ^ 32)

/-- Random bytes that the job draws as one request (R259). -/
def CeJob.wants (j : CeJob) : Nat :=
  if j.op = 0x30 then j.len
  else if isEcdsa j.op ∧ j.dir = 0 then 2 * (opCurve j.op).len
  else if takesIv j.op j.dir j.part ∧ !j.npol then (if j.op = 2 then 16 else 12)
  else 0

/-- States of the random-number source (R258). -/
def rngSTARTUP : Nat := 0
def rngREADY : Nat := 1
def rngFAILED : Nat := 2
def Dev.rngState (d : Dev) : Nat := d.get F.CE_RNG_STAT_STATE

/-- Status with which START fails, none where the job goes on (R247, steps 1 to 7). -/
def Dev.startFails (d : Dev) (r : Fin 16) (j : CeJob) : Option Nat :=
  if !d.flag (pageCtl r F.CE_PAGE_CTL_EN) then some jsPAGE_OFF
  else if !d.cfgLegal r j then some jsBAD_CFG
  else if !d.keyAllowed r j then some jsKEY_DENIED
  else if !d.policyOk j then some jsPOLICY
  else if !d.windowOk r j then some jsWINDOW
  else if !d.invBelow j then some jsNONCE
  else if j.wants ≠ 0 ∧ d.rngState = rngFAILED then some jsRNG_FAIL
  else none

/-! ### Completion (R254) -/

/-- The page's registers as a job completes with a status other than OK leave them: DIGEST and, for DIR 0, TAG zero. -/
def Dev.zeroResults (d : Dev) (r : Fin 16) (dir : Nat) : Dev :=
  let d1 := d.putRegBytes (pageDigest r) 16 []
  if dir = 0 then d1.putRegBytes (pageTag r) 4 [] else d1

/-- DONE and STATUS. -/
def Dev.jobStatus (d : Dev) (r : Fin 16) (st : Nat) : Dev :=
  ((d.put (pageField r F.CE_STAT_BUSY) 0).put (pageField r F.CE_STAT_DONE) 1).put (pageField r F.CE_STAT_STATUS) st

/-! ### Beginning a job (R250, R251) -/

/-- The IV or counter block that a job begins with. -/
def Dev.jobIv (d : Dev) (j : CeJob) : Bytes :=
  if takesIv j.op j.dir j.part then
    let k := d.slot j.slot
    if j.npol then
      let iv := beBytes 4 k.fixed.toNat ++ beBytes 8 k.inv
      if j.op = 3 then iv ++ [0, 0, 0, 1] else iv
    else if j.op = 3 then j.rnd ++ [0, 0, 0, 1]
    else j.rnd
  else j.iv

/-- Running state at the beginning of a WHOLE or FIRST job. -/
def CeJob.freshRun (j : CeJob) (key iv : Bytes) : CeRun :=
  let s := opSha j.op
  let base : CeRun := ⟨j.op, j.dir, j.slot, [], 0, [], [], 0, false⟩
  if j.op = 2 ∨ j.op = 3 then { base with chain := iv }
  else if j.op = 4 ∨ j.op = 5 then { base with chain := iv.take 12 ++ [0, 0, 0, 2] }
  else if isSha j.op then { base with hash := s.init }
  else if isHmac j.op then { base with hash := s.hmacInit key, total := s.block }
  else base

/-- The job begins: it takes its invocation value and its IV (R250, R251), or finds the count at its limit, or its key
damaged (R268). -/
def Dev.beginJob (d : Dev) (r : Fin 16) (j : CeJob) : Dev × CeJob :=
  let d0 := if usesSlot j.op j.dir then d.keyRead 14 j.slot else d
  let k := d0.slot j.slot
  if usesSlot j.op j.dir ∧ k.damaged then (d0, { j with begun := true, ended := some (jsPOISON, none) })
  else if !d0.invBelow j then (d0, { j with begun := true, ended := some (jsNONCE, none) })
  else
    let iv := d0.jobIv j
    let run := if j.part = 2 ∨ j.part = 3 then (d0.page r).run.getD j.run else j.freshRun k.key iv
    let j1 := { j with begun := true, iv := iv, run := run }
    if takesIv j.op j.dir j.part then
      let inv := (pageField r F.CE_INV_LO_INV).addr
      let d1 := (d0.setSlot j.slot { k with inv := k.inv + 1 }).putRegBytes (pageIv r) 4 iv
      ((d1.setReg inv (BitVec.ofNat 32 k.inv)).setReg (inv + 4) (BitVec.ofNat 32 (k.inv / 2 ^ 32)), j1)
    else (d0, j1)

/-- A page's job begins. -/
def Dev.ceBegin (d : Dev) (r : Fin 16) (j : CeJob) : Dev :=
  let x := d.beginJob r j
  x.1.setJobCe r (some x.2)

/-! ### Random numbers (R258 to R260) -/

/-- One request is served: its bytes. None where it must wait; a reseed that is due starts (R259). -/
def Dev.rngDraw (d : Dev) (n : Nat) : Dev × Option Bytes :=
  if d.rngState ≠ rngREADY ∨ d.ce.reseeding then (d, none)
  else if 65536 ≤ d.ce.requests ∨ (d.flag F.CE_RNG_CTL_PR ∧ !d.ce.fresh) then
    ({ d with ce := { d.ce with reseeding := true } }, none)
  else
    let x := d.ce.drbg.generate n
    ({ d with ce := { d.ce with requests := d.ce.requests + 1, fresh := false, drbg := x.2 } }, some x.1)

/-- Does the job wait for random numbers? Its first step has been granted before (R247). -/
def CeJob.wanting (j : CeJob) : Bool := j.want != 0 && j.granted && j.ended.isNone

/-- The page whose job waits for random numbers with the lowest order. -/
def Dev.nextWanting (d : Dev) : Option (Fin 16 × CeJob) :=
  (List.finRange 16).foldl (fun best r =>
    match (d.page r).job with
    | some j =>
      if j.wanting then
        match best with
        | some (_, b) => if j.order < b.order then some (r, j) else best
        | none => some (r, j)
      else best
    | none => best) none

/-- Requests are served in the order of their START; `fuel` bounds their number. -/
def Dev.rngServe : Nat → Dev → Dev
  | 0, d => d
  | fuel + 1, d =>
    let keyFirst : Option CeKeyCmd := d.ce.key.filter fun k => k.want != 0
    let page := d.nextWanting
    let servePage : Option (Fin 16 × CeJob) :=
      match page, keyFirst with
      | some (r, j), some k => if j.order < k.order then some (r, j) else none
      | p, none => p
      | none, some _ => none
    match servePage, keyFirst with
    | some (r, j), _ =>
      match d.rngDraw j.want with
      | (d1, some bs) => Dev.rngServe fuel (d1.ceBegin r { j with want := 0, rnd := bs })
      | (d1, none) => d1
    | none, some k =>
      match d.rngDraw k.want with
      | (d1, some bs) =>
        Dev.rngServe fuel { d1 with ce := { d1.ce with key := some { k with want := 0, rnd := bs } } }
      | (d1, none) => d1
    | none, none => d

def Dev.rngGo (d : Dev) : Dev := Dev.rngServe 18 d

/-- Does anybody wait for random numbers? -/
def Dev.rngWanted (d : Dev) : Bool := d.nextWanting.isSome || (d.ce.key.any fun k => k.want != 0)

/-- Jobs that wait for random numbers, or still write some, end with RNG_FAIL: none is produced after a failure (R260). -/
def Dev.wantersFail (d : Dev) : Dev :=
  (List.finRange 16).foldl (fun x r =>
    match (x.page r).job with
    | some j =>
      if (j.want ≠ 0 ∨ j.op = 0x30) ∧ j.ended.isNone then x.setJobCe r (some { j with ended := some (jsRNG_FAIL, none) })
      else x
    | none => x) d

/-- A health test fails, the repetition count if `rct` (R260). -/
def Dev.rngFail (d : Dev) (rct : Bool) : Dev :=
  let d1 := (d.put F.CE_RNG_STAT_STATE rngFAILED).put (if rct then F.CE_RNG_STAT_RCT_FAIL else F.CE_RNG_STAT_APT_FAIL) 1
  let d2 := { d1 with ce := { d1.ce with reseeding := false, drbg := Drbg.zero } }.trouble tCRYPTO
  (d2.event 7 1 clsFault (d2.reg F.CE_RNG_STAT_STATE.addr) 0).wantersFail

/-- The next `n` bytes of raw bits: those the surroundings hold, then free ones (R258, log entry 3). -/
def Dev.rawNext (d : Dev) (n : Nat) : Bytes :=
  d.env.noise.take n ++ (List.range (n - d.env.noise.length)).map fun i => Config.rawByte d.freeCount i

/-- The noise source once `n` bytes of raw bits have been taken. -/
def Dev.rawTaken (d : Dev) (n : Nat) : Dev := { d.draw 1 with env := { d.env with noise := d.env.noise.drop n } }

/-- Raw bits pass the health tests, or one fails (R258). -/
def Dev.rawBits (d : Dev) (raw : Bytes) : Dev × Bool :=
  let x := d.ce.health.feed raw
  let d1 := { d with ce := { d.ce with health := x.1 } }
  match x.2 with
  | some rct => (d1.rngFail rct, false)
  | none => (d1, true)

/-- RESEED_DONE: 1,024 fresh raw bits reseed the DRBG (R259). With PR a request that waits has its own reseed then. -/
def Dev.reseedDoneOp (d : Dev) : Dev :=
  if d.on .core ∧ d.ce.reseeding ∧ d.rngState = rngREADY then
    let raw := d.rawNext 128
    match (d.rawTaken 128).rawBits raw with
    | (d1, false) => d1
    | (d1, true) =>
      ({ d1 with ce := { d1.ce with
          reseeding := false
          requests := 0
          fresh := d1.rngWanted
          drbg := d1.ce.drbg.seed raw } }.bump F.CE_RNG_STAT_RESEEDS 1).rngGo
  else d

/-- RNG_READY: start-up is complete: 4,096 raw bits are discarded, and 1,024 instantiate the DRBG (R258). -/
def Dev.rngReadyOp (d : Dev) : Dev :=
  if d.on .core ∧ d.rngState = rngSTARTUP then
    let raw := d.rawNext 640
    match (d.rawTaken 640).rawBits raw with
    | (d1, false) => d1
    | (d1, true) =>
      ({ d1 with ce := { d1.ce with
          reseeding := false
          requests := 0
          fresh := false
          drbg := Drbg.zero.seed (raw.drop 512) } }.put F.CE_RNG_STAT_STATE rngREADY).rngGo
  else d

/-- RESEED is written (R259). -/
def Dev.reseedWritten (d : Dev) : Dev :=
  if d.rngState = rngREADY then { d with ce := { d.ce with reseeding := true } } else d

/-- RESTART is written: the sequence of R258 runs again (R260). -/
def Dev.restartWritten (d : Dev) : Dev :=
  { d with ce := { d.ce with reseeding := false, health := Health.start } }.put F.CE_RNG_STAT_STATE rngSTARTUP

/-- HEALTH_FAIL (R260). -/
def Dev.healthFailOp (d : Dev) (rct : Bool) : Dev :=
  if d.on .core ∧ d.rngState ≠ rngFAILED then d.rngFail rct else d

/-! ### Engines (R249) -/

/-- The engine of an operation: 0 AES, 1 hash, 2 public key. -/
def engineOf (op : Nat) : Nat := if isPk op then 2 else if isSha op || isHmac op then 1 else 0

/-- Is a step of the page's job ready for engine `e`? -/
def Dev.ceReady (d : Dev) (e : Nat) (r : Fin 16) : Bool :=
  match (d.page r).job with
  | some j => j.begun && j.ended.isNone && !j.abort && j.short.isNone && engineOf j.op == e
  | none => false

/-- Does the engine take the step of page `r` next? The AES and the hash engine go round from the page served last; the
public-key engine goes on with the job it has begun, and else takes the oldest START. -/
def Dev.ceTurn (d : Dev) (r : Fin 16) : Bool :=
  match (d.page r).job with
  | none => false
  | some j =>
    let e := engineOf j.op
    let rivals := (List.finRange 16).filter fun q => q != r && d.ceReady e q
    if e = 2 then
      rivals.all fun q => match (d.page q).job with
        | some x => x.steps == 0 && (j.steps != 0 || j.order < x.order)
        | none => true
    else
      let last := if e = 0 then d.ce.lastAes else d.ce.lastHash
      rivals.all fun q => (r.val + 31 - last) % 16 < (q.val + 31 - last) % 16

/-- WAIT of a page: 0 running or idle, 1 QUEUED, 2 ENERGY_WAIT (R249, R258, R268). -/
def Dev.ceWait (d : Dev) (r : Fin 16) : Nat :=
  match (d.page r).job with
  | none => 0
  | some j =>
    if j.ended.isSome then 0
    else if j.short.isSome then 2
    else if j.want ≠ 0 ∨ (j.begun ∧ !j.abort ∧ !d.ceTurn r) then 1
    else 0

/-- The computed word of CE_STAT. -/
def Dev.ceStat (d : Dev) (r : Fin 16) : Nat :=
  withBits (d.reg (pageField r F.CE_STAT_BUSY).addr).toNat 29 28 (d.ceWait r)

/-- The engine has served page `r`. -/
def Dev.ceServed (d : Dev) (r : Fin 16) (op : Nat) : Dev :=
  if engineOf op = 0 then { d with ce := { d.ce with lastAes := r.val } }
  else if engineOf op = 1 then { d with ce := { d.ce with lastHash := r.val } }
  else d

/-! ### Energy (R268) -/

/-- The budget of a step in pJ: 22 mW for its cycles at 24 MHz (R249, R363). -/
def CeJob.stepBudget (j : CeJob) (keyLen : Nat) : Nat :=
  let aes := if keyLen = 32 then 60 else 44
  let cycles :=
    if isPk j.op then 120000 / 10
    else if j.op = 4 then aes + 34 + 4 * j.dir
    else if j.op = 5 then aes + 34
    else if isAesRun j.op ∨ j.op = 0x30 then aes
    else
      let b := if opSha j.op = .s256 then 66 else 82
      if isHmac j.op then 3 * b else b
  ceilDiv (cycles * 2750) 3

/-- The next step of page `r`'s job is asked for: in HOST it is granted at once. -/
def Dev.ceAsk (d : Dev) (r : Fin 16) (j : CeJob) : Dev × Bool :=
  if j.granted then (d, true) else d.askEnergy (.ce r) 5 (j.stepBudget (d.slot j.slot).key.length)

/-- The job is to go on: its next step is asked for, and with the grant of its first one it draws its random numbers, if it
needs some, and begins (R247). A refusal notes since when it waits. -/
def Dev.ceProceed (d : Dev) (r : Fin 16) (j : CeJob) : Dev :=
  match d.ceAsk r j with
  | (d1, false) => d1.setJobCe r (some { j with short := some (j.short.getD d.now) })
  | (d1, true) =>
    let j1 := { j with granted := true, short := none }
    let d2 := d1.setJobCe r (some j1)
    if j.begun then d2 else if j.want = 0 then d2.ceBegin r j1 else d2.rngGo

/-! ### START, ABORT and EN (R245, R247, R255) -/

/-- START (R247). -/
def Dev.ceStart (d : Dev) (r : Fin 16) : Dev :=
  if d.flag (pageField r F.CE_STAT_BUSY) then d.put (pageField r F.CE_STAT_CMD_LOST) 1
  else
    let j := d.jobOf r
    let fresh := j.part = 0 ∨ j.part = 1
    match d.startFails r j with
    | some st =>
      let d1 := if st = jsPAGE_OFF then d
        else if fresh ∨ !j.follows (d.page r).run then d.setPage r ⟨none, none⟩ else d
      (d1.zeroResults r j.dir).jobStatus r st
    | none =>
      let d0 := { d with ce := { d.ce with order := d.ce.order + 1 } }
      let j1 := { j with want := j.wants }
      let d1 := d0.setPage r ⟨some j1, if fresh then none else (d.page r).run⟩
      ((d1.put (pageField r F.CE_STAT_BUSY) 1).put (pageField r F.CE_PROG_DONE) 0).ceProceed r j1

/-- ABORT (R255): a public-key job stops only while it is QUEUED. -/
def Dev.ceAbort (d : Dev) (r : Fin 16) : Dev :=
  match (d.page r).job with
  | some j =>
    if j.ended.isSome ∨ (isPk j.op ∧ d.ceWait r ≠ 1) then d else d.setJobCe r (some { j with abort := true })
  | none => d

/-- CE_CMD is written. -/
def Dev.ceCmdWritten (d : Dev) (r : Fin 16) (acted : Nat) : Dev :=
  if acted % 4 = 1 then d.ceStart r else if acted % 4 = 2 then d.ceAbort r else d

/-- Every register of the page returns to its Reset value. -/
def Dev.pageReset (d : Dev) (r : Fin 16) : Dev :=
  { d.setPage r ⟨none, none⟩ with
    regs := Sparse.drop (fun a => 0x50000000 + 0x1000 * r.val ≤ a && a < 0x50001000 + 0x1000 * r.val) d.regs }

/-- CE_PAGE_CTL is written; `old` is the word before (R245): a job that runs is aborted first, even a public-key job. -/
def Dev.pageCtlWritten (d : Dev) (r : Fin 16) (old : Nat) : Dev :=
  if bitAt old 31 ∧ !d.flag (pageCtl r F.CE_PAGE_CTL_EN) then
    match (d.page r).job with
    | some _ =>
      let d1 := d.ceAbort r
      d1.setJobCe r ((d1.page r).job.map fun j => { j with closing := true })
    | none => d.pageReset r
  else d

/-! ### Key commands as written (R262 to R264) -/

/-- Key bytes legal for a type in a slot (R261). -/
def plenOk (typ plen : Nat) : Bool :=
  (typ == 1 && plen == 16) || (typ == 2 && plen == 32) || (typ == 3 && 16 ≤ plen && plen ≤ 64) ||
    (typ == 4 && plen == 32) || (typ == 5 && plen == 48)

/-- Usage flags legal for a type, as a mask (R262). -/
def usageMask (typ : Nat) : Nat :=
  if typ = 1 then 0x3CF
  else if typ = 2 then 0x36F
  else if typ = 3 then 0x34C
  else if typ = 4 ∨ typ = 5 then 0x310
  else if typ = 6 then 0x010
  else 0

def usageOk (typ usage : Nat) : Bool := usage &&& usageMask typ == usage

/-- The command draws random numbers: their bytes. -/
def keyWants (op typ plen : Nat) : Nat :=
  if op = 4 then 12
  else if op = 3 then (if typ = 4 ∨ typ = 5 then 2 * plen else plen)
  else 0

/-- CE_KEY_CMD is written (R263, R264): any write while a command executes is lost. -/
def Dev.ceKeyCmdWritten (d : Dev) (acted : Nat) : Dev :=
  let op := acted % 8
  if d.flag F.CE_KEY_RESULT_BUSY then d.put F.CE_KEY_RESULT_CMD_LOST 1
  else if op = 0 ∨ op = 7 then d
  else
    let slot := bitsOf acted 13 8
    let plen := d.get F.CE_KEY_HDR0_PLEN
    let typ := d.get F.CE_KEY_HDR0_TYPE
    let want := keyWants op typ plen
    let k : CeKeyCmd := ⟨op, bitsOf acted 21 16, slot, d.get F.CE_KEY_ADDR_ADDR, plen, typ, d.get F.CE_KEY_HDR1_USAGE,
      d.reg F.CE_KEY_HDR2_FIXED.addr, d.ce.order, want, [], 0⟩
    let d1 := { d with ce := { d.ce with order := d.ce.order + 1, key := some k } }
    let d2 := (d1.put F.CE_KEY_RESULT_BUSY 1).put F.CE_KEY_RESULT_SLOT slot
    if want = 0 ∨ d.rngState = rngFAILED then d2 else d2.rngGo

/-- Does a page job or a sequence hold slot `s` (R248, R264, R270)? A job holds it until its completion. -/
def Dev.slotHeld (d : Dev) (s : Nat) : Bool :=
  (List.finRange 16).any fun r =>
    (match (d.page r).job with
      | some j => usesSlot j.op j.dir && j.slot == s
      | none => false) ||
    match (d.page r).run with
    | some v => usesSlot v.op v.dir && v.slot == s
    | none => false

/-- The computed words of CE_SLOT_INFO and of the other slot registers (R270). -/
def Dev.slotInfo (d : Dev) (s : Fin 64) : Nat :=
  let k := d.slot s.val
  if k.typ = 0 then 0
  else
    2 ^ 31 + b2n k.damaged * 2 ^ 30 + b2n k.origin * 2 ^ 29 + b2n (d.cached s) * 2 ^ 28 + b2n (d.slotHeld s.val) * 2 ^ 27 +
      k.usage % 1024 * 2 ^ 16 + k.key.length % 256 * 2 ^ 8 + k.typ

/-- The gauge judges the step that page `r`'s job waits for. -/
def Dev.ceGrant (d : Dev) (r : Fin 16) : Dev :=
  if d.ceWait r = 2 then
    match (d.page r).job with
    | some j => d.ceProceed r j
    | none => d
  else d

/-- The CE requests that wait are judged in ascending page order, up to those that `p` admits (R365). WAITING tells whether
one of them still waits. -/
def Dev.ceGrants (d : Dev) (p : Fin 16 → Bool) : Dev :=
  let d1 := ((List.finRange 16).filter p).foldl Dev.ceGrant d
  if (List.finRange 16).any fun r => d1.ceWait r == 2 then d1.put F.WH_GAUGE_WAITING (d1.get F.WH_GAUGE_WAITING ||| 4)
  else d1

/-- CE_ENERGY_SHORT: more than EWAIT ms have passed without a grant for the step (R39, R268). -/
def Dev.ceEnergyShortOp (d : Dev) (r : Fin 16) : Dev :=
  let e := d.get F.CE_CTRL_EWAIT
  match (d.page r).job with
  | some j =>
    match j.short with
    | some t =>
      if j.ended.isNone ∧ e ≠ 0 ∧ t + 1000000 * e < d.now then
        d.setJobCe r (some { j with short := none, ended := some (jsENERGY, none) })
      else d
    | none => d
  | none => d

/-- A Wellcap alarm (R267): keep-RAM is zeroed, jobs and the key command stop, the DRBG and all running state are
zeroed. -/
def Dev.ceAlarm (d : Dev) : Dev :=
  { d with slots := [], ce := Ce.reset, well := { d.well with ce := Vector.replicate 16 0, key := 0 } }

end Sys2Proof.Machine
end

