-- ==== Sys2Proof/Machine/Integrity.lean ====
section
/-! DEFINITION. The write-back of corrections, the repeat tracker, row remapping, the refresh queue, and the commands of
the INTEGRITY registers (R276, R285 to R290). Dredge's reads are in Dredge. -/
namespace Sys2Proof.Machine

/-! ### Write-back (R276) -/

/-- WRITE_BACK: the oldest byte that waits is written back. -/
def Dev.writeBackOp (d : Dev) : Dev :=
  match d.integ.writeBack with
  | [] => d
  | w :: t =>
    { d with
      integ := { d.integ with writeBack := t }
      ram := Sparse.set byteDflt w.addr w.data d.ram
      chk := Sparse.set chkDflt w.addr (if w.poison then poisonPattern else 0) d.chk }

/-! ### The refresh queue (R290) -/

/-- Entry `k` leaves the queue. -/
def Dev.refqDrop (d : Dev) (k : Nat) : Dev := d.setReg (F.INTEG_REFQ_VALID.addr + 4 * k) 0

/-- INTEG_REFQ_CMD (R290): only a program flash page is removed so. -/
def Dev.refqCmd (d : Dev) (acted : Nat) : Dev :=
  let k := acted % 8
  if bitAt acted 3 ∧ d.flag (refqField k F.INTEG_REFQ_VALID) ∧ !d.flag (refqField k F.INTEG_REFQ_MEM)
  then d.refqDrop k else d

/-! ### Row remapping (R286 to R288) -/

/-- Spare rows of a bank in use. -/
def Dev.sparesUsed (d : Dev) (bank : Nat) : Nat := (d.integ.remapped.filter fun r => r.1 == bank).length

/-- Does a frame or reserve data occupy a Buckets row (R287)? -/
def Dev.rowOccupied (d : Dev) (row : Nat) : Bool :=
  if row < 1280 then (d.holdUsed ++ d.divertUsed).contains (row / 8)
  else
    let o := (row - 1280) * 256
    d.reserve.any fun e => (o + rsvSize - e.off) % rsvSize < e.len || (e.off + rsvSize - o) % rsvSize < 256

/-- A copy of the row begins (R286). -/
def Dev.startCopy (d : Dev) (bank row : Nat) (entry : Option Nat) : Dev :=
  { d with integ := { d.integ with copying := d.integ.copying ++ [⟨bank, row, entry⟩] } }

/-- Is the row being copied? -/
def Dev.rowCopying (d : Dev) (bank row : Nat) : Bool := d.integ.copying.any fun c => c.bank == bank && c.row == row

/-- Is the row served from a spare, being copied, or waiting for its copy? -/
def Dev.rowGone (d : Dev) (bank row : Nat) : Bool :=
  d.integ.remapped.contains (bank, row) || d.rowCopying bank row || (bank == 12 && d.integ.deferred.contains row)

/-- A field of REMAP_STAT of a bank. -/
def remapField (bank : Nat) (f : Fl) : Fl := f.plus (4 * bank)

/-- The event of a remap or of an exhausted bank (R381). -/
def Dev.remapEvent (d : Dev) (bank row : Nat) : Dev :=
  let w := d.reg (0x40040200 + 4 * bank)
  (d.trouble tREMAP).event 4 3 clsTrouble (BitVec.ofNat 32 (bank * 4096 + row))
    (BitVec.ofNat 32 (w.toNat - w.toNat % 32 + d.sparesUsed bank))

/-- No spare row is left in the bank (R287). -/
def Dev.exhausted (d : Dev) (bank row : Nat) : Dev :=
  (d.put (remapField bank F.INTEG_REMAP_STAT_EXHAUSTED) 1).remapEvent bank row

/-- Spare rows in use, those of copies in progress or to come counted. -/
def Dev.sparesTaken (d : Dev) (bank : Nat) : Nat :=
  d.sparesUsed bank + (d.integ.copying.filter fun c => c.bank == bank).length +
    if bank = 12 then d.integ.deferred.length else 0

/-- Number of rows of a bank. -/
def rowsOf (bank : Nat) : Nat := if bank = 12 then 2048 else 512

/-- First byte address of a row. -/
def rowBase (bank row : Nat) : Nat := if bank = 12 then bktBase + 256 * row else ramBase + 0x20000 * bank + 256 * row

/-- Each byte of the row as it is copied: corrected, with its mark (R286). -/
def Dev.copyBytes (d : Dev) (a : Nat) : Nat → Dev
  | 0 => d
  | n + 1 =>
    let v := d.ramView a
    Dev.copyBytes { d with
      ram := Sparse.set byteDflt a v.1 d.ram
      chk := Sparse.set chkDflt a (if v.2 then poisonPattern else 0) d.chk } (a + 1) n

/-! ### The repeat tracker (R285 to R287, R289) -/

/-- An address enters entry `k` with COUNT = 1. -/
def Dev.trkEnter (d : Dev) (k : Nat) (o : Offer) : Dev :=
  let d1 := (d.setReg (F.INTEG_TRK_ADDR_ADDR.addr + 8 * k) (BitVec.ofNat 32 o.addr)).setReg
    (F.INTEG_TRK_INFO_VALID.addr + 8 * k) (BitVec.ofNat 32 (2 ^ 31 + 2 ^ 30 * b2n o.nvm + 2 ^ 25 * o.src + 1))
  { d1 with integ := { d1.integ with
    trkAge := (d1.integ.trkAge.filter fun e => e.1 != k) ++ [(k, d1.integ.trkClock)]
    trkClock := d1.integ.trkClock + 1 } }

/-- Age stamp of an entry. -/
def Dev.trkStamp (d : Dev) (k : Nat) : Nat := ((d.integ.trkAge.find? fun e => e.1 == k).map Prod.snd).getD 0

/-- The entry that an address not held takes: a free one, else the oldest with COUNT = 1 (R285). -/
def Dev.trkVictim (d : Dev) : Option Nat :=
  match (List.range 16).find? fun k => !d.flag (trkField k F.INTEG_TRK_INFO_VALID) with
  | some k => some k
  | none =>
    (List.range 16).foldl (fun best k =>
      if d.get (trkField k F.INTEG_TRK_INFO_COUNT) = 1 then
        match best with
        | some b => if d.trkStamp k < d.trkStamp b then some k else best
        | none => some k
      else best) none

/-- A RAM word entry has reached COUNT = 5: its row is remapped, waits, or finds no spare (R286, R287). A row that is
served from a spare is copied again into the next one; want of a spare is reported once for the entry. -/
def Dev.trkRemap (d : Dev) (k : Nat) : Dev :=
  let a := d.get (trkField k F.INTEG_TRK_ADDR_ADDR)
  let bank := ramSource a
  let row := ramRow a
  if d.rowCopying bank row then d
  else if bank = 12 ∧ d.rowOccupied row then d
  else if 16 ≤ d.sparesTaken bank then
    if d.integ.told.contains k then d
    else { d with integ := { d.integ with told := k :: d.integ.told } }.exhausted bank row
  else d.startCopy bank row (some k)

/-- An NVM page entry, or one correction of many bits, queues its page (R289). -/
def Dev.trkRefresh (d : Dev) (k : Nat) (o : Offer) : Dev :=
  if 2 ≤ d.get (trkField k F.INTEG_TRK_INFO_COUNT) ∨ d.get F.INTEG_CTL_REFRESH_THR ≤ o.bits then d.pageQueue o else d

/-- TRACKER_OFFER (R285): the oldest offer of the queue is taken, while the tracker is enabled. -/
def Dev.trackerOfferOp (d : Dev) : Dev :=
  match d.integ.offers with
  | [] => d
  | o :: t =>
    if !d.on .core ∨ !d.flag F.INTEG_CTL_TRK_EN then d
    else
      let d0 := { d with integ := { d.integ with offers := t } }
      let placed : Option (Dev × Nat) :=
        match d0.trkFind o with
        | some k =>
          let f := trkField k F.INTEG_TRK_INFO_COUNT
          some (d0.put f (min 7 (d0.get f + 1)), k)
        | none => d0.trkVictim.map fun k => (d0.trkEnter k o, k)
      match placed with
      | some (d1, k) =>
        if o.nvm then d1.trkRefresh k o
        else if 5 ≤ d1.get (trkField k F.INTEG_TRK_INFO_COUNT) then d1.trkRemap k else d1
      | none => d0.put F.INTEG_STAT_TRK_LOST 1

/-- Buckets rows whose remap waited and that nothing occupies any more are remapped: those that a command named, then
those of the tracker's entries (R287). -/
def Dev.bktRemaps (d : Dev) : Dev :=
  let free := d.integ.deferred.filter fun r => !d.rowOccupied r
  let d1 := free.foldl (fun x r => x.startCopy 12 r none)
    { d with integ := { d.integ with deferred := d.integ.deferred.filter fun r => d.rowOccupied r } }
  (List.range 16).foldl (fun x k =>
    if x.flag (trkField k F.INTEG_TRK_INFO_VALID) ∧ !x.flag (trkField k F.INTEG_TRK_INFO_KIND) ∧
        x.get (trkField k F.INTEG_TRK_INFO_SOURCE) = 12 ∧ 5 ≤ x.get (trkField k F.INTEG_TRK_INFO_COUNT)
    then x.trkRemap k else x) d1

/-- A program or erase of an NVM page clears its tracker entry (R289). -/
def Dev.trkPage (d : Dev) (cst : Bool) (page : Nat) : Dev :=
  match d.trkFind ⟨(if cst then cstWinBase else flashBase) + 1024 * page, true, if cst then 19 else 18, 0⟩ with
  | some k => d.trkClear k
  | none => d

/-- A copy completes: the row is served from its spare, and the entry that asked for it is cleared (R286). -/
def Dev.rowCopied (d : Dev) (c : RowCopy) : Dev :=
  let d1 := { d with integ := { d.integ with
    copying := d.integ.copying.erase c, remapped := d.integ.remapped ++ [(c.bank, c.row)] } }
  let d2 := d1.copyBytes (rowBase c.bank c.row) 256
  let d3 := match c.entry with
    | some k => d2.trkClear k
    | none => d2
  ((d3.put (remapField c.bank F.INTEG_REMAP_STAT_LAST_ROW) c.row).drgCount 4 1).remapEvent c.bank c.row

/-- ROW_REMAP_DONE: the oldest copy completes. -/
def Dev.rowRemapDoneOp (d : Dev) : Dev :=
  match d.integ.copying with
  | [] => d
  | c :: _ => d.rowCopied c

/-- An access to a row that is being copied waits for the copy (R286). -/
def Dev.rowWait (d : Dev) (a : Nat) : Dev :=
  if inRam a then
    match d.integ.copying.find? fun c => c.bank == ramSource a && c.row == ramRow a with
    | some c => d.rowCopied c
    | none => d
  else d

/-- INTEG_REMAP_CMD (R288). -/
def Dev.remapCmd (d : Dev) (acted : Nat) : Dev :=
  if bitAt acted 16 then
    let bank := bitsOf acted 15 12
    let row := acted % 2048
    let f := F.INTEG_REMAP_RESULT_STATUS
    if 12 < bank ∨ rowsOf bank ≤ row then d.put f 3
    else if d.rowGone bank row then d.put f 1
    else if 16 ≤ d.sparesTaken bank then (d.put f 2).exhausted bank row
    else if bank = 12 ∧ d.rowOccupied row then
      { d with integ := { d.integ with deferred := d.integ.deferred ++ [row] } }.put f 0
    else (d.put f 0).startCopy bank row none
  else d

/-- The computed word of REMAP_STAT of a bank: USED beside the stored fields. -/
def Dev.remapStat (d : Dev) (bank : Nat) : Nat :=
  (d.reg (0x40040200 + 4 * bank)).toNat / 32 * 32 + d.sparesUsed bank

end Sys2Proof.Machine
end

