-- ==== Sys2Proof/Machine/CisternArray.lean ====
section
/-! DEFINITION. The Cistern array: areas, records and their validity, twins, counters, log rings, alarm log and journal as
they are read from the array (R296 to R316). -/
namespace Sys2Proof.Machine

/-! ### Records (R300, R301) -/

/-- A record. -/
structure CRec where
  typ : Nat
  flags : Nat
  len : Nat
  seq : Nat
  esn : Nat
  id : Nat
  data : Bytes
  deriving DecidableEq, Repr

/-- What a page or slot holds. -/
inductive Copy where
  | empty
  | invalid
  | valid (r : CRec)
  deriving DecidableEq, Repr

def Copy.rec? : Copy → Option CRec
  | .valid r => some r
  | _ => none

/-- The bytes of a record, CRC included. -/
def CRec.bytes (r : CRec) : Bytes :=
  let b := leBytes 1 r.typ ++ leBytes 1 r.flags ++ leBytes 2 r.data.length ++ leBytes 4 r.seq ++ leBytes 6 r.esn ++
    leBytes 2 r.id ++ r.data
  b ++ leBytes 4 (crc32c b)

/-- A record as a list of programmed words. -/
def CRec.words (r : CRec) : List (BitVec 64) := words64 Config.recordPad r.bytes

/-- A sealed page: the record, and what fills the rest of its data. -/
def CRec.sealed (r : CRec) : List (BitVec 64) :=
  words64 Config.recordPad (r.bytes ++ (List.range (1024 - r.bytes.length)).map fun i => Config.recordPad (r.bytes.length + i))

/-- Did an interrupted burst leave words among `size` bytes at offset `a` of the array? -/
def Dev.tornIn (d : Dev) (a size : Nat) : Bool :=
  d.torn.any fun t => t.cst && decide (t.first < (a + size) / 8) && decide (a / 8 < t.first + t.words)

/-- The record in `size` bytes at offset `a` of the array, of a type that `legal` allows. What an interrupted burst left
never reads VALID (R301, R307). -/
def Dev.copyAt (d : Dev) (legal : Nat → Bool) (a size : Nat) : Copy :=
  if d.nvmErased true a size then .empty
  else if d.tornIn a size then .invalid
  else
    let bs := (List.range size).map fun i => d.nvmByte true (a + i)
    let raw := bs.map Prod.fst
    let len := leNat (slice raw 2 2)
    if size < len + 20 ∨ anyPoison (bs.take (len + 20)) ∨ !legal (byteAt raw 0) ∨
        leNat (slice raw (16 + len) 4) ≠ crc32c (raw.take (16 + len)) then .invalid
    else .valid ⟨byteAt raw 0, byteAt raw 1, len, leNat (slice raw 4 4), leNat (slice raw 8 6), leNat (slice raw 14 2),
      slice raw 16 len⟩

/-- Types of the areas. -/
def isLogType (t : Nat) : Bool := t == 3 || (0x10 ≤ t && t ≤ 0xFE)
def isAlarmType (t : Nat) : Bool := t == 3 || t == 4

/-! ### Intents and refresh (R313, R315) -/

/-- The record of journal slot `j`. -/
def Dev.journalSlot (d : Dev) (j : Nat) : Copy := d.copyAt (· == 5) (32 * j) 32

/-- The twelve data bytes of an intent (R313, log entry 10): OP, cells, the two target pages, and the SEQ, H or CRC. -/
def Intent.bytes (i : Intent) : Bytes :=
  leBytes 1 i.op ++ leBytes 1 i.low ++ leBytes 2 i.page ++ leBytes 2 i.other ++ [0, 0] ++ leBytes 4 i.word

/-- The intent that twelve data bytes hold. -/
def Intent.ofBytes (bs : Bytes) : Intent :=
  ⟨byteAt bs 0, byteAt bs 1, leNat (slice bs 2 2), leNat (slice bs 4 2), leNat (slice bs 8 4)⟩

/-- Does the page hold anything? -/
def Dev.pageTouched (d : Dev) (p : Nat) : Bool :=
  d.cstArray.any (fun e => e.1 / 128 == p) || d.torn.any fun t => t.cst && t.first / 128 == p

/-- The VALID records of the journal, by slot. -/
def Dev.journalRecs (d : Dev) : List (Nat × CRec) :=
  ((List.range 8).filter d.pageTouched).flatMap fun p =>
    (List.range 32).filterMap fun k => (d.journalSlot (32 * p + k)).rec?.map fun r => (32 * p + k, r)

/-- The newest VALID record of the journal and its slot. -/
def Dev.journalTop (d : Dev) : Option (Nat × CRec) :=
  d.journalRecs.foldl (fun best e =>
    match best with
    | some b => if b.2.seq < e.2.seq then some e else best
    | none => some e) none

/-- The newest VALID intent. -/
def Dev.newestIntent (d : Dev) : Option Intent := d.journalTop.map fun e => Intent.ofBytes e.2.data

/-- The data bytes of a page as reads deliver them. -/
def Dev.pageBytes (d : Dev) (p : Nat) : Bytes := (List.range 1024).map fun i => (d.nvmByte true (1024 * p + i)).1

/-- CRC-32C of a page's data bytes. -/
def Dev.pageCrc (d : Dev) (p : Nat) : Nat := crc32c (d.pageBytes p)

/-- The page from which page `p` is read: its spare while a refresh of it is open (R316). -/
def Dev.cstPage (d : Dev) (p : Nat) : Nat :=
  match d.newestIntent with
  | some i =>
    if i.op = 5 ∧ i.page = p ∧ d.pageCrc p ≠ i.word ∧ d.pageCrc i.other = i.word then i.other else p
  | none => p

/-- Is the page wholly ERASED? -/
def Dev.pageErased (d : Dev) (p : Nat) : Bool := d.nvmErased true (1024 * p) 1024

/-! ### Twins (R302, R303) -/

/-- The two copies of a parameter, or of a counter's high part. -/
def Dev.sealedCopy (d : Dev) (typ p : Nat) : Copy := d.copyAt (· == typ) (1024 * d.cstPage p) 1024

def paramPage (p : Nat) (b : Bool) : Nat := 1024 + 2 * p + b2n b
def highPage (c : Nat) (b : Bool) : Nat := 80 + 3 * c + b2n b
def thermoPage (c : Nat) : Nat := 82 + 3 * c

/-- How twins resolve: nothing VALID, one record, two equal, or a conflict. -/
inductive Twins where
  | empty
  | invalid
  | one (r : CRec) (b : Bool)
  | same (r : CRec)
  | conflict (a b : CRec)
  deriving DecidableEq, Repr

/-- The table of R303. -/
def twinsOf (a b : Copy) : Twins :=
  match a, b with
  | .empty, .empty => .empty
  | .valid x, .valid y =>
    if x.seq = y.seq then
      if x.typ = y.typ ∧ x.flags = y.flags ∧ x.len = y.len ∧ x.data = y.data then .same x else .conflict x y
    else if x.seq < y.seq then .one y true else .one x false
  | .valid x, _ => .one x false
  | _, .valid y => .one y true
  | _, _ => .invalid

def Dev.param (d : Dev) (p : Nat) : Twins := twinsOf (d.sealedCopy 1 (paramPage p false)) (d.sealedCopy 1 (paramPage p true))
def Dev.high (d : Dev) (c : Nat) : Twins := twinsOf (d.sealedCopy 2 (highPage c false)) (d.sealedCopy 2 (highPage c true))

/-- The newest SEQ of twins, 0 where no copy is VALID. -/
def Twins.newest : Twins → Nat
  | .one r _ => r.seq
  | .same r => r.seq
  | .conflict a _ => a.seq
  | _ => 0

/-- SEQ of the next write: the newest plus 1, or plus 2 after a conflict. -/
def Twins.nextSeq : Twins → Nat
  | .conflict a _ => a.seq + 2
  | t => t.newest + 1

/-- The twin that the next write takes: the one that does not hold the newest record; A where neither is VALID, or both
are equal. -/
def Twins.target : Twins → Bool
  | .one _ b => !b
  | _ => false

/-! ### Counters (R305) -/

/-- Is a cell of a thermometer page set? A partial cell counts as set (R305, R307). -/
def Dev.cellSet (d : Dev) (c k : Nat) : Bool :=
  let w := 128 * thermoPage c + 1 + k
  if d.torn.any fun t => t.holds true w && !t.erase then true
  else
    match d.nvmWord true w with
    | .erased => false
    | .data v _ => v != BitVec.allOnes 64
    | .bad v _ => v != BitVec.allOnes 64

/-- L: one more than the highest set cell. -/
def Dev.cells (d : Dev) (c : Nat) : Nat :=
  (List.range 64).foldl (fun best k => if d.cellSet c k then k + 1 else best) 0

/-- GEN of the thermometer's header, none while it is ERASED, or left by an erase or a program that was interrupted
(R307). -/
def Dev.gen (d : Dev) (c : Nat) : Option Nat :=
  let w := 128 * thermoPage c
  if (d.tornAt true w).isSome then none
  else
    match d.nvmWord true w with
    | .erased => none
    | .data v _ => some (v.toNat % 2 ^ 32)
    | .bad v _ => some (v.toNat % 2 ^ 32)

/-- The header word of a thermometer page. -/
def thermoHeader (gen c : Nat) : BitVec 64 := BitVec.ofNat 64 (0xA5A5 * 2 ^ 48 + c * 2 ^ 32 + gen)

/-- H of a high part: the larger one in a conflict. -/
def Twins.highValue : Twins → Option Nat
  | .one r _ => some (leNat r.data)
  | .same r => some (leNat r.data)
  | .conflict a b => some (max (leNat a.data) (leNat b.data))
  | _ => none

/-- Is a CARRY or ADVANCE intent of the counter the newest intent? -/
def Dev.carryOpen (d : Dev) (c : Nat) : Bool :=
  match d.newestIntent with
  | some i => (i.op == 3 || i.op == 4) && i.other == thermoPage c
  | none => false

/-- Value of a counter with its H, and whether its low part is lost; none where no high twin is VALID. -/
def Dev.counter (d : Dev) (c : Nat) : Option (Nat × Nat × Bool) :=
  (d.high c).highValue.map fun h =>
    if d.gen c = some h then (64 * h + d.cells c, h, false)
    else if d.carryOpen c then (64 * h, h, false)
    else (64 * h + 64, h, true)

/-! ### Log rings and alarm log (R308 to R312) -/

/-- The record of slot `j` of a page of 64-byte slots. -/
def Dev.slotCopy (d : Dev) (legal : Nat → Bool) (p j : Nat) : Copy := d.copyAt legal (1024 * d.cstPage p + 64 * j) 64

/-- The VALID records of a slot page. -/
def Dev.pageRecs (d : Dev) (legal : Nat → Bool) (p : Nat) : List CRec :=
  if d.pageTouched p then (List.range 16).filterMap fun j => (d.slotCopy legal p j).rec? else []

/-- First slot of a page after the last one that is not EMPTY, among the first `cap`. -/
def Dev.nextSlot (d : Dev) (p cap : Nat) : Nat :=
  (List.range cap).foldl (fun best j => if d.slotCopy (fun _ => true) p j = .empty then best else j + 1) 0

/-- Log slots of a head page: ring 0 keeps the last one for alarm records (R309). -/
def ringCap (r : Nat) : Nat := if r = 0 then 15 else 16

/-- Ring `r` as the controller knows it. -/
def Dev.cRing (d : Dev) (r : Nat) : CstRing := d.cst.rings.getD r ⟨0, 0, 0, 0, 0, 0, 0, 0, 0⟩

def Dev.setCRing (d : Dev) (r : Nat) (x : CstRing) : Dev :=
  { d with cst := { d.cst with rings := listSet d.cst.rings r x } }

/-- The records that ring `r` holds. -/
def Dev.ringRecs (d : Dev) (r : Nat) : List CRec :=
  let x := d.cRing r
  ((List.range x.used).flatMap fun k =>
    d.pageRecs isLogType (x.first + (x.head + x.count - k) % x.count)).filter fun e => e.id == r

/-- The alarm records that can be read: those of the alarm log, and those in reserved slots of ring 0 (R312). -/
def Dev.alarmRecs (d : Dev) : List CRec :=
  let x := d.cRing 0
  ((List.range 64).flatMap fun k => d.pageRecs isAlarmType (16 + k)) ++
    (List.range x.count).filterMap fun k =>
      if d.pageTouched (x.first + k) then (d.slotCopy (· == 4) (x.first + k) 15).rec? else none

/-- Alarm records not acknowledged (R312). -/
def Dev.unacked (d : Dev) : Nat := (d.alarmRecs.filter fun r => r.typ == 4 && decide (d.cst.aAck < r.seq)).length

/-- Highest SEQ of records. -/
def maxSeq (l : List CRec) : Nat := l.foldl (fun m r => max m r.seq) 0

/-- The log layout of eight words, if it is legal (R308). -/
def layoutOf (data : Bytes) : Option (List (Nat × Nat)) :=
  if data.length < 32 then none
  else
    let w := (List.range 8).map fun r => (leNat (slice data (4 * r) 2), leNat (slice data (4 * r + 2) 2))
    let present := w.filter fun x => x.2 != 0
    let ok := (w.getD 0 (0, 0)).2 ≠ 0 ∧ present.all (fun x => 176 ≤ x.1 && x.1 + x.2 ≤ 1024 && 2 ≤ x.2) ∧
      (List.range 8).all fun i => (List.range i).all fun j =>
        let a := w.getD i (0, 0)
        let b := w.getD j (0, 0)
        a.2 == 0 || b.2 == 0 || a.1 + a.2 ≤ b.1 || b.1 + b.2 ≤ a.1
    if ok then some w else none

/-- The layout in force while parameter 0 gives none. -/
def layoutDefault : List (Nat × Nat) := (176, 848) :: List.replicate 7 (0, 0)

/-- The record of a parameter that has exactly one, or two equal ones. -/
def Twins.single : Twins → Option CRec
  | .one r _ => some r
  | .same r => some r
  | _ => none

/-- The layout that a power-up of ISLE puts in force. -/
def Dev.layout (d : Dev) : List (Nat × Nat) :=
  (((d.param 0).single).bind fun r => layoutOf r.data).getD layoutDefault

/-- A ring as the controller finds it (R308, R309). A ring whose bounds changed starts empty; while no layout was ever
loaded, every page of a ring counts as its own. Only pages that hold records of the layout in force are searched. -/
def Dev.findRing (d : Dev) (r first count : Nat) : CstRing :=
  let old := d.cRing r
  let used := if d.cst.rings.isEmpty then count else if old.first = first ∧ old.count = count then old.used else 0
  let live (k : Nat) : Bool := decide (count ≤ used) || decide ((old.head + count - k) % count < used)
  if count = 0 then ⟨0, 0, 0, 0, 0, 0, 0, 0, 0⟩
  else
    let best := (List.range count).foldl (fun b k =>
      let m := if live k then maxSeq ((d.pageRecs isLogType (first + k)).filter fun e => e.id == r) else 0
      if b.1 < m then (m, k) else b) (0, 0)
    if used = 0 then ⟨first, count, count - 1, ringCap r, 0, 0, old.lost, old.lostFirst, old.lostLast⟩
    else if best.1 = 0 then
      ⟨first, count, 0, if d.pageTouched first then ringCap r else 0, 0, used, old.lost, old.lostFirst, old.lostLast⟩
    else
      let p := first + best.2
      let full := r = 0 ∧ d.slotCopy (fun _ => true) p 15 ≠ .empty
      ⟨first, count, best.2, if full then 15 else d.nextSlot p (ringCap r), best.1, used, old.lost, old.lostFirst,
        old.lostLast⟩

/-! ### What a read of records finds (R291, R297) -/

/-- The records of the failures among the words of `n` bytes at offset `a`, each word read once by `m`. -/
def Dev.wordsFound (d : Dev) (m : Master) (a n : Nat) : Dev :=
  (List.range (n / 8)).foldl (fun x k => x.nvmFound m true (a + 8 * k)) d

/-- The same for whole pages that hold anything, which the controller reads on its own. -/
def Dev.pagesFound (d : Dev) (ps : List Nat) : Dev :=
  (ps.filter d.pageTouched).foldl (fun x p => x.wordsFound (Config.ownMaster 19) (1024 * p) 1024) d

/-- Bytes that a record takes, as its LEN field says. -/
def Dev.recSize (d : Dev) (a size : Nat) : Nat :=
  min size (20 + leNat ((List.range 2).map fun i => (d.nvmByte true (a + 2 + i)).1))

/-- A read of both sealed twins: a failure makes the page code run once for its page (R280). -/
def Dev.twinsFound (d : Dev) (m : Master) (p q : Nat) : Dev :=
  [p, q].foldl (fun x t =>
    let a := 1024 * x.cstPage t
    (x.nvmRead m true a (x.recSize a 1024)).1) d

end Sys2Proof.Machine
end

