-- ==== Sys2Proof/Machine/Cistern.lean ====
section
/-! DEFINITION. The Cistern controller: its command port, bursts, the power-up journal, alarm records, margin reads and
refresh (R302 to R325). -/
namespace Sys2Proof.Machine

/-- Statuses of R325. -/
def csOK : Nat := 0
def csEMPTY : Nat := 1
def csCONFLICT : Nat := 2
def csINVALID : Nat := 3
def csGONE : Nat := 4
def csPROTECTED : Nat := 5
def csDENIED : Nat := 6
def csBAD_CMD : Nat := 7
def csENERGY : Nat := 8
def csPOISON : Nat := 9

/-! ### Outputs of a command (R324, R325) -/

/-- The words of a 1 KiB buffer. -/
def Dev.putBuf (d : Dev) (base : Nat) (bs : Bytes) : Dev :=
  (List.range 256).foldl (fun x i => x.setReg (base + 4 * i) (BitVec.ofNat 32 (leNat (slice bs (4 * i) 4)))) d

def bufA : Nat := 0x40050400
def bufB : Nat := 0x40050800

/-- The bytes of buffer A. -/
def Dev.bufABytes (d : Dev) (n : Nat) : Bytes :=
  ((List.range (ceilDiv n 4)).flatMap fun i => leBytes 4 (d.reg (bufA + 4 * i)).toNat).take n

/-- A command completes (R324). -/
def Dev.cstDone (d : Dev) (status : Nat) : Dev :=
  ((d.put F.CST_STAT_BUSY 0).put F.CST_STAT_DONE 1).put F.CST_STAT_STATUS status

/-- The value registers. -/
def Dev.putVal (d : Dev) (v : Nat) : Dev := (d.put F.CST_VAL_LO_VAL (v % 2 ^ 32)).put F.CST_VAL_HI_VAL (v / 2 ^ 32)

/-- Deliver a record: buffer A, LEN, SEQ and ESN. -/
def Dev.deliver (d : Dev) (r : CRec) : Dev :=
  ((((d.putBuf bufA r.data).put F.CST_STAT_LEN r.len).put F.CST_SEQ_SEQ r.seq).put F.CST_ESN_LO_ESN (r.esn % 2 ^ 32)).put
    F.CST_ESN_HI_ESN (r.esn / 2 ^ 32)

/-- Deliver nothing: LEN 0 and a buffer of zeros (R301). -/
def Dev.deliverNone (d : Dev) : Dev := (d.putBuf bufA []).put F.CST_STAT_LEN 0

/-- The event of twin or record trouble (R305, R381). -/
def Dev.cstTrouble (d : Dev) (k target : Nat) : Dev :=
  (d.trouble k).event 5 2 clsTrouble (BitVec.ofNat 32 target) 0

/-! ### Privilege and protection (R304, R322) -/

/-- Does block protection cover a page (R322)? -/
def Dev.cstProtected (d : Dev) (page : Nat) : Bool :=
  let bp := d.get F.CST_PROT_BP
  if bp = 0 then false
  else if bp = 1 then 1536 ≤ page
  else if bp = 2 then 1024 ≤ page
  else 80 ≤ page

/-- Does the command read only? -/
def cstReads (op : Nat) : Bool := op == 1 || op == 4 || op == 8 || op == 9

/-! ### Reads (R303, R305, R310) -/

/-- READ_PARAM: Handpump is denied a parameter without FIELD_READ (R304). -/
def Dev.cstReadParam (d : Dev) (m : Master) (p : Nat) : Dev :=
  let allowed (r : CRec) : Bool := m.val != 12 || r.flags % 2 == 1
  let d0 := d.twinsFound m (paramPage p false) (paramPage p true)
  match d.param p with
  | .empty => d0.deliverNone.cstDone csEMPTY
  | .invalid => (d0.cstTrouble tCISTERN p).cstDone csINVALID
  | .one r _ => if allowed r then (d0.deliver r).cstDone csOK else d0.cstDone csDENIED
  | .same r =>
    let d1 := d0.cstTrouble tTWIN_SAME p
    if allowed r then (d1.deliver r).cstDone csOK else d1.cstDone csDENIED
  | .conflict a b =>
    if allowed a && allowed b then
      (((d0.deliver a).putBuf bufB b.data).put (F.CST_SEQ_SEQ.plus 4) b.seq).cstDone csCONFLICT
    else d0.cstDone csDENIED

/-- A counter is read: what its high twins are found to be, and a lost low part, are reported (R303, R305). -/
def Dev.ctrRead (d : Dev) (m : Master) (c : Nat) : Dev :=
  let d0 := d.twinsFound m (highPage c false) (highPage c true)
  let d1 := match d.high c with
    | .same _ => d0.cstTrouble tTWIN_SAME c
    | .invalid => d0.cstTrouble tCISTERN c
    | _ => d0
  match d.counter c with
  | some (_, _, true) => d1.cstTrouble tCISTERN c
  | _ => d1

/-- READ_CTR. -/
def Dev.cstReadCtr (d : Dev) (m : Master) (c : Nat) : Dev :=
  let d1 := d.ctrRead m c
  match d.counter c with
  | none => d1.cstDone csINVALID
  | some (v, _, _) =>
    match d.high c with
    | .conflict _ _ => (d1.putVal v).cstDone csCONFLICT
    | _ => (d1.putVal v).cstDone csOK

/-- How many slots right after the newest VALID record of head page `p` are damaged, `next` being the page after it: they
should hold the SEQs that follow the newest one (R301, R310). -/
def Dev.damagedSlots (d : Dev) (legal : Nat → Bool) (p next cap : Nat) : Nat :=
  let copies (pg : Nat) : List Copy :=
    if d.pageTouched pg then (List.range cap).map (d.slotCopy legal pg) else List.replicate cap .empty
  let after := ((copies p).reverse.takeWhile fun c => c.rec?.isNone).reverse
  ((after ++ copies next).takeWhile fun c => decide (c = .invalid)).length

/-- The slots that are not EMPTY, with their place in the array, of pages from the oldest to the newest. -/
def Dev.slotsIn (d : Dev) (legal : Nat → Bool) (ps : List Nat) (cap : Nat) : List (Nat × Copy) :=
  (ps.filter d.pageTouched).flatMap fun p =>
    ((List.range cap).map fun j => (1024 * d.cstPage p + 64 * j, d.slotCopy legal p j)).filter fun e => e.2 != .empty

/-- The slot that should hold a SEQ: every slot in use takes one SEQ (R310). -/
def slotFor (slots : List (Nat × Copy)) (q : Nat) : Option Nat :=
  (slots.zipIdx.findSome? fun e => e.1.2.rec?.map fun r => (r.seq, e.2)).bind fun x =>
    if x.1 ≤ q + x.2 then (slots[q + x.2 - x.1]?).map Prod.fst else none

/-- Delivery of the record with a SEQ among those held (R310); the `bad` SEQs after the newest belong to damaged slots. The
read of a damaged slot makes the records of its failures (R297). -/
def Dev.cstReadSeq (d : Dev) (m : Master) (recs : List CRec) (slots : List (Nat × Copy)) (newest bad q : Nat) : Dev :=
  match recs.find? fun r => r.seq == q with
  | some r => (d.deliver r).cstDone csOK
  | none =>
    let above := (recs.filter fun r => q < r.seq).foldl (fun (b : Option Nat) r =>
      match b with | some x => some (min x r.seq) | none => some r.seq) none
    let oldest := recs.foldl (fun (b : Option Nat) r => match b with | some x => some (min x r.seq) | none => some r.seq) none
    let d1 := d.put F.CST_SEQ_SEQ (above.getD 0)
    let damaged := (match slotFor slots q with
      | some a => d1.wordsFound m a 64
      | none => d1).cstDone csINVALID
    if newest + bad < q then d1.deliverNone.cstDone csEMPTY
    else if newest < q then damaged
    else
      match oldest with
      | some o => if q < o then d1.cstDone csGONE else damaged
      | none => if newest = 0 then d1.deliverNone.cstDone csEMPTY else d1.cstDone csGONE

/-- READ_LOG (R310). -/
def Dev.cstReadLog (d : Dev) (m : Master) (r q : Nat) : Dev :=
  if 7 < r ∨ (d.cRing r).count = 0 then d.cstDone csBAD_CMD
  else
    let x := d.cRing r
    let bad := d.damagedSlots isLogType (x.first + x.head % x.count) (x.first + (x.head + 1) % x.count) (ringCap r)
    let pages := (List.range x.used).map fun k => x.first + (x.head + x.count + 1 + k - x.used) % x.count
    d.cstReadSeq m (d.ringRecs r) (d.slotsIn isLogType pages (ringCap r)) x.seq bad q

/-- READ_ALARM (R324). -/
def Dev.cstReadAlarm (d : Dev) (m : Master) (q : Nat) : Dev :=
  let p := d.cst.aPage % 64
  let pages := (List.range 64).map fun k => 16 + (p + 1 + k) % 64
  d.cstReadSeq m d.alarmRecs (d.slotsIn isAlarmType pages 16) d.cst.aSeq
    (d.damagedSlots isAlarmType (16 + p) (16 + (p + 1) % 64) 16) q

/-- A read command is served. -/
def Dev.cstServe (d : Dev) (c : CstCmd) : Dev :=
  if c.op = 1 then (if 511 < c.target then d.cstDone csBAD_CMD else d.cstReadParam c.m c.target)
  else if c.op = 4 then (if 31 < c.target then d.cstDone csBAD_CMD else d.cstReadCtr c.m c.target)
  else if c.op = 8 then d.cstReadLog c.m c.target c.arg
  else d.cstReadAlarm c.m c.arg

/-! ### The bursts of the writing commands (R302, R306, R309) -/

/-- Erase a page unless it is ERASED. -/
def Dev.eraseIf (d : Dev) (p : Nat) : List CstBurst := if d.pageErased p then [] else [.erase p]

/-- The journal's bursts for an intent: a full head page first makes room (R313). -/
def Dev.intentBursts (d : Dev) (i : Intent) : List CstBurst :=
  let s := d.cst.jSlot % 256
  (if s % 32 = 0 ∧ d.pageTouched (s / 32) then [.erase (s / 32)] else []) ++ [.intent i]

/-- The bursts that write H into the older high twin and then the thermometer with its cells (R306). -/
def Dev.highBursts (d : Dev) (c h : Nat) : List CstBurst :=
  let t := d.high c
  let p := highPage c t.target
  d.eraseIf p ++ [.program (128 * p) (CRec.sealed ⟨2, 0, 4, t.nextSeq, 0, c, leBytes 4 h⟩)]

def Dev.thermoBursts (d : Dev) (c h k : Nat) : List CstBurst :=
  let p := thermoPage c
  d.eraseIf p ++ [.program (128 * p) (thermoHeader h c :: List.replicate k 0)]

/-- A job for a command of the port. -/
def cstJob (bursts : List CstBurst) (seq val : Option Nat) : CstJob :=
  ⟨.command, bursts, none, false, false, 0, seq, none, val⟩

/-- A job of the controller's own. -/
def ownJob (k : CstKind) (bursts : List CstBurst) : CstJob := ⟨k, bursts, none, false, false, 0, none, none, none⟩

/-- What a writing command does: a status at once, or a job (R302 to R309, R322, R324). -/
def Dev.cstPlan (d : Dev) (c : CstCmd) : Except Nat CstJob :=
  if c.op = 2 ∨ c.op = 3 then
    let len := c.arg % 65536
    let t := d.param c.target
    if 511 < c.target ∨ (c.op = 2 ∧ 1004 < len) then .error csBAD_CMD
    else if c.m.val = 12 ∨ (c.target < 16 ∧ c.m.val ≠ 2) then .error csDENIED
    else if d.cstProtected (paramPage c.target false) then .error csPROTECTED
    else if c.op = 3 then
      .ok (cstJob (d.intentBursts ⟨2, 0, paramPage c.target false, paramPage c.target true, 0⟩ ++
        [.erase (paramPage c.target false), .erase (paramPage c.target true)]) none none)
    else if c.poison then .error csPOISON
    else if c.target = 0 ∧ layoutOf (c.data.take len) = none then .error csBAD_CMD
    else if 200000 ≤ t.newest then .error csBAD_CMD
    else
      let p := paramPage c.target t.target
      .ok (cstJob (d.intentBursts ⟨1, 0, p, 0, t.nextSeq⟩ ++ d.eraseIf p ++
        [.program (128 * p) (CRec.sealed ⟨1, bitsOf c.arg 23 16 % 4, len, t.nextSeq, 0, c.target, c.data.take len⟩)])
        (some t.nextSeq) none)
  else if c.op = 5 ∨ c.op = 6 then
    if 31 < c.target then .error csBAD_CMD
    else if c.m.val = 12 ∨ (24 ≤ c.target ∧ c.m.val ≠ 2) then .error csDENIED
    else if d.cstProtected (thermoPage c.target) then .error csPROTECTED
    else
      match d.counter c.target with
      | none => .error csINVALID
      | some (v, h, _) =>
        let goal := if c.op = 5 then v + 1 else c.val
        if c.op = 6 ∧ goal ≤ v then .ok (cstJob [] none (some v))
        else if 2 ^ 38 ≤ goal then .error csBAD_CMD
        else if d.gen c.target = some h ∧ goal ≤ 64 * h + 64 then
          let l := d.cells c.target
          .ok (cstJob [.program (128 * thermoPage c.target + 1 + l) (List.replicate (goal - 64 * h - l) 0)] none (some goal))
        else if 100000 ≤ (d.high c.target).newest then .error csBAD_CMD
        else
          let h' := if c.op = 5 then h + 1 else goal / 64
          let k := if c.op = 5 then 1 else goal % 64
          .ok (cstJob (d.intentBursts ⟨if c.op = 5 then 3 else 4, k, highPage c.target (d.high c.target).target,
            thermoPage c.target, h'⟩ ++ d.highBursts c.target h' ++ d.thermoBursts c.target h' k) none (some (64 * h' + k)))
  else if c.op = 7 then
    let len := c.arg % 65536
    let x := d.cRing c.target
    if 7 < c.target ∨ x.count = 0 ∨ c.rtype < 0x10 ∨ c.rtype = 0xFF ∨ 44 < len then .error csBAD_CMD
    else if c.m.val = 12 then .error csDENIED
    else if d.cstProtected x.first then .error csPROTECTED
    else if c.poison then .error csPOISON
    else
      let need := 1 + b2n (x.lost != 0)
      let room := ringCap c.target - x.slot
      let next (k : Nat) : List CstBurst := d.eraseIf (x.first + (x.head + k) % x.count)
      let move := if room = 0 then next 1 else []
      let move2 := if room = 1 ∧ need = 2 then next 1 else []
      .ok (cstJob (move ++ (if x.lost = 0 then [] else [.lost c.target]) ++ move2 ++
        [.append c.target c.rtype (c.data.take len) c.rep]) none none)
  else .error csBAD_CMD

/-! ### Running bursts (R317 to R319) -/

/-- Energy that a burst needs: mark and budget (R363). -/
def CstBurst.need : CstBurst → Nat × Nat
  | .erase _ => (4, 26000000)
  | _ => (3, 10000000)

/-- The ring moves to its next page where the head page has no slot left (R309). -/
def CstRing.room (x : CstRing) (cap : Nat) : CstRing :=
  if x.slot < cap then x else { x with head := (x.head + 1) % x.count, slot := 0, used := min x.count (x.used + 1) }

/-- The next slot of a log ring takes a record of the given type and data; its SEQ and ESN. -/
def Dev.logSlot (d : Dev) (r typ : Nat) (data : Bytes) (rep : Nat) : Dev × CstBurst × Nat × Nat :=
  let x := (d.cRing r).room (ringCap r)
  let (d1, n) := d.takeEsn
  let esn := if rep = 0 then n else n % 2 ^ 32 + rep % 65536 * 2 ^ 32
  let rec_ : CRec := ⟨typ, 0, data.length, x.seq + 1, esn, r, data⟩
  (d1.setCRing r { x with slot := x.slot + 1, seq := x.seq + 1 },
   .program ((1024 * (x.first + x.head) + 64 * x.slot) / 8) rec_.words, x.seq + 1, esn)

/-- The ALARM record of what Wellcap kept (R394). -/
def AlarmRec.record (r : AlarmRec) (seq : Nat) : CRec :=
  let data := leBytes 1 r.cause ++ leBytes 1 r.detail ++ leBytes 1 r.before ++ [0] ++ leBytes 4 r.latch ++
    leBytes 2 r.vhold ++ leBytes 2 r.vbat ++ leBytes 2 (ofInt 16 r.tj) ++ leBytes 2 r.count ++ leBytes 4 r.sec ++
    leBytes 4 r.ns ++ leBytes 4 r.uptime
  ⟨4, 0, 28, seq, r.esn.getD 0, r.cause, data⟩

/-- The EMPTY slot that the next alarm record takes, as page and slot: the alarm log, then ring 0's reserved slot
(R312). The third part tells the two apart. -/
def Dev.alarmSlot (d : Dev) : Option (Nat × Nat × Bool) :=
  let c := d.cst
  let p := 16 + c.aPage % 64
  match (List.range 16).find? fun j => c.aSlot ≤ j && d.slotCopy (fun _ => true) p j == .empty with
  | some j => some (p, j, true)
  | none =>
    if d.pageErased (16 + (c.aPage + 1) % 64) then some (16 + (c.aPage + 1) % 64, 0, true)
    else
      let x := d.cRing 0
      if x.count ≠ 0 ∧ d.slotCopy (fun _ => true) (x.first + x.head) 15 = .empty then some (x.first + x.head, 15, false)
      else none

/-- Take that slot for a record. -/
def Dev.takeAlarmSlot (d : Dev) (s : Nat × Nat × Bool) : Dev :=
  if s.2.2 then { d with cst := { d.cst with aPage := s.1 - 16, aSlot := s.2.1 + 1, aSeq := d.cst.aSeq + 1 } }
  else
    let d1 := d.setCRing 0 { d.cRing 0 with slot := 15 }
    { d1 with cst := { d1.cst with aSeq := d1.cst.aSeq + 1 } }

/-- A record for the alarm log: the burst that programs it. -/
def alarmBurst (s : Nat × Nat × Bool) (r : CRec) : CstBurst := .program ((1024 * s.1 + 64 * s.2.1) / 8) r.words

/-- A burst as it starts: what it programs is fixed, and the controller's places move on. With it SEQ and ESN of a log
record. -/
def Dev.startBurst (d : Dev) (b : CstBurst) : Dev × Option CstBurst × Option (Nat × Nat) :=
  match b with
  | .erase p => (d, some (.erase p), none)
  | .program w ws => (d, some (.program w ws), none)
  | .intent i =>
    let s := d.cst.jSlot % 256
    let (d1, n) := d.takeEsn
    ({ d1 with cst := { d1.cst with jSlot := s + 1, jSeq := d1.cst.jSeq + 1 } },
     some (.program (4 * s) (CRec.words ⟨5, 0, 12, d1.cst.jSeq + 1, n, 0, i.bytes⟩)), none)
  | .append r typ data rep =>
    let (d1, b1, q, e) := d.logSlot r typ data rep
    (d1, some b1, some (q, e))
  | .lost r =>
    let x := d.cRing r
    let (d1, b1, _) := d.logSlot r 3 ((Config.lostData x.lost x.lostFirst x.lostLast).take 44) 0
    (d1.setCRing r { d1.cRing r with lost := 0 }, some b1, none)
  | .held =>
    match d.wellcap.held, d.alarmSlot with
    | some r, some s =>
      let d1 := d.takeAlarmSlot s
      let k := d.get F.WC_PEND_COUNT
      ({ d1 with wellcap := { d1.wellcap with held := none } }.put F.WC_PEND_COUNT (k - 1),
       some (alarmBurst s (r.record d1.cst.aSeq)), none)
    | _, _ => (d, none, none)
  | .heldLost =>
    match d.alarmSlot with
    | some s =>
      let d1 := d.takeAlarmSlot s
      let k := d.get F.WC_PEND_COUNT
      let (d2, n) := (d1.put F.WC_PEND_COUNT 0).takeEsn
      (d2, some (alarmBurst s ⟨3, 0, ((Config.lostData k d.wellcap.lostFirst d.wellcap.lostLast).take 44).length,
        d2.cst.aSeq, n, 0, (Config.lostData k d.wellcap.lostFirst d.wellcap.lostLast).take 44⟩), none)
    | none => (d, none, none)

/-- The effect of a burst that has run to its end. -/
def Dev.burstEffect (d : Dev) (b : CstBurst) : Dev :=
  match b with
  | .erase p => (d.nvmErasePage true p).trkPage true p
  | .program w ws => (d.nvmPut true w ws).trkPage true (w / 128)
  | _ => d

/-- A burst that is stopped in the middle leaves free values (R312, log entry 5). -/
def Dev.burstTorn (d : Dev) (b : CstBurst) : Dev :=
  match b with
  | .erase p => d.tear true true (128 * p) 128
  | .program w ws => d.tear true false w ws.length
  | _ => d

def Dev.setJob (d : Dev) (j : Option CstJob) : Dev := { d with cst := { d.cst with job := j } }

/-- The words that a burst of a command programs: they are read before, and must be ERASED (R298). -/
def Dev.burstPlace (d : Dev) : CstBurst → Option (Nat × Nat)
  | .program w ws => some (w, ws.length)
  | .intent _ => some (4 * (d.cst.jSlot % 256), 4)
  | .append r _ _ _ | .lost r =>
    let x := (d.cRing r).room (ringCap r)
    some ((1024 * (x.first + x.head) + 64 * x.slot) / 8, 8)
  | _ => none

/-- Is the target of the job's next burst found not ERASED, where the command has not erased it (R298)? -/
def Dev.cstBlocked (d : Dev) (j : CstJob) (b : CstBurst) : Bool :=
  j.kind == .command &&
    match d.burstPlace b with
    | some (w, n) => !(List.range n).all fun i => d.nvmWord true (w + i) == .erased
    | none => false

/-- The gauge is asked for the next burst of the job; a burst that finds no place is skipped (R319). -/
def Dev.cstAsk (d : Dev) : Dev :=
  match d.cst.job with
  | none => d
  | some j =>
    match j.running, j.bursts with
    | none, b :: t =>
      let (d1, ok) := d.askEnergy .cistern b.need.1 b.need.2
      if ok then
        let (d2, r, q) := d1.startBurst b
        match r with
        | some _ => d2.setJob (some { j with
            bursts := t
            running := r
            refused := false
            since := d.now
            seq := match q with | some x => some x.1 | none => j.seq
            esn := match q with | some x => some x.2 | none => j.esn })
        | none => (d2.energyEnd .cistern).setJob (some { j with bursts := t, refused := false })
      else d1.setJob (some { j with refused := true, since := if j.refused then j.since else d.now })
    | _, _ => d

/-- Is the job the power-up journal's, with bursts that the gauge has refused: READ_ONLY (R316)? -/
def CstJob.readOnly (j : CstJob) : Bool :=
  j.refused && j.running.isNone &&
    match j.kind with
    | .journal _ _ _ => true
    | _ => false

/-! ### Jobs end, commands start (R311, R314, R321, R324) -/

/-- The event of an intent that is rolled back or completed (R315). -/
def Dev.outcomeEvent (d : Dev) (did : Nat) (jrnl : Word) : Dev :=
  if did = 1 ∨ did = 2 then d.event 5 1 clsState jrnl 0 else d

/-- What the end of a job delivers. -/
def Dev.cstFinish (d : Dev) (j : CstJob) : Dev :=
  let d0 := d.setJob none
  match j.kind with
  | .command =>
    let d1 := match j.val with
      | some v => d0.putVal v
      | none => d0
    let d2 := match j.seq with
      | some q => d1.put F.CST_SEQ_SEQ q
      | none => d1
    let d3 := match j.esn with
      | some e => (d2.put F.CST_ESN_LO_ESN (e % 2 ^ 32)).put F.CST_ESN_HI_ESN (e / 2 ^ 32)
      | none => d2
    d3.cstDone csOK
  | .journal op out did =>
    let d1 := (d0.put F.CST_JRNL_OP op).put F.CST_JRNL_OUTCOME out
    let d2 := d1.outcomeEvent did (d1.reg F.CST_JRNL_OP.addr)
    (d2.put F.CST_ALARM_UNACKED d2.unacked).latchIrq 49
  | .refresh p sp =>
    let d1 := d0.bump F.CST_HEALTH_REFRESHES 1
    let d2 := match d1.refqFind true p with
      | some k => d1.refqDrop k
      | none => d1
    match sp with
    | some q => d2.setJob (some (ownJob .tidy [.erase q]))
    | none => d2
  | .resolve op out => d0.outcomeEvent out (BitVec.ofNat 32 (32 * op + 8 * out))
  | .tidy => d0.put F.CST_ALARM_UNACKED d0.unacked

/-- An erase of the next reusable alarm page is due (R312). -/
def Dev.alarmTidy (d : Dev) : List CstBurst :=
  let p := 16 + (d.cst.aPage + 1) % 64
  if 8 ≤ d.cst.aSlot ∧ d.pageTouched p ∧ (d.pageRecs isAlarmType p).all (fun r => decide (r.seq ≤ d.cst.aAck))
  then [.erase p] else []

/-- ALARM_ACK (R312). -/
def Dev.cstAck (d : Dev) (c : CstCmd) : Dev :=
  if c.m.val ≠ 2 then d.cstDone csDENIED
  else
    let d1 := { d with cst := { d.cst with aAck := max d.cst.aAck c.arg } }
    (d1.put F.CST_ALARM_UNACKED d1.unacked).cstDone csOK

/-- Does an INC_CTR or ADVANCE_CTR get as far as reading its counter (R304, R322, R324)? -/
def Dev.ctrReached (d : Dev) (c : CstCmd) : Bool :=
  (c.op == 5 || c.op == 6) && decide (c.target ≤ 31) && c.m.val != 12 && !(decide (24 ≤ c.target) && c.m.val != 2) &&
    !d.cstProtected (thermoPage c.target)

/-- A command starts while no job is in progress. -/
def Dev.cstStart (d : Dev) (c : CstCmd) : Dev :=
  let d0 := d.put F.CST_STAT_BUSY 1
  if cstReads c.op then d0.cstServe c
  else if c.op = 10 then d0.cstAck c
  else
    let d1 := if d0.ctrReached c then d0.ctrRead c.m c.target else d0
    match d0.cstPlan c with
    | .error st => (if st = csPOISON then d1.poisonBits else d1).cstDone st
    | .ok j =>
      match j.bursts with
      | [] => d1.cstFinish j
      | _ => d1.setJob (some j)

/-- What goes ahead of the job's next burst: a read that waits (R318); while the journal is READ_ONLY the commands that
would write end with ENERGY_SHORT (R316). -/
def Dev.cstAhead (d : Dev) (j : CstJob) : Dev :=
  let d1 := match d.cst.waiting with
    | some c =>
      if cstReads c.op then { d with cst := { d.cst with waiting := none } }.cstServe c
      else if j.readOnly then { d with cst := { d.cst with waiting := none } }.cstDone csENERGY
      else d
    | none => d
  if j.readOnly ∧ !d1.cst.queue.isEmpty then { d1 with cst := { d1.cst with queue := [] } }.cstDone csENERGY else d1

/-- While no job is in progress, the waiting command, then queued appends, then upkeep start; a burst is asked for at
once, and again at each update of the gauge (R311, R319). -/
def Dev.cstNext : Nat → Dev → Dev
  | 0, d => d
  | fuel + 1, d =>
    match d.cst.job with
    | some j =>
      match j.running, j.bursts with
      | some _, _ => d
      | none, [] => Dev.cstNext fuel (d.cstFinish j)
      | none, b :: _ =>
        let d1 := d.cstAhead j
        if d1.cstBlocked j b then Dev.cstNext fuel ((d1.setJob none).cstDone csINVALID)
        else if j.refused then d1
        else Dev.cstNext fuel d1.cstAsk
    | none =>
      if d.cst.due then d
      else
        match d.cst.waiting, d.cst.queue with
        | some c, _ => Dev.cstNext fuel (Dev.cstStart { d with cst := { d.cst with waiting := none } } c)
        | none, c :: t => Dev.cstNext fuel (Dev.cstStart { d with cst := { d.cst with queue := t } } c)
        | none, [] =>
          match d.alarmTidy with
          | [] => d
          | bs => Dev.cstNext fuel (d.setJob (some (ownJob .tidy bs)))

/-- Enough rounds for the command, the queue and the bursts of one job. -/
def Dev.cstGo (d : Dev) : Dev := Dev.cstNext 40 d

/-- The buffers and value registers are zeroed (R323). -/
def Dev.cstBufClear (d : Dev) : Dev :=
  let d1 := ((d.putBuf bufA []).putBuf bufB []).put F.CST_SEQ_SEQ 0
  { (d1.put (F.CST_SEQ_SEQ.plus 4) 0).putVal 0 with cst := { d.cst with clearDue := false, poison := false } }

/-- CISTERN_BUF_CLEAR (R323): once any running command has completed. -/
def Dev.cisternBufClearOp (d : Dev) : Dev :=
  if d.on .isle ∧ d.cst.clearDue ∧ !d.flag F.CST_STAT_BUSY then d.cstBufClear else d

/-- An append that finds work in progress is queued, coalesced or dropped (R311). -/
def Dev.cstQueue (d : Dev) (c : CstCmd) : Dev :=
  let len := c.arg % 65536
  if d.cst.queue.length < 8 then { d with cst := { d.cst with queue := d.cst.queue ++ [c] } }
  else
    match d.cst.queue.reverse with
    | z :: t =>
      if z.rtype = c.rtype ∧ z.target = c.target ∧ z.arg % 65536 = len ∧ z.data.take len = c.data.take len then
        { d with cst := { d.cst with queue := t.reverse ++ [{ z with rep := z.rep + 1 }] } }
      else
        let (d1, n) := d.takeEsn
        let x := d1.cRing c.target
        d1.setCRing c.target { x with lost := x.lost + 1, lostFirst := if x.lost = 0 then n else x.lostFirst, lostLast := n }
    | [] => d

/-- CST_CMD has been written by the port's owner (R324). While the journal is READ_ONLY no append is queued (R316). -/
def Dev.cstCmdWritten (d : Dev) (m : Master) (acted : Nat) : Dev :=
  let op := bitsOf acted 31 28
  let busy := d.flag F.CST_STAT_BUSY
  let c : CstCmd := ⟨m, op, acted % 2048, bitsOf acted 27 20, d.get ⟨0x40050004, 31, 0⟩,
    d.get F.CST_VAL_LO_VAL + 2 ^ 32 * d.get F.CST_VAL_HI_VAL, d.bufABytes 1004, d.cst.poison, 0⟩
  if op = 0 then d
  else if op = 7 ∧ (busy ∨ d.cst.job.isSome) then
    (({ d with cst := { d.cst with poison := false } }).cstQueue c).cstGo
  else if busy then d.put F.CST_STAT_CMD_LOST 1
  else
    let d0 := if d.cst.clearDue then d.cstBufClear else d
    let d1 := ({ d0 with cst := { d0.cst with poison := false } }.put F.CST_STAT_BUSY 1).put F.CST_STAT_LEN 0
    if d1.cst.due ∨ d1.cst.job.isSome then { d1 with cst := { d1.cst with waiting := some c } }.cstGo
    else (d1.cstStart c).cstGo

/-- ENERGY_GRANT for the Cistern: the gauge judges the burst that waits (R319, R362). -/
def Dev.cisternGrant (d : Dev) : Dev :=
  match d.cst.job with
  | some j => if d.on .isle ∧ j.running.isNone ∧ !j.bursts.isEmpty then d.cstAsk.cstGo else d
  | none => d

/-- CISTERN_BURST_DONE (R317, R318): the burst takes effect, a read that waits goes first, and the job goes on. -/
def Dev.cisternBurstDoneOp (d : Dev) : Dev :=
  match d.cst.job with
  | some j =>
    match j.running with
    | some b =>
      let d1 := ((d.burstEffect b).energyEnd .cistern).setJob (some { j with running := none, begun := true })
      match d1.cst.waiting with
      | some c => (if cstReads c.op then { d1 with cst := { d1.cst with waiting := none } }.cstServe c else d1).cstGo
      | none => d1.cstGo
    | none => d
  | none => d

/-! ### The power-up journal (R314 to R316) -/

/-- The words that a page copy programs, burst by burst: contiguous runs, and in a slot page one burst for each slot
(R317). -/
def copyRuns (slotPage : Bool) : List (Nat × BitVec 64) → List (Nat × List (BitVec 64))
  | [] => []
  | (k, w) :: t =>
    match copyRuns slotPage t with
    | (j, ws) :: rest => if j = k + 1 ∧ !(slotPage && j % 8 == 0) then (k, w :: ws) :: rest else (k, [w]) :: (j, ws) :: rest
    | [] => [(k, [w])]

/-- The programmed words of a page, by their place in it, with the given data. -/
def Dev.pageWords (d : Dev) (p : Nat) (data : Bytes) : List (Nat × BitVec 64) :=
  (List.range 128).filterMap fun k =>
    if d.nvmWord true (128 * p + k) = .erased then none
    else some (k, BitVec.ofNat 64 (leNat (slice data (8 * k) 8)))

/-- The records of a slot page that are VALID, as words by their place in it. -/
def Dev.validWords (d : Dev) (p : Nat) : List (Nat × BitVec 64) :=
  (d.pageWords p (d.pageBytes p)).filter fun e => (d.slotCopy (fun _ => true) p (e.1 / 8)).rec?.isSome

/-- The bursts that program words into a page. -/
def copyBursts (p : Nat) (slots : Bool) (ws : List (Nat × BitVec 64)) : List CstBurst :=
  (copyRuns slots ws).map fun e => .program (128 * p + e.1) e.2

/-- What R315 makes of an intent: OUTCOME and the bursts it needs. The spare of a refresh that is done is erased (R321). -/
def Dev.resolve (d : Dev) (i : Intent) : Nat × List CstBurst :=
  let c := (i.other - 82) / 3
  if i.op = 1 then
    match d.copyAt (· == 1) (1024 * i.page) 1024 with
    | .valid r => if r.seq = i.word then (0, []) else (2, [.erase i.page])
    | _ => (2, [.erase i.page])
  else if i.op = 2 then
    if d.pageErased i.page ∧ d.pageErased i.other then (0, []) else (1, d.eraseIf i.page ++ d.eraseIf i.other)
  else if i.op = 3 ∨ i.op = 4 then
    let holds (b : Bool) : Bool :=
      match d.sealedCopy 2 (highPage c b) with
      | .valid r => leNat r.data == i.word
      | _ => false
    if holds false || holds true then
      if d.gen c = some i.word then (0, []) else (1, d.thermoBursts c i.word i.low)
    else (1, d.highBursts c i.word ++ d.thermoBursts c i.word i.low)
  else if d.pageCrc i.page = i.word then (0, d.eraseIf i.other)
  else if d.pageCrc i.other = i.word then
    (1, .erase i.page :: copyBursts i.page (cstSlotPage i.page) (d.pageWords i.other (d.pageBytes i.other)) ++
      [.erase i.other])
  else (2, [.erase i.other])

/-- Partial cells are programmed in full (R307, R321). -/
def Dev.partialCells (d : Dev) : List CstBurst :=
  (d.torn.filter fun t => t.cst && isCellPage (t.first / 128) && !t.erase && decide (t.first % 128 ≠ 0)).map fun t =>
      .program t.first (List.replicate t.words 0)

/-- Bursts that restore the alarm reserve, and those of the record held in AON (R312, R314, R395). -/
def Dev.restoreBursts (d : Dev) : List CstBurst :=
  let next := 16 + (d.cst.aPage + 1) % 64
  let alarm :=
    if 16 ≤ d.cst.aSlot ∧ d.pageTouched next ∧ (d.pageRecs isAlarmType next).all (fun r => decide (r.seq ≤ d.cst.aAck))
    then [.erase next] else d.alarmTidy
  let x := d.cRing 0
  let reserve := if x.count ≠ 0 ∧ d.slotCopy (fun _ => true) (x.first + x.head) 15 ≠ .empty
    then d.eraseIf (x.first + (x.head + 1) % x.count) else []
  alarm ++ reserve ++ (if d.wellcap.held.isSome then [.held] else []) ++
    (if 1 < d.get F.WC_PEND_COUNT then [.heldLost] else [])

/-- The reserved slot of ring 0 is restored: the ring moves to an erased page (R312, R314). -/
def Dev.moveReserve (d : Dev) : Dev :=
  let x := d.cRing 0
  if x.count ≠ 0 ∧ d.slotCopy (fun _ => true) (x.first + x.head) 15 ≠ .empty
  then d.setCRing 0 (CstRing.room { x with slot := 15 } 15) else d

/-- The newest page of the journal: that of the newest VALID record, or the one after it where that page holds something
and no VALID record; without a VALID record, the last page that holds anything. -/
def Dev.journalPage (d : Dev) : Nat :=
  match d.journalTop with
  | some (s, _) =>
    let q := (s / 32 + 1) % 8
    if d.pageTouched q && !(d.journalRecs.any fun e => e.1 / 32 == q) then q else s / 32
  | none => ((List.range 8).reverse.find? d.pageTouched).getD 0

/-- Slots of a journal page up to its last one that is not EMPTY. -/
def Dev.journalUsed (d : Dev) (page : Nat) : Nat :=
  (List.range 32).foldl (fun b j => if d.journalSlot (32 * page + j) = .empty then b else j + 1) 0

/-- Is the newest journal page unreadable: an INVALID slot before its last one (R315)? The last one may be an intent that
was interrupted (R307). -/
def Dev.journalBad (d : Dev) (page : Nat) : Bool :=
  (List.range (d.journalUsed page - 1)).any fun j => d.journalSlot (32 * page + j) == .invalid

/-- The bounds of the log rings: a layout takes effect at a power-up of ISLE (R308). -/
def Dev.ringBounds (d : Dev) : List (Nat × Nat) :=
  if d.cst.laid then d.cst.rings.map fun x => (x.first, x.count) else d.layout

/-- Steps 1 and 2 of the power-up journal: the journal's newest place, the ring heads and the alarm log's head. -/
def Dev.findHeads (d : Dev) : Dev :=
  let page := d.journalPage
  let slots := (List.range 64).flatMap fun k =>
    (d.pageRecs isAlarmType (16 + k)).map fun r => (r.seq, k)
  let ab := slots.foldl (fun b e => if b.1 < e.1 then e else b) (0, 0)
  let lay := d.ringBounds
  let d1 := { d with cst := { d.cst with
    laid := true
    jSeq := (d.journalTop.map fun (e : Nat × CRec) => e.2.seq).getD 0
    jSlot := 32 * page + d.journalUsed page
    aSeq := ab.1
    aPage := ab.2
    aSlot := d.nextSlot (16 + ab.2) 16
    rings := (List.range 8).map fun r =>
      let x := lay.getD r (0, 0)
      d.findRing r x.1 x.2 } }
  { d1 with cst := { d1.cst with aSeq := max d1.cst.aSeq (maxSeq d1.alarmRecs) } }

/-- The slot pages that the journal's first two steps read: journal, alarm log and log rings. -/
def headPages : List Nat := (List.range 1024).filter cstSlotPage

/-- BP as parameter 1 gives it (R322). -/
def Dev.loadBp (d : Dev) : Dev :=
  d.put F.CST_PROT_BP ((((d.param 1).single).map fun r => byteAt r.data 0 % 4).getD 0)

/-- POWER_UP_JOURNAL (R314). -/
def Dev.powerUpJournalOp (d : Dev) : Dev :=
  if d.on .isle ∧ d.cst.due then
    let dr := d.pagesFound headPages
    let d0 := if dr.cst.laid then dr.findHeads else dr.findHeads.loadBp
    let d1 := d0.put F.CST_ALARM_UNACKED d0.unacked
    let bad := d1.journalBad d1.journalPage
    let (op, out, bs) :=
      match d1.newestIntent with
      | some i => let r := d1.resolve i; (i.op, r.1, r.2)
      | none => (0, 0, [])
    let d2 := if bad then d1.trouble tCISTERN else d1
    let rest := bs ++ d2.partialCells ++ d2.restoreBursts
    let d3 := ({ d2 with cst := { d2.cst with due := false } }).moveReserve
    (d3.setJob (some (ownJob (.journal op (if bad then 3 else out) out) rest))).cstGo
  else d

/-- Has the job's burst waited for its grant longer than EWAIT (R39, R319)? -/
def Dev.ewaitOver (d : Dev) (j : CstJob) : Bool :=
  j.refused && j.running.isNone && d.get F.CST_CTL_EWAIT != 0 && decide (j.since + 1000000 * d.get F.CST_CTL_EWAIT < d.now)

/-- What a command that ends with ENERGY_SHORT leaves to do: its intent is resolved as the journal would (R319). -/
def Dev.cstResolve (d : Dev) : Dev :=
  match d.newestIntent with
  | some i =>
    match d.resolve i with
    | (_, []) => d
    | (out, bs) => d.setJob (some (ownJob (.resolve i.op out) bs))
  | none => d

/-- CISTERN_ENERGY_SHORT (R319): the command ends, and what it began is resolved as the journal would. -/
def Dev.cisternEnergyShortOp (d : Dev) : Dev :=
  match d.cst.job with
  | some j =>
    if d.ewaitOver j then
      if j.kind = .command then
        let d1 := (d.setJob none).cstDone csENERGY
        (if j.begun then d1.cstResolve else d1).cstGo
      else if d.cst.waiting.isSome then { d with cst := { d.cst with waiting := none } }.cstDone csENERGY
      else d
    else d
  | none => d

/-! ### Margin reads and refresh (R320, R321) -/

/-- Does nothing of a command or a job wait? -/
def Dev.cstQuiet (d : Dev) : Bool :=
  d.cst.job.isNone && d.cst.waiting.isNone && d.cst.queue.isEmpty && !d.cst.due && d.on .isle

/-- MARGIN_SCAN: the next page that is not ERASED is read; a weak one is queued. -/
def Dev.marginScanOp (d : Dev) (weak : Bool) : Dev :=
  if d.opState = stHost ∧ d.cstQuiet ∧ d.get F.CST_CTL_SCAN_INT ≠ 0 then
    match (List.range 2048).find? fun k => d.pageTouched ((d.cst.scan + k) % 2048) with
    | none => d
    | some k =>
      let p := (d.cst.scan + k) % 2048
      let d1 := { d with cst := { d.cst with scan := (p + 1) % 2048 } }
      if weak then (d1.bump F.CST_HEALTH_WEAK_FOUND 1).refqAdd true p 0 else d1
  else d

/-- The data that a refresh copies, with the records of the read that fetches it (R280, R321): the VALID records of a slot
page, the corrected page of a sealed one; none where a byte of it is poisoned. -/
def Dev.refreshData (d : Dev) (p : Nat) : Dev × Option (List (Nat × BitVec 64)) :=
  if cstSlotPage p then (d.wordsFound (Config.ownMaster 19) (1024 * p) 1024, some (d.validWords p))
  else
    let x := d.pageRead (Config.ownMaster 19) true p
    (x.1, if anyPoison x.2 then none else some (d.pageWords p (x.2.map Prod.fst)))

/-- CRC-32C of a page that holds the given words. -/
def wordsCrc (ws : List (Nat × BitVec 64)) : Nat :=
  crc32c ((List.range 128).flatMap fun k =>
    match ws.find? fun e => e.1 == k with
    | some e => leBytes 8 e.2.toNat
    | none => List.replicate 8 0xFF)

/-- The bursts of a refresh through spare `sp` (R321). -/
def Dev.refreshBursts (d : Dev) (p sp : Nat) (ws : List (Nat × BitVec 64)) : List CstBurst :=
  d.eraseIf sp ++ d.intentBursts ⟨5, 0, p, sp, wordsCrc ws⟩ ++ copyBursts sp (cstSlotPage p) ws ++ [.erase p] ++
    copyBursts p (cstSlotPage p) ws

/-- A page of the refresh queue is refreshed. A sealed page whose data carry poison is not copied: its entry leaves, and the
refusal sets the bits of R283 (log entry 57). -/
def Dev.refreshPage (d : Dev) (k p : Nat) : Dev :=
  if isCellPage p then
    (d.setJob (some (ownJob (.refresh p none) [.program (128 * p + 1) (List.replicate (d.cells ((p - 82) / 3)) 0)]))).cstGo
  else
    let sp := 8 + d.cst.spare % 8
    match d.refreshData p with
    | (d1, none) => d1.poisonBits.refqDrop k
    | (d1, some ws) =>
      ({ d1 with cst := { d1.cst with spare := (d1.cst.spare + 1) % 8 } }.setJob
        (some (ownJob (.refresh p (some sp)) (d1.refreshBursts p sp ws)))).cstGo

/-- REFRESH (R321): the lowest Cistern entry of the refresh queue. -/
def Dev.refreshOp (d : Dev) : Dev :=
  if d.opState = stHost ∧ d.cstQuiet then
    match (List.range 8).find? fun k => d.flag (refqField k F.INTEG_REFQ_VALID) && d.flag (refqField k F.INTEG_REFQ_MEM) with
    | none => d
    | some k => d.refreshPage k (d.get (refqField k F.INTEG_REFQ_PAGE))
  else d

/-! ### Alarm records and power (R25, R312, R393, R395) -/

/-- The alarm edge: the running burst is stopped, the command ends without DONE, the queue is lost (R312). PHASE returns to
its Reset value JOURNAL, which only the journal leaves: it runs again after the response (R325, log entry 60). -/
def Dev.cstAlarm (d : Dev) : Dev :=
  let d1 := match d.cst.job with
    | some j =>
      match j.running with
      | some b => (d.burstTorn b).energyEnd .cistern
      | none => d
    | none => d
  let d2 := d1.cst.queue.foldl (fun x c =>
    let (y, n) := x.takeEsn
    let r := y.cRing c.target
    y.setCRing c.target { r with lost := r.lost + 1, lostFirst := if r.lost = 0 then n else r.lostFirst, lostLast := n }) d1
  { d2 with cst := { d2.cst with
    job := none, waiting := none, queue := [], due := true, poison := false } }

/-- A record that finds no slot, or no energy, is held in AON; later ones add to the count (R395). -/
def Dev.holdRecord (d : Dev) (r : AlarmRec) : Dev :=
  let n := r.esn.getD 0
  let w := d.wellcap
  let w1 : Wellcap :=
    if w.held.isNone then { w with held := some r }
    else { w with lostFirst := if d.get F.WC_PEND_COUNT ≤ 1 then n else w.lostFirst, lostLast := n }
  { d with wellcap := w1 }.bump F.WC_PEND_COUNT 1

/-- ALARM_RECORD (R312, R393): the oldest record whose event has its ESN is programmed, once the charge has reached
MARK_WRITE; where the charge stopped or no slot is EMPTY, it is held. -/
def Dev.alarmRecordOp (d : Dev) : Dev :=
  match d.wellcap.recs with
  | r :: t =>
    if d.opState = stAlarm ∧ r.esn.isSome then
      let d0 := { d with wellcap := { d.wellcap with recs := t } }
      if d.wellcap.short then d0.holdRecord r
      else if d.on .isle ∧ 3 ≤ d.mark then
        let d1 := if d0.cst.rings.isEmpty then d0.findHeads else d0
        match d1.alarmSlot with
        | some s =>
          let d2 := d1.takeAlarmSlot s
          let d3 := d2.burstEffect (alarmBurst s (r.record d2.cst.aSeq))
          d3.put F.CST_ALARM_UNACKED d3.unacked
        | none => d1.holdRecord r
      else d
    else d
  | [] => d

/-- ISLE loses its supply: a burst that runs completes, later ones are left to the journal (R25). -/
def Dev.cstPowerDown (d : Dev) : Dev :=
  let d1 := match d.cst.job with
    | some j =>
      match j.running with
      | some b => (d.burstEffect b).energyEnd .cistern
      | none => d
    | none => d
  { d1 with cst := { d1.cst with job := none, waiting := none, queue := [], due := true, laid := false, clearDue := false, poison := false } }

/-- PHASE as the controller stands (R325). -/
def Dev.cstPhase (d : Dev) : Nat :=
  if d.cst.due then 1
  else
    match d.cst.job with
    | none => 0
    | some j =>
      if j.refused then (if j.readOnly then 4 else 3)
      else
        match j.kind with
        | .journal _ _ _ => 1
        | _ => 2

/-- The computed word of CST_STAT. -/
def Dev.cstStat (d : Dev) : Nat :=
  withBits (d.reg F.CST_STAT_BUSY.addr).toNat 28 26 d.cstPhase

end Sys2Proof.Machine
end

