-- ==== Sys2Proof/Machine/Handpump.lean ====
section
/-! DEFINITION. The contactless side: field, tiers, anticollision and activation, the block protocol, and the frames that
leave (R326 to R340, R353). The APDUs are in Apdu. -/
namespace Sys2Proof.Machine

/-! ### Configuration and UID (R328 to R330) -/

def Dev.setHp (d : Dev) (h : Hp) : Dev := { d with hp := h }

/-- Bit `k` of byte 0 of parameter 6. -/
def Hp.cfgBit (h : Hp) (k : Nat) : Bool := bitAt (byteAt h.cfg6 0) k
def Hp.typeA (h : Hp) : Bool := h.cfgBit 0
def Hp.typeB (h : Hp) : Bool := h.cfgBit 1
def Hp.randomUid (h : Hp) : Bool := h.cfgBit 3
/-- ISO/IEC 15693 is not answered with a random UID. -/
def Hp.v15693 (h : Hp) : Bool := h.cfgBit 2 && !h.randomUid
def Hp.maxRate (h : Hp) : Nat := byteAt h.cfg6 1 % 4
def Hp.fwi (h : Hp) : Nat := max 4 (min 8 (byteAt h.cfg6 2 % 16))

/-- UID0 to UID6. -/
def uidFixed : Bytes := 0xB4 :: (List.range 6).map fun i => Config.uidByte (i + 1)

/-- The PUPI of Type B (R330). -/
def Hp.pupi (h : Hp) : Bytes := if h.randomUid then h.rnd else uidFixed.drop 3

/-- The UID of ISO/IEC 15693, least significant byte first as it is sent. -/
def uidV : Bytes := (0xE0 :: uidFixed).reverse

/-- R0 to R3 (R330): under the UID key, or from the ESN. -/
def Dev.randomUid (d : Dev) (slot : Nat) : Bytes :=
  let e := leBytes 6 d.evt.entryEsn
  let k := d.slot slot
  if slot < 64 ∧ k.typ = 1 ∧ bitAt k.usage 7 ∧ !k.damaged then
    (aesEnc k.key (0xA7 :: e ++ List.replicate 9 0)).take 4
  else e.take 4

/-- The data of a parameter that Handpump uses for itself: none as for an EMPTY one (R328). -/
def Dev.ownParam (d : Dev) (p : Nat) : Option Bytes :=
  ((d.param p).single).bind fun r => if r.flags % 2 = 1 then some r.data else none

/-- The missing bytes of a parameter take their defaults (R328, R329). -/
def withDefault (dflt data : Bytes) : Bytes := data.take dflt.length ++ dflt.drop data.length

/-- Parameters 5 and 6 are read (R329). -/
def Dev.loadContactless (d : Dev) : Dev :=
  let p5 := d.ownParam 5
  let p6 := d.ownParam 6
  let cfg5 := withDefault [0xFF, 0xFF, 0xFF, 0xFF, 0, 0xFF] (p5.getD [])
  let cfg6 := withDefault [0x07, 3, 4] (p6.getD [])
  let d0 := if byteAt cfg5 5 < 64 then d.keyRead 12 (byteAt cfg5 5) else d
  let rnd := d0.randomUid (byteAt cfg5 5)
  let d1 := d0.setHp { d.hp with loaded := true, cfg5 := cfg5, cfg6 := cfg6, rnd := rnd }
  let uid := if d1.hp.randomUid then rnd ++ [0, 0, 0] else uidFixed
  ((d1.put F.RFIF_STAT_CFG_DEFAULT (b2n (p5.isNone || p6.isNone))).put F.RFIF_UID_LO_UID (leNat (uid.take 4))).put
    F.RFIF_UID_HI_UID (leNat (uid.drop 4))

/-- CONTACTLESS_CONFIG_LOAD (R329): once the journal has found its newest intent. -/
def Dev.configLoadOp (d : Dev) : Dev :=
  if d.on .isle ∧ !d.hp.loaded ∧ !d.cst.due then d.loadContactless else d

/-! ### Tiers (R335) -/

def tierSILENT : Nat := 0
def tierLISTEN : Nat := 1
def tierREAD : Nat := 2
def tierRUN : Nat := 3

/-- The tier in force. -/
def Dev.tier (d : Dev) : Nat :=
  if !d.on .isle ∨ d.mark < 1 ∨ (d.opState = stHost ∧ d.flag F.RFIF_CTL_DISABLE) then tierSILENT
  else if 2 ≤ d.mark ∧ d.filled[2] ∧ d.hp.loaded then
    if (d.opState = stHost ∨ d.opState = stPassiveRun) ∧ d.flag F.RFIF_CTL_FW_READY then tierRUN else tierREAD
  else tierLISTEN

/-- Does the device answer the PCD or VCD at all (R329, R335)? -/
def Dev.answers (d : Dev) : Bool := d.env.carrier && d.hp.loaded && decide (tierLISTEN ≤ d.tier)

def Dev.layer (d : Dev) : Nat := d.get F.RFIF_STAT_LAYER
def Dev.proto (d : Dev) : Nat := d.get F.RFIF_STAT_PROTO
def Dev.setLayer (d : Dev) (l : Nat) : Dev := d.put F.RFIF_STAT_LAYER l

/-- The layers of RFIF_STAT. -/
def lyIDLE : Nat := 0
def lyREADY : Nat := 1
def lyACTIVE : Nat := 2
def lyPROTOCOL : Nat := 3
def lyHALT : Nat := 4
def lyQUIET : Nat := 5
def lySELECTED : Nat := 6

/-- The computed word of RFIF_STAT. From the alarm's edge to the end of its response TIER, LAYER, RATE and PROTO read their
Reset values (R7); the protocol that still answers with S(WTX) is behind them (R353, log entry 60). -/
def Dev.rfifStat (d : Dev) : Nat :=
  let w := (d.reg F.RFIF_STAT_TIER.addr).toNat
  let shown := if d.alarming then withBits (withBits w 15 13 0) 10 2 0 else withBits w 15 13 d.tier
  withBits shown 0 0 (b2n d.env.carrier)

/-! ### The end of sessions and protocols (R340, R352, R353) -/

/-- A command with firmware is withdrawn and lost. -/
def Dev.fwLost (d : Dev) : Dev :=
  if d.hp.fw.isSome then
    ((d.setHp { d.hp with fw := none }).put F.RFIF_FW_CMD_VALID 0).put F.RFIF_ERR_FW_LOST 1
  else d

/-- The Cistern port goes back, if Handpump holds it (R346). -/
def Dev.portRelease (d : Dev) : Dev := if d.owner 0x40 = 12 then d.changeOwner 0x40 ownFree else d

/-- The session and its keys are gone. -/
def Dev.endSession (d : Dev) : Dev :=
  (d.setHp { d.hp with session := none, auth := none, n := 0 }).put F.RFIF_STAT_SESSION 0

/-- The frame that was to be sent is abandoned. -/
def Dev.dropOut (d : Dev) : Dev :=
  (d.setHp { d.hp with out := none, wtx := none, granted := false, refused := false }).energyEnd .response

/-- Session, firmware command and all state of the protocol end (R340). -/
def Dev.endProtocol (d : Dev) (layer : Nat) : Dev :=
  let d1 := d.fwLost.endSession.dropOut.portRelease
  let h := d1.hp
  let d2 := d1.setHp { h with
    level := 0, fromHalt := false, cid := 0, fsd := 256, bn := true, chain := [], held := none, fresh := false, apdu := none
    stage := 0, tries := 0, rest := [], result := none, wtxOpen := false, wtxCount := 0, lastBlock := [], app := 0
    file := none }
  let d3 := (d2.setLayer layer).put F.RFIF_STAT_RATE 0
  if layer = lyIDLE then d3.put F.RFIF_STAT_PROTO 0 else d3

/-- Does an I-block or a command wait for its answer? -/
def Dev.owed (d : Dev) : Bool := d.hp.held.isSome || d.hp.apdu.isSome || d.hp.fw.isSome

/-- Is a command in progress, up to the last byte of its response? -/
def Dev.answering (d : Dev) : Bool :=
  d.owed || d.hp.out.isSome || !d.hp.rest.isEmpty || (d.proto == 3 && d.hp.result.isSome)

/-- RELOAD (R329): at once, or after the response of the command in progress has been sent. -/
def Dev.doReload (d : Dev) : Dev :=
  let d1 := d.endProtocol lyIDLE
  (d1.setHp { d1.hp with reload := false, loaded := false }).loadContactless

def Dev.reloadWritten (d : Dev) : Dev :=
  if d.answering then d.setHp { d.hp with reload := true } else d.doReload

/-- The protocol ends with no answer: a RELOAD that waited for the command's response goes on. -/
def Dev.endSilent (d : Dev) (layer : Nat) : Dev :=
  let d1 := d.endProtocol layer
  if d1.hp.reload then d1.doReload else d1

/-- FIELD_CHG (R327, R340). -/
def Dev.fieldChgOp (d : Dev) (present : Bool) : Dev :=
  if d.env.carrier = present then d
  else
    let d1 := { d with env := { d.env with carrier := present } }
    if d1.on .isle then
      let d2 := d1.put F.RFIF_EVT_FIELD_CHG 1
      if present then d2 else d2.endSilent lyIDLE
    else d1

/-! ### Frames to be sent (R336) -/

/-- A frame is ready to be sent. -/
def Dev.send (d : Dev) (kind : OutKind) (bytes : Bytes) (crc bump last : Bool) : Dev :=
  d.setHp { d.hp with out := some ⟨kind, bytes, crc, bump, last⟩, refused := false, granted := false }

/-- An answer outside the block protocol. -/
def Dev.sendPlain (d : Dev) (bytes : Bytes) (crc : Bool) : Dev := d.send .plain bytes crc false false

/-- PCB and CID of a block. -/
def Hp.pcb (h : Hp) (pcb : Nat) : Bytes :=
  if h.cid = 0 then [BitVec.ofNat 8 pcb] else [BitVec.ofNat 8 (pcb + 8), BitVec.ofNat 8 h.cid]

/-- INF bytes that fit a block: FSD less prologue and CRC. -/
def Hp.room (h : Hp) : Nat := h.fsd - (h.pcb 0).length - 2

/-- The next I-block of a response (R337). -/
def Dev.sendNext (d : Dev) (bump : Bool) : Dev :=
  let h := d.hp
  let inf := h.rest.take h.room
  let more := h.room < h.rest.length
  let d1 := d.setHp { h with rest := h.rest.drop h.room }
  d1.send .block (h.pcb (2 + 16 * b2n more + b2n h.bn) ++ inf) true (bump && !more) (!more)

/-- The frame that leaves next: an S(WTX) first. A block waits for the answer to an S(WTX) that has been sent. -/
def Dev.nextFrame (d : Dev) : Option (Bytes × Bool) :=
  match d.hp.wtx with
  | some m =>
    if d.proto = 3 then none else some (d.hp.pcb 0xF2 ++ [BitVec.ofNat 8 m], true)
  | none =>
    match d.hp.out with
    | some o =>
      if d.hp.wtxOpen ∧ o.kind = .block then none else
      match o.kind, d.hp.result with
      | .poll, some r => some (0x00 :: r.1, true)
      | .poll, none => some ([0x01, 0xA1], true)
      | _, _ => some (o.bytes, o.crc)
    | none => none

/-- Budget of a frame of `b` bytes at the current rate, in pJ (R363). -/
def Dev.frameBudget (d : Dev) (b : Nat) : Nat :=
  400000 + b * [50000, 25000, 12500, 6250].getD (d.get F.RFIF_STAT_RATE) 50000

/-- The gauge is asked for the frame that is ready (R336, R362). -/
def Dev.askFrame (d : Dev) : Dev :=
  match d.nextFrame with
  | some (bs, crc) =>
    if d.hp.granted ∨ !d.on .isle then d
    else
      let (d1, ok) := d.askEnergy .response 1 (d.frameBudget (bs.length + if crc then 2 else 0))
      d1.setHp { d1.hp with granted := ok, refused := !ok }
  | none => d

/-- The frame has left (R336, R350). -/
def Dev.transmitted (d : Dev) (bs : Bytes) : Dev :=
  let d1 := (d.energyEnd .response)
  let h := { d1.hp with granted := false, refused := false, sent := bs }
  match h.wtx with
  | some m => d1.setHp { h with wtx := none, wtxOpen := true, wtxCount := h.wtxCount + 1, wtxSent := m }
  | none =>
    match h.out with
    | none => d1.setHp h
    | some o =>
      let poll := o.kind = .poll
      let bump := o.bump || (poll && (match h.result with | some r => r.2 | none => false))
      let h1 := { h with
        out := none
        lastBlock := if o.kind = .block then bs else h.lastBlock
        result := if poll then none else h.result
        n := if bump then h.n + 1 else h.n
        wtxCount := if o.last then 0 else h.wtxCount }
      let d2 := d1.setHp h1
      if h1.reload ∧ !d2.answering then d2.doReload else d2

/-- RESPONSE_TRANSMIT (R336). -/
def Dev.responseTransmitOp (d : Dev) : Dev :=
  match d.nextFrame with
  | some (bs, _) =>
    let d1 := d.askFrame
    if d1.hp.granted then d1.transmitted bs else d1
  | none => d

/-! ### Type A (R331, R340) -/

/-- The bytes of a cascade level, without BCC, and the SAK (R331). -/
def Hp.cascade (h : Hp) (level : Nat) : Option (Bytes × Byte) :=
  if h.randomUid then (if level = 0 then some (0x08 :: h.rnd.drop 1, 0x20) else none)
  else if level = 0 then some (0x88 :: uidFixed.take 3, 0x04)
  else some (uidFixed.drop 3, 0x20)

/-- Exclusive-OR over bytes: the BCC. -/
def bcc (bs : Bytes) : Byte := bs.foldl (· ^^^ ·) 0

/-- May protocol `p` be answered beside what is active? -/
def Dev.protoFree (d : Dev) (p : Nat) : Bool := d.proto == 0 || d.proto == p || d.layer == lyIDLE

/-- REQA and WUPA (R331): WUPA wakes from HALT too; in READY or ACTIVE the device falls back. -/
def Dev.reqaOp (d : Dev) (wake : Bool) : Dev :=
  if d.answers && d.hp.typeA && d.protoFree 1 then
    let l := d.layer
    if l = lyIDLE ∨ (wake ∧ l = lyHALT ∧ d.proto = 1) then
      let d1 := (d.setLayer lyREADY).put F.RFIF_STAT_PROTO 1
      (d1.setHp { d1.hp with level := 0, fromHalt := decide (l = lyHALT) }).sendPlain
        (if d.hp.randomUid then [0x04, 0x00] else [0x44, 0x00]) false
    else if l = lyREADY ∨ l = lyACTIVE then d.endSilent (if d.hp.fromHalt then lyHALT else lyIDLE)
    else d
  else d

/-- ANTICOLLISION at a cascade level: the UID bytes behind those that the PCD has sent. -/
def Dev.anticollisionOp (d : Dev) (level : Nat) (known : Bytes) : Dev :=
  if d.answers ∧ d.proto = 1 ∧ d.layer = lyREADY ∧ level = d.hp.level then
    match d.hp.cascade level with
    | some (u, _) =>
      let all := u ++ [bcc u]
      if known = all.take known.length then d.sendPlain (all.drop known.length) false else d
    | none => d
  else d

/-- SELECT at a cascade level. -/
def Dev.selectOp (d : Dev) (level : Nat) (uid : Bytes) : Dev :=
  if d.answers ∧ d.proto = 1 ∧ d.layer = lyREADY ∧ level = d.hp.level then
    match d.hp.cascade level with
    | some (u, sak) =>
      if uid.take 4 = u then
        let d1 := d.sendPlain [sak] true
        if sak = 0x20 then d1.setLayer lyACTIVE else d1.setHp { d1.hp with level := level + 1 }
      else d.endSilent (if d.hp.fromHalt then lyHALT else lyIDLE)
    | none => d
  else d

/-- HLTA (R340). -/
def Dev.hltaOp (d : Dev) : Dev :=
  if d.answers ∧ d.proto = 1 then
    if d.layer = lyACTIVE ∨ d.layer = lyPROTOCOL then d.endSilent lyHALT
    else if d.layer = lyREADY then d.endSilent (if d.hp.fromHalt then lyHALT else lyIDLE)
    else d
  else d

/-- Bits of TA, or of ATQB's bit-rate byte, up to a rate (R331, R332). -/
def rateBits (r : Nat) : Nat := if r = 0 then 0 else if r = 1 then 0x11 else if r = 2 then 0x33 else 0x77

/-- Frame sizes by FSDI. -/
def fsdOf (i : Nat) : Nat := [16, 24, 32, 40, 48, 64, 96, 128].getD i 256

/-- The block protocol starts. -/
def Dev.activate (d : Dev) (cid fsd : Nat) : Dev :=
  (d.setLayer lyPROTOCOL).setHp { d.hp with
    cid := cid, fsd := fsd, bn := true, chain := [], fresh := true, lastBlock := [], wtxOpen := false, wtxCount := 0 }

/-- RATS: the ATS (R331). -/
def Dev.ratsOp (d : Dev) (param : Byte) : Dev :=
  let cid := param.toNat % 16
  if d.answers ∧ d.proto = 1 ∧ d.layer = lyACTIVE ∧ cid < 15 then
    (d.activate cid (fsdOf (param.toNat / 16))).sendPlain
      [0x05, 0x78, BitVec.ofNat 8 (rateBits d.hp.maxRate), BitVec.ofNat 8 (d.hp.fwi * 16), 0x02] true
  else d

/-- PPS (R331): DRI in bits 1:0, DSI in bits 3:2; each no higher than TA offers. -/
def Dev.ppsOp (d : Dev) (pps1 : Byte) : Dev :=
  let v := pps1.toNat
  if d.answers ∧ d.proto = 1 ∧ d.layer = lyPROTOCOL ∧ d.hp.fresh ∧ v < 16 ∧ v % 4 ≤ d.hp.maxRate ∧
      v / 4 ≤ d.hp.maxRate then
    let d1 := d.setHp { d.hp with fresh := false }
    (d1.put F.RFIF_STAT_RATE (v / 4)).sendPlain [BitVec.ofNat 8 (0xD0 + d.hp.cid)] true
  else d

/-! ### Type B (R332, R340) -/

/-- REQB and WUPB: ATQB. -/
def Dev.reqbOp (d : Dev) (wake : Bool) : Dev :=
  if d.answers && d.hp.typeB && d.protoFree 2 then
    let l := d.layer
    if l = lyIDLE ∨ (l = lyREADY ∧ d.proto = 2) ∨ (wake ∧ l = lyHALT ∧ d.proto = 2) then
      ((d.setLayer lyREADY).put F.RFIF_STAT_PROTO 2).sendPlain
        (0x50 :: d.hp.pupi ++ [0, 0, 0, 0, BitVec.ofNat 8 (rateBits d.hp.maxRate), 0x81,
          BitVec.ofNat 8 (d.hp.fwi * 16 + 1)]) true
    else d
  else d

/-- ATTRIB (R332): the requested rates in bits 7:6, to the PCD, and 5:4, from it. -/
def Dev.attribOp (d : Dev) (pupi : Bytes) (rates : Byte) (fsd : Nat) (cid : Nat) : Dev :=
  let r := rates.toNat
  if d.answers ∧ d.proto = 2 ∧ d.layer = lyREADY ∧ pupi = d.hp.pupi ∧ cid < 15 ∧
      r / 64 ≤ d.hp.maxRate ∧ r / 16 % 4 ≤ d.hp.maxRate then
    ((d.activate cid (max 16 (min 256 fsd))).put F.RFIF_STAT_RATE (r / 64)).sendPlain [BitVec.ofNat 8 cid] true
  else d

/-- HLTB (R340). -/
def Dev.hltbOp (d : Dev) (pupi : Bytes) : Dev :=
  if d.answers ∧ d.proto = 2 ∧ (d.layer = lyREADY ∨ d.layer = lyPROTOCOL) ∧ pupi = d.hp.pupi then
    (d.endProtocol lyHALT).sendPlain [0x00] true
  else d

/-! ### ISO/IEC 15693 (R333, R334, R340) -/

/-- Is the device addressed by a request, so that errors are answered too? None where it is not meant. -/
def Dev.vMeant (d : Dev) (m : VMode) : Option Bool :=
  if d.answers && d.hp.v15693 && d.protoFree 3 then
    match m with
    | .nonAddressed => if d.layer = lyQUIET then none else some false
    | .selected => if d.layer = lySELECTED then some true else none
    | .addressed u => if u = uidV then some true else none
  else none

/-- ISO/IEC 15693 is the protocol in use. -/
def Dev.vUse (d : Dev) : Dev :=
  let d1 := d.put F.RFIF_STAT_PROTO 3
  if d1.layer = lyIDLE then d1.setLayer lyREADY else d1

/-- An error answer, in addressed and selected modes only. -/
def Dev.vError (d : Dev) (meant : Bool) (code : Byte) : Dev :=
  if meant then d.vUse.sendPlain [0x01, code] true else d

/-- INVENTORY. -/
def Dev.inventoryOp (d : Dev) : Dev :=
  if d.answers && d.hp.v15693 && d.protoFree 3 && d.layer != lyQUIET then d.vUse.sendPlain (0x00 :: 0x00 :: uidV) true else d

/-- STAY_QUIET (R340). -/
def Dev.stayQuietOp (d : Dev) (uid : Bytes) : Dev :=
  match d.vMeant (.addressed uid) with
  | some _ => (d.put F.RFIF_STAT_PROTO 3).endSilent lyQUIET
  | none => d

/-- SELECT_15693: another UID takes the device out of the selected state. -/
def Dev.vSelectOp (d : Dev) (uid : Bytes) : Dev :=
  if d.answers && d.hp.v15693 && d.protoFree 3 then
    if uid = uidV then (d.vUse.setLayer lySELECTED).sendPlain [0x00] true
    else if d.layer = lySELECTED then d.setLayer lyREADY else d
  else d

/-- RESET_TO_READY. -/
def Dev.vResetOp (d : Dev) (m : VMode) : Dev :=
  match d.vMeant m with
  | some _ => (d.vUse.setLayer lyREADY).sendPlain [0x00] true
  | none => d

/-! ### The block protocol (R337, R338, R340) -/

/-- Is a block of the protocol in use and meant for the device? -/
def Dev.inProtocol (d : Dev) : Bool := d.answers && d.layer == lyPROTOCOL && (d.proto == 1 || d.proto == 2)

/-- The end of a PCD block starts the waiting timer (R338). -/
def Dev.blockCame (d : Dev) : Dev := d.setHp { d.hp with wtxAt := d.now, wtxPrev := 1 }

/-- The block sent last goes again: an S(WTX) that is unanswered, within WTX_MAX (R339), else the last block of the
protocol, unless its successor is still owed (R337). -/
def Dev.sendAgain (d : Dev) : Dev :=
  if d.hp.wtxOpen then
    if d.hp.wtxCount < d.get F.RFIF_FW_CFG_WTX_MAX then
      d.setHp { d.hp with wtx := some d.hp.wtxSent, wtxOpen := false, granted := false, refused := false }
    else d
  else if d.owed ∨ d.hp.out.isSome then d
  else d.send .block d.hp.lastBlock true false false

/-- R_ACK (R337): the next block of a chained response, or the last block again. -/
def Dev.rAckOp (d : Dev) (bn : Bool) : Dev :=
  if d.inProtocol then
    if bn ≠ d.hp.bn then
      if d.hp.rest.isEmpty ∨ d.hp.out.isSome then d
      else
        let d1 := d.blockCame.setHp { d.blockCame.hp with bn := !d.hp.bn }
        d1.sendNext (match d1.hp.result with | some r => r.2 | none => false)
    else d.blockCame.sendAgain
  else d

/-- R_NAK (R337): the last block again, or an R(ACK). -/
def Dev.rNakOp (d : Dev) (bn : Bool) : Dev :=
  if d.inProtocol then
    if bn = d.hp.bn ∧ (d.hp.wtxOpen ∨ d.owed ∨ d.hp.out.isSome ∨ !d.hp.lastBlock.isEmpty) then d.blockCame.sendAgain
    else d.sendPlain (d.hp.pcb (0xA2 + b2n d.hp.bn)) true
  else d

/-- S_DESELECT (R340): answered at once. -/
def Dev.sDeselectOp (d : Dev) : Dev :=
  if d.inProtocol then
    let answer := d.hp.pcb 0xC2
    (d.endProtocol lyHALT).sendPlain answer true
  else d

/-- S_WTX_RESPONSE (R338): the waiting timer starts again, with the WTXM that the PCD acknowledges. -/
def Dev.sWtxOp (d : Dev) (wtxm : Nat) : Dev :=
  if d.inProtocol ∧ d.hp.wtxOpen then d.setHp { d.hp with wtxOpen := false, wtxAt := d.now, wtxPrev := wtxm } else d

end Sys2Proof.Machine
end

