-- ==== Sys2Proof/Machine/Apdu.lean ====
section
/-! DEFINITION. Commands of the PCD and VCD: block chaining, APDUs, the identity file, Handpump's commands, the secure
channel, hand-over to firmware, and the waiting timer (R333 to R352). -/
namespace Sys2Proof.Machine

/-- End of the owed command: nothing of it waits any more. -/
def Dev.apduEnd (d : Dev) : Dev := d.portRelease.setHp { d.portRelease.hp with apdu := none, held := none, chain := [], stage := 0, tries := 0 }

/-- A whole response leaves: as blocks, or for a poll (R334, R337). `bump` says that its transmission advances n. -/
def Dev.answer (d : Dev) (bytes : Bytes) (bump : Bool) : Dev :=
  let d1 := d.apduEnd
  if d1.proto = 3 then d1.setHp { d1.hp with result := some (bytes, bump) }
  else (d1.setHp { d1.hp with rest := bytes, result := some ([], bump), wtx := none }).sendNext bump

/-! ### Secure messaging (R350) -/

/-- The counter block of a direction. -/
def smBlock (dir n : Nat) : Bytes := BitVec.ofNat 8 dir :: beBytes 4 n ++ List.replicate 7 0 ++ [0, 0, 0, 0]

def smMac (k : SecKeys) (dir n : Nat) (msg : Bytes) : Bytes :=
  (Sha.s256.hmac k.mac (BitVec.ofNat 8 dir :: beBytes 4 n ++ msg)).take 8

/-- Response data and status, under secure messaging where the command came so and the session is open. -/
def Dev.respond (d : Dev) (a : Apdu) (data : Bytes) (sw : Nat) : Dev :=
  match a.secure, d.hp.session with
  | true, some k =>
    let n := d.hp.n
    let e := (aesCtr k.enc (smBlock 8 n) (data.take (min 248 (a.le - 8)))).1
    d.answer (e ++ smMac k 7 n (e ++ beBytes 2 sw) ++ beBytes 2 sw) true
  | _, _ => d.answer (data.take a.le ++ beBytes 2 sw) false

/-- A status alone. -/
def Dev.status (d : Dev) (a : Apdu) (sw : Nat) : Dev := d.respond a [] sw

/-! ### Parsing and dispatch (R342, R351) -/

/-- A short command APDU; none where its lengths do not agree. -/
def parseApdu (bs : Bytes) : Option Apdu :=
  let h (data : Bytes) (le : Nat) : Option Apdu :=
    some ⟨byteAt bs 0, byteAt bs 1, byteAt bs 2, byteAt bs 3, data, if le = 0 then 256 else le, false⟩
  let n := bs.length
  let lc := byteAt bs 4
  if n < 4 then none
  else if n = 4 then h [] 0
  else if n = 5 then h [] lc
  else if lc ≠ 0 ∧ n = 5 + lc then h (slice bs 5 lc) 0
  else if lc ≠ 0 ∧ n = 6 + lc then h (slice bs 5 lc) (byteAt bs (5 + lc))
  else none

/-- An APDU that cannot be parsed keeps only what its answer needs. -/
def Apdu.plain : Apdu := ⟨0, 0, 0, 0, [], 256, false⟩

def aidIdentity : Bytes := [0xD2, 0x76, 0x00, 0x00, 0x85, 0x01, 0x01]
def aidHandpump : Bytes := [0xF0, 0x54, 0x55, 0x4C, 0x45, 0x42, 0x58, 0x01]

/-- SELECT by AID of one of the two applications. -/
def Apdu.selectsAid (a : Apdu) : Bool :=
  a.cla == 0 && a.ins == 0xA4 && a.p1 == 4 && (a.data == aidIdentity || a.data == aidHandpump)

/-- Instructions of Handpump's own application (R342). -/
def handpumpIns : List Nat := [0x10, 0x20, 0x22, 0x30, 0x32, 0x34, 0x36]

/-- Does Handpump itself execute the command? -/
def Dev.implemented (d : Dev) (a : Apdu) : Bool :=
  a.selectsAid || (d.hp.app == 1 && a.cla == 0 && (a.ins == 0xA4 || a.ins == 0xB0 || a.ins == 0xD6)) ||
    (d.hp.app == 2 && (a.cla == 0x80 || a.cla == 0x84) && handpumpIns.contains a.ins)

/-- The record goes to firmware (R351), its length and Le little-endian as registers give them (R6). -/
def Dev.handOver (d : Dev) (a : Apdu) : Dev :=
  let n := a.data.length
  let rec_ := leBytes 2 n ++ [BitVec.ofNat 8 a.cla, BitVec.ofNat 8 a.ins, BitVec.ofNat 8 a.p1, BitVec.ofNat 8 a.p2] ++
    a.data ++ leBytes 2 a.le
  let key := match d.hp.session with | some k => k.keyNo | none => 0
  let d1 := { d with
    regs := Sparse.drop (fun x => 0x400B0400 ≤ x && x < 0x400B0500) d.regs
    hp := { d.hp with apdu := none, fw := some ⟨a, rec_, 0, d.now⟩, fwPoison := [] } }
  (((d1.put F.RFIF_FW_CMD_VALID 1).put F.RFIF_FW_CMD_SECURE (b2n a.secure)).put F.RFIF_FW_CMD_KEYNO key).put
    F.RFIF_FW_CMD_LEN rec_.length

/-- A command that Handpump does not implement: to firmware in the RUN tier; below it 9208. -/
def Dev.notMine (d : Dev) (a : Apdu) : Dev :=
  if d.hp.app = 1 ∧ a.cla ≠ 0 then d.status a 0x6E00
  else if d.hp.app = 1 ∧ a.ins ≠ 0xA4 then d.status a 0x6D00
  else if 248 < a.data.length then d.status a 0x6700
  else if d.tier = tierRUN then d.handOver a
  else if d.tier < tierREAD then d.setHp { d.hp with apdu := some a }
  else d.status a 0x9208

/-- A plain command, or one whose secure messaging has been removed. -/
def Dev.route (d : Dev) (a : Apdu) : Dev :=
  if d.implemented a then d.setHp { d.hp with apdu := some a, stage := 0, tries := 0 } else d.notMine a

/-- A whole APDU has arrived (R342, R350). -/
def Dev.dispatch (d : Dev) (bs : Bytes) : Dev :=
  match parseApdu bs with
  | none => d.status .plain 0x6700
  | some a =>
    if a.cla = 0x84 ∧ d.hp.app ≠ 1 then
      match d.hp.session with
      | none => d.status a 0x6982
      | some k =>
        let n := d.hp.n
        if n = 2 ^ 32 - 1 then d.endSession.status a 0x6985
        else
          let e := a.data.take (a.data.length - 8)
          let head : Bytes := [BitVec.ofNat 8 a.cla, BitVec.ofNat 8 a.ins, BitVec.ofNat 8 a.p1, BitVec.ofNat 8 a.p2]
          if a.data.length < 8 ∨ a.data.drop (a.data.length - 8) ≠ smMac k 6 n (head ++ e) then
            (d.endSession.put F.RFIF_ERR_MAC_FAIL 1).status a 0x6988
          else d.route { a with data := (aesCtr k.enc (smBlock 5 n) e).1, secure := true }
    else d.route a

/-- What an I-block carries is taken: a chained one is acknowledged, the last one gives the command (R337). -/
def Dev.blockData (d : Dev) (chain : Bool) (inf : Bytes) : Dev :=
  let all := d.hp.chain ++ inf
  if chain then (d.setHp { d.hp with chain := all }).send .block (d.hp.pcb (0xA2 + b2n d.hp.bn)) true false false
  else
    let d1 := d.setHp { d.hp with chain := [] }
    if 261 < all.length then d1.status .plain 0x6700 else d1.dispatch all

/-- Does Handpump take and execute commands: in the READ tier or above, and no alarm (R335, R353)? -/
def Dev.serves (d : Dev) : Bool := decide (tierREAD ≤ d.tier) && !d.alarming

/-- An I-block or a command that waits in a tier too low for it is looked at again. -/
def Dev.rekick (d : Dev) : Dev :=
  if d.serves then
    match d.hp.apdu, d.hp.held with
    | some a, _ => if d.implemented a then d else d.notMine a
    | none, some b => (d.setHp { d.hp with held := none }).blockData b.1 b.2
    | none, none => d
  else d

/-- I_BLOCK (R337). Until the READ tier is reached, and from an alarm's edge to its end, the block waits and is answered
with S(WTX) (R335, R353). -/
def Dev.iBlockOp (d : Dev) (b : Block) : Dev :=
  if d.inProtocol then
    if !b.crcOk then d.put F.RFIF_ERR_CRC_ERR 1
    else if (match b.cid with | some c => c.val | none => 0) ≠ d.hp.cid then d
    else if d.owed ∨ !d.hp.rest.isEmpty ∨ 256 < b.inf.length + 3 + b2n b.cid.isSome then d.put F.RFIF_ERR_PROTO_ERR 1
    else
      let h := d.hp
      let d1 := (d.blockCame.setHp { d.blockCame.hp with
        bn := !h.bn, fresh := false, wtxCount := 0, wtxOpen := false, wtx := none }).dropOut
      if d1.serves then d1.blockData b.chain b.inf else d1.setHp { d1.hp with held := some (b.chain, b.inf) }
  else d

/-! ### Cistern reads (R343, R344, R346) -/

/-- May Handpump, master 12, write the port's registers: within its reach, and permitted at the slave end (R224, R230)? -/
def Dev.portReached (d : Dev) : Dev × Bool :=
  match d.reachCheck 12 .write F.CST_CMD_OP.addr with
  | (d1, false) => (d1, false)
  | (d1, true) =>
    match d1.slaveCheck d1.epoch 12 false .write F.CST_CMD_OP.addr with
    | (d2, .ok) => (d2, true)
    | (d2, _) => (d2, false)

/-- A claim of the Cistern port as master 12 (R323, R346); a port that the access rules keep from Handpump is not won (log
entry 39). -/
def Dev.claimPort (d : Dev) : Dev × Bool :=
  match d.portReached with
  | (d1, false) => (d1, false)
  | (d1, true) =>
    if d1.owner 0x40 = 12 then (d1, true)
    else if d1.owner 0x40 = ownFree then (d1.changeOwner 0x40 12, true)
    else (d1.claimConflict 0x40 12, false)

/-- The read that the command issues: operation, target, argument; `seq` is the SEQ of a second read. -/
def Apdu.read (a : Apdu) (seq : Option Nat) : Nat × Nat × Nat :=
  if a.ins = 0xA4 then (1, 2, 0)
  else if a.ins = 0x30 then (1, a.p1 % 2 * 256 + a.p2, 0)
  else if a.ins = 0x32 then (4, a.p2, 0)
  else if a.ins = 0x34 then (8, a.p1, seq.getD (beNat a.data))
  else (9, 0, seq.getD (beNat a.data))

/-- Does the command find the oldest record in two reads (R342)? -/
def Apdu.twoReads (a : Apdu) : Bool := (a.ins == 0x34 || a.ins == 0x36) && beNat a.data == 0

/-- The port's registers as Handpump sets them, and the command. -/
def Dev.issueRead (d : Dev) (r : Nat × Nat × Nat) : Dev :=
  (d.put F.CST_ARG_ARG r.2.2).cstCmdWritten 12 (r.1 * 2 ^ 28 + r.2.1)

/-- The record last delivered, as R344 gives it. -/
def CRec.field (r : CRec) : Bytes := r.bytes.take (16 + r.len)

/-- Parameter data of a record from an offset, with its status, subject to FIELD_SECURE (R342, R343). -/
def Dev.paramAnswer (d : Dev) (a : Apdu) (r : CRec) (sw : Nat) : Dev :=
  if bitAt r.flags 1 ∧ !a.secure then d.status a 0x6982 else d.respond a (r.data.drop (beNat a.data)) sw

/-- The NDEF file from parameter 2 (R341). -/
def Dev.ndefFile (d : Dev) : Bytes :=
  let data :=
    match (d.param 2).single with
    | some r => if r.flags % 2 = 1 ∧ (bitAt r.flags 1 → d.hp.session.isSome) then r.data else []
    | none => []
  beBytes 2 data.length ++ data

/-- The status word of a Cistern status with no data (R345). -/
def cstSw (st : Nat) : Nat :=
  if st = csEMPTY then 0x9202
  else if st = csINVALID then 0x9203
  else if st = csGONE then 0x9204
  else if st = csDENIED then 0x6982
  else if st = csENERGY then 0x9205
  else 0x6A86

/-- The read of the port is complete: the command ends, or its second read follows (R342 to R345). -/
def Dev.readDone (d : Dev) (a : Apdu) : Dev :=
  let st := d.get F.CST_STAT_STATUS
  let bytes := d.bufABytes (d.get F.CST_STAT_LEN)
  let seq := d.get F.CST_SEQ_SEQ
  let rel := d.portRelease
  if a.ins = 0xA4 then (rel.setHp { rel.hp with file := some d.ndefFile }).status a 0x9000
  else if a.ins = 0x30 then
    let twinB := bitAt a.p1 7
    match d.param (a.read none).2.1 with
    | .conflict x y =>
      if st = csCONFLICT then rel.paramAnswer a (if twinB then y else x) (if twinB then 0x9000 else 0x9201)
      else rel.status a (cstSw st)
    | t =>
      if twinB ∧ (st = csOK ∨ st = csEMPTY ∨ st = csINVALID) then rel.status a 0x6A86
      else if st ≠ csOK then rel.status a (cstSw st)
      else
        match t.single with
        | some r => rel.paramAnswer a { r with data := bytes } 0x9000
        | none => rel.status a 0x9203
  else if a.ins = 0x32 then
    let v := d.get F.CST_VAL_LO_VAL + 2 ^ 32 * d.get F.CST_VAL_HI_VAL
    if st = csOK then rel.respond a (beBytes 5 v) 0x9000
    else if st = csCONFLICT then rel.respond a (beBytes 5 v) 0x9201
    else rel.status a (cstSw st)
  else if st = csOK then
    let recs := if a.ins = 0x34 then d.ringRecs a.p1 else d.alarmRecs
    match recs.find? fun r => r.seq == seq with
    | some r => rel.respond a r.field 0x9000
    | none => rel.status a 0x9202
  else rel.status a (cstSw st)

/-- The Cistern part of a command goes as far as it can. Stage 0: the port is to be claimed and the read issued; stage 1:
the read, or the first of two, is issued; stage 2: the second is issued, with the SEQ that the first one found. -/
def Dev.cstSteps : Nat → Dev → Dev
  | 0, d => d
  | fuel + 1, d =>
    match d.hp.apdu with
    | none => d
    | some a =>
      if d.flag F.CST_STAT_BUSY then d
      else if d.hp.stage = 0 then
        Dev.cstSteps fuel ((d.issueRead (a.read none)).setHp { (d.issueRead (a.read none)).hp with stage := 1 })
      else
        let next := d.get F.CST_SEQ_SEQ
        if d.hp.stage = 1 ∧ a.twoReads ∧ next ≠ 0 ∧ d.get F.CST_STAT_STATUS ≠ csOK then
          let (d1, _) := d.portRelease.claimPort
          let d2 := d1.issueRead (a.read (some next))
          Dev.cstSteps fuel (d2.setHp { d2.hp with stage := 2 })
        else d.readDone a

/-- The command needs the Cistern: claim the port, and read (R346). A refused claim counts. -/
def Dev.cstBegin (d : Dev) : Dev :=
  let (d1, ok) := d.claimPort
  if ok then Dev.cstSteps 4 d1 else d1.setHp { d1.hp with tries := d1.hp.tries + 1 }

/-- The port has moved on while Handpump holds it. -/
def Dev.cstPoll (d : Dev) : Dev := if d.owner 0x40 = 12 ∧ d.hp.apdu.isSome ∧ !d.alarming then Dev.cstSteps 4 d else d

/-- PORT_CLAIM_RETRY (R346). -/
def Dev.portClaimRetryOp (d : Dev) : Dev :=
  match d.hp.apdu with
  | some a =>
    if d.hp.tries = 0 ∨ d.alarming then d
    else if d.owner 0x40 = 12 then d.cstPoll
    else
      let d1 := d.cstBegin
      if d1.hp.apdu.isSome ∧ d1.owner 0x40 ≠ 12 ∧ 100 < d1.hp.tries then d1.status a 0x9208 else d1
  | none => d

/-! ### The commands (R341, R342, R349)

Each looks first at what waits for the READ tier. -/

/-- A command of Handpump's runs if it is the one that waits, the tier allows it, and it has not begun. -/
def Dev.runs (d : Dev) (p : Apdu → Bool) : Option Apdu :=
  match d.hp.apdu with
  | some a =>
    if p a ∧ d.implemented a ∧ d.serves ∧ d.hp.stage = 0 ∧ d.hp.tries = 0 then some a
    else none
  | none => none

/-- The capability container (R341). -/
def capability : Bytes :=
  [0x00, 0x0F, 0x20, 0x00, 0xF6, 0x00, 0x01, 0x04, 0x06, 0xE1, 0x04, 0x03, 0xEE, 0x00, 0xFF]

/-- SELECT. -/
def Dev.selectFileOp (d0 : Dev) : Dev :=
  let d := d0.rekick
  match d.runs fun a => a.ins == 0xA4 with
  | none => d
  | some a =>
    if a.p1 = 4 then
      let app := if a.data = aidIdentity then 1 else 2
      (d.setHp { d.hp with app := app, file := none, auth := none }).status a 0x9000
    else if a.p1 = 0 ∧ a.p2 = 0x0C then
      if a.data = [0xE1, 0x03] then (d.setHp { d.hp with file := some capability }).status a 0x9000
      else if a.data = [0xE1, 0x04] then d.cstBegin
      else d.status a 0x6A82
    else d.status a 0x6A86

/-- READ BINARY. -/
def Dev.readBinaryOp (d0 : Dev) : Dev :=
  let d := d0.rekick
  match d.runs fun a => a.ins == 0xB0 && a.cla == 0 with
  | none => d
  | some a =>
    match d.hp.file with
    | none => d.status a 0x6985
    | some f =>
      let o := a.p1 * 256 + a.p2
      if f.length < o then d.status a 0x6B00 else d.respond a (f.drop o) 0x9000

/-- UPDATE BINARY. -/
def Dev.updateBinaryOp (d0 : Dev) : Dev :=
  let d := d0.rekick
  match d.runs fun a => a.ins == 0xD6 && a.cla == 0 with
  | none => d
  | some a => d.status a 0x6982

/-- GET_INFO. -/
def Dev.getInfoOp (d0 : Dev) : Dev :=
  let d := d0.rekick
  match d.runs fun a => a.ins == 0x10 with
  | none => d
  | some a =>
    if a.p1 ≠ 0 ∨ a.p2 ≠ 0 then d.status a 0x6A86
    else if a.data ≠ [] then d.status a 0x6700
    else
      d.respond a ([BitVec.ofNat 8 d.opState, BitVec.ofNat 8 d.tier, BitVec.ofNat 8 d.cstPhase,
        BitVec.ofNat 8 (b2n d.hp.session.isSome + 2 * b2n (d.flag F.RFIF_CTL_FW_READY))] ++
        beBytes 2 (d.get F.CST_ALARM_UNACKED) ++ [0x00, 0x01]) 0x9000

/-- Session keys (R349). -/
def secKeys (no : Nat) (key a b : Bytes) : SecKeys :=
  ⟨no, (Sha.s256.hash (0x01 :: key ++ a ++ b)).take 16, Sha.s256.hash (0x02 :: key ++ a ++ b), a, b⟩

/-- The key of a channel, if AUTH_INIT can use it (R348). -/
def Dev.channelKey (d : Dev) (k : Nat) : Option Bytes :=
  let s := byteAt d.hp.cfg5 k
  let x := d.slot s
  if s < 64 ∧ x.typ = 1 ∧ bitAt x.usage 7 ∧ !x.damaged then some x.key else none

/-- AUTH_INIT. -/
def Dev.authInitOp (d0 : Dev) : Dev :=
  let d := d0.rekick
  match d.runs fun a => a.ins == 0x20 with
  | none => d
  | some a =>
    if 3 < a.p1 ∨ a.p2 ≠ 0 then d.status a 0x6A86
    else if a.data.length ≠ 16 then d.status a 0x6700
    else
      let s := byteAt d.hp.cfg5 a.p1
      let d1 := if s < 64 then d.endSession.keyRead 12 s else d.endSession
      match d1.channelKey a.p1 with
      | none => d1.status a 0x6985
      | some key =>
        if d.evt.esn = 2 ^ 48 - 1 then d1.status a 0x6985
        else
          let (d2, e) := d1.takeEsn
          let b := aesEnc key (0xB1 :: beBytes 6 e ++ a.data.take 9)
          (d2.setHp { d2.hp with auth := some (secKeys a.p1 key a.data b) }).respond a b 0x9000

/-- AUTH_FINISH. -/
def Dev.authFinishOp (d0 : Dev) : Dev :=
  let d := d0.rekick
  match d.runs fun a => a.ins == 0x22 with
  | none => d
  | some a =>
    if a.p1 ≠ 0 ∨ a.p2 ≠ 0 then d.status a 0x6A86
    else
      match d.hp.auth with
      | none => d.status a 0x6985
      | some k =>
        if a.data.length ≠ 16 then d.status a 0x6700
        else if a.data ≠ (Sha.s256.hmac k.mac (0x03 :: k.rndB ++ k.rndA)).take 16 then d.endSession.status a 0x6300
        else
          let d1 := (d.setHp { d.hp with session := some k, auth := none, n := 0 }).put F.RFIF_STAT_SESSION 1
          d1.respond { a with secure := false } ((Sha.s256.hmac k.mac (0x04 :: k.rndA ++ k.rndB)).take 16) 0x9000

/-- READ_PARAM. -/
def Dev.apduReadParamOp (d0 : Dev) : Dev :=
  let d := d0.rekick
  match d.runs fun a => a.ins == 0x30 with
  | none => d
  | some a =>
    if bitsOf a.p1 6 1 ≠ 0 then d.status a 0x6A86
    else if a.data.length ≠ 2 then d.status a 0x6700
    else d.cstBegin

/-- READ_CTR. -/
def Dev.apduReadCtrOp (d0 : Dev) : Dev :=
  let d := d0.rekick
  match d.runs fun a => a.ins == 0x32 with
  | none => d
  | some a =>
    if a.p1 ≠ 0 ∨ 31 < a.p2 then d.status a 0x6A86
    else if a.data ≠ [] then d.status a 0x6700
    else d.cstBegin

/-- READ_LOG: an open ring, or a session (R343). -/
def Dev.apduReadLogOp (d0 : Dev) : Dev :=
  let d := d0.rekick
  match d.runs fun a => a.ins == 0x34 with
  | none => d
  | some a =>
    if 7 < a.p1 ∨ a.p2 ≠ 0 then d.status a 0x6A86
    else if a.data.length ≠ 4 then d.status a 0x6700
    else if !bitAt (byteAt d.hp.cfg5 4) a.p1 ∧ !a.secure then d.status a 0x6982
    else d.cstBegin

/-- READ_ALARM. -/
def Dev.apduReadAlarmOp (d0 : Dev) : Dev :=
  let d := d0.rekick
  match d.runs fun a => a.ins == 0x36 with
  | none => d
  | some a =>
    if a.p1 ≠ 0 ∨ a.p2 ≠ 0 then d.status a 0x6A86
    else if a.data.length ≠ 4 then d.status a 0x6700
    else d.cstBegin

/-! ### Firmware (R351, R352) -/

/-- The command with firmware ends. -/
def Dev.fwEnd (d : Dev) : Dev := (d.setHp { d.hp with fw := none }).put F.RFIF_FW_CMD_VALID 0

/-- The 256 bytes of the response buffer. -/
def Dev.fwBuf (d : Dev) : Bytes := (List.range 64).flatMap fun i => leBytes 4 (d.reg (0x400B0400 + 4 * i)).toNat

/-- A store has reached the word of the response buffer at `a`, with or without the mark (R283, R347). -/
def Dev.fwBufMark (d : Dev) (a : Nat) (poison : Bool) : Dev :=
  let k := a - 0x400B0400
  let rest := d.hp.fwPoison.filter fun j => j != k
  d.setHp { d.hp with fwPoison := if poison then k :: rest else rest }

/-- RFIF_FW_RESP has been written. -/
def Dev.fwRespWritten (d : Dev) (acted : Nat) : Dev :=
  match d.hp.fw with
  | none => d.put F.RFIF_ERR_LATE_RESP 1
  | some c =>
    let len := min (acted % 512) (if c.apdu.secure then 248 else 256)
    let d1 := d.fwEnd
    if d.hp.fwPoison.any fun k => decide (k < len) then (d1.put F.RFIF_ERR_POISON 1).status c.apdu 0x9206
    else d1.respond { c.apdu with le := 256 } (d.fwBuf.take len) (acted / 2 ^ 16)

/-- Firmware's time is over: 920A. -/
def Dev.fwExpire (d : Dev) : Dev :=
  match d.hp.fw with
  | none => d
  | some c => (d.fwEnd.put F.RFIF_ERR_FW_TIMEOUT 1).status c.apdu 0x920A

/-- FW_TIMEOUT: TMO_MS have passed since VALID (R39, R352). -/
def Dev.fwTimeoutOp (d : Dev) : Dev :=
  if d.hp.fw.any fun c => decide (c.since + d.get F.RFIF_FW_CFG_TMO_MS * 10 ^ 6 < d.now) then d.fwExpire else d

/-- A core reset or RUN_LOST ends the command: 9207. -/
def Dev.fwReset (d : Dev) : Dev :=
  match d.hp.fw with
  | none => d
  | some c => (d.fwEnd.put F.RFIF_ERR_FW_LOST 1).status c.apdu 0x9207

/-- A load of RFIF_FW_DATA: the next four bytes of the record (R354). -/
def Dev.fwDataLoad (d : Dev) : Dev × Word :=
  match d.hp.fw with
  | none => (d, 0)
  | some c =>
    (d.setHp { d.hp with fw := some { c with pos := c.pos + 4 } }, BitVec.ofNat 32 (leNat (slice c.record c.pos 4)))

/-! ### The waiting timer (R338, R339) -/

/-- Does the command wait for energy: a refused frame, or a Cistern burst that the gauge refuses? -/
def Dev.waitsEnergy (d : Dev) : Bool :=
  d.hp.refused ||
    match d.cst.job with
    | some j => d.owner 0x40 == 12 && j.running.isNone && !j.bursts.isEmpty
    | none => false

/-- Longest time in ns that a burst can take (R317). -/
def CstBurst.longest : CstBurst → Nat
  | .erase _ => 8000000
  | _ => 3000000

/-- The WTXM of the S(WTX) that is due (R338). -/
def Dev.wtxm (d : Dev) : Nat :=
  if d.hp.fw.isSome then d.get F.RFIF_FW_CFG_WTXM
  else if d.alarming ∨ d.tier ≤ tierLISTEN ∨ d.hp.refused then 4
  else if d.hp.tries ≠ 0 ∧ d.owner 0x40 ≠ 12 then 1
  else
    match d.cst.job.bind fun j => j.running.map fun b => b.longest - (d.now - j.since) with
    | some left => max 1 (min 59 (ceilDiv (left * 339) (25 * 4096 * 1000 * 2 ^ d.hp.fwi)))
    | none => 4

/-- Has the waiting timer passed 0.8 × FWT × WTXM_prev (R338, R39)? FWT is 4096 × 2^FWI periods of 13.56 MHz. -/
def Dev.wtxOver (d : Dev) : Bool :=
  decide (4096000 * 2 ^ d.hp.fwi * d.hp.wtxPrev * 20 < (d.now - d.hp.wtxAt) * 339)

/-- WTX_TIMER: S(WTX) becomes due, or the command ends at WTX_MAX. -/
def Dev.wtxTimerOp (d : Dev) : Dev :=
  let d0 := d.rekick
  let ready := d0.hp.out.isSome && !d0.hp.refused
  if d0.inProtocol ∧ (d0.owed ∨ d0.hp.out.isSome) ∧ !ready ∧ d0.hp.wtx.isNone ∧ !d0.hp.wtxOpen ∧ d0.wtxOver then
    if d0.get F.RFIF_FW_CFG_WTX_MAX ≤ d0.hp.wtxCount then
      if d0.hp.fw.isSome then d0.fwExpire
      else
        let sw := if d0.waitsEnergy then 0x9205 else 0x9208
        match d0.hp.apdu with
        | some a => d0.status a sw
        | none => d0.dropOut.status .plain sw
    else d0.setHp { d0.hp with wtx := some d0.wtxm, granted := false, refused := false }
  else d0

/-! ### ISO/IEC 15693: blocks and APDUs (R333, R334) -/

/-- Number of blocks of the NDEF file. -/
def vBlocks (f : Bytes) : Nat := min 252 (ceilDiv f.length 4)

/-- The NDEF file as a block read finds it: through the Cistern port, if it is free and answers at once. -/
def Dev.vFile (d : Dev) : Dev × Option Bytes :=
  let (d1, ok) := d.claimPort
  if !ok then (d1, none)
  else if d1.flag F.CST_STAT_BUSY then (d1.portRelease, none)
  else
    let d2 := d1.issueRead (1, 2, 0)
    if d2.flag F.CST_STAT_BUSY then (d2.portRelease, none) else (d2.portRelease, some d2.ndefFile)

/-- Do the commands that need the READ tier run? -/
def Dev.vReads (d : Dev) : Bool := d.serves && d.hp.apdu.isNone

/-- READ_SINGLE_BLOCK and READ_MULTIPLE_BLOCKS: `n` blocks from `blk`. -/
def Dev.vReadOp (d : Dev) (m : VMode) (blk n : Nat) : Dev :=
  match d.vMeant m with
  | none => d
  | some meant =>
    if !d.vReads then d.vError meant 0x0F
    else
      match d.vUse.vFile with
      | (d1, none) => d1.vError meant 0x0F
      | (d1, some f) =>
        if vBlocks f < blk + n then d1.vError true 0x10
        else d1.sendPlain (0x00 :: (List.range (4 * n)).map fun i => f.getD (4 * blk + i) (Config.blockPad (4 * blk + i))) true

/-- GET_SYSTEM_INFORMATION. -/
def Dev.vInfoOp (d : Dev) (m : VMode) : Dev :=
  match d.vMeant m with
  | none => d
  | some meant =>
    if !d.vReads then d.vError meant 0x0F
    else
      match d.vUse.vFile with
      | (d1, none) => d1.vError meant 0x0F
      | (d1, some f) =>
        d1.sendPlain ([0x00, 0x0F] ++ uidV ++ [0x00, 0x00, BitVec.ofNat 8 (vBlocks f - 1), 0x03, 0x48]) true

/-- A poll is answered: the response if it is ready when the frame leaves, else BUSY (R334). -/
def Dev.vPoll (d : Dev) : Dev := d.send .poll [] true false false

/-- APDU_TRANSFER. -/
def Dev.apduTransferOp (d : Dev) (m : VMode) (apdu : Bytes) : Dev :=
  match d.vMeant m with
  | none => d
  | some meant =>
    if d.tier < tierREAD then d.vError meant 0x0F
    else if d.owed then d.vUse.vPoll
    else
      let d1 := d.vUse.setHp { d.vUse.hp with result := none }
      (if 261 < apdu.length then d1.status .plain 0x6700 else d1.dispatch apdu).vPoll

/-- GET_RESULT. -/
def Dev.getResultOp (d : Dev) (m : VMode) : Dev :=
  match d.vMeant m with
  | none => d
  | some meant => if d.tier < tierREAD then d.vError meant 0x0F else d.rekick.vUse.vPoll

end Sys2Proof.Machine
end

