-- ==== Sys2Proof/Machine/Lanes.lean ====
section
/-! DEFINITION. The lanes of Pumphouse: a frame from its ingress to its end (chapter 02; the reserve of R114; the contexts'
updates of R54 and R108). What needs the crossbar, posting descriptors and frames from the transmit rings, is in
Posting. -/
namespace Sys2Proof.Machine

/-! ### Frames of a lane -/

def LaneSt.frame (x : LaneSt) (n : Nat) : Option Frame := x.frames.find? fun f => f.n == n

/-- The lane with the frame of the same number replaced. -/
def LaneSt.put (x : LaneSt) (f : Frame) : LaneSt := { x with frames := x.frames.map fun g => if g.n = f.n then f else g }

def LaneSt.remove (x : LaneSt) (n : Nat) : LaneSt := { x with frames := x.frames.filter fun g => g.n != n }

def Dev.frame (d : Dev) (l : Lane) (n : Nat) : Option Frame := (d.lane l).frame n
def Dev.putFrame (d : Dev) (l : Lane) (f : Frame) : Dev := d.setLane l ((d.lane l).put f)

/-- Raise counter `k` of a lane by `n`; it saturates (R78). -/
def Dev.cnt (d : Dev) (l : Lane) (k : Fin 31) (n : Nat) : Dev :=
  let x := d.lane l
  d.setLane l { x with counters := x.counters.set k (BitVec.ofNat 64 (satAdd 64 (x.counters[k]).toNat n)) }

/-- The counters of R78 by their number. -/
def cRX_FRAMES : Fin 31 := 0
def cRX_BYTES : Fin 31 := 1
def cTX_FRAMES : Fin 31 := 2
def cTX_BYTES : Fin 31 := 3
def cPASSED : Fin 31 := 4
def cTAGGED : Fin 31 := 5
def cVERIFY_OK : Fin 31 := 6
def cVERIFY_FAIL : Fin 31 := 7
def cSTRIPPED : Fin 31 := 8
def cDIVERTED : Fin 31 := 9
def cDROPPED : Fin 31 := 10
def cNO_MATCH : Fin 31 := 11
def cSTOMPED : Fin 31 := 12
def cDISCARD_PRE : Fin 31 := 13
def cMAC_CONTROL : Fin 31 := 19
def cMGMT_TAKEN : Fin 31 := 20
def cHOLD_FULL : Fin 31 := 21
def cLANE_OVERRUN : Fin 31 := 22
def cTAG_OVERSIZE : Fin 31 := 23
def cEGRESS_WAIT : Fin 31 := 24
def cEGRESS_DOWN : Fin 31 := 25
def cMISMATCH : Fin 31 := 27
def cRESTARTS : Fin 31 := 28
def cRESERVE_LOST : Fin 31 := 29
def cLANE_OFF : Fin 31 := 30

/-- The lane counter of a failure reason, if it has one (R44, R78). -/
def failCounter : FailKind → Option (Fin 31)
  | .fcs => some 14
  | .rxCode => some 15
  | .runt => some 16
  | .oversize => some 17
  | .format => some 18
  | .poison => some 26
  | _ => none

/-- The statistics word of a failure reason (R108). -/
def failStat : FailKind → Option Nat
  | .value => some 0x98
  | .algorithm => some 0x9C
  | .key => some 0xA0
  | .replay => some 0xA4
  | .continuity => some 0xA8
  | .format => some 0xAC
  | .fcs | .rxCode | .runt | .oversize | .abort => some 0xB0
  | .poison => some 0xB4
  | .lane => none

/-- Put the lane into a state, with its event (R47, R381). -/
def Dev.setLaneState (d : Dev) (l : Lane) (st : Nat) : Dev :=
  if d.laneState l = st then d
  else
    let d1 := (d.put (laneField l F.LANE_STAT_STATE) st).latchIrq (match l with | .verify => 16 | .tag => 17)
    d1.event l.source 3 clsState (BitVec.ofNat 32 (2 ^ 31 + st)) (BitVec.ofNat 32 (d1.laneStat l))

/-- A frame as it enters the lane. -/
def newFrame (n : Nat) (rx : RxFrame) (ts : Nat × Nat) : Frame where
  n := n
  rx := rx
  ts := ts
  looked := false
  mgmt := false
  stream := none
  action := 6
  ring := 0
  verify := false
  guard := 0
  timeCfg := 0
  elig0 := false
  elig1 := false
  tagSlot := none
  failed := none
  reported := false
  verdict := false
  pend := none
  statsOnly := false
  stage := .input
  slot := none
  copy := none
  waited := false
  asHeld := false
  mismatched := false
  chk := []

/-! ### The end of a frame: context update and statistics (R54, R96, R100, R108) -/

/-- How a frame ended. -/
inductive Ended where
  | sent
  | discarded
  | stomped
  | diverted
  deriving DecidableEq, Repr

/-- Is the pending update of a frame discarded, and its switch with it: stomped for POISON, ABORT or LANE after a passing
verdict (R54, R100)? -/
def Frame.updateLost (f : Frame) (e : Ended) : Bool :=
  e == .stomped && f.verdict && (f.failed == some .poison || f.failed == some .abort || f.failed == some .lane)

/-- The statistics words of a frame's end (R108). -/
def Dev.statsOf (d : Dev) (i : Fin 1024) (f : Frame) (e : Ended) : Dev :=
  let pass := f.failed.isNone
  let d1 := (d.ctxCount64 i 0x80 1).ctxCount64 i 0x88 f.rx.len
  let d2 := if pass ∧ (e = .sent ∨ e = .diverted) then d1.ctxCount i 0x90 1 else d1
  let d3 := if f.action = 1 ∧ e = .sent then d2.ctxCount i 0x94 1 else d2
  let d4 := match f.failed.bind failStat with | some off => d3.ctxCount i off 1 | none => d3
  let d5 := if e = .stomped then d4.ctxCount i 0xB8 1 else d4
  match f.pend with
  | some p =>
    let d6 := d5.ctxCount i 0xBC p.lost
    let d7 := if p.classes &&& cREORDER ≠ 0 then d6.ctxCount i 0xC0 1 else d6
    if pass ∧ p.classes ≠ 0 then d7.ctxCount i 0xC4 1 else d7
  | none => d5

/-- The replay and continuity words and the epoch counts of a frame's end (R54, R95, R96). A passing frame that RESET_GUARD
narrowed to its statistics still counts in the epoch's COUNT (DESIGN CHOICE, log entry 61). -/
def Dev.guardOf (d : Dev) (i : Fin 1024) (f : Frame) : Dev :=
  let d1 := match f.tagSlot with
    | some s => d.bump (epField i s F.CTX_EP_COUNT) 1
    | none => d
  match f.failed, f.pend with
  | none, some p =>
    let d2 := match p.slot with | some s => d1.bump (epField i s F.CTX_EP_COUNT) 1 | none => d1
    if f.statsOnly then d2
    else (d2.setWin i (applyPend (d2.win i) f)).ctxPut i F.CTX_LAST_CLASS p.classes
  | _, _ => d1

/-- A frame's pending update is written (R54): statistics, window, counts and the switch it commits (R100). -/
def Dev.commitFrame (d : Dev) (f : Frame) (e : Ended) : Dev :=
  match f.stream with
  | none => d
  | some i =>
    let d1 := (d.guardOf i f).statsOf i f e
    if f.updateLost e then d1 else d1.commitSwitch i (ptp62 f.ts.1 f.ts.2)

/-- Words 0 to 7 of a FRAME_RX descriptor, before IRQ is set by the posting (R122, R148, R409). -/
def rxWords (l : Lane) (f : Frame) (bucket esn : Nat) (verified : Bool) (reason : Nat) : List Word :=
  let body := f.rx.body
  let w0 := (if reason = 12 then 2 ^ 27 else 0) + 2 ^ 26 + b2n (trailed f.rx) * 2 ^ 24 + reason * 2 ^ 20 + body.length
  let w3 := b2n verified * 2 ^ 15 + (if l = .tag then 2 ^ 13 else 0) +
    (match f.stream with | some i => i.val | none => 2 ^ 12)
  [BitVec.ofNat 32 w0, BitVec.ofNat 32 (slotAddr bucket), BitVec.ofNat 32 (frameCheck body), BitVec.ofNat 32 w3,
   BitVec.ofNat 32 esn, BitVec.ofNat 32 (esn / 2 ^ 32), BitVec.ofNat 32 f.ts.1, BitVec.ofNat 32 f.ts.2]

/-- The reserved entry of a kind in a ring. -/
def Dev.entryOf (d : Dev) (n : Nat) (k : EntryKind) : Option RingEntry :=
  (d.ring n).reserved.find? fun e => e.kind == k && e.words.isNone

/-- Does a byte of the frame in the input buffer carry poison (R72)? -/
def Frame.poisoned (f : Frame) : Bool := f.chk.any fun e => eccBad e.2

/-- The reason that a PTP copy or a management frame reports: frame failures only (R139, R148, R409). -/
def frameReason (f : Frame) : Nat :=
  let own := match macFail f.rx with
    | some k => failCode k
    | none => if f.poisoned then failCode .poison else 0
  match f.failed with
  | some k => if frameLevel k then failCode k else own
  | none => own

/-- The PTP copy of a frame that has ended is complete (R148). -/
def Dev.completeCopy (d : Dev) (f : Frame) : Dev :=
  match f.copy, d.entryOf 4 (.copy f.n) with
  | some b, some e => d.completeEntry 4 e.kind e.esn (rxWords .verify f b e.esn false (frameReason f))
  | _, _ => d

/-- A frame leaves the lane: its hold slot, its place in the reserve and its place in the input buffer are free, and its
PTP copy is complete (R46, R71, R111). -/
def Dev.finishFrame (d : Dev) (l : Lane) (f : Frame) : Dev :=
  let d1 := d.setLane l ((d.lane l).remove f.n)
  let d2 := { d1 with reserve := d1.reserve.filter fun e => !(e.lane == l && e.n == f.n) }
  let d3 : Dev := match f.slot with
    | some s => if f.stage = Stage.divert then d2 else d2.dropHold s
    | none => d2
  d3.completeCopy f

/-! ### The input buffer and the restart reserve (R46, R70, R71, R73, R114, R115) -/

/-- Does the frame occupy the input buffer? -/
def Frame.inBuffer (f : Frame) : Bool :=
  match f.stage with
  | .input => true
  | .egress => f.slot.isNone && !f.asHeld
  | _ => false

/-- Bytes of the input buffer in use (R46). -/
def LaneSt.bufferUsed (x : LaneSt) : Nat :=
  (x.frames.filter Frame.inBuffer).foldl (fun n f => n + f.rx.body.length) 0

/-- Store bytes in the reserve from offset `off`, which wraps. -/
def Dev.rsvPut (d : Dev) (off : Nat) : Bytes → Dev
  | [] => d
  | b :: t => (d.ramPut (rsvBase + off % rsvSize) (b, false)).rsvPut (off + 1) t

/-- The header of a frame in the reserve (R114). -/
def rsvHeader (l : Lane) (f : Frame) : Bytes :=
  let body := f.rx.body
  leBytes 4 (f.n % 65536 * 2 ^ 16 + (if l = .tag then 2 ^ 12 else 0) + body.length) ++ leBytes 4 f.ts.1 ++
    leBytes 4 f.ts.2 ++ leBytes 4 (frameCheck body)

/-- Where the next frame goes in the reserve, and the bytes from the oldest frame's header to there. -/
def Dev.rsvTail (d : Dev) : Nat × Nat :=
  match d.reserve, d.reserve.getLast? with
  | h :: _, some t =>
    let tail := (t.off + t.len) % rsvSize
    let span := (tail + rsvSize - h.off) % rsvSize
    (tail, if span = 0 then rsvSize else span)
  | _, _ => (0, 0)

/-- Source number of a lane's input buffer (R271). -/
def bufSource : Lane → Nat
  | .verify => 14
  | .tag => 15

/-- A frame's first `n` bytes are read from the input buffer: the records of the read (R46, R273, R291, log entry 56). -/
def Dev.bufferRead (d : Dev) (l : Lane) (f : Frame) (n : Nat) : Dev :=
  d.innerFound 11 (bufSource l) (2048 * f.n) (f.chk.filter fun e => e.1 < n)

/-- The frame behind the write-backs of such a read (R276). -/
def Frame.mended (f : Frame) : Frame := { f with chk := mendChk f.chk }

/-- The bytes of a frame in the input buffer, each with its mark. -/
def Frame.marks (f : Frame) : List MByte :=
  f.rx.body.zipIdx.map fun b => (b.1, eccBad (Sparse.get chkDflt b.2 f.chk))

/-- The bytes of a frame as they are read where it is kept: its Buckets slot, the reserve, or the input buffer (R115). -/
def Dev.readBack (d : Dev) (l : Lane) (f : Frame) : Dev × List MByte :=
  let n := f.rx.body.length
  match f.slot, d.reserve.find? fun e => e.lane == l && e.n == f.n with
  | some s, _ => d.memRead 11 (slotAddr s) n
  | none, some e =>
    let k := min n (rsvSize - min rsvSize ((e.off + 16) % rsvSize))
    let (d1, v1) := d.memRead 11 (rsvBase + (e.off + 16) % rsvSize) k
    let (d2, v2) := d1.memRead 11 rsvBase (n - k)
    (d2, v1 ++ v2)
  | none, none => (d.bufferRead l f n, f.marks)

/-! ### The record of a failure (R57, R77, R78) -/

/-- The record of a failed frame in LANE_LAST, and its event (R57, R77, R381). -/
def Dev.failRecord (d : Dev) (l : Lane) (f : Frame) (why : FailKind) (stomp : Option Nat) : Dev :=
  let pos := stomp.getD 0x7FF
  let sid := match f.stream with | some i => i.val | none => 0
  let w := pos * 2 ^ 16 + sid * 2 ^ 6 + b2n stomp.isSome * 2 ^ 5 + b2n f.stream.isNone * 2 ^ 4 + failCode why
  let arg := match f.stream with | some i => i.val | none => 0x3FF
  (d.setReg (laneField l F.LANE_LAST_REASON).addr (BitVec.ofNat 32 w)).event l.source 1 clsTrace
    (BitVec.ofNat 32 (failCode why * 2 ^ 28 + arg)) (BitVec.ofNat 32 pos)

/-- The lane counters of a failure (R78). -/
def Dev.failCount (d : Dev) (l : Lane) (f : Frame) (why : FailKind) : Dev :=
  let d1 := if f.verify ∧ why ≠ .lane then d.cnt l cVERIFY_FAIL 1 else d
  match failCounter why with
  | some k => d1.cnt l k 1
  | none => d1

/-- Discard of a frame before egress, counted in counter `k`. -/
def Dev.discard (d : Dev) (l : Lane) (f : Frame) (k : Fin 31) : Dev :=
  ((d.cnt l k 1).commitFrame f .discarded).finishFrame l f

/-- A failed frame is discarded before its egress (R59). -/
def Dev.failBefore (d : Dev) (l : Lane) (f : Frame) (why : FailKind) : Dev :=
  ((d.failCount l f why).failRecord l f why none).discard l { f with failed := some why } cDISCARD_PRE

/-- A frame as it is kept for its replay from the reserve. -/
def Frame.again (f : Frame) : Frame :=
  { newFrame f.n f.rx f.ts with copy := f.copy, mismatched := f.mismatched }

/-- A frame goes to the restart reserve (R70, R114); a poisoned one is not replayed and fails (R72); one that does not fit
is lost with a LOST marker, and the context it matched counts it (R73, R108, R385). -/
def Dev.toReserve (d : Dev) (l : Lane) (f : Frame) : Dev :=
  let body := f.rx.body
  let len := 16 + ceilDiv body.length 4 * 4
  let (d1, bs) := d.readBack l f
  let (tail, span) := d1.rsvTail
  if anyPoison bs then d1.failBefore l f .poison
  else if d1.partOwned 0x32 ∧ span + len ≤ rsvSize then
    let d2 := d1.rsvPut tail (rsvHeader l f ++ padTo (ceilDiv body.length 4 * 4) body)
    let d3 := match f.slot with | some s => d2.dropHold s | none => d2
    ({ d3 with reserve := d3.reserve ++ [(⟨l, f.n, tail, len⟩ : RsvEntry)] }).putFrame l { f.again with stage := .reserve }
  else
    let stream := match f.stream.or (d1.classify l body) with | some i => i.val | none => 0x3FF
    let d2 := d1.cnt l cRESERVE_LOST 1
    let d3 := match f.stream with | some i => d2.statsOf i f .discarded | none => d2
    (d3.finishFrame l f).event l.source 4 clsFault (BitVec.ofNat 32 stream) (BitVec.ofNat 32 f.rx.len)

/-! ### Ingress (R44, R46, R47, R56, R408) -/

/-- At a frame boundary of the lane's ingress, a cleared ENABLE and a change of mode take effect (R47, R56). -/
def Dev.laneBoundary (d : Dev) (l : Lane) : Dev :=
  let saf := d.flag (laneField l F.LANE_CFG_SAF_FORCE) || d.linkSpeed .a != d.linkSpeed .b
  let d1 := (d.setLane l { d.lane l with saf := saf }).put (laneField l F.LANE_STAT_SAF) (b2n saf)
  if !d1.flag (laneField l F.LANE_CFG_ENABLE) ∧ (d1.lane l).open_ then
    let d2 := d1.setLane l { d1.lane l with open_ := false }
    if d2.laneState l = laneRUN then d2.setLaneState l laneOFF else d2
  else d1

/-- Is the frame taken by the management function (R49, R408)? -/
def Dev.isMgmt (d : Dev) (l : Lane) (bs : Bytes) : Bool :=
  let mac := d.get F.WOHIAL_MGMT_MAC_LO_MAC + 2 ^ 32 * d.get F.WOHIAL_MGMT_MAC_HI_MAC
  l == .tag && mac != 0 && leNat (slice bs 0 6) == mac && etypeOf bs == d.get F.WOHIAL_MGMT_MAC_HI_ETYPE

/-- A frame enters the lane with the next arrival number. -/
def Dev.enterLane (d : Dev) (l : Lane) (rx : RxFrame) : Dev × Frame :=
  let x := d.lane l
  let f := newFrame x.arrivals rx (d.stampAt rx.fine)
  (d.setLane l { x with arrivals := x.arrivals + 1, frames := x.frames ++ [f] }, f)

/-- RX_FRAME (R44, R46, R47, R73, R78); no frame is admitted before the fill of Buckets ends (R281). A frame that FAILED or
the fill keeps out is counted in LANE_OFF too (DESIGN CHOICE, log entry 59). -/
def Dev.rxFrameOp (d : Dev) (l : Lane) (rx : RxFrame) : Dev :=
  if !d.on .pump ∨ !d.linkUp l.ingress then d
  else
    let d1 := ((d.linkReceives l.ingress rx.len).cnt l cRX_FRAMES 1).cnt l cRX_BYTES rx.len
    if isMacControl rx.bytes then d1.cnt l cMAC_CONTROL 1
    else
      let d2 := d1.laneBoundary l
      let st := d2.laneState l
      let takes := d2.filled[1] ∧ st ≠ laneFAILED ∧ d2.flag (laneField l F.LANE_CFG_ENABLE)
      if !decide takes then d2.cnt l cLANE_OFF 1
      else if st = laneRESTART ∨ st = laneCATCH_UP then
        let (d3, f) := d2.enterLane l rx
        d3.toReserve l f
      else if 4096 < (d2.lane l).bufferUsed + 1536 then d2.cnt l cLANE_OVERRUN 1
      else (d2.enterLane l rx).1

/-! ### Lookup (R48 to R56, R86, R94, R96, R111, R148) -/

/-- Is an action permitted on the lane (R52)? -/
def actionOk (l : Lane) (a : Nat) : Bool :=
  match l with
  | .verify => a != 1 && a != 7
  | .tag => a != 4 && a != 7

/-- Store a frame's bytes in a Buckets slot, with their marks (R72, R111, R139). -/
def Dev.toSlot (d : Dev) (l : Lane) (s : Nat) (f : Frame) : Dev :=
  let x := d.readBack l f
  x.1.ramPutAll (slotAddr s) x.2

/-- The PTP copy of a frame (R148, R149). -/
def Dev.ptpCopy (d : Dev) (l : Lane) (f : Frame) : Dev × Frame :=
  if l = .verify ∧ f.copy.isNone ∧ isPtp f.rx.bytes ∧ d.flag F.TIME_CTRL_PTP_COPY then
    match d.freeDivert with
    | none => (d.dropEntry 4, f)
    | some s =>
      match d.reserveSlot 4 0 (.copy f.n) (some s) with
      | (d1, true) => ((d1.takeDivert s).toSlot l s f, { f.mended with copy := some s })
      | (d1, false) => (d1, f)
  else (d, f)

/-- A frame that the management function takes (R49, R409). -/
def Dev.mgmtTake (d : Dev) (l : Lane) (f : Frame) : Dev :=
  let d1 := d.cnt l cMGMT_TAKEN 1
  match d1.freeDivert with
  | none => (d1.dropEntry 2).finishFrame l f
  | some s =>
    match d1.reserveSlot 2 0 (.frame l f.n) (some s) with
    | (d2, true) =>
      let d3 := (d2.takeDivert s).toSlot l s f
      ({ d3 with reserve := d3.reserve.filter fun e => !(e.lane == l && e.n == f.n) }).putFrame l
        { f.mended with looked := true, mgmt := true, stage := .divert, slot := some s, action := 5, ring := 2 }
    | (d2, false) => d2.finishFrame l f

/-- What the context gives a frame at lookup (R52, R82, R94). -/
def Dev.withCtx (d : Dev) (l : Lane) (f : Frame) (i : Fin 1024) : Frame :=
  let a := d.ctx i F.CTX_ACTION
  let action := if actionOk l a then a else 6
  let verify := action = 2 ∨ action = 3 ∨ action = 4 ∨ (action = 5 ∧ d.ctx i F.CTX_KEYED = 1)
  let t := ptp62 f.ts.1 f.ts.2
  { f with
    stream := some i
    action := action
    ring := d.ctx i F.CTX_RING
    verify := decide verify
    guard := d.reg (ctxWord i 0x14)
    timeCfg := d.reg (ctxWord i 0x18)
    elig0 := decide verify && d.eligible i false t
    elig1 := decide verify && d.eligible i true t }

/-- The epoch slot that a TAG frame uses (R96). -/
def Dev.tagChoice (d : Dev) (i : Fin 1024) (t : Nat) : Option Bool :=
  let armed (s : Bool) := d.epState i s == epARMED && decide (d.tSw i ≤ t)
  let cur (s : Bool) := d.epState i s == epCURRENT
  if armed false then some false
  else if armed true then some true
  else if cur false then some false
  else if cur true then some true
  else none

/-- Counts reserved under the slot by earlier frames of the stream (R96). -/
def Dev.tagAhead (d : Dev) (i : Fin 1024) (s : Bool) (n : Nat) : Nat :=
  ((d.laneT.frames).filter fun g => g.n < n && g.stream == some i && g.tagSlot == some s).length

/-- Bytes of a context that a frame consumes (R72, R83): match words, action and guards; with TAG the epochs and the switch
time too, and the window with a verifying action (log entry 56). -/
def Frame.consumes (f : Frame) : Nat := if f.verify then 0x70 else if f.action = 1 then 0x50 else 0x20

/-- Does one of those words carry poison? -/
def Dev.ctxSpoilt (d : Dev) (f : Frame) (i : Fin 1024) : Bool :=
  (List.range (f.consumes / 4)).any fun k => d.ctxPoisoned (ctxWord i (4 * k))

/-- The failures known at lookup, the lowest code first, and the count that a TAG frame reserves (R51, R57, R72, R86, R95,
R96). -/
def Dev.lookupFail (d : Dev) (f : Frame) (i : Fin 1024) : Frame :=
  let proto := isGoose f.rx.bytes || isSv f.rx.bytes
  let other := if d.ctxSpoilt f i then some .poison else none
  if f.action = 1 then
    match d.tagChoice i (ptp62 f.ts.1 f.ts.2) with
    | none => { f with failed := some .key }
    | some s =>
      if 0xFFFFFFFF ≤ d.ep i s F.CTX_EP_COUNT + d.tagAhead i s f.n then { f with failed := some .key }
      else { f with tagSlot := some s, failed := if !proto ∨ f.rx.deep.ext.isSome then some .format else other }
  else if f.verify ∧ !f.elig0 ∧ !f.elig1 then { f with failed := some .key }
  else if f.verify ∧ !proto then { f with failed := some .format }
  else { f with failed := other }

/-- The algorithm code under which a TAG frame is tagged. -/
def Dev.tagAlg (d : Dev) (f : Frame) : Nat :=
  match f.stream, f.tagSlot with
  | some i, some s => d.ep i s F.CTX_EP_ALG
  | _, _ => 0

/-- Bytes of the extension that an algorithm's value ends (R55, R89, log entry 9). -/
def tagLength (alg : Nat) : Nat := Config.extensionFront alg + valueLen alg

/-- The length of a TAG frame's output, by its header's Length (R55, R91): header, APDU, extension, trailer and FCS. -/
def tagOutput (f : RxFrame) (alg : Nat) : Nat :=
  etypeAt f.body + 2 + lengthOf f.body + tagLength alg + (if trailed f then 6 else 0) + 4

/-- Slots and disposition at lookup (R53, R55, R56, R111). -/
def Dev.place (d : Dev) (l : Lane) (f : Frame) : Dev :=
  let inReserve := f.stage = .reserve
  if f.action = 1 ∧ 1536 < tagOutput f.rx (d.tagAlg f) ∧ f.tagSlot.isSome ∧ f.failed.isNone then
    (d.cnt l cTAG_OVERSIZE 1).discard l f cDISCARD_PRE
  else if f.action = 5 then
    match d.freeDivert with
    | none => ((d.dropEntry f.ring).cnt l cHOLD_FULL 1).discard l f cDISCARD_PRE
    | some s =>
      match d.reserveSlot f.ring 0 (.frame l f.n) (some s) with
      | (d1, true) =>
        let d2 := (d1.takeDivert s).toSlot l s f
        ({ d2 with reserve := d2.reserve.filter fun e => !(e.lane == l && e.n == f.n) }).putFrame l
          { f.mended with stage := .divert, slot := some s }
      | (d1, false) => (d1.cnt l cHOLD_FULL 1).discard l f cDISCARD_PRE
  else if f.action = 6 then d.putFrame l f
  else if (f.action = 3 ∨ f.action = 4 ∨ f.asHeld) ∧ !decide inReserve then
    match d.freeHold with
    | none => (d.cnt l cHOLD_FULL 1).discard l f cDISCARD_PRE
    | some s => ((d.takeHold s).toSlot l s f).putFrame l { f.mended with stage := .held, slot := some s }
  else d.putFrame l f

/-- LOOKUP (R48): the context that matches is fetched, 256 bytes. A frame of the reserve that matches none counts in
NO_MATCH at each lookup (DESIGN CHOICE, log entry 59). -/
def Dev.lookupOp (d : Dev) (l : Lane) (n : Nat) : Dev :=
  match d.frame l n with
  | none => d
  | some f =>
    if f.looked ∨ !d.on .pump ∨ !(f.stage = .input ∨ (f.stage = .reserve ∧ d.laneState l = laneCATCH_UP)) then d
    else if d.isMgmt l f.rx.body then d.mgmtTake l f
    else
      let (d1, f1) := d.ptpCopy l f
      let held := (d1.lane l).saf || f1.stage == .reserve
      match d1.classify l f.rx.body with
      | some i =>
        let d2 := d1.ctxReads 11 (ctxWord i 0) 64
        d2.place l (d2.lookupFail { d2.withCtx l f1 i with looked := true, asHeld := held } i)
      | none =>
        (d1.cnt l cNO_MATCH 1).place l { f1 with
          looked := true
          asHeld := held
          action := d1.get (laneField l F.LANE_CFG_NOMATCH)
          ring := d1.get (laneField l F.LANE_CFG_NOMATCH_RING) }

/-! ### Verdict (R57, R58, R95, R102 to R107) -/

/-- The counter fields of a frame, where the parse gives them. -/
def seqOf (f : RxFrame) : Option (Nat × Nat) :=
  if isGoose f.bytes then
    match f.deep.stNum, f.deep.sqNum with
    | some a, some b => some (a.toNat, b.toNat)
    | _, _ => none
  else
    match f.deep.smpCnt with
    | some s :: _ => some (s.toNat, 0)
    | _ => none

/-- The smpCnt values of a frame. -/
def cntsOf (f : RxFrame) : List Nat := f.deep.smpCnt.map fun c => (c.getD 0).toNat

/-- RANGE and ALIGN of a frame by its ASDUs alone: such a frame is not placed (R102). -/
def Frame.shape (f : Frame) : Nat :=
  if isGoose f.rx.bytes then 0 else svShape (guardM f.guard) (guardN f.guard) (cntsOf f.rx)

/-- The window's judgement of a frame that is placed, against what earlier frames have left (R104, R105). -/
def Dev.judgeFrame (d : Dev) (l : Lane) (i : Fin 1024) (f : Frame) (q : Nat × Nat) : Judge :=
  judgeSeq (d.winView l i f.n) (guardM f.guard) (guardN f.guard) (pendSeq f.rx.bytes q) (f.ts.1 % 2 ^ 32, f.ts.2)

/-- The epochs of a stream that are eligible for the frame and still held (R94, R95). -/
def Dev.usable (d : Dev) (f : Frame) (i : Fin 1024) : List Bool :=
  [false, true].filter fun s => (if s then f.elig1 else f.elig0) && d.epState i s != epVACANT

/-- Does the frame's value match under epoch slot `s` (R95)? -/
def Dev.valueMatches (d : Dev) (l : Lane) (f : Frame) (i : Fin 1024) (x : Ext) (s : Bool) : Bool :=
  let bs := f.rx.body
  match (d.lane l).entry (d.epSlot i s) with
  | some e => slice bs x.valLo x.valLen ==
      authValue (d.ep i s F.CTX_EP_ALG) e.key x.iv (slice bs x.spanLo (x.spanHi - x.spanLo))
  | none => false

/-- TIME of an SV frame (R107). -/
def Dev.timeClass (d : Dev) (f : Frame) : Nat :=
  if isSv f.rx.bytes ∧ f.guard.getLsbD 20 ∧ d.timeLocked ∧
      timeFlag f.guard f.timeCfg ((cntsOf f.rx).headD 0) f.ts.2 then cTIME else 0

/-- Why a frame fails, none where it passes, and what its tentative update holds: a frame that fails for CONTINUITY keeps
the classes it was flagged with (R106, R108). -/
abbrev Judged := Option FailKind × Option Pending

/-- Replay and continuity of a frame whose value is right (R104, R106). -/
def Dev.judgeSequence (d : Dev) (l : Lane) (f : Frame) (i : Fin 1024) (slot : Bool) : Judged :=
  let fatal := bitsOf f.guard.toNat 31 24
  let close (placed : Option (Nat × Nat)) (classes lost : Nat) : Judged :=
    let c := classes + d.timeClass f
    (if c &&& fatal ≠ 0 then some .continuity else none, some ⟨some slot, placed, c, lost⟩)
  match seqOf f.rx with
  | none => (some .format, none)
  | some q =>
    if f.shape ≠ 0 then close none f.shape 0
    else
      match d.judgeFrame l i f q with
      | .replay => (some .replay, none)
      | .fresh _ classes lost => close (if classes &&& cALIGN = 0 then some q else none) classes lost

/-- The bound C of R58 in ns. -/
def computeNs (alg speed : Nat) : Nat := if alg = 1 then (if speed = 2 then 1476 else 1176) else 96

/-- Is the verdict formed before the frame's last byte enters, by the bound of R58 (log entry 27)? -/
def Dev.verdictFirst (d : Dev) (l : Lane) (f : Frame) (x : Ext) : Bool :=
  let speed := d.linkSpeed l.ingress
  let bt := byteNs speed
  let c := computeNs ((x.alg.map Fin.val).getD 0) speed
  decide (max (x.spanHi * bt + c) (x.valEnd * bt) + 12 < f.rx.len * bt)

/-- The value stage (R95): the epoch whose value the frame carries, the one of slot 0 where both do (DESIGN CHOICE, log entry
61), and the sequence judgement. -/
def Dev.judgeValue (d : Dev) (l : Lane) (f : Frame) (i : Fin 1024) (x : Ext) (cs : List Bool) : Judged :=
  match cs.find? fun s => d.valueMatches l f i x s with
  | none => (some .value, none)
  | some s => d.judgeSequence l f i s

/-- The verdict of a verifying frame (R57, R95): the reason that becomes known first, the lowest code on one edge. -/
def Dev.judge (d : Dev) (l : Lane) (f : Frame) (i : Fin 1024) : Judged :=
  match f.rx.deep.ext with
  | none => (some .format, none)
  | some x =>
    if formatEarly f.rx then (some .format, none)
    else
      match d.usable f i with
      | [] => (some .key, none)
      | us =>
        match us.filter fun s => x.alg.any fun a => a.val == d.ep i s F.CTX_EP_ALG && x.valLen == valueLen a.val with
        | [] => (some .algorithm, none)
        | cs =>
          if formatLate f.rx then
            if d.verdictFirst l f x then
              let r := d.judgeValue l f i x cs
              (r.1.or (some .format), r.2)
            else (some .format, none)
          else d.judgeValue l f i x cs

/-- Has all that the verdict needs entered the lane (R4, R58)? -/
def judgeable (f : RxFrame) : Bool := f.len ≤ 1536 || f.deep.ext.all fun x => x.valEnd ≤ 1536

/-- VERDICT (R57): the tentative update of a frame that passes, or the reason for which it fails. -/
def Dev.verdictOp (d : Dev) (l : Lane) (n : Nat) : Dev :=
  match d.frame l n with
  | none => d
  | some f =>
    if !f.looked ∨ f.mgmt ∨ f.verdict ∨ f.failed.isSome ∨ !d.on .pump then d
    else if f.verify then
      match f.stream with
      | none => d
      | some i =>
        if judgeable f.rx then
          let r := d.judge l f i
          d.putFrame l { f with verdict := true, failed := r.1, pend := r.2 }
        else d
    else d.putFrame l { f with verdict := true }

/-- REPLAY_EARLY (R105): the counter fields have entered; a frame that is not fresh fails for good. -/
def Dev.replayEarlyOp (d : Dev) (l : Lane) (n : Nat) : Dev :=
  match d.frame l n with
  | none => d
  | some f =>
    if !f.looked ∨ !f.verify ∨ f.verdict ∨ f.failed.isSome ∨ !d.on .pump then d
    else
      match f.stream, seqOf f.rx with
      | some i, some q =>
        if f.shape = 0 ∧ d.judgeFrame l i f q = .replay then d.putFrame l { f with failed := some .replay } else d
      | _, _ => d

/-! ### Failures (R59, R60, R70) -/

/-- Padding that TAG removes: it exists only in a frame of 64 bytes (R51, R91). -/
def tagPadding (f : RxFrame) : Nat := if f.len = 64 then tailAt f - f.deep.apduEnd else 0

/-- The position at which byte `q` of a received frame leaves, none for a byte that is not sent on (R53, R91). -/
def Frame.sentAt (f : Frame) (alg q : Nat) : Option Nat :=
  let e := f.rx.deep.apduEnd
  if f.action ≠ 1 ∨ q < e then some q
  else if e + tagPadding f.rx ≤ q ∧ q + 4 < f.rx.body.length then some (q + tagLength alg - tagPadding f.rx)
  else none

/-- The first position at which a frame in the input buffer sends a byte that carries poison (R72). -/
def Dev.poisonAt (d : Dev) (f : Frame) : Option Nat :=
  ((f.chk.filter fun e => eccBad e.2).filterMap fun e => f.sentAt (d.tagAlg f) e.1).min?

/-- The position of a stomp (R60): a VALUE failure stomps no later than the value's last byte (R62), a byte that carries
poison at its own position (R72). -/
def Dev.stompAt (d : Dev) (f : Frame) (why : FailKind) (p : Nat) : Nat :=
  match why with
  | .value => (f.rx.deep.ext.map fun x => min p (x.valEnd - 1)).getD p
  | .poison => (d.poisonAt f).getD p
  | _ => p

/-- The egress of a frame is stomped at `p`: no byte from there on leaves (R60, R61). -/
def Dev.stomp (d : Dev) (o : Port) (e : Egress) (p : Nat) : Dev :=
  d.setEgress o (some { e with
    src := .orphan
    bytes := stompedBytes e.bytes p
    stomp := some p
    tail := stompTail (byteReps (d.linkSpeed o)) e.bytes p })

/-- A frame fails for `why` (R59, R60): a diverted frame records it, a frame in egress is stomped, by the last byte of its
output, any other is discarded before egress. -/
def Dev.failFrame (d : Dev) (l : Lane) (f : Frame) (why : FailKind) (p : Nat) : Dev :=
  let f1 := { f with failed := some why }
  match f.stage, d.egress l.egress with
  | .divert, _ => ((d.failCount l f why).failRecord l f why none).putFrame l { f1 with reported := true }
  | .egress, some e =>
    if e.src = .lane l f.n ∧ e.stomp.isNone then
      let q := min (d.stompAt f why p) (e.bytes.length - 1)
      let d1 := ((((d.bufferRead l f (q + 1)).failCount l f why).failRecord l f why (some q)).cnt l cSTOMPED 1).commitFrame
        f1 .stomped
      (d1.finishFrame l f1).stomp l.egress e q
    else d
  | .egress, none => d
  | _, _ => d.failBefore l f why

/-- Does FORMAT decide a frame of which the MAC knows a failure only with its last byte, or later (R51, R57)? -/
def Frame.formatFirst (f : Frame) : Bool := f.looked && f.verify && !f.mgmt && formatBad f.rx

/-- Does the MAC's failure of a frame decide it for `why`? -/
def Frame.macFails (f : Frame) (why : FailKind) : Bool :=
  macFail f.rx == some why && !(f.formatFirst && (why == .runt || why == .fcs || why == .abort))

/-- The failure of a frame that can become known now. The poison of the input buffer is known where the frame's bytes are
read: at egress, or with their move to Buckets (R72). -/
def Dev.failureIs (d : Dev) (f : Frame) (why : FailKind) : Bool :=
  match f.failed with
  | some k => decide (k = why)
  | none =>
    f.macFails why || (why == .poison && (if f.stage = .egress then (d.poisonAt f).isSome
      else f.poisoned && (f.stage == .held || f.stage == .divert)))

/-- FRAME_FAILURE (R59, R60). -/
def Dev.frameFailureOp (d : Dev) (l : Lane) (n : Nat) (why : FailKind) (p : Nat) : Dev :=
  match d.frame l n with
  | none => d
  | some f =>
    if !d.on .pump ∨ !d.failureIs f why ∨ (f.stage = .reserve ∧ d.laneState l ≠ laneCATCH_UP) then d
    else if f.reported then d
    else d.failFrame l f why p

/-! ### Egress (R53, R59, R64 to R66) -/

/-- A frame under TAG up to its value: the header with the new Length and reserved words, the APDU, and the extension's bytes
before the value (R91, log entry 9). -/
def tagFront (f : RxFrame) (alg keyId : Nat) : Bytes :=
  let bs := f.body
  let n := Config.extensionFront alg
  (reheaded bs (lengthOf bs + tagLength alg) (Config.reservedWith (tagLength alg) (reservedOf bs))).take f.deep.apduEnd ++
    padTo n ((Config.extensionBytes alg keyId).take n)

/-- The frame that TAG sends: the extension behind the APDU, its value computed over the frame as sent, no padding, the
trailer with its size corrected, and a new FCS (R68, R90, R91). -/
def tagFrame (f : RxFrame) (alg keyId : Nat) (key : Bytes) : Bytes :=
  let front := tagFront f alg keyId
  let span := Config.tagSpan front
  let value := authValue alg key (Config.tagIv front) (slice front span.1 (span.2 - span.1))
  let rest := f.deep.apduEnd + tagPadding f
  withFcs (front ++ value ++ slice f.body rest (tailAt f - rest) ++ trailerOf f (tagLength alg) (tagPadding f))

/-- The frame that STRIP sends: the extension from the APDU's end to the value's removed, Length and reserved words
restored, zero padding to 64 bytes before a trailer, whose size is corrected, and a new FCS (R68, R92). -/
def stripFrame (f : RxFrame) (x : Ext) : Bytes :=
  let bs := f.body
  let n := x.valEnd - f.deep.apduEnd
  let head := (reheaded bs (lengthOf bs - n) (Config.reservedWithout (reservedOf bs))).take f.deep.apduEnd ++
    slice bs x.valEnd (tailAt f - x.valEnd)
  let pad := 60 - (head.length + (if trailed f then 6 else 0))
  withFcs (head ++ List.replicate pad 0 ++ trailerOf f pad n)

/-- The bytes that leave when nothing stomps them (R53, R91, R92). -/
def Dev.outBytes (d : Dev) (l : Lane) (f : Frame) : Bytes :=
  if f.action = 1 then
    match f.stream, f.tagSlot with
    | some i, some s =>
      let key := match (d.lane l).entry (d.epSlot i s) with | some e => e.key | none => []
      tagFrame f.rx (d.ep i s F.CTX_EP_ALG) (d.ep i s F.CTX_EP_KEYID) key
    | _, _ => f.rx.body
  else if f.action = 4 then
    match f.rx.deep.ext with
    | some x => stripFrame f.rx x
    | none => f.rx.body
  else f.rx.body

/-- A frame begins its egress, or is discarded where the port is down (R65). -/
def Dev.begin (d : Dev) (l : Lane) (f : Frame) : Dev :=
  let p := l.egress
  if d.linkUp p then
    ((d.setEgress p (some ⟨.lane l f.n, d.outBytes l f, none, [], false, d.stamp⟩)).putFrame l { f with stage := .egress }).linkActive p
  else d.discard l f cEGRESS_DOWN

/-- Must frame `g` leave before `f` (R66)? Diverted and dropped frames never leave. -/
def Frame.before (g f : Frame) : Bool :=
  g.n < f.n && g.stage != .divert && !(g.looked && g.action == 6) && (f.asHeld || !g.looked || g.stream == f.stream)

/-- Is a held frame, or a frame of the reserve in catch-up, ready for release (R64, R66, R71)? -/
def Dev.releasable (d : Dev) (l : Lane) (f : Frame) : Bool :=
  f.looked && f.verdict && f.failed.isNone && (macFail f.rx).isNone &&
  (f.stage == .held || (f.stage == .reserve && d.laneState l == laneCATCH_UP && f.action != 5 && f.action != 6)) &&
  !((d.lane l).frames.any fun g => g.before f)

/-- Release of a held frame: it is read back and its check value recomputed (R64, R115). -/
def Dev.release (d : Dev) (l : Lane) (f : Frame) : Dev :=
  let (d1, bs) := d.readBack l f
  if anyPoison bs ∨ frameCheck (bs.map Prod.fst) ≠ frameCheck f.rx.body then d1.failFrame l f .poison 0
  else d1.begin l f

/-- Is a cut-through frame of the lane waiting for its start (R63, R65)? -/
def Dev.cutReady (d : Dev) (l : Lane) : Option Frame :=
  if d.on .pump then
    (d.lane l).frames.find? fun f =>
      f.looked && f.stage == .input && f.action ≤ 2 && f.failed.isNone &&
        !((d.lane l).frames.any fun g => g.before f)
  else none

/-- Is a frame of the reserve ready, in catch-up (R65, R71)? -/
def Dev.catchUpReady (d : Dev) (l : Lane) : Option Frame :=
  (d.lane l).frames.find? fun f => f.stage == .reserve && d.releasable l f

/-- The held frame that is ready for release first. -/
def Dev.heldReady (d : Dev) (l : Lane) : Option Frame :=
  (d.lane l).frames.find? fun f => f.stage == .held && d.releasable l f

/-- Is a frame staged from the ring? -/
def Dev.stagedFrom (d : Dev) (r : Nat) : Option Staged := d.staging.find? fun s => s.ring == r

/-- HOLD_RELEASE (R64): at a free egress with no frame of a higher choice waiting (R65). -/
def Dev.holdReleaseOp (d : Dev) (l : Lane) (n : Nat) : Dev :=
  match d.frame l n with
  | none => d
  | some f =>
    let higher := f.stage = .held ∧ ((d.cutReady l).isSome ∨ (l.egress = .a ∧ (d.stagedFrom 5).isSome))
    if d.on .pump ∧ (d.egress l.egress).isNone ∧ d.releasable l f ∧ !decide higher then d.release l f else d

/-- A frame whose scheduled start finds the egress busy waits, and is counted once (R65). -/
def Dev.egressBusy (d : Dev) (p : Port) : Dev :=
  let l := p.laneTo
  match d.cutReady l with
  | some f => if f.waited then d else (d.cnt l cEGRESS_WAIT 1).putFrame l { f with waited := true }
  | none => d

/-- The counters of a frame whose last byte has been handed (R78). A verified frame counts in VERIFY_OK here, or with its
descriptor, and not at its verdict (DESIGN CHOICE, log entry 59). -/
def Dev.sentCount (d : Dev) (l : Lane) (f : Frame) (bytes : Nat) : Dev :=
  let d1 := (d.cnt l cTX_FRAMES 1).cnt l cTX_BYTES bytes
  let d2 := if f.verify then d1.cnt l cVERIFY_OK 1 else d1
  if f.action = 0 then d2.cnt l cPASSED 1
  else if f.action = 1 then d2.cnt l cTAGGED 1
  else if f.action = 4 then d2.cnt l cSTRIPPED 1
  else d2

/-- The egress of a lane's frame ends (R54, R65). -/
def Dev.egressDone (d : Dev) (p : Port) : Dev :=
  match d.egress p with
  | some e =>
    match e.src with
    | .lane l n =>
      match d.frame l n with
      | some f =>
        if f.failed.isSome ∨ (macFail f.rx).isSome ∨ (f.verify ∧ !f.verdict) ∨ (d.poisonAt f).isSome then d
        else (((((d.bufferRead l f f.rx.body.length).sentCount l f e.bytes.length).commitFrame f .sent).finishFrame l f).setEgress p none).linkActive p
      | none => d.setEgress p none
    | .orphan => d.setEgress p none
    | .ring _ => d
  | none => d

/-- A frame under DROP ends (R53). -/
def Dev.dropDone (d : Dev) (l : Lane) (n : Nat) : Dev :=
  match d.frame l n with
  | some f =>
    if f.looked ∧ f.action = 6 ∧ f.failed.isNone ∧ (macFail f.rx).isNone then
      (d.cnt l cDROPPED 1).discard l f cDISCARD_PRE
    else d
  | none => d

/-- A diverted frame has ended and its verdict, if it is verified, is known: its descriptor is complete (R53, R125). -/
def Dev.divertDone (d : Dev) (l : Lane) (n : Nat) : Dev :=
  match d.frame l n with
  | some f =>
    let known := f.mgmt ∨ (f.reported ∨
      (f.failed.isNone ∧ (macFail f.rx).isNone ∧ !f.poisoned ∧ (f.verdict ∨ !f.verify)))
    if f.stage = .divert ∧ decide known then
      match f.slot, d.entryOf f.ring (.frame l n) with
      | some s, some e =>
        let reason := if f.mgmt then frameReason f else (f.failed.map failCode).getD 0
        d.completeEntry f.ring e.kind e.esn (rxWords l f s e.esn (f.verify && f.verdict) reason)
      | _, _ => d
    else d
  | none => d

/-- The descriptor of a diverted frame is posted (R54): counters and context update. -/
def Dev.divertPosted (d : Dev) (l : Lane) (n : Nat) : Dev :=
  match d.frame l n with
  | some f =>
    let d1 := if f.mgmt then d
      else
        let d2 := d.cnt l cDIVERTED 1
        (if f.verify ∧ f.failed.isNone then d2.cnt l cVERIFY_OK 1 else d2).commitFrame f .diverted
    d1.finishFrame l f
  | none => d

/-! ### Loss of a link (R43, R44, R65) -/

/-- The port goes down: a lane frame in egress is lost and counted; a staged frame completes later as EGRESS_DOWN. -/
def Dev.linkLost (d : Dev) (p : Port) : Dev :=
  match d.egress p with
  | some e =>
    match e.src with
    | .lane l n =>
      match d.frame l n with
      | some f => (d.discard l f cEGRESS_DOWN).setEgress p none
      | none => d.setEgress p none
    | .orphan => d.setEgress p none
    | .ring _ => d.setEgress p (some { e with lost := true })
  | none => d

/-- Loss of synchronisation: back to PCS synchronisation (R43). -/
def Dev.syncLossOp (d : Dev) (p : Port) : Dev :=
  if d.linkIn p .autoneg ∨ d.linkIn p .held ∨ d.linkIn p .up then (d.linkLost p).linkFromPcs p else d

/-- A write to LINKx_CTRL (R43, R45): a change of MODE restarts at SerDes lock, AN_RESTART at PCS synchronisation. -/
def Dev.linkWritten (d : Dev) (p : Port) (old acted : Nat) : Dev :=
  if d.linkGet p F.LINK_CTRL_MODE ≠ bitsOf old 0 0 then (d.linkLost p).linkFromSerdes p
  else if bitAt acted 4 ∧ !d.linkIn p .serdes then (d.linkLost p).linkFromPcs p
  else d

/-- The port's domain goes off (R16, R17): a link that was up falls (R222). -/
def Dev.linkPowerDown (d : Dev) (p : Port) : Dev :=
  let d1 := (d.linkLost p).linkFall p
  { d1.setLink p { d1.link p with step := .off, offPending := false } with
    dom := d1.dom &&& ~~~(BitVec.ofNat 8 (2 ^ p.dom.bit)) }

/-- LINK_POWER_OFF (R17): a cleared ON bit takes effect when neither direction is inside a frame. -/
def Dev.linkPowerOffOp (d : Dev) (p : Port) : Dev :=
  if (d.link p).offPending ∧ d.on p.dom ∧ (d.egress p).isNone ∧ (d.link p).rxUntil ≤ d.now then d.linkPowerDown p else d

/-- A write to PWR_REQ (R17): `old` is the word before. -/
def Dev.pwrReqWritten (d : Dev) : Dev :=
  let one (x : Dev) (p : Port) (want : Bool) : Dev :=
    if want then
      if x.on p.dom then x.setLink p { x.link p with offPending := false }
      else if x.opState = stHost then x.linkPowerOn p else x
    else if x.on p.dom then x.setLink p { x.link p with offPending := true }
    else x
  one (one d .a (d.flag F.SYS_PWR_REQ_LINKA_ON)) .b (d.flag F.SYS_PWR_REQ_LINKB_ON)

/-! ### Lane checking and restart (R69 to R75) -/

/-- The pending updates of a lane are discarded, but the counts that TAG frames reserved advance (R70, R96). -/
def Dev.dropUpdates (d : Dev) : List Frame → Dev
  | [] => d
  | f :: t =>
    let d1 := match f.stream, f.tagSlot with
      | some i, some s => d.bump (epField i s F.CTX_EP_COUNT) 1
      | _, _ => d
    d1.dropUpdates t

/-- A frame whose verdict and pending update a mismatch has discarded (R70). -/
def Frame.undone (f : Frame) : Frame := { f with failed := none, verdict := false, pend := none, tagSlot := none }

/-- Move frames to the restart reserve in order (R70). -/
def Dev.allToReserve (d : Dev) (l : Lane) : List Frame → Dev
  | [] => d
  | f :: t => (d.toReserve l f.undone).allToReserve l t

/-- The frame in egress at a mismatch is stomped at `p`, with reason LANE (R57, R70); it is counted in MISMATCH alone. -/
def Dev.mismatchStomp (d : Dev) (l : Lane) (p : Nat) : Dev :=
  match d.egress l.egress with
  | some e =>
    match e.src with
    | .lane _ n =>
      let q := min p (e.bytes.length - 1)
      let d1 := match d.frame l n with | some f => d.failRecord l f .lane (some q) | none => d
      d1.stomp l.egress e q
    | _ => d
  | none => d

/-- The other lane. -/
def otherLane : Lane → Lane
  | .verify => .tag
  | .tag => .verify

/-- The records of a mismatch (R70, R77). -/
def Dev.mismatchRecord (d : Dev) (l : Lane) (point : Nat) : Dev :=
  let s := ((d.lane l).frames.find? fun f => f.stream.isSome).bind Frame.stream
  let w := (match s with | some i => i.val * 2 ^ 5 + 2 ^ 4 | none => 0) + point
  let d1 := (d.cnt l cMISMATCH 1).setReg (laneField l F.LANE_FAULT_POINT).addr (BitVec.ofNat 32 w)
  (d1.event l.source 2 clsFault (BitVec.ofNat 32 w) 0).trouble tLANE

/-- LANE_MISMATCH (R70, R74, R75): `p` is the position at which the frame in egress is stomped. -/
def Dev.laneMismatchOp (d : Dev) (l : Lane) (point p : Nat) : Dev :=
  if !d.on .pump ∨ d.laneState l = laneFAILED then d
  else
    let d1 := d.mismatchRecord l point
    let times := d1.recentMismatches l ++ [d1.now]
    let d2 := d1.mismatchStomp l p
    let x := d2.lane l
    let d3 := d2.dropUpdates x.frames
    let moving := (d3.lane l).frames.filter fun f => f.stage != .divert && f.stage != .reserve &&
      !(d3.reserve.any fun e => e.lane == l && e.n == f.n)
    let kept := (d3.lane l).frames.map fun f =>
      if f.stage = .divert then { f.undone with failed := f.failed }
      else if moving.any fun g => g.n == f.n then f.undone
      else { f.again with stage := .reserve }
    let d4 := d3.setLane l { d3.lane l with frames := kept, mismatches := times }
    let d5 := d4.allToReserve l moving
    if 3 ≤ times.length then
      { d5.setLaneState l laneFAILED with resetReq := some (d5.resetReq.getD 3) }
    else
      let o := otherLane l
      let waits := d5.laneState o = laneRESTART ∧ !(d5.lane o).waitRestart
      (d5.setLane l { d5.lane l with waitRestart := decide waits }).setLaneState l laneRESTART

/-- The key schedules are reloaded over the key port (R71, R99). -/
def Dev.reloadCache (d : Dev) (l : Lane) : Dev :=
  let d1 := (d.lane l).cache.foldl (fun x e => x.keyRead 11 e.slot.val) d
  d1.setLane l { d1.lane l with cache := (d1.lane l).cache.map fun e => { e with key := (d1.slot e.slot.val).key } }

/-- LANE_RESTART_DONE (R71, R75): CATCH_UP begins, and a waiting restart of the other lane with it. -/
def Dev.laneRestartDoneOp (d : Dev) (l : Lane) : Dev :=
  if d.on .pump ∧ d.laneState l = laneRESTART ∧ !(d.lane l).waitRestart then
    let o := otherLane l
    let d1 := ((d.reloadCache l).cnt l cRESTARTS 1).setLaneState l laneCATCH_UP
    d1.setLane o { d1.lane o with waitRestart := false }
  else d

/-- CATCH_UP_DONE (R47, R71): the lane's part of the reserve is empty. -/
def Dev.catchUpDoneOp (d : Dev) (l : Lane) : Dev :=
  if d.on .pump ∧ d.laneState l = laneCATCH_UP ∧ !d.reserve.any fun e => e.lane == l then
    let en := d.flag (laneField l F.LANE_CFG_ENABLE)
    (d.setLane l { d.lane l with open_ := en }).setLaneState l (if en then laneRUN else laneOFF)
  else d

/-- A write to LANE_CFG (R47): setting ENABLE takes effect at once. -/
def Dev.laneCfgWritten (d : Dev) (l : Lane) : Dev :=
  if d.flag (laneField l F.LANE_CFG_ENABLE) ∧ d.laneState l ≠ laneFAILED then
    let d1 := d.setLane l { d.lane l with open_ := true }
    if d1.laneState l = laneOFF then d1.setLaneState l laneRUN else d1
  else d

/-- LANE_OFF_APPLIED (R47): the frame boundary at which a cleared ENABLE takes effect. -/
def Dev.laneOffAppliedOp (d : Dev) (l : Lane) : Dev := if d.on .pump then d.laneBoundary l else d

/-! ### Counters (R78) -/

/-- First word of a lane's snapshot bank. -/
def snapBase : Lane → Nat
  | .verify => 0x40101000
  | .tag => 0x40101200

/-- A value written to CNT_CTL (R78): 1 copies the live counters, 2 copies and clears them. -/
def Dev.cntCtl (d : Dev) (l : Lane) (op : Nat) : Dev :=
  if op = 1 ∨ op = 2 then
    let d1 := (List.finRange 31).foldl (fun (x : Dev) k =>
      let v := (d.lane l).counters[k]
      (x.setReg (snapBase l + 8 * k.val) (v.extractLsb' 0 32)).setReg (snapBase l + 8 * k.val + 4) (v.extractLsb' 32 32)) d
    if op = 2 then d1.setLane l { d1.lane l with counters := Vector.replicate 31 0 } else d1
  else d

end Sys2Proof.Machine
end

