-- ==== Sys2Proof/Machine/Wellcap.lean ====
section
/-! DEFINITION. Wellcap: its sensors, the alarm edge and what it does to every block, and the alarm charge (R366, R390 to
R395). The state controller's part of the alarm response is in Power. -/
namespace Sys2Proof.Machine

/-! ### The On alarm column (R7) -/

/-- Protocol state of RFIF that the reset at the end of the response returns (R353, log entry 60). -/
def keptOnAlarm (f : Fld) : Bool := f.addr == F.RFIF_STAT_LAYER.addr && f.hi ≤ 10

/-- A register's word after the alarm. -/
def alarmWord (a : Nat) (w : Word) : Word :=
  BitVec.ofNat 32 ((fieldsAt a).foldl (fun n f =>
    if keptOnAlarm f then n
    else
      match f.alarm with
      | .keep => n
      | .zero => withBits n f.hi f.lo 0
      | .reset => withBits n f.hi f.lo (bitsOf (regReset a).toNat f.hi f.lo)) w.toNat)

/-- The column applied to every register. TAGLEN of a page is the one field that is zeroed and not zero at reset. -/
def Dev.alarmColumn (d : Dev) : Dev :=
  let pages := (List.finRange 16).foldl (fun (x : Dev) r => x.put (pageField r F.CE_CFG_TAGLEN) 0) d
  { pages with regs := pages.regs.filterMap fun e =>
      let w := alarmWord e.1 e.2
      if w = regReset e.1 then none else some (e.1, w) }

/-! ### The alarm edge (R391 to R393) -/

/-- WC_LATCH and WC_STAT bits. -/
def Dev.latched (d : Dev) (c : Nat) : Bool := bitAt (d.get F.WC_LATCH_LATCH) c
def Dev.present (d : Dev) (c : Nat) (on : Bool) : Dev :=
  let v := d.get F.WC_STAT_PRESENT
  d.put F.WC_STAT_PRESENT (withBits v c c (b2n on))

/-- Condition `c` is sensed, with its DETAIL. -/
def Dev.sense (d : Dev) (c detail : Nat) : Dev :=
  { d with wellcap := { d.wellcap with detail := d.wellcap.detail.setIfInBounds c detail } }.present c true

/-- The ownership table returns to its device-reset owners (R38). -/
def Dev.ownersReset (d : Dev) : Dev := d.own.foldl (fun x e => x.changeOwner e.1 (ownReset e.1)) d

/-- Jobs of the Windlass channels stop without completing (R136). -/
def Dev.chansStop (d : Dev) : Dev :=
  { d with
    chans := Vector.replicate 8 ⟨none, 255⟩
    chanLast := 7
    staging := []
    well := { d.well with dma := Vector.replicate 8 0 } }

/-- A flash operation that is interrupted leaves free values, page by page (log entry 5). -/
def Dev.flashStop (d : Dev) : Dev :=
  match d.flashJob with
  | some j =>
    let d1 := { d with flashJob := none }
    if j.erase then (List.range 4).foldl (fun x k => x.tear false true (512 * (j.page / 4) + 128 * k) 128) d1
    else d1.tear false false (128 * j.page) 128
  | none => d

/-- What the alarm edge does to the contactless side: the session ends, a command with firmware is withdrawn, a grant for a
frame that has not started is taken back, and the answer to an I-block that has not left is owed again, as S(WTX) alone
answers from here on (R353, R366). -/
def Dev.contactlessAlarm (d : Dev) : Dev :=
  let d1 := (d.fwLost.endSession.portRelease).energyEnd .response
  let h := { d1.hp with granted := false, stage := 0, tries := 0 }
  if d.inProtocol ∧ (d.hp.out.any fun o => o.kind == .block) then
    d1.setHp { h with out := none, rest := [], held := some (false, []), refused := false }
  else d1.setHp h

/-- What the alarm edge does to the other blocks (R76, R129, R136, R267, R312, R366). -/
def Dev.alarmBlocks (d : Dev) : Dev :=
  let d1 := d.contactlessAlarm.cstAlarm.epochsAlarm.ringsAlarm.chansStop.ceAlarm.flashStop
  let d2 := d1.alarmColumn.ownersReset
  { d2 with
    keyCmd := none
    ownResult := []
    irq := 0
    woh := { d2.woh with job := none, gen := 0 }
    integ := { d2.integ with drgNext := 0, drgAbort := false }
    well := { d2.well with cstRefused := 0, pmode := 1, pmodeTo := none }
    wdog := ⟨0, none⟩
    coreStopReq := true }

/-- The record of an alarm (R394). -/
def Dev.alarmRec (d : Dev) (cause detail : Nat) : AlarmRec :=
  let t := if d.on .pump then (d.tu.sec % 2 ^ 32, report2 d.tu.ns) else (0, 0)
  ⟨cause, detail, if d.opState = stAlarm then d.get F.SYS_PREV else d.opState, d.get F.WC_LATCH_LATCH, d.env.vhold,
    d.env.vbat, d.env.tj, d.get F.WC_LAST_ALARM_COUNT, t.1, t.2, (d.now - d.wellcap.aonUp) / 10 ^ 9, none⟩

/-- ARG0 of the alarm and core-fault events (R381). -/
def alarmArg (cause detail : Nat) : Word := BitVec.ofNat 32 (cause + 256 * detail)

/-- A LOCKSTEP mismatch or a lockup while its latch bit is set (R392). -/
def Dev.coreFaultMasked (d : Dev) (cause detail : Nat) : Dev :=
  let d1 := d.event 2 3 clsFault (alarmArg cause detail) (d.reg F.WC_LATCH_LATCH.addr)
  { d1.requestReset 6 with coreStopReq := true }

/-- The alarm edge, for a cause that is not latched; core faults that are latched are still acted on (R391, R392). -/
def Dev.alarmEdge (d : Dev) (cause detail : Nat) : Dev :=
  if d.latched cause then (if cause = 7 ∨ cause = 8 then d.coreFaultMasked cause detail else d)
  else
    let d1 := d.put F.WC_LATCH_LATCH (withBits (d.get F.WC_LATCH_LATCH) cause cause 1)
    let d2 := ((d1.bump F.WC_LAST_ALARM_COUNT 1).put F.WC_LAST_DETAIL detail).put F.WC_LAST_CAUSE cause
    let d3 := (d2.trouble tALARM).event 2 2 clsAlarm (alarmArg cause detail) (d2.reg F.WC_LATCH_LATCH.addr)
    let w := d3.wellcap
    ({ d3 with wellcap := { w with
        recs := w.recs ++ [d3.alarmRec cause detail]
        alarmAt := if d.alarming then w.alarmAt else d.now } }).alarmBlocks

/-- ALARM_EDGE: a condition is recognised. -/
def Dev.alarmEdgeOp (d : Dev) (cause detail : Nat) : Dev :=
  if d.on .aon then (d.sense cause detail).alarmEdge cause detail else d

/-! ### Sensors (R390) -/

/-- A warning bit is set; the event goes with its rise (R390, R381). Warnings need CORE. -/
def Dev.warn (d : Dev) (k : Nat) : Dev :=
  if d.on .core then
    let v := d.get F.WC_WARN_WARN
    if bitAt v k then d
    else
      let d1 := d.put F.WC_WARN_WARN (v + 2 ^ k)
      d1.event 2 1 clsFault (d1.reg F.WC_WARN_WARN.addr) (BitVec.ofNat 32 (ofInt 32 d.env.tj))
  else d

/-- MESH_SAMPLE: a mismatch schedules a resample. -/
def Dev.meshSampleOp (d : Dev) (bad : Option (Fin 8)) : Dev :=
  if d.on .aon then
    match bad with
    | some _ => { d with wellcap := { d.wellcap with resample := true } }
    | none => d.present 0 false
  else d

/-- MESH_RESAMPLE: a confirmed mismatch alarms. -/
def Dev.meshResampleOp (d : Dev) (bad : Option (Fin 8)) : Dev :=
  if d.on .aon ∧ d.wellcap.resample then
    let d1 := { d with wellcap := { d.wellcap with resample := false } }
    match bad with
    | some p => (d1.sense 0 p.val).alarmEdge 0 p.val
    | none => d1.present 0 false
  else d

/-- LIGHT: a sensor above its threshold, or none any more. -/
def Dev.lightOp (d : Dev) (sensor : Option (Fin 4)) : Dev :=
  if d.on .aon then
    match sensor with
    | none => d.present 1 false
    | some k =>
      let d1 := d.sense 1 k.val
      if d1.flag F.WC_CTL_LIGHT_EN then d1.alarmEdge 1 k.val else d1
  else d

/-- VGLITCH: a supply above its limit or TEST0 off VSS is present until it is gone; a dip is over once it is known. -/
def Dev.vglitchOp (d : Dev) (which : Glitch) : Dev :=
  if d.on .aon then
    match which with
    | .over k => (d.sense 2 k.val).alarmEdge 2 k.val
    | .dip k => d.alarmEdge 2 k.val
    | .test0 => ({ d with env := { d.env with test0Bad := true } }.sense 2 4).alarmEdge 2 4
    | .gone => { d with env := { d.env with test0Bad := false } }.present 2 false
  else d

/-- VBAT_UV: a VBAT level at an AON edge; a low cell alarms only while it feeds AON. -/
def Dev.vbatUvOp (d : Dev) (mv : Nat) : Dev :=
  if d.on .aon then
    let d1 := { d with env := { d.env with vbat := mv } }
    if mv < 2000 then
      if d1.get F.WH_STAT_AON_SRC = 0 then (d1.sense 3 0).alarmEdge 3 0
      else (d1.present 3 false).trouble tVBAT
    else if 3800 < mv then (d1.sense 3 1).alarmEdge 3 1
    else d1.present 3 false
  else d

/-- CLOCK: XIN against the internal oscillator, while PUMP is on. -/
def Dev.clockOp (d : Dev) (o : ClockObs) : Dev :=
  if d.on .pump then
    match o with
    | .stopped => (d.sense 4 2).alarmEdge 4 2
    | .deviation ppm =>
      if 50000 < ppm then (d.sense 4 0).alarmEdge 4 0
      else if ppm < -50000 then (d.sense 4 1).alarmEdge 4 1
      else if 500 < ppm ∨ ppm < -500 then (d.present 4 false).warn 0
      else d.present 4 false
  else d

/-- AON_CLOCK: sensed once the AON clock runs on the crystal (R433). -/
def Dev.aonClockOp (d : Dev) : Dev := if d.on .aon ∧ d.xtal then (d.sense 5 0).alarmEdge 5 0 else d

/-- TEMP: a sample of Tj in half degrees. -/
def Dev.tempOp (d : Dev) (tj : Int) : Dev :=
  if d.on .aon then
    let d1 := { d with env := { d.env with tj := tj } }.put F.WC_TEMP_TJ (ofInt 10 tj)
    let d2 := if tj < -84 then d1.warn 1 else if 226 < tj then d1.warn 2 else d1
    if tj < -100 then (d2.sense 6 0).alarmEdge 6 0
    else if 250 < tj then (d2.sense 6 1).alarmEdge 6 1
    else d2.present 6 false
  else d

/-- LOCKSTEP: the core pair differs (R196). -/
def Dev.lockstepOp (d : Dev) : Dev := if d.on .core then (d.sense 7 0).alarmEdge 7 0 else d

/-- Vault has cleared a latch bit, or enabled the light sensors: a condition that is present and not latched alarms (R391).
A core fault is no lasting condition: the core has stopped. -/
def Dev.alarmPersisting (d : Dev) : Dev :=
  (List.range 7).foldl (fun x c =>
    if bitAt (x.get F.WC_STAT_PRESENT) c ∧ !x.latched c ∧ (c = 1 → x.flag F.WC_CTL_LIGHT_EN)
    then x.alarmEdge c (x.wellcap.detail.toList.getD c 0) else x) d

/-! ### The alarm charge (R366, R393) -/

/-- ALARM_CHARGE_TIMEOUT: 100 ms have passed since the alarm's edge (R39, R366). -/
def Dev.alarmChargeTimeoutOp (d : Dev) : Dev :=
  if d.wellcap.charging ∧ d.mark < 3 ∧ d.wellcap.alarmAt + 100000000 < d.now then { d with wellcap := { d.wellcap with charging := false, short := true } } else d

/-- The charge has reached MARK_WRITE. -/
def Dev.alarmCharged (d : Dev) : Dev :=
  if d.wellcap.charging ∧ 3 ≤ d.mark then { d with wellcap := { d.wellcap with charging := false } } else d

end Sys2Proof.Machine
end

