-- ==== Sys2Proof/Machine/Power.lean ====
section
/-! DEFINITION. The state controller and its power domains, device resets, the fills, the clocks, and the ownership
requests (R13, R15 to R38, R281, R356, R357, R387, R393, R417, R427, R432, R433). -/
namespace Sys2Proof.Machine

/-! ### Domains and what a reset clears -/

/-- Switch a domain. -/
def Dev.setDom (d : Dev) (x : Dom) (on : Bool) : Dev :=
  let m : BitVec 8 := BitVec.ofNat 8 (2 ^ x.bit)
  { d with dom := if on then d.dom ||| m else d.dom &&& ~~~m }

/-- Registers of the addresses that `p` names return to their Reset words. -/
def Dev.dropRegs (d : Dev) (p : Nat → Bool) : Dev := { d with regs := Sparse.drop p d.regs }

/-- Is a register in the WELL domain, whose fields a loss of CORE leaves alone? -/
def inWell (a : Nat) : Bool := a / 0x10000 == 0x4001

/-- Is it a register of a firewall that lies in ISLE: SRAM bank 0's or the ISLE range's (R231)? -/
def isleFw (a : Nat) : Bool :=
  isFwReg a && ((a - 0x40032000) / 0x200 == 1 || (a - 0x40032000) / 0x200 == 14)

/-- Is the byte in SRAM bank 0, the only RAM of the ISLE domain? -/
def inBank0 (a : Nat) : Bool := ramBase ≤ a && a < ramBase + 0x20000

/-- RAM bytes that `p` names are filled with zeros (R281). -/
def Dev.clearRam (d : Dev) (p : Nat → Bool) : Dev :=
  { d with
    ram := Sparse.drop p d.ram
    chk := Sparse.drop p d.chk
    integ := { d.integ with writeBack := d.integ.writeBack.filter fun w => !p w.addr } }

/-- CORE, PUMP, the links and FLASH lose what they hold: registers, RAM, queues and lanes. What lies in AON, WELL and
ISLE stays. A command that is with firmware is answered (R24, R352); an owner other than Handpump loses the Cistern
port; frames in the lanes are lost (R26). A store on its way to an AON register is dropped (DESIGN CHOICE, log entry 63).
The fills that follow have yet to end (R281). -/
def Dev.coreLose (d : Dev) : Dev :=
  let d1 := d.fwReset.flashStop
  let d2 := if d1.owner 0x40 = 12 then d1 else d1.changeOwner 0x40 ownFree
  let port := d2.owner 0x40
  let d3 := (d2.dropRegs fun a => resetKind a == .device && !inWell a && a / 0x10000 != 0x4009 && !isleFw a).clearRam
    fun a => !inBank0 a && !inRom a
  { d3 with
    codes := { d3.codes with ctx := [] }
    coreResetReq := true
    coreStopReq := false
    filled := (d3.filled.set 0 false).set 1 false
    own := if port = 12 then [(0x40, 12)] else []
    ownResult := []
    latches := []
    aonPend := []
    sbuf := []
    impStore := none
    irq := 0
    prevFw := []
    linkA := Link.reset
    linkB := Link.reset
    laneV := LaneSt.reset
    laneT := LaneSt.reset
    egressA := none
    egressB := none
    integ := ⟨d3.integ.writeBack, [], d3.integ.remapped.filter fun r => r.1 == 0, [], [], 0, [], [], 0, false⟩
    rings := []
    chans := Vector.replicate 8 ⟨none, 255⟩
    chanLast := 7
    staging := []
    holdUsed := []
    divertUsed := []
    reserve := []
    keyCmd := none
    tu := ⟨0, 0, 0, 0, false, 0, none, 0, 0⟩
    ce := Ce.reset
    woh := ⟨0, [], none⟩
    well := { d3.well with ce := Vector.replicate 16 0, key := 0, dma := Vector.replicate 8 0, pmodeTo := none }
    boot := .fresh }

/-- The CORE side goes off: CORE, PUMP, both links and FLASH (R16, R26). -/
def Dev.coreDown (d : Dev) : Dev :=
  let d1 := d.coreLose
  { d1 with dom := d1.dom &&& 0x07, pll := false }

/-- ISLE powers up: its registers at their Reset values, the fill of bank 0 to come, the journal due (R281, R314). -/
def Dev.powerIsle (d : Dev) : Dev :=
  if d.on .isle then d
  else
    let d1 := ((d.setDom .isle true).dropRegs fun a => resetKind a == .isle || isleFw a).clearRam inBank0
    { d1 with
      filled := d1.filled.set 2 false
      hp := Hp.reset
      integ := { d1.integ with remapped := d1.integ.remapped.filter fun r => r.1 != 0 }
      cst := { d1.cst with due := true, laid := false, job := none, waiting := none, queue := [] } }

/-- ISLE goes off; a burst that runs completes first (R25). -/
def Dev.isleDown (d : Dev) : Dev :=
  if d.on .isle then
    let d1 := (d.cstPowerDown.fwLost.endProtocol lyIDLE)
    { (d1.setDom .isle false) with hp := Hp.reset }
  else d

/-! ### The state controller (R21, R22, R30) -/

/-- The operating state changes, with its record and its event. -/
def Dev.setState (d : Dev) (st cause : Nat) : Dev :=
  let d1 := (((d.put F.SYS_PREV d.opState).put F.SYS_CAUSE cause).put F.SYS_STATE st).put F.SYS_RUNLOW 0
  ((d1.event 0 1 clsState (d1.reg F.SYS_STATE.addr) 0).latchIrq 0).wdogState

/-- What the comparators of WELL show: sampled on every AON edge, so that the edge of a device reset finds it so again
(R360). What the 16 s samples left (PV_OK, VBAT_OK, PV, VBAT) is reset with the other fields. -/
def wellLive : List Fl := [F.WH_STAT_MARK, F.WH_STAT_HOST_GOOD]

/-- WELL's registers return to their Reset values, but for the comparators and the source that they select (R13, log
entry 2). -/
def Dev.wellReset (d : Dev) : Dev :=
  let d1 := (wellLive.foldl (fun (x : Dev) f => x.put f (d.get f)) (d.dropRegs inWell)).updateSource
  { d1 with well := { d1.well with cstRefused := 0, pmode := 1, pmodeTo := none, pmRead := false, pm := [] } }

/-- A device reset of the given EVT_RESET cause (R13, R387, R397, R417): what is in AON stays; the open records close. -/
def Dev.deviceReset (d : Dev) (cause : Nat) : Dev :=
  let d1 := (d.coreLose.wellReset).dropRegs fun a => (a / 0x10000 == 0x4009 && resetKind a == .device) || isleFw a
  let d2 := (d1.bump F.EVT_RESET_COUNT 1).put F.EVT_RESET_CAUSE cause
  let d3 := if 2 ≤ cause then d2.trouble tRESET else d2
  { d3 with
    resetReq := none
    evt := { d3.evt with open_ := [] }
    wdog := ⟨0, none⟩ }

/-- The domains of HOST come on, or stay on through a device reset there: the links start (R17, R43). -/
def Dev.hostOn (d : Dev) : Dev :=
  let d1 := (((d.setDom .core true).setDom .pump true).setDom .flash true).powerIsle
  (d1.linkPowerOn .a).linkPowerOn .b

/-- HOST_GOOD as the state controller treats it: 0 while TEST0 is not at VSS (R443). -/
def Dev.hostSeen (d : Dev) : Bool := d.flag F.WH_STAT_HOST_GOOD && !d.env.test0Bad

/-- HOST_GOOD: the state controller sees it risen (R22, R24), with TEST0 at VSS (R443). -/
def Dev.hostGoodOp (d : Dev) : Dev :=
  if d.opState < stHost ∧ d.hostSeen ∧ !d.alarming then
    ({ d.deviceReset 1 with pll := false }.hostOn).setState stHost 1
  else d

/-- HOST_LOSS (R22): the domains that the host supplied go off, if the supply's own loss has not taken them (R26). -/
def Dev.hostLossOp (d : Dev) : Dev :=
  if d.opState = stHost ∧ !d.hostSeen ∧ !d.alarming then
    let d1 := if d.on .core then d.coreDown else d
    if d1.env.carrier ∧ 1 ≤ d1.mark then d1.setState stPassiveRead 2 else d1.isleDown.setState stDormant 2
  else d

/-- FIELD_ON (R22). -/
def Dev.fieldOnOp (d : Dev) : Dev :=
  if d.opState = stDormant ∧ d.on .aon ∧ d.env.carrier ∧ 1 ≤ d.mark ∧ !d.alarming ∧ !d.hostSeen then
    d.powerIsle.setState stPassiveRead 3
  else d

/-- FIELD_OFF (R22). The carrier's fall yields to VHOLD's fall below 2.80 V in PASSIVE_RUN (R23); of the two falls of
VHOLD, the deeper one acts (log entry 16). -/
def Dev.fieldOffOp (d : Dev) : Dev :=
  let gone := !d.env.carrier && !(d.opState == stPassiveRun && d.env.vhold < 2800)
  if (d.opState = stPassiveRead ∨ d.opState = stPassiveRun) ∧ (gone ∨ d.env.vhold < 1700) ∧ !d.alarming ∧ !d.hostSeen then
    (if d.opState = stPassiveRun then d.coreDown else d).isleDown.setState stDormant 4
  else d

/-- RUN_REACHED (R22): the core boots from flash. -/
def Dev.runReachedOp (d : Dev) : Dev :=
  if d.opState = stPassiveRead ∧ 5 ≤ d.mark ∧ !d.alarming ∧ !d.hostSeen then
    (((d.coreLose.setDom .core true).setDom .flash true)).setState stPassiveRun 5
  else d

/-- RUN_LOST (R22). -/
def Dev.runLostOp (d : Dev) : Dev :=
  if d.opState = stPassiveRun ∧ d.env.vhold < 2800 ∧ !d.alarming ∧ !d.hostSeen then d.coreDown.setState stPassiveRead 6 else d

/-- RUNLOW (R22, R30). -/
def Dev.runlowOp (d : Dev) : Dev :=
  if d.opState = stPassiveRun ∧ d.env.vhold < 2900 then d.put F.SYS_RUNLOW 1 else d

/-- ALARM (R22, R393): the alarm event takes its ESN, ISLE is powered, and VHOLD is charged where it is below MARK_WRITE. -/
def Dev.alarmOp (d : Dev) : Dev :=
  if d.wellcap.recs.isEmpty ∨ d.opState = stAlarm then d
  else
    let d1 := d.setState stAlarm 7
    let d2 := (Dev.issueAll 2 d1.evt.queue.length d1).powerIsle
    { d2 with wellcap := { d2.wellcap with charging := decide (d2.mark < 3), short := false } }

/-- ALARM_DONE (R22, R393): a device reset, then the state that the conditions select. -/
def Dev.alarmDoneOp (d : Dev) : Dev :=
  if d.opState = stAlarm ∧ d.wellcap.recs.isEmpty then
    let d1 := (d.deviceReset 2).dropRegs fun a => a / 0x10000 == 0x400B
    let d2 := { d1 with hp := Hp.reset, wellcap := { d1.wellcap with charging := false, short := false } }
    if d2.hostSeen then d2.hostOn.setState stHost 8
    else if d2.env.carrier ∧ 1 ≤ d2.mark then d2.coreDown.powerIsle.setState stPassiveRead 8
    else d2.coreDown.isleDown.setState stDormant 8
  else d

/-- DEVICE_RESET: a request is applied (R417). In HOST the links start again. -/
def Dev.deviceResetOp (d : Dev) : Dev :=
  match d.resetReq with
  | some c =>
    if d.alarming then d
    else
      let d1 := d.deviceReset c
      if d1.opState = stHost then d1.hostOn else d1
  | none => d

/-! ### Supplies and clocks (R356, R357, R427, R432, R433) -/

/-- HOST_GOOD_QUALIFIED: the supplies, in mV, have held for 100 us; the I/O banks sense their classes. -/
def Dev.hostGoodQualifiedOp (d : Dev) (core sd io0 io1 io2 : Nat) : Dev :=
  if d.on .well ∧ 680 ≤ core ∧ 950 ≤ sd ∧ 1620 ≤ io0 ∧ !d.flag F.WH_STAT_HOST_GOOD then
    let d1 := { d with
      env := { d.env with vddCore := core, vddSd := sd, vddIo0 := io0, vddIo1 := io1, vddIo2 := io2 }
      ioClass := #v[decide (2500 ≤ io0), decide (2500 ≤ io1), decide (2500 ≤ io2)] }
    (d1.put F.WH_STAT_HOST_GOOD 1).updateSource
  else d

/-- HOST_SUPPLY_LOSS: the analogue detector clamps the domains at once, whatever the state (R26, R357). -/
def Dev.hostSupplyLossOp (d : Dev) (core sd io0 : Nat) : Dev :=
  if d.flag F.WH_STAT_HOST_GOOD ∧ (core < 660 ∨ sd < 920 ∨ io0 < 1550) then
    let d1 := { d with env := { d.env with vddCore := core, vddSd := sd, vddIo0 := io0 } }
    let d2 := if d1.on .core then d1.coreDown else d1
    (d2.put F.WH_STAT_HOST_GOOD 0).updateSource
  else d

/-- AON_UNPOWERED: no source is present, and everything but the non-volatile arrays is lost (R356). The Cistern
controller's own bookkeeping is found again by its power-up journal; it is kept here (log entry 10). -/
def Dev.aonUnpoweredOp (d : Dev) : Dev :=
  if d.on .aon ∧ d.aonSource = 0 then
    let d1 := d.isleDown.flashStop
    { Dev.reset with
      now := d1.now
      freeCount := d1.freeCount
      env := { d1.env with vbat := 0 }
      flash := d1.flash
      cstArray := d1.cstArray
      torn := d1.torn
      codes := { d1.codes with ctx := [] }
      cst := d1.cst
      dom := 0 }
  else d

/-- AON_POWER_UP (R433). -/
def Dev.aonPowerUpOp (d : Dev) : Dev :=
  if d.on .aon then d else { d with dom := 0x03, xtal := false, wellcap := { d.wellcap with aonUp := d.now } }

/-- AON_XTAL_SWITCH (R433). -/
def Dev.aonXtalSwitchOp (d : Dev) : Dev := if d.on .aon then { d with xtal := true }.present 5 false else d

/-- PLL_LOCK (R432). -/
def Dev.pllLockOp (d : Dev) : Dev := if d.on .pump then { d with pll := true } else d

/-- FILL_DONE (R281): the fill of a memory ends. In HOST the fills of CORE and PUMP need the PUMP clock. -/
def Dev.fillDoneOp (d : Dev) (mem : FillMem) : Dev :=
  match mem with
  | .coreAndPump => if d.on .core ∧ (!d.on .pump ∨ d.pll) then { d with filled := d.filled.set 0 true } else d
  | .buckets => if d.on .pump ∧ d.pll then { d with filled := d.filled.set 1 true } else d
  | .bank0 => if d.on .isle then { d with filled := d.filled.set 2 true } else d

/-! ### Resource ownership (R33 to R38) -/

/-- OWN_RESULT's word: status, index and holder. -/
def ownResultWord (status res : Nat) (holder : BitVec 5) : Word :=
  BitVec.ofNat 32 (holder.toNat * 2 ^ 16 + res * 2 ^ 8 + status)

/-- The status of a request (R33): the requester that it acts for, operation 1 CLAIM, 2 RELEASE, 3 FORCE_RELEASE. -/
def Dev.ownStatus (d : Dev) (m : Master) (op owner res : Nat) : Nat :=
  let me := if owner = 0x1F then m.val else owner
  match resourceInit res with
  | none => 3
  | some (_, releasable) =>
    if m.val ≠ 2 ∧ (owner ≠ 0x1F ∨ op = 3) then 4
    else if owner ≠ 0x1F ∧ (owner < 3 ∨ 0x10 < owner) then 4
    else if op = 1 then
      if d.owner res = ownFree ∨ (d.owner res).toNat = me then 0 else 1
    else if !releasable then 4
    else if op = 2 ∧ (d.owner res).toNat ≠ me then 2
    else 0

/-- A write to OWN_CLAIM is served (R33, R34): the table as it was before gives HOLDER (log entry 15);
for an unused index HOLDER shows FREE (DESIGN CHOICE, log entry 63). -/
def Dev.ownClaimWritten (d : Dev) (m : Master) (acted : Nat) : Dev :=
  let op := bitsOf acted 9 8
  let owner := bitsOf acted 20 16
  let res := acted % 256
  if op = 0 then d
  else
    let st := d.ownStatus m op owner res
    let holder := if st = 3 then ownFree else d.owner res
    let d1 := { d with ownResult := Sparse.ins m.val (ownResultWord st res holder) d.ownResult }
    let me : BitVec 5 := if owner = 0x1F then BitVec.ofNat 5 m.val else BitVec.ofNat 5 owner
    if st = 0 then d1.changeOwner res (if op = 1 then me else ownFree)
    else if st = 1 then d1.claimConflict res me.toNat
    else d1

/-- Word of OWN_TABLE for an index (R32, R38). -/
def Dev.ownTable (d : Dev) (i : Nat) : Nat :=
  match resourceInit i with
  | some (_, rel) => (d.owner i).toNat + 256 * b2n (!rel)
  | none => 0

end Sys2Proof.Machine
end

