-- ==== Sys2Proof/Machine/Pins.lean ====
section
/-! DEFINITION. The balls GPIO0 to GPIO23, the AON timer channels' outputs, the flash controller, the doorbells, and the
clamp log's clear (R37, R406, R418, R419, R421 to R424). -/
namespace Sys2Proof.Machine

/-! ### Balls (R422 to R424) -/

/-- A register field of ball `k`. -/
def ballField (k : Nat) (f : Fl) : Fl := f.plus (4 * k)
def Dev.ball (d : Dev) (k : Nat) (f : Fl) : Nat := d.get (ballField k f)

/-- Does the ball's I/O bank have its supply (R427)? Bank 0 is part of the HOST_GOOD detector. -/
def Dev.bankPowered (d : Dev) (k : Nat) : Bool :=
  if k < 8 then d.flag F.WH_STAT_HOST_GOOD else if k < 16 then d.env.vddIo1 != 0 else d.env.vddIo2 != 0

/-- The functions that a ball has (R422). -/
def ballFuncs (k : Nat) : List Nat :=
  if k = 0 ∨ (2 ≤ k ∧ k ≤ 7) then [0, 1] else if 8 ≤ k ∧ k ≤ 15 then [0, 2] else [0]

/-- The level that the device drives on a ball, none where it drives none (R156, R406, R422). -/
def Dev.driven (d : Dev) (k : Nat) : Option Bool :=
  if d.ball k F.GPIO_FUNC = 0 then
    (if d.ball k F.GPIO_OE = 1 then some (d.ball k F.GPIO_OUT == 1) else none)
  else if k = 0 then some (!d.flag F.WOHIAL_IRQ_OUT_ASSERT)
  else if k = 2 then some (!d.linkA.act)
  else if k = 3 then some (!d.linkUp .a)
  else if k = 4 then some (!d.linkB.act)
  else if k = 5 then some (!d.linkUp .b)
  else if k = 7 then some (d.tu.ppsOut ^^ d.flag F.TIME_PPS_CFG_OUT_POL)
  else none

/-- The word of a ball's register, with the level at the ball in IN. -/
def Dev.ballWord (d : Dev) (k : Nat) : Nat :=
  let w := (d.reg (ballField k F.GPIO_IN).addr).toNat
  let level := match d.driven k with | some l => l | none => d.ball k F.GPIO_IN == 1
  withBits w 12 12 (b2n (d.bankPowered k && level))

/-- GPIO_EDGE: the level at a ball changes; a selected edge sets IRQ_PEND. -/
def Dev.gpioEdgeOp (d : Dev) (k : Nat) (rising : Bool) : Dev :=
  if d.on .core ∧ d.bankPowered k then
    let d1 := d.put (ballField k F.GPIO_IN) (b2n rising)
    if bitAt (d1.ball k F.GPIO_IRQ_MODE) (if rising then 0 else 1) then d1.put (ballField k F.GPIO_IRQ_PEND) 1 else d1
  else d

/-- A channel's pin output is enabled by selecting it on the ball: it is refused where the channel's owner does not own
the ball as well (R37). -/
def Dev.gpioWritten (d : Dev) (m : Master) (k old : Nat) : Dev :=
  if d.ball k F.GPIO_FUNC = 2 ∧ bitsOf old 1 0 ≠ 2 ∧ d.owner (0x20 + (k - 8)) ≠ d.owner k
  then (d.put (ballField k F.GPIO_FUNC) (bitsOf old 1 0)).claimConflict k m.val else d

/-- AON_TIMER_EXPIRY (R37, R422): the channel's source is raised, and its ball moves if the channel drives it. -/
def Dev.aonTimerExpiryOp (d : Dev) (ch : Fin 8) : Dev :=
  if d.on .aon then
    let d1 := d.latchIrq (88 + ch.val)
    let k := 8 + ch.val
    if d1.on .core ∧ d1.ball k F.GPIO_FUNC = 2 ∧ d1.owner (0x20 + ch.val) = d1.owner k then
      (d1.draw 1).put (ballField k F.GPIO_IN) (b2n (Config.timerLevel d1.freeCount))
    else d1
  else d

/-! ### The flash controller (R418, R419) -/

/-- Command statuses. -/
def fsOK : Nat := 0
def fsPROTECTED : Nat := 1
def fsNOT_ERASED : Nat := 2
def fsPOISON : Nat := 3
def fsNOT_HOST : Nat := 4
def fsVERIFY_FAIL : Nat := 5

/-- The 1,024 bytes of FLASH_BUF. -/
def Dev.flashBuf (d : Dev) : Bytes := d.regBytes 0x40060400 256

/-- A command completes. -/
def Dev.flashDone (d : Dev) (st : Nat) : Dev :=
  ((d.put F.FLASH_STAT_STATUS st).put F.FLASH_STAT_DONE 1).put F.FLASH_STAT_BUSY 0

/-- Is the page's bank protected? -/
def Dev.flashProtected (d : Dev) (page : Nat) : Bool :=
  d.flag (if page < 2048 then F.FLASH_PROT_PROT_A else F.FLASH_PROT_PROT_B)

/-- FLASH_CMD is written: refusals in the order of R418. -/
def Dev.flashCmdWritten (d : Dev) (acted : Nat) : Dev :=
  let op := bitsOf acted 17 16
  let page := acted % 4096
  if op = 0 ∨ op = 3 then d
  else if d.flag F.FLASH_STAT_BUSY then d.put F.FLASH_STAT_CMD_LOST 1
  else
    let poison := d.flag F.FLASH_STAT_BUF_POISON
    let d1 := d.put F.FLASH_STAT_BUF_POISON 0
    if d1.opState ≠ stHost then d1.flashDone fsNOT_HOST
    else if d1.flashProtected page then d1.flashDone fsPROTECTED
    else if op = 2 ∧ !d1.nvmErased false (1024 * page) 1024 then d1.flashDone fsNOT_ERASED
    else if poison then d1.poisonBits.flashDone fsPOISON
    else { d1 with flashJob := some ⟨decide (op = 1), page, d1.flashBuf⟩ }.put F.FLASH_STAT_BUSY 1

/-- Pages of a sector erased, with what the tracker knows of them (R289). -/
def Dev.flashErase (d : Dev) (page : Nat) : Nat → Dev
  | 0 => d
  | n + 1 => ((d.nvmErasePage false page).trkPage false page).flashErase (page + 1) n

/-- A page programmed. -/
def Dev.flashProgram (d : Dev) (page : Nat) (data : Bytes) : Dev :=
  (d.nvmPut false (128 * page) (words64 (fun _ => 0) data)).trkPage false page

/-- FLASH_OP_DONE: the operation ends; the whole-page reread gives VERIFY_FAIL for any difference. -/
def Dev.flashOpDoneOp (d : Dev) : Dev :=
  match d.flashJob with
  | none => d
  | some j =>
    let d0 := { d with flashJob := none }
    if j.erase then (d0.flashErase (j.page / 4 * 4) 4).flashDone fsOK
    else
      let d1 := d0.flashProgram j.page j.data
      let back := (List.range 1024).map fun i => d1.nvmByte false (1024 * j.page + i)
      d1.flashDone (if back = marked j.data false then fsOK else fsVERIFY_FAIL)

/-- An access to the bank that an operation changes waits until it ends (R418). -/
def Dev.flashWait (d : Dev) (a : Nat) : Dev :=
  match d.flashJob with
  | some j => if (a - flashBase) / 0x200000 = j.page / 2048 then d.flashOpDoneOp else d
  | none => d

/-! ### The Wohial registers and the clamp log (R400, R406, R421) -/

/-- A write to WOHIAL_HOST_DB. -/
def Dev.hostDbWritten (d : Dev) (acted : Nat) : Dev := d.put F.WOHIAL_DB_DB (d.get F.WOHIAL_DB_DB ||| acted)

/-- CLAMP_CTL.CLEAR. -/
def Dev.clampClear (d : Dev) : Dev := d.dropRegs fun a => a == 0x40000100 || (0x40000110 ≤ a && a < 0x40000210)

end Sys2Proof.Machine
end

