-- ==== Sys2Proof/Machine/RegWrite.lean ====
section
/-! DEFINITION. A write to a register (R8, R9, R11, R12, R35 to R37, R235, R236, R420): which fields it reaches, which are
locked or range-checked, what it stores, and what it sets off. -/
namespace Sys2Proof.Machine

/-! ### What a field takes -/

/-- Does the row describe this field, in any element of its array? -/
def Fld.is (f : Fld) (x : Fl) : Bool := f.addr == x.addr && f.lo == x.lo

/-- The field's place in the register at `a`. -/
def Fld.at (f : Fld) (a : Nat) : Fl := ⟨a, f.hi, f.lo⟩

/-- Number of a ring, by the address of one of its registers (R119). -/
def ringOf (a : Nat) : Nat := a % 0x1000 / 0x10

/-- Context of an address of the context table (R80). -/
def ctxOf (a : Nat) : Fin 1024 := ⟨(a - 0x40140000) / 0x100 % 1024, Nat.mod_lt _ (by decide)⟩

/-- Is it a bound of a KEYPAGES region, which is fixed (R236)? -/
def isKeypagesBound (a : Nat) : Bool := isFwReg a && (a - 0x40032000) / 0x200 == 15 && a % 0x10 < 8

/-- Does the field lie in the active copy of a firewall region (R236)? -/
def isActiveFw (a : Nat) : Bool := isFwReg a && 0x100 ≤ (a - 0x40032000) % 0x200

/-- The RW fields that are read-only where they stand (R118, R119, R236). -/
def Dev.fieldFixed (d : Dev) (a : Nat) (f : Fld) : Bool :=
  if f.is F.RING_CFG_DIR then decide (ringOf a < 16)
  else if f.is F.RING_PROD_INDEX then d.ringFrom (ringOf a)
  else if f.is F.RING_CONS_INDEX then !d.ringFrom (ringOf a)
  else isActiveFw a || isKeypagesBound a

/-- Is it one of BASE, SIZE, DIR and CHAN, which lock together while the ring is enabled (R120)? -/
def isRingCfg (f : Fld) : Bool :=
  f.is F.RING_BASE_BASE || f.is F.RING_CFG_SIZE || f.is F.RING_CFG_CHAN || f.is F.RING_CFG_DIR

/-- Is the field locked (R8, R120)? -/
def Dev.fieldLocked (d : Dev) (a : Nat) (f : Fld) : Bool :=
  if isRingCfg f then d.ringEnabled (ringOf a)
  else if f.acc ≠ .rwl then false
  else if f.addr = F.WH_AVS_CFG_LOCK.addr then d.flag F.WH_AVS_CFG_LOCK
  else if f.addr = F.WC_CTL_LOCK.addr then d.flag F.WC_CTL_LOCK
  else if f.addr = F.WDOG_CTL_EN.addr then d.flag F.WDOG_CTL_EN
  else if f.addr = F.CE_CTRL_PROV_LOCK.addr then d.flag F.CE_CTRL_PROV_LOCK
  else d.flag F.ACCESS_CTRL_LOCK

/-- The ASDU_N that a write of `w` to GUARD_CFG stores. -/
def asduOf (w : Nat) : Nat := max 1 (min 8 (bitsOf w 19 16))

/-- A value brought within bounds. -/
def within (lo hi v : Nat) : Nat := max lo (min hi v)

/-- A signed 32-bit value brought within plus or minus `k`. -/
def withinSigned (k : Nat) (v : Nat) : Nat := ofInt 32 (clampInt (-(k : Int)) k (sgn 32 v))

/-- The range check of R12: the legal value nearest `v`, or the default that the field's Meaning names. `w` is the whole
word written. -/
def Dev.fieldClamp (d : Dev) (a w : Nat) (f : Fld) (v : Nat) : Nat :=
  if f.is F.LINK_CTRL_FORCE_SPEED ∨ f.is F.WH_PMODE_MODE ∨ f.is F.GPIO_PULL then min 2 v
  else if f.is F.LANE_CFG_NOMATCH_RING ∨ f.is F.CTX_RING then max 16 v
  else if f.is F.LANE_CFG_NOMATCH then (if v = 0 ∨ v = 5 then v else 6)
  else if f.is F.CTX_ACTION then (if actionOk (d.ctxLane (ctxOf a)) v then v else 6)
  else if f.is F.CTX_ASDU_N then within 1 8 v
  else if f.is F.CTX_SMP_MOD then
    (let n := asduOf w
     if v = 0 then 0 else if v < n then n else v - v % n)
  else if f.is F.CTX_TIME_TOL then
    (let m := d.ctx (ctxOf a) F.CTX_SMP_MOD
     min v ((if m = 0 then 65536 else m) / 2 - 1))
  else if f.is F.PK_KEY_SW_NS_NS ∨ f.is F.TIME_SET_NS_NS then min 999999999 v
  else if f.is F.BKT_PART_HOLD_SLOTS then within 8 152 v
  else if f.is F.RING_CFG_SIZE then within 2 12 v
  else if f.is F.RING_PROD_INDEX then indexClamp (d.ringProd (ringOf a)) (d.indexFar (ringOf a)) v
  else if f.is F.RING_CONS_INDEX then indexClamp (d.ringCons (ringOf a)) (d.indexFar (ringOf a)) v
  else if f.is F.TIME_ADD_NS then withinSigned 500000000 v
  else if f.is F.TIME_FREQ_FREQ then withinSigned 128000000 v
  else if f.is F.TIME_SERVO_HOLD_MAX ∨ f.is F.WDOG_CTL_TIMEOUT ∨ f.is F.WOHIAL_CTL_TMO ∨ f.is F.RFIF_FW_CFG_WTX_MAX ∨
    f.is F.RFIF_FW_CFG_TMO_MS then max 1 v
  else if f.is F.TIME_PPS_CFG_OUT_WIDTH then within 1 500000 v
  else if f.is F.CE_CFG_TAGLEN then (if v ≤ 10 then 8 else if v ≤ 14 then 12 else 16)
  else if f.is F.CE_CFG_OP then (if ceOps.contains v then v else 0)
  else if f.is F.INTEG_CTL_REFRESH_THR then within 1 8 v
  else if f.is F.INTEG_TEST_CTL_TARGET then min 12 v
  else if f.is F.CST_PROT_BP then max (d.get F.CST_PROT_BP) v
  else if f.is F.RFIF_FW_CFG_WTXM then within 1 59 v
  else if f.addr = 0x400E0000 ∧ f.lo = F.GPIO_FUNC.lo then
    (if (ballFuncs ((a - 0x400E0000) / 4)).contains v then v else 0)
  else v

/-- How a legal value is stored where storage is not the value itself (R118, R236, R397): these rules are no range
checks. -/
def fieldStore (a : Nat) (f : Fld) (v : Nat) : Nat :=
  if isFwReg a then
    let fw := (a - 0x40032000) / 0x200
    let g := fwGranule fw
    if a % 0x10 = 0 then v - v % g
    else if a % 0x10 = 4 then v - v % g + (g - 1)
    else if a % 0x10 = 8 ∧ f.lo = 18 then (if fw ≤ 12 then v else 0)
    else v
  else if f.is F.EVT_CFG_CLASS_EN then v ||| 1
  else if f.is F.RING_CFG_ENABLE ∧ 7 ≤ ringOf a ∧ ringOf a ≤ 15 then 0
  else v

/-! ### Which fields a writer reaches (R235) -/

/-- Values of a write-only field that its Meaning names as ignored. -/
def woIgnored (f : Fld) (v : Nat) : Bool :=
  if f.is F.CNT_CTL_OP ∨ f.is F.CE_CMD_OP ∨ f.is F.FLASH_CMD_OP ∨ f.is F.DRG_CTL_OP then v == 3
  else if f.is F.CTX_CMD_OP ∨ f.is F.PK_KEY_CMD_OP ∨ f.is F.TIME_CMD_OP then decide (5 ≤ v)
  else if f.is F.CE_KEY_CMD_OP then v == 7
  else if f.is F.SYS_CORE_RESET_KEY then v != 0xA55A
  else if f.is F.SYS_DEV_RESET_KEY then v != 0x5AA5
  else false

/-- Would the written value of a field have had an effect, had the writer reached it? -/
def Dev.fieldMeant (d : Dev) (a w : Nat) (f : Fld) : Bool :=
  let v := bitsOf w f.hi f.lo
  match f.acc with
  | .ro => false
  | .rw | .rwl => !d.fieldFixed a f && !d.fieldLocked a f && v != d.get (f.at a)
  | .w1c | .rws => v != 0
  | .wo => v != 0 && !woIgnored f v

/-- Is the write a FIELD case (R235)? -/
def Dev.fieldCase (d : Dev) (m : Master) (a w : Nat) : Bool :=
  (fieldsAt a).any fun f => f.owner != .hw && !f.owner.reached (masterLevel m) && d.fieldMeant a w f

/-- One field of a write: the device so far and the bits that reached write-only fields. `d0` is the device before the
write, by which locks are judged (R11). -/
def Dev.writeField (d0 : Dev) (m : Master) (a w : Nat) (x : Dev × Nat) (f : Fld) : Dev × Nat :=
  if !f.owner.reached (masterLevel m) then x
  else
    let v := bitsOf w f.hi f.lo
    let p := f.at a
    match f.acc with
    | .ro => x
    | .wo => (x.1, x.2 + v <<< f.lo)
    | .w1c => (x.1.put p (x.1.get p &&& (v ^^^ (2 ^ (f.hi + 1 - f.lo) - 1))), x.2)
    | .rws => if masterLevel m = 2 then (x.1.put p (x.1.get p &&& (v ^^^ (2 ^ (f.hi + 1 - f.lo) - 1))), x.2) else x
    | .rw | .rwl =>
      if d0.fieldFixed a f then x
      else if d0.fieldLocked a f then
        (if isRingCfg f ∧ v ≠ d0.get p then x.1.put (ringField (ringOf a) F.RING_STAT_CFG_LOCKED) 1 else x.1, x.2)
      else
        let c := d0.fieldClamp a w f v
        let d1 := x.1.put p (fieldStore a f c)
        (if c = v then d1 else d1.logClamp a f.hi f.lo m v c, x.2)

/-! ### Writes that are ignored as a whole -/

/-- A write that something other than its fields refuses (R36, R87, R113, R228, R236, R323): the device with what the
refusal leaves, none where the write goes on. -/
def Dev.writeGate (d : Dev) (m : Master) (a : Nat) : Option Dev :=
  let blk := a / 0x10000
  if 0x40031000 ≤ a ∧ a < 0x40031400 ∧ (a - 0x40031000) / 0x200 = d.get F.ACCESS_EPOCH_SET then
    some (d.put F.ACCESS_STAT_ACTIVE_WR 1)
  else if isFwReg a ∧ !isActiveFw a ∧ d.flag F.ACCESS_CTRL_LOCK then some (d.put F.ACCESS_STAT_FW_LOCKED_WR 1)
  else if blk = 0x4005 ∧ d.owner 0x40 ≠ BitVec.ofNat 5 m.val then some (d.claimConflict 0x40 m.val)
  else if blk = 0x400E ∧ a < 0x400E0060 ∧ d.owner ((a - 0x400E0000) / 4) ≠ BitVec.ofNat 5 m.val then
    some (d.claimConflict ((a - 0x400E0000) / 4) m.val)
  else if a = F.BKT_PART_HOLD_SLOTS.addr then
    (match d.bktPartAllowed m with
     | (_, true) => none
     | (d1, false) => some d1)
  else if 0x4014 ≤ blk ∧ blk ≤ 0x4017 ∧ a % 0x100 < 0x10 ∧ d.ctx (ctxOf a) F.CTX_VALID = 1 then
    some (d.put F.CTX_RESULT_LOCKED_WR 1)
  else none

/-! ### What a write sets off -/

/-- DRG_CTL is written (R292, R293). -/
def Dev.dredgeWritten (d : Dev) (acted : Nat) : Dev :=
  if acted % 4 = 1 then
    if d.flag F.DRG_STAT_RUN then d.put F.DRG_STAT_STATUS 4
    else if d.opState ≠ stHost then d.put F.DRG_STAT_STATUS 2
    else if d.get (F.DRG_BASE_ADDR.plus 4) < d.get F.DRG_BASE_ADDR then d.put F.DRG_STAT_STATUS 3
    else
      let d1 := d.dropRegs fun a => 0x40040510 ≤ a && a < 0x40040530
      { d1 with integ := { d1.integ with drgNext := 64 * d1.get F.DRG_BASE_ADDR, drgAbort := false } }.put
        F.DRG_STAT_RUN 1
  else if acted % 4 = 2 ∧ d.flag F.DRG_STAT_RUN then { d with integ := { d.integ with drgAbort := true } }
  else d

/-- The page of the crypto engine at an address (R245). -/
def pageOf (a : Nat) : Fin 16 := ⟨a % 0x10000 / 0x1000 % 16, Nat.mod_lt _ (by decide)⟩

/-- Page control number of an address (R245). -/
def pageCtlOf (a : Nat) : Fin 16 := ⟨a % 0x400 / 0x20 % 16, Nat.mod_lt _ (by decide)⟩

/-- Channel of an address of the channel registers (R141). -/
def chanOf (a : Nat) : Fin 8 := ⟨a % 0x100 / 0x20 % 8, Nat.mod_lt _ (by decide)⟩

/-- A register field of channel `c` (R141). -/
def chField (c : Fin 8) (f : Fl) : Fl := f.plus (0x20 * c.val)

/-- CH_STAT.STATE as the channel stands (R141). -/
def Dev.chState (d : Dev) (c : Fin 8) : Dev :=
  d.put (chField c F.CH_STAT_STATE)
    (if !d.flag (chField c F.CH_CTRL_ENABLE) then 3
     else match (d.chans[c]).job with
       | none => 0
       | some j => if j.granted then 1 else 2)

/-- What a write to the register at `a` does beyond its fields: `old` is the stored word before, `acted` what reached the
write-only fields. -/
def Dev.regWritten (d : Dev) (m : Master) (a old acted : Nat) : Dev :=
  let c := canonAddr a
  let blk := a / 0x10000
  if a = F.SYS_PWR_REQ_LINKA_ON.addr then d.pwrReqWritten
  else if a = F.SYS_OWN_CLAIM_RES.addr then d.ownClaimWritten m acted
  else if a = F.SYS_CORE_RESET_KEY.addr then (if acted = 0xA55A then { d with coreResetReq := true } else d)
  else if a = F.SYS_DEV_RESET_KEY.addr then (if acted = 0x5AA5 then d.requestReset 5 else d)
  else if a = F.CLAMP_CTL_CLEAR.addr then (if bitAt acted 0 then d.clampClear else d)
  else if a = F.WH_PMODE_MODE.addr then d.pmodeWritten
  else if a = F.ACCESS_FW_COMMIT_OP.addr then d.fwCommit (acted % 4)
  else if a = F.INTEG_REFQ_CMD_REMOVE.addr then d.refqCmd acted
  else if a = F.INTEG_REMAP_CMD_GO.addr then d.remapCmd acted
  else if a = F.DRG_CTL_OP.addr then d.dredgeWritten acted
  else if a = F.CST_CMD_OP.addr then d.cstCmdWritten m acted
  else if a = F.FLASH_CMD_OP.addr then d.flashCmdWritten acted
  else if a = F.RFIF_CTL_RELOAD.addr then (if bitAt acted 2 then d.reloadWritten else d)
  else if a = F.RFIF_FW_RESP_SW.addr then d.fwRespWritten acted
  else if c = F.RFIF_FW_RESP_BUF_DATA.addr then d.fwBufMark a false
  else if a = F.CE_KEY_CMD_OP.addr then d.ceKeyCmdWritten acted
  else if c = F.CE_PAGE_CTL_EN.addr then d.pageCtlWritten (pageCtlOf a) old
  else if a = F.CE_RNG_CTL_PR.addr then
    (let d1 := if bitAt acted 1 then d.reseedWritten else d
     if bitAt acted 0 then d1.restartWritten else d1)
  else if c = F.CE_CMD_OP.addr then d.ceCmdWritten (pageOf a) acted
  else if c = F.CH_CTRL_ENABLE.addr then d.chState (chanOf a)
  else if c = F.RING_CFG_ENABLE.addr then (d.ringCfgWritten (ringOf a) old (d.reg a).toNat).bktRemaps
  else if c = F.RING_CONS_INDEX.addr then
    (if d.ringFrom (ringOf a) then (d.ringConsMoved (ringOf a) (bitsOf old 12 0)).bktRemaps else d)
  else if c = F.RING_STAT_RESUME.addr then (if bitAt acted 0 then d.ringResume (ringOf a) else d)
  else if a = F.LANE_CFG_ENABLE.addr then d.laneCfgWritten .verify
  else if a = F.LANE_CFG_ENABLE.addr + 0x100 then d.laneCfgWritten .tag
  else if a = F.CNT_CTL_OP.addr then d.cntCtl .verify (acted % 4)
  else if a = F.CNT_CTL_OP.addr + 0x100 then d.cntCtl .tag (acted % 4)
  else if a = F.CTX_CMD_OP.addr then d.ctxCmd (bitsOf acted 18 16) (ctxIdx acted)
  else if a = F.PK_KEY_CMD_OP.addr then d.keyCmdWritten acted
  else if c = F.LINK_CTRL_MODE.addr then d.linkWritten (if blk = 0x4020 then .a else .b) old acted
  else if blk = 0x400A then d.timeWritten m a old acted
  else if a = F.EVT_SW_CODE.addr then d.evtSwWritten m acted
  else if a = F.WC_LATCH_LATCH.addr ∨ a = F.WC_CTL_LIGHT_EN.addr then d.alarmPersisting
  else if a = F.WDOG_KICK_KEY.addr then d.wdogKickWritten acted
  else if a = F.WDOG_CTL_EN.addr then d.wdogCtlWritten old
  else if a = F.WOHIAL_HOST_DB_SET.addr then d.hostDbWritten acted
  else if c = 0x400E0000 then d.gpioWritten m ((a - 0x400E0000) / 4) old
  else d

/-- A permitted write of a whole word reaches the register at `a`; `region` is the firewall region that permitted it, for
the record of a FIELD case (R235, R242), which is judged before the resource's ownership (R224, R36). -/
def Dev.regCheck (d : Dev) (e : BitVec 4) (m : Master) (a : Nat) (w : Word) (region : Nat) : Dev :=
  if d.fieldCase m a w.toNat then d.recordSv a e m .write rField region else d

/-- The write's effect. -/
def Dev.regEffect (d : Dev) (m : Master) (a : Nat) (w : Word) : Dev :=
  match d.writeGate m a with
  | some d1 => d1
  | none =>
    let old := (d.reg a).toNat
    let x := (fieldsAt a).reverse.foldl (d.writeField m a w.toNat) (d, 0)
    x.1.regWritten m a old x.2

/-- A poisoned write changes no register; a buffer keeps the mark for the program or record that it is part of (R283). -/
def Dev.regPoison (d : Dev) (m : Master) (a : Nat) : Dev :=
  let d1 := d.poisonWrite a m
  let c := canonAddr a
  if c = F.FLASH_BUF_DATA.addr then d1.put F.FLASH_STAT_BUF_POISON 1
  else if c = F.CST_BUF_A_DATA.addr then { d1 with cst := { d1.cst with poison := true } }
  else if c = F.RFIF_FW_RESP_BUF_DATA.addr then d1.fwBufMark a true
  else d1

end Sys2Proof.Machine
end

