-- ==== Sys2Proof/Machine/RegRead.lean ====
section
/-! DEFINITION. A read of a register: the words that are computed rather than stored, and the high words that a load of
their low word latches (R31, R38, R77, R109, R116, R145, R223, R270, R325, R354, R376, R397). -/
namespace Sys2Proof.Machine

/-- Bits of INTC_PEND word `k` (R223). -/
def Dev.intcPend (d : Dev) (k : Nat) : Nat :=
  (List.range 32).foldl (fun n b => n + b2n (d.source (32 * k + b)) * 2 ^ b) 0

/-- The word of INTC_TOP (R223). -/
def Dev.intcTop (d : Dev) : Nat :=
  match d.topSource 0 with
  | some (s, p) => 2 ^ 31 + p * 2 ^ 8 + s
  | none => 0

/-- Slot of an address of the slot registers (R270). -/
def slotOf (a : Nat) : Fin 64 := ⟨a % 0x200 / 8, by omega⟩

/-- What a register reads as, apart from what a load latches. -/
def Dev.regView (d : Dev) (m : Master) (a : Nat) : Word :=
  let c := canonAddr a
  let n (x : Nat) : Word := BitVec.ofNat 32 x
  if a = F.SYS_PWR_STAT_DOM_ON.addr then n d.dom.toNat
  else if a = F.SYS_OWN_RESULT_STATUS.addr then Sparse.get (fun _ => 0x1F0000) m.val d.ownResult
  else if c = F.SYS_OWN_TABLE_OWNER.addr then n (d.ownTable ((a - F.SYS_OWN_TABLE_OWNER.addr) / 4))
  else if a = F.WH_VHOLD_MV.addr then n d.whVhold
  else if a = F.WH_GAUGE_HELD.addr then n d.whGauge
  else if c = F.INTC_PEND_PEND.addr then n (d.intcPend ((a - F.INTC_PEND_PEND.addr) / 4))
  else if a = F.INTC_TOP_VALID.addr then n d.intcTop
  else if c = F.INTEG_REMAP_STAT_USED.addr then n (d.remapStat ((a - F.INTEG_REMAP_STAT_USED.addr) / 4))
  else if c = F.CE_STAT_BUSY.addr then n (d.ceStat ⟨a / 0x1000 % 16, Nat.mod_lt _ (by decide)⟩)
  else if c = F.CE_SLOT_INFO_TYPE.addr then n (d.slotInfo (slotOf a))
  else if c = F.CE_SLOT_FIXED_FIXED.addr then (d.slot (slotOf a).val).fixed
  else if c = F.CE_SLOT_INV_LO_INV.addr then n (d.slot (slotOf a).val).inv
  else if c = F.CE_SLOT_INV_LO_INV.addr + 4 then n ((d.slot (slotOf a).val).inv / 2 ^ 32)
  else if a = F.BKT_STAT_HOLD_USED.addr then n d.bktStat
  else if a = F.LANE_STAT_STATE.addr then n (d.laneStat .verify)
  else if a = F.LANE_STAT_STATE.addr + 0x100 then n (d.laneStat .tag)
  else if a = F.LANE_LAG_LAG.addr then n (d.laneLag .verify)
  else if a = F.LANE_LAG_LAG.addr + 0x100 then n (d.laneLag .tag)
  else if a = F.TIME_NOW_NS_NS.addr then n (report2 d.tu.ns)
  else if a = F.TIME_NOW_SEC_LO_SEC.addr then n d.tu.sec
  else if a = F.TIME_NOW_SEC_HI_SEC.addr then n (d.tu.sec / 2 ^ 32)
  else if a = F.EVT_ESN_LO_ESN.addr then n d.evt.esn
  else if a = F.EVT_ESN_HI_ESN.addr then n (d.evt.esn / 2 ^ 32)
  else if a = F.EVT_STAT_SATURATED.addr then n (b2n (decide (2 ^ 48 - 1 ≤ d.evt.esn)))
  else if a = F.WDOG_STAT_REMAIN.addr then n (withBits (d.reg a).toNat 15 0 d.wdogRemain)
  else if a = F.CST_STAT_BUSY.addr then n d.cstStat
  else if a = F.RFIF_STAT_TIER.addr then n d.rfifStat
  else if c = F.GPIO_IN.addr then n (d.ballWord ((a - F.GPIO_IN.addr) / 4))
  else d.reg a

/-- Does a load of the word latch the word behind it (R109, R270, R325, R397)? -/
def latchesNext (a : Nat) : Bool :=
  let c := canonAddr a
  a == F.CST_VAL_LO_VAL.addr || a == F.EVT_ESN_LO_ESN.addr || c == F.CE_SLOT_INV_LO_INV.addr ||
    (0x40140000 ≤ a && a < 0x40180000 && (a % 0x100 == 0x80 || a % 0x100 == 0x88))

/-- The word latched for a master at `a`. -/
def Dev.highOf (d : Dev) (m : Master) (a : Nat) : Option Word :=
  (d.latches.find? fun x => x.1 == m.val && x.2.1 == a).map fun x => x.2.2

def Dev.unlatch (d : Dev) (m : Master) (a : Nat) : Dev :=
  { d with latches := d.latches.filter fun x => !(x.1 == m.val && x.2.1 == a) }

def Dev.latch (d : Dev) (m : Master) (a : Nat) (w : Word) : Dev :=
  let d1 := d.unlatch m a
  { d1 with latches := (m.val, a, w) :: d1.latches }

/-- A load of the register at `a` by master `m`, with what it leaves. -/
def Dev.regRead (d : Dev) (m : Master) (a : Nat) : Dev × Word :=
  if a = F.RFIF_FW_DATA_DATA.addr then d.fwDataLoad
  else if a = F.TIME_NOW_NS_NS.addr then
    ((d.latch m F.TIME_NOW_SEC_LO_SEC.addr (d.regView m F.TIME_NOW_SEC_LO_SEC.addr)).latch m F.TIME_NOW_SEC_HI_SEC.addr
      (d.regView m F.TIME_NOW_SEC_HI_SEC.addr), d.regView m a)
  else if latchesNext a then
    (if inCtx a ∧ d.ctxPoisoned (a + 4) then d else d.latch m (a + 4) (d.regView m (a + 4)), d.regView m a)
  else
    match d.highOf m a with
    | some w => (if a = F.TIME_NOW_SEC_LO_SEC.addr ∨ a = F.TIME_NOW_SEC_HI_SEC.addr then d else d.unlatch m a, w)
    | none => (d, d.regView m a)

/-- The four bytes that a load of a register delivers, with their marks: only a word of the context SRAM can carry poison
(R271, R283). A load of the low word of a statistics count reads its high word with it (R109). -/
def Dev.wordRead (d : Dev) (m : Master) (a : Nat) : Dev × List MByte :=
  let d1 := if inCtx a then d.ctxReads m a (if latchesNext a then 2 else 1) else d
  let x := d1.regRead m a
  (x.1, (leBytes 4 x.2.toNat).zipIdx.map fun b => (b.1, inCtx a && eccBad (d.ctxChk (a + b.2))))

end Sys2Proof.Machine
end

