-- ==== Sys2Proof/Machine/Bus.lean ====
section
/-! DEFINITION. The crossbar: a load or store of a bus master in the order of R224, with a burst performed part by part
(R234), the registers at their width (R9), the stores on their way to AON registers (R20), and the waits of the arrays
(R318, R418). -/
namespace Sys2Proof.Machine

/-! ### Stores to AON registers (R20) -/

/-- Is the register in a block of the AON domain? -/
def isAonReg (a : Nat) : Bool := a / 0x10000 == 0x4002 || a / 0x10000 == 0x4009

/-- The store that is on its way to the register at `a` completes. -/
def Dev.aonComplete (d : Dev) (a : Nat) : Dev :=
  match d.aonPend.find? fun x => x.addr == a with
  | some x => { d with aonPend := d.aonPend.filter fun y => y.addr != a }.regEffect x.master a x.val
  | none => d

/-- Every store on its way completes, the oldest first. -/
def Dev.aonCompleteAll (d : Dev) : Dev := d.aonPend.foldl (fun x s => x.aonComplete s.addr) d

/-- AON_STORE_COMPLETE: the oldest store on its way completes. -/
def Dev.aonStoreCompleteOp (d : Dev) : Dev :=
  match d.aonPend with
  | x :: _ => d.aonComplete x.addr
  | [] => d

/-- EPOCH_DRAINED (R239): PREV_LIVE clears once no transaction of the previous epoch remains. -/
def Dev.epochDrainedOp (d : Dev) : Dev :=
  let p := BitVec.ofNat 4 (d.get F.ACCESS_EPOCH_PREV)
  if (d.sbuf.any fun x => x.epoch == p) || (d.aonPend.any fun x => x.epoch == p) || (d.woh.job.any fun j => j.epoch == p)
  then d
  else d.put F.ACCESS_EPOCH_PREV_LIVE 0

/-! ### Parts of a transaction -/

/-- Length of the first part of `n` bytes at `a`: within a 32-byte block, the smallest granule (R231, R234); a word in
the register space (R9). -/
def partLen (a n : Nat) : Nat := if isRegAddr a then min n (4 - a % 4) else min n (32 - a % 32)

/-- The first step of the power-up journal, and a burst of the Cistern array, are over before a read-window access is
served (R314, R318). -/
def Dev.cstWait (d : Dev) : Dev :=
  let d1 := if d.cst.due ∧ !d.alarming then d.powerUpJournalOp else d
  match d1.cst.job with
  | some j => if j.running.isSome then d1.cisternBurstDoneOp else d1
  | none => d1

/-- Bytes of a memory: the Cistern read window shows a page under refresh from its spare (R316). -/
def Dev.memLoad (d : Dev) (m : Master) (a n : Nat) : Dev × List MByte :=
  if inCstWin a then
    let d1 := d.cstWait
    let p := d1.cstPage ((a - cstWinBase) / 1024)
    d1.memRead m (cstWinBase + 1024 * p + a % 1024) n
  else if inFlash a then (d.flashWait a).memRead m a n
  else (d.rowWait a).memRead m a n

/-- A part of a load behind the master end, in the rule epoch `e` that it carries (R224, R239). -/
def Dev.loadPart (d : Dev) (e : BitVec 4) (m : Master) (k : Kind) (a n : Nat) : Dev × Resp × List MByte :=
  match d.slaveCheck e m false k a with
  | (d1, .ok) =>
    if isRegAddr a then
      if n = 4 ∧ a % 4 = 0 then
        let x := (d1.aonComplete a).wordRead m a
        (x.1, .ok, x.2)
      else (d1, .width, [])
    else
      let x := d1.memLoad m a n
      (x.1, .ok, x.2)
  | (d1, r) => (d1, r, [])

/-- The region that permits a write, for the record of a FIELD case (R242). -/
def Dev.permitRegion (d : Dev) (e : BitVec 4) (m : Master) (a : Nat) : Nat :=
  match d.fwJudge e m false .write a with
  | .permit r => r
  | .refuse _ r => r

/-- A word reaches a register (R20, R235, R283). -/
def Dev.regStore (d : Dev) (e : BitVec 4) (m : Master) (a : Nat) (bs : List MByte) : Dev :=
  if anyPoison bs then d.regPoison m a
  else
    let w := wordOf bs
    let d1 := d.regCheck e m a w (d.permitRegion e m a)
    if isAonReg a then
      let d2 := d1.aonComplete a
      { d2 with aonPend := d2.aonPend ++ [⟨a, w, m, e⟩] }
    else d1.regEffect m a w

/-- A part of a store behind the master end. The read window takes no store (R299), and program flash is changed by its
controller alone (R418). -/
def Dev.storePart (d : Dev) (e : BitVec 4) (m : Master) (a : Nat) (bs : List MByte) : Dev × Resp :=
  if inCstWin a then (d, .decode)
  else
    match d.slaveCheck e m false .write a with
    | (d1, .ok) =>
      if isRegAddr a then
        if bs.length = 4 ∧ a % 4 = 0 then (d1.regStore e m a bs, .ok) else (d1, .width)
      else if inRam a then ((d1.rowWait a).ramWrite m a bs, .ok)
      else (d1, .ok)
    | (d1, r) => (d1, r)

/-- Parts in ascending order until one fails; `fuel` bounds their number. -/
def Dev.loadParts (e : BitVec 4) (m : Master) (k : Kind) : Nat → Dev → Nat → Nat → Dev × Resp × List MByte
  | 0, d, _, _ => (d, .ok, [])
  | fuel + 1, d, a, n =>
    if n = 0 then (d, .ok, [])
    else
      let l := partLen a n
      match d.loadPart e m k a l with
      | (d1, .ok, v) =>
        let x := Dev.loadParts e m k fuel d1 (a + l) (n - l)
        (x.1, x.2.1, v ++ x.2.2)
      | (d1, r, v) => (d1, r, v)

/-- Parts of a store, with the number of bytes performed. -/
def Dev.storeParts (e : BitVec 4) (m : Master) : Nat → Dev → Nat → List MByte → Dev × Resp × Nat
  | 0, d, _, _ => (d, .ok, 0)
  | fuel + 1, d, a, bs =>
    if bs.isEmpty then (d, .ok, 0)
    else
      let l := partLen a bs.length
      match d.storePart e m a (bs.take l) with
      | (d1, .ok) =>
        let x := Dev.storeParts e m fuel d1 (a + l) (bs.drop l)
        (x.1, x.2.1, x.2.2 + l)
      | (d1, r) => (d1, r, 0)

/-! ### Loads and stores of a master (R224) -/

/-- A load of `n` bytes that carries rule epoch `e`: how it is answered, and the bytes of the parts that were performed. -/
def Dev.busLoadAt (d : Dev) (e : BitVec 4) (m : Master) (k : Kind) (a n : Nat) : Dev × Resp × List MByte :=
  match d.reachCheck m k a with
  | (d1, false) => (d1, .refused, [])
  | (d1, true) => Dev.loadParts e m k (n + 1) d1 a n

/-- A load in the current rule epoch. -/
def Dev.busLoad (d : Dev) (m : Master) (k : Kind) (a n : Nat) : Dev × Resp × List MByte := d.busLoadAt d.epoch m k a n

/-- A store, and the number of bytes performed. -/
def Dev.burstStore (d : Dev) (e : BitVec 4) (m : Master) (a : Nat) (bs : List MByte) : Dev × Resp × Nat :=
  match d.reachCheck m .write a with
  | (d1, false) => (d1, .refused, 0)
  | (d1, true) => Dev.storeParts e m (bs.length + 1) d1 a bs

/-- A store without what it makes a channel do (R136). -/
def Dev.rawStore (d : Dev) (e : BitVec 4) (m : Master) (a : Nat) (bs : List MByte) : Dev × Resp :=
  let x := d.burstStore e m a bs
  (x.1, x.2.1)

end Sys2Proof.Machine
end

