-- ==== Sys2Proof/Machine/Windlass.lean ====
section
/-! DEFINITION. The Windlass channels (R124, R126, R128, R132 to R141): taking a descriptor, moving it burst by burst, and
completing it. A store that clears a channel's ENABLE completes its descriptor (R136), so the store that every master
makes is defined here. -/
namespace Sys2Proof.Machine

/-! ### Descriptors in memory -/

/-- Bus master of channel `c` (R29, R132). -/
def chanMaster (c : Fin 8) : Master := ⟨3 + c.val, by omega⟩

/-- Bits of a descriptor's word (R122). -/
def wordN (ws : List Word) (i : Nat) : Nat := (ws.getD i 0).toNat
def descTyp (ws : List Word) : Nat := bitsOf (wordN ws 0) 30 28
def descLen (ws : List Word) : Nat := bitsOf (wordN ws 0) 15 0
def descChecked (ws : List Word) : Bool := bitAt (wordN ws 0) 26
def descIrq (ws : List Word) : Bool := bitAt (wordN ws 0) 25

/-- Statuses of a descriptor (R123). -/
def dsOK : Nat := 0
def dsACCESS : Nat := 1
def dsBUS_ERROR : Nat := 2
def dsCHECK_FAIL : Nat := 3
def dsPOISON : Nat := 4
def dsENERGY_SHORT : Nat := 5
def dsBAD_DESC : Nat := 6
def dsEGRESS_DOWN : Nat := 7
def dsABORTED : Nat := 8

/-- Stop cause of a ring for the answer to a descriptor access (R128). -/
def ringErr (r : Resp) : Nat := if r = .refused then 3 else 4

/-- Read the eight words of a slot: the words, or the stop cause (R128). -/
def Dev.descRead (d : Dev) (m : Master) (n j : Nat) : Dev × Except Nat (List Word) :=
  let x := d.busLoad m .read (d.descAddr n j) 32
  if x.2.1 ≠ .ok then (x.1, .error (ringErr x.2.1))
  else if anyPoison x.2.2 then (x.1, .error 2)
  else
    let ws := (List.range 8).map fun i => wordOf ((x.2.2.drop (4 * i)).take 4)
    if bitAt (wordN ws 0) 31 then (x.1, .ok ws) else (x.1, .error 1)

/-- Write words of the slot at `a` in the order given; the stop cause of the first one that fails (R126, R128). -/
def Dev.descWrite (m : Master) (a : Nat) : Dev → List (Nat × Word) → Dev × Option Nat
  | d, [] => (d, none)
  | d, (i, w) :: t =>
    match d.rawStore d.epoch m (a + 4 * i) (marked (leBytes 4 w.toNat) false) with
    | (d1, .ok) => Dev.descWrite m a d1 t
    | (d1, r) => (d1, some (ringErr r))

/-- What a completion writes (R122, R124, R131, R138, R139). -/
structure Completion where
  status : Nat
  len : Nat
  /-- the check value that the channel computed -/
  check : Option Nat
  poison : Bool
  /-- egress timestamp, seconds and nanoseconds -/
  ts : Option (Nat × Nat)
  deriving DecidableEq, Repr

/-- The words that a completion with ESN `esn` writes, word 0 last. -/
def Completion.words (k : Completion) (ws : List Word) (esn : Nat) : List (Nat × Word) :=
  let n (x : Nat) : Word := BitVec.ofNat 32 x
  let w0 := withBits (withBits (withBits (wordN ws 0) 31 31 0) 19 16 k.status) 15 0 k.len
  let w0a := withBits (if k.check.isSome then withBits w0 26 26 1 else w0) 27 27 (b2n k.poison)
  (match k.check with | some c => [(2, n c)] | none => []) ++
    [(4, n esn), (5, n (withBits (wordN ws 5) 15 0 (esn / 2 ^ 32)))] ++
    (match k.ts with | some t => [(6, n t.1), (7, n t.2)] | none => []) ++ [(0, n w0a)]

/-- A TO_DEVICE descriptor completes: the ESN is issued, the words written, CONS advanced and the pending bit set (R124,
R126, R131, R141). A write that fails stops the ring (R128). -/
def Dev.descDone (d : Dev) (m : Master) (n j : Nat) (ws : List Word) (k : Completion) : Dev :=
  let (d1, esn) := d.takeEsn
  match Dev.descWrite m (d1.descAddr n j) d1 (k.words ws esn) with
  | (d2, some err) => d2.ringStop n err
  | (d2, none) =>
    let d3 := d2.put (ringField n F.RING_CONS_INDEX) ((j + 1) % 8192)
    (if descIrq ws then d3.ringPend n else d3).ringSettle n

/-! ### Taking a descriptor (R132, R137, R140) -/

/-- The kinds of work of a descriptor. -/
inductive Work where
  | tx
  | copy
  | fill
  | check
  deriving DecidableEq, Repr

/-- Is it a ring that carries FRAME_TX (R118, R123)? -/
def isTxRing (n : Nat) : Bool := n == 0 || n == 1 || n == 3 || n == 5

/-- What a descriptor of ring `n` asks for, none for BAD_DESC (R123). -/
def workOf (n : Nat) (ws : List Word) : Option Work :=
  let len := descLen ws
  if descTyp ws = 1 then
    if isTxRing n ∧ 14 ≤ len ∧ len ≤ 1532 then some .tx else none
  else if descTyp ws = 2 then
    if isTxRing n ∨ len = 0 then none
    else match bitsOf (wordN ws 5) 18 16 with
      | 0 => some .copy
      | 1 => some .fill
      | 2 => some .check
      | _ => none
  else none

/-- May the channel take a descriptor of ring `n` now: enabled, running, TO_DEVICE, not empty, and no descriptor of it in
progress (R124, R132)? -/
def Dev.ringReady (d : Dev) (c : Fin 8) (n : Nat) : Bool :=
  d.ringEnabled n && !d.ringFrom n && d.ringState n == ringRUN && d.get (ringField n F.RING_CFG_CHAN) == c.val &&
    d.ringCount n != 0 && !d.staging.any fun s => s.ring == n

/-- The ring that the channel serves next (R132). -/
def Dev.nextRing (d : Dev) (c : Fin 8) : Option Nat :=
  let last := (d.chans[c]).lastRing
  ((List.range 256).map fun i => (last + 1 + i) % 256).find? fun n => d.ringReady c n

def Dev.setJobDma (d : Dev) (c : Fin 8) (j : Option DescJob) : Dev :=
  { d with chans := d.chans.set c.val { d.chans[c] with job := j } c.isLt }

/-- The budget of a descriptor in pJ (R363). -/
def dmaBudget (ws : List Word) : Nat := 500000 + 1840 * descLen ws

/-- The gauge is asked for the descriptor that waits (R140). -/
def Dev.chanAsk (d : Dev) (c : Fin 8) : Dev :=
  match (d.chans[c]).job with
  | some j =>
    if j.granted then d
    else
      match d.askEnergy (.windlass c) 5 (dmaBudget j.words) with
      | (d1, true) => (d1.setJobDma c (some { j with granted := true })).chState c
      | (d1, false) => d1.chState c
  | none => d

/-- The job of a channel ends: its grant ends with it. -/
def Dev.chanFree (d : Dev) (c : Fin 8) : Dev := ((d.setJobDma c none).energyEnd (.windlass c)).chState c

/-- The descriptor of a channel's job completes. -/
def Dev.chanDone (d : Dev) (c : Fin 8) (j : DescJob) (k : Completion) : Dev :=
  (d.chanFree c).descDone (chanMaster c) j.ring j.index j.words k

/-- FRAME_TX, COPY, FILL, CHECK: the channel takes its next descriptor, if that asks for this work. A slot that cannot be
used stops its ring, and a bad descriptor completes with LEN 0 (DESIGN CHOICE, log entry 62; R123, R124, R128, R132,
R140). -/
def Dev.chanStart (d : Dev) (c : Fin 8) (w : Work) : Dev :=
  if !d.on .core ∨ !d.flag (chField c F.CH_CTRL_ENABLE) ∨ (d.chans[c]).job.isSome then d
  else
    match d.nextRing c with
    | none => d
    | some n =>
      let j := d.ringCons n
      match d.descRead (chanMaster c) n j with
      | (d1, .error err) => d1.ringStop n err
      | (d1, .ok ws) =>
        let job : DescJob := ⟨n, j, ws, false, d.now, 0, 0xFFFFFFFF, false, []⟩
        let d2 := { d1 with chans := d1.chans.set c.val ⟨some job, n⟩ c.isLt }
        let d3 := ((d2.put (chField c F.CH_STAT_RING) n).put (chField c F.CH_STAT_INDEX) j).put (chField c F.CH_PROG_DONE) 0
        match workOf n ws with
        | none => d3.chanDone c job ⟨dsBAD_DESC, 0, none, false, none⟩
        | some x => if x = w then d3.chanAsk c else d

/-! ### Bursts (R133, R135, R138, R139) -/

/-- Bytes to the next 64-byte boundary. -/
def to64 (a : Nat) : Nat := 64 - a % 64

/-- Source and destination of the next burst, and its length. -/
def DescJob.burst (j : DescJob) (w : Work) : Nat × Nat × Nat :=
  let src := (wordN j.words 1 + j.moved) % 2 ^ 32
  let dst := (wordN j.words 3 + j.moved) % 2 ^ 32
  let left := min 64 (descLen j.words - j.moved)
  match w with
  | .copy => (src, dst, min left (min (to64 src) (to64 dst)))
  | .fill => (src, dst, min left (to64 dst))
  | _ => (src, dst, min left (to64 src))

/-- The pattern's bytes from byte `i` on (R132). -/
def fillBytes (j : DescJob) (n : Nat) : List MByte :=
  let p := leBytes 4 (wordN j.words 6)
  (List.range n).map fun i => (p.getD ((j.moved + i) % 4) 0, false)

/-- Status of a part that failed (R135). -/
def partStatus (r : Resp) : Nat := if r = .refused then dsACCESS else dsBUS_ERROR

/-- The last burst of a job is done. -/
def Dev.chanFinish (d : Dev) (c : Fin 8) (j : DescJob) (w : Work) : Dev :=
  let len := descLen j.words
  let crc := j.crc ^^^ 0xFFFFFFFF
  let bad := descChecked j.words ∧ crc ≠ wordN j.words 2
  match w with
  | .fill => d.chanDone c j ⟨dsOK, len, none, false, none⟩
  | .tx =>
    if j.poison then d.chanDone c j ⟨dsPOISON, len, none, true, none⟩
    else if bad then d.chanDone c j ⟨dsCHECK_FAIL, len, none, false, none⟩
    else
      let d1 := d.chanFree c
      { d1 with staging := d1.staging ++ [⟨j.ring, j.index, j.words, j.buf⟩] }
  | _ =>
    if j.poison then d.chanDone c j ⟨dsPOISON, len, none, true, none⟩
    else if bad then d.chanDone c j ⟨dsCHECK_FAIL, len, none, false, none⟩
    else d.chanDone c j ⟨dsOK, len, if descChecked j.words then none else some crc, false, none⟩

/-- One burst: the bytes performed and how it was answered. -/
def Dev.chanMove (d : Dev) (c : Fin 8) (j : DescJob) (w : Work) : Dev × Resp × DescJob :=
  let m := chanMaster c
  let (src, dst, n) := j.burst w
  let took (bs : List MByte) (k : Nat) : DescJob :=
    { j with
      moved := j.moved + k
      crc := crc32cState j.crc (bs.map Prod.fst)
      poison := j.poison || anyPoison bs
      buf := if w = .tx then j.buf ++ bs.map Prod.fst else j.buf }
  match w with
  | .fill =>
    let x := d.burstStore d.epoch m dst (fillBytes j n)
    (x.1, x.2.1, { j with moved := j.moved + x.2.2 })
  | .copy =>
    let x := d.busLoad m .read src n
    let y := x.1.burstStore x.1.epoch m dst x.2.2
    (y.1, (if y.2.1 = .ok then x.2.1 else y.2.1), took x.2.2 y.2.2)
  | _ =>
    let x := d.busLoad m .read src n
    (x.1, x.2.1, took x.2.2 x.2.2.length)

/-- WINDLASS_BURST without what its stores make other channels do. -/
def Dev.chanBurst (d : Dev) (c : Fin 8) : Dev :=
  match (d.chans[c]).job with
  | none => d
  | some j =>
    if !j.granted then d
    else
      match workOf j.ring j.words with
      | none => d
      | some w =>
        let (d1, r, j1) := d.chanMove c j w
        let d2 := d1.put (chField c F.CH_PROG_DONE) j1.moved
        if r ≠ .ok then d2.chanDone c j1 ⟨partStatus r, j1.moved, none, j1.poison, none⟩
        else if descLen j.words ≤ j1.moved then d2.chanFinish c j1 w
        else d2.setJobDma c (some j1)

/-! ### Disabled channels, and the store of every master (R136) -/

/-- A channel whose ENABLE is 0 ends its descriptor with ABORTED. -/
def Dev.chanAbort (d : Dev) (c : Fin 8) : Dev :=
  match (d.chans[c]).job with
  | some j =>
    if d.flag (chField c F.CH_CTRL_ENABLE) then d
    else d.chanDone c j ⟨dsABORTED, j.moved, none, j.poison, none⟩
  | none => d

def Dev.chansAbort (d : Dev) : Dev := (List.finRange 8).foldl (fun x c => x.chanAbort c) d

/-- A store of a bus master: how it is answered. -/
def Dev.busStore (d : Dev) (e : BitVec 4) (m : Master) (a : Nat) (bs : List MByte) : Dev × Resp :=
  let x := d.rawStore e m a bs
  (x.1.chansAbort, x.2)

/-- A word that a command writes to a register, under the rules now in force. -/
def Dev.write (d : Dev) (m : Master) (a : Nat) (v : Word) : Dev :=
  (d.busStore d.epoch m a (marked (leBytes 4 v.toNat) false)).1

/-- The same for a register of the AON domain, with the store's completion at the third AON edge (R20). -/
def Dev.writeAon (d : Dev) (m : Master) (a : Nat) (v : Word) : Dev :=
  match d.busStore d.epoch m a (marked (leBytes 4 v.toNat) false) with
  | (d1, .ok) => d1.aonComplete a
  | (d1, _) => d1

/-- Has the channel a burst ready? -/
def Dev.burstReady (d : Dev) (c : Fin 8) : Bool := (d.chans[c]).job.any fun j => j.granted

/-- The place of a channel in the crossbar's order: priority first, then the turn after the channel served last (R134). -/
def Dev.burstRank (d : Dev) (c : Fin 8) : Nat :=
  (3 - d.get (chField c F.CH_CTRL_PRIO)) * 8 + (c.val + 7 - d.chanLast % 8) % 8

/-- Does the channel's burst go to the crossbar now: no other that is ready goes before it (R134)? -/
def Dev.burstTurn (d : Dev) (c : Fin 8) : Bool :=
  (List.finRange 8).all fun o => !d.burstReady o || d.burstRank c ≤ d.burstRank o

/-- WINDLASS_BURST (R133, R134, R135): a burst whose turn has not come waits. -/
def Dev.windlassBurstOp (d : Dev) (c : Fin 8) : Dev :=
  if d.burstReady c ∧ d.burstTurn c then ({ d with chanLast := c.val }.chanBurst c).chansAbort else d

/-- WINDLASS_ENERGY_SHORT (R39, R140): EWAIT milliseconds without a grant. -/
def Dev.windlassEnergyShortOp (d : Dev) (c : Fin 8) : Dev :=
  match (d.chans[c]).job with
  | some j =>
    let limit := d.get (chField c F.CH_CTRL_EWAIT)
    if j.granted ∨ limit = 0 ∨ d.now ≤ j.since + limit * 10 ^ 6 then d
    else d.chanDone c j ⟨dsENERGY_SHORT, 0, none, false, none⟩
  | none => d

end Sys2Proof.Machine
end

