-- ==== Sys2Proof/Machine/CoreOps.lean ====
section
/-! DEFINITION. What every core instruction shares: register access, the store buffer, loads and stores, exception entry,
the boundary rules, delay slots, MODE shadows and hardware loops (chapters 06 and 07). -/
namespace Sys2Proof.Machine

/-! ### General registers (R159, R160) -/

def Core.rd (c : Core) (r : RegNo) : Word := if r = 0 then 0 else c.regs[r.toNat]'r.isLt
def Core.psn (c : Core) (r : RegNo) : Bool := r != 0 && c.poison.getLsbD r.toNat

/-- Write a register and its poison mark; w0 takes nothing (R159). -/
def Core.wr (c : Core) (r : RegNo) (v : Word) (p : Bool) : Core :=
  if r = 0 then c
  else
    { c with
      regs := c.regs.set r.toNat v r.isLt
      poison := if p then c.poison ||| (1#32 <<< r.toNat) else c.poison &&& ~~~(1#32 <<< r.toNat) }

/-! ### Status (R164, R197) -/

def Core.pl (c : Core) : Nat := c.cst.toNat % 4
def Core.ie (c : Core) : Bool := c.cst.getLsbD 2
def Core.ipl (c : Core) : Nat := bitsOf c.cst.toNat 7 4
/-- Bus master of a level (R197). -/
def levelMaster (lv : Nat) : Master := if lv = 0 then 0 else if lv = 1 then 1 else 2
def Core.master (c : Core) : Master := levelMaster c.pl

/-- Does the core fetch at all: powered, released, not stopped, not in WAIT? -/
def State.running (s : State) : Bool :=
  s.dev.on .core && s.core.released && !s.core.stopped && !s.core.waiting

/-! ### Exceptions as an instruction reports them -/

/-- An exception: vector, DETAIL and address (R199, R210). -/
structure Exc where
  vector : Nat
  detail : Nat
  addr : Nat
  deriving DecidableEq, Repr

def xIllegal (d : Nat) : Exc := ⟨1, d, 0⟩
def xPrivilege (d : Nat) : Exc := ⟨4, d, 0⟩
def xAlign (d a : Nat) : Exc := ⟨5, d, a⟩
def xFetch (d a : Nat) : Exc := ⟨6, d, a⟩
def xAccess (d a : Nat) : Exc := ⟨7, d, a⟩
def xBus (r : Resp) (a : Nat) : Exc := ⟨8, r.detail, a⟩
def xPoison (d a : Nat) : Exc := ⟨9, d, a⟩

/-! ### The store buffer (R193, R194, R217) -/

/-- Record that a buffered store failed (R217). -/
def Dev.storeFailed (d : Dev) (a : Nat) (r : Resp) : Dev :=
  match d.impStore with
  | none => { d with impStore := some ⟨a, r.detail, false⟩ }
  | some i => { d with impStore := some { i with multi := true } }

/-- Bytes of a store with their marks. -/
def Store.bytes (x : Store) : List MByte :=
  (List.range x.size).map fun i => (BitVec.ofNat 8 (x.data.toNat >>> (8 * i)), x.poison.getLsbD i)

/-- The oldest entry leaves for the crossbar and is acknowledged or fails (R193, R217). -/
def Dev.drainOne (d : Dev) : Dev :=
  match d.sbuf with
  | [] => d
  | x :: t =>
    let (d1, r) := Dev.busStore { d with sbuf := t } x.epoch x.master x.addr x.bytes
    if r = .ok then d1 else d1.storeFailed x.addr r

/-- Every buffered store is performed. -/
def Dev.drainN : Nat → Dev → Dev
  | 0, d => d
  | n + 1, d => Dev.drainN n d.drainOne

def Dev.drainAll (d : Dev) : Dev := Dev.drainN d.sbuf.length d

/-! ### Core reset, and what the device asks of the core (R35, R161, R206, R392) -/

/-- The claims of master IDs 0 to 2 are released (R35). -/
def Dev.releaseCore (d : Dev) : Dev :=
  (List.range 0x49).foldl (fun x i =>
    if (resourceInit i).isSome ∧ (x.owner i).toNat < 3 then x.changeOwner i ownFree else x) d

/-- The device side of a core reset: the fields whose Meaning names it (R13, R223, R294, R352), and the boot ROM to
run (R413). -/
def Dev.coreResetDev (d : Dev) : Dev :=
  let d1 := (d.releaseCore.fwReset).dropRegs fun a => a / 0x10000 == 0x400D
  let d2 := (d1.put F.INTEG_TEST_CTL_EN 0).put F.RFIF_CTL_FW_READY 0
  ((d2.present 7 false).present 8 false) |> fun x => { x with irq := 0, impStore := none, coreResetReq := false, boot := .fresh }

/-- A core reset that has been asked for (R161): the stores that wait are performed first. -/
def State.resetIfAsked (s : State) : State :=
  if s.dev.coreResetReq then { s with core := Core.reset, dev := s.dev.drainAll.coreResetDev } else s

/-- The On alarm column of the special registers (R164, R165, R166, R185, R209). -/
def Core.alarmColumn (c : Core) : Core :=
  { c with
    cst := Core.reset.cst
    sst := Core.reset.sst
    mode := Core.reset.mode
    prog := Core.reset.prog
    pacc := Core.reset.pacc
    paccPoison := false
    ecause := Core.reset.ecause
    eaddr := Core.reset.eaddr
    shadow := none }

/-- The core is stopped, by an alarm or by a masked core fault (R391, R392). -/
def State.stopIfAsked (s : State) : State :=
  if s.dev.coreStopReq then
    let c := if s.dev.alarming then s.core.alarmColumn else s.core
    { s with core := { c with stopped := true }, dev := { s.dev with coreStopReq := false } }
  else s

/-- The core follows what a command has asked of it; it is released once its fill has ended (R281). -/
def State.settle (s : State) : State :=
  let t := s.resetIfAsked.stopIfAsked
  { t with core := { t.core with released := t.dev.filled[0] } }

/-- Does a buffered store overlap the `n` bytes at `a`? -/
def Store.overlaps (x : Store) (a n : Nat) : Bool := decide (x.addr < a + n) && decide (a < x.addr + x.size)

/-- Does it cover them wholly? -/
def Store.covers (x : Store) (a n : Nat) : Bool := decide (x.addr ≤ a) && decide (a + n ≤ x.addr + x.size)

/-- Drain from the oldest until no buffered store overlaps. -/
def Dev.drainOverlap (a n : Nat) : Nat → Dev → Dev
  | 0, d => d
  | k + 1, d => if d.sbuf.any fun x => x.overlaps a n then Dev.drainOverlap a n k d.drainOne else d

/-- A CPU load at the slave end, under the ordering of R194: forwarded from the youngest overlapping store that covers
it, after the overlapping stores when one covers it in part, after every store for a register. -/
def Dev.cpuLoad (d : Dev) (m : Master) (a n : Nat) : Dev × Resp × List MByte :=
  if isRegAddr a then d.drainAll.busLoad m .read a n
  else
    match d.sbuf.reverse.find? fun x => x.overlaps a n with
    | none => d.busLoad m .read a n
    | some x =>
      if x.covers a n then (d, .ok, (x.bytes.drop (a - x.addr)).take n)
      else (Dev.drainOverlap a n d.sbuf.length d).busLoad m .read a n

/-- Does the MPU check the accesses of level `lv` (R225)? -/
def Core.mpuOn (c : Core) (lv : Nat) : Bool := c.mode.getLsbD 0 && decide (lv < 2)

/-- The master-end check of an access: none if it passes, otherwise the device with its record and the first refused
byte (R226, R227, R241). -/
def Dev.mpuCheck (d : Dev) (on : Bool) (lv : Nat) (k : Kind) (a n : Nat) : Option (Dev × Nat) :=
  if on then
    (d.mpuRefuses lv k a n).map fun x => (d.recordMv x.1 (levelMaster lv) k x.2.1 x.2.2, x.1)
  else none

/-- A store after its master-end check: into the buffer, or with SBUF_OFF straight to its slave, which
has acknowledged it when the next instruction starts (R166, R193): an AON register at its third edge (R20). -/
def Dev.cpuStore (d : Dev) (off : Bool) (m : Master) (a : Nat) (bs : List MByte) : Dev × Resp :=
  if off then
    let (d1, r) := d.drainAll.busStore d.epoch m a bs
    (if isAonReg a then d1.aonCompleteAll else d1, r)
  else
    let d1 := if 4 ≤ d.sbuf.length then d.drainOne else d
    let x : Store := ⟨a, bs.length, wordOf bs, BitVec.ofNat 4 (bs.foldr (fun b acc => 2 * acc + b2n b.2) 0), m, d.epoch⟩
    ({ d1 with sbuf := d1.sbuf ++ [x] }, .ok)

/-! ### Taking an exception (R201 to R210) -/

/-- The interrupted point as the frame records it (R212 to R215). -/
structure Point where
  epc : Word
  etgt : Word
  ds : Bool
  mpend : Option Word
  deriving DecidableEq, Repr

/-- The point at which the core stands: a delay slot names its branch, a shadow its pending MODE value. -/
def Core.point (c : Core) : Point :=
  match c.slot with
  | some x => ⟨x.branch, x.target, true, none⟩
  | none => ⟨c.pc, c.etgt, false, c.shadow⟩

/-- STATUS of the frame (R165, R207). -/
def Core.status (c : Core) (p : Point) : Word :=
  BitVec.ofNat 32 (c.cst.toNat % 256 + 2 ^ 16 * b2n p.ds + 2 ^ 17 * b2n p.mpend.isSome)

/-- Is w31 within the emergency stack (R203, R206)? -/
def Core.inEmergency (c : Core) : Bool :=
  (c.estk - 512).toNat < (c.rd 31).toNat && (c.rd 31).toNat ≤ c.estk.toNat

/-- Lockup (R206): the core stops and Wellcap alarms with cause LOCKUP, DETAIL the vector in ECAUSE (R390). -/
def State.lockup (s : State) : State :=
  { s with core := { s.core with stopped := true }, dev := (s.dev.sense 8 (s.core.ecause.toNat % 256)).alarmEdge 8 (s.core.ecause.toNat % 256) }

/-- The descriptor of a vector, read with two Vault loads (R201). -/
def Dev.descriptor (d : Dev) (extb : Word) (v : Nat) : Dev × Option (Word × Word) × Nat :=
  let a := (extb &&& 0xFFFFF800).toNat + 8 * v
  let (d1, r1, b1) := d.busLoad 2 .read a 4
  if r1 ≠ .ok ∨ anyPoison b1 then (d1, none, a)
  else
    let (d2, r2, b2) := d1.busLoad 2 .read (a + 4) 4
    if r2 ≠ .ok ∨ anyPoison b2 then (d2, none, a + 4) else (d2, some (wordOf b1, wordOf b2), a)

/-- Write the frame's words from `a`, each checked as a store of level `lv` and past the store buffer (R208, step 5);
KIND of R205 and the address of a failure. -/
def Dev.writeFrame (mpu : Bool) (lv : Nat) : Dev → Nat → List (Word × Bool) → Dev × Option (Nat × Nat)
  | d, _, [] => (d, none)
  | d, a, w :: t =>
    match d.mpuCheck mpu lv .write a 4 with
    | some (d1, x) => (d1, some (2, x))
    | none =>
      let (d1, r) := d.cpuStore true (levelMaster lv) a (marked (leBytes 4 w.1.toNat) w.2)
      if r = .ok then Dev.writeFrame mpu lv d1 (a + 4) t
      else (d1, some ((if r = .refused then 2 else 3), a))

/-- The sixteen words of the frame (R207). -/
def Core.frameWords (c : Core) (p : Point) (cause : Word) : List (Word × Bool) :=
  [(p.epc, false), (p.etgt, false), (c.status p, false), (c.sst, false),
   (c.ls[0], false), (c.le[0], false), (c.lc[0], false), (c.ls[1], false), (c.le[1], false), (c.lc[1], false),
   (c.prog, false), (c.pacc, c.paccPoison), (c.mode, false), (p.mpend.getD 0, false),
   (c.rd 31, c.psn 31), (cause, false)]

/-- The commit of an entry (R208, step 6). -/
def Core.commitEntry (c : Core) (p : Point) (frame : Nat) (lv : Nat) (ie : Bool) (prio : Option Nat) (cause : Word)
    (eaddr : Nat) (handler : Word) : Core :=
  let ipl := prio.getD c.ipl
  { c.wr 31 (BitVec.ofNat 32 frame) false with
    epc := p.epc
    etgt := p.etgt
    ecause := cause
    eaddr := BitVec.ofNat 32 eaddr
    sst := c.status p
    cst := BitVec.ofNat 32 (lv + 4 * b2n ie + 16 * ipl)
    lc := Vector.replicate 2 0
    prog := 0
    slot := none
    shadow := none
    waiting := false
    pc := handler &&& 0xFFFFFFFC
    cycle := c.cycle + 20 }

/-- Entry to vector 2 or 3 on the emergency stack (R202, R206): any failure locks up. -/
def State.emergency (s : State) (v kind orig : Nat) (eaddr : Nat) : State :=
  let c := s.core
  let (d1, desc, _) := s.dev.descriptor c.extb v
  match desc with
  | none => State.lockup { s with dev := d1 }
  | some (h, w1) =>
    if !w1.getLsbD 31 ∨ c.estk.toNat % 4 ≠ 0 ∨ c.inEmergency then State.lockup { s with dev := d1 }
    else
      let cause := BitVec.ofNat 32 (kind * 2 ^ 16 + orig * 2 ^ 8 + v)
      let frame := (c.estk - 64).toNat
      let (d2, f) := Dev.writeFrame false 2 d1 frame (c.frameWords c.point cause)
      match f with
      | some _ => State.lockup { s with dev := d2 }
      | none => { s with core := c.commitEntry c.point frame 2 false none cause eaddr h, dev := d2 }

/-- Exception entry at the core's point (R208). `prio` is the priority of an interrupt; `multi` is MULTI of R209. -/
def State.enter (s : State) (x : Exc) (prio : Option Nat) (multi : Bool) : State :=
  let c := s.core
  let d0 := s.dev.drainAll
  let sync := x.vector ≠ 10 ∧ x.vector < 64
  if sync ∧ c.inEmergency then State.lockup { s with dev := d0 }
  else
    let (d1, desc, da) := d0.descriptor c.extb x.vector
    let s1 := { s with dev := d1 }
    match desc with
    | none => s1.emergency 3 4 x.vector da
    | some (h, w1) =>
      let dpl := w1.toNat % 4
      if !w1.getLsbD 31 ∨ dpl = 0 ∨ dpl = 3 then s1.emergency 3 4 x.vector da
      else if c.psn 31 then s1.emergency 3 1 x.vector 0
      else
        let n : Fin 4 := ⟨bitsOf w1.toNat 5 4 % 4, Nat.mod_lt _ (by decide)⟩
        let lv := max dpl c.pl
        let w31 := (c.rd 31).toNat
        let sp0 := if c.slim[n].toNat < w31 ∧ w31 ≤ c.ssp[n].toNat then w31 else c.ssp[n].toNat
        if sp0 < 64 ∨ sp0 - 64 < c.slim[n].toNat then s1.emergency 2 5 x.vector (sp0 - 64)
        else if sp0 % 4 ≠ 0 then s1.emergency 3 0 x.vector sp0
        else
          let cause := BitVec.ofNat 32 (2 ^ 20 * b2n multi + x.detail * 2 ^ 8 + x.vector)
          let frame := sp0 - 64
          let (d2, f) := Dev.writeFrame (c.mpuOn lv) lv d1 frame (c.frameWords c.point cause)
          match f with
          | some (k, a) => State.emergency { s with dev := d2 } 3 k x.vector a
          | none => { s with core := c.commitEntry c.point frame lv (w1.getLsbD 6) prio cause x.addr h, dev := d2 }

/-- A pending IMPRECISE_STORE is taken (R217, R218). -/
def State.enterImprecise (s : State) (i : ImpStore) : State :=
  State.enter { s with dev := { s.dev with impStore := none } } ⟨10, i.detail, i.addr⟩ none i.multi

/-! ### Boundaries (R200, R218, R219) -/

/-- Is the core at a boundary at which an interrupt could be taken? -/
def Core.openBoundary (c : Core) : Bool := c.slot.isNone && c.shadow.isNone

/-- The pending IMPRECISE_STORE that is taken now. -/
def State.impreciseNow (s : State) : Option ImpStore :=
  if s.core.openBoundary && !s.core.inEmergency then s.dev.impStore else none

/-- The interrupt that is taken now, source and priority. -/
def State.interruptNow (s : State) : Option (Nat × Nat) :=
  if s.core.openBoundary && s.core.ie then s.dev.topSource s.core.ipl else none

/-- Take an interrupt (R199, R208). -/
def State.enterInterrupt (s : State) (src prio : Nat) : State := s.enter ⟨64 + src, 0, 0⟩ (some prio) false

/-! ### Fetch (R175, R225) -/

/-- The checks of the fetch at pc, with the records they make, and the word fetched. -/
def State.fetch (s : State) : State × Except Exc Word :=
  let c := s.core
  let a := c.pc.toNat
  if !(inRom a || inFlash a || inSram a) then (s, .error (xFetch 0 a))
  else if inSram a ∧ c.mode.getLsbD 2 then (s, .error (xFetch 1 a))
  else
    match s.dev.mpuCheck (c.mpuOn c.pl) c.pl .exec a 4 with
    | some (d1, x) => ({ s with dev := d1 }, .error (xFetch 3 x))
    | none =>
      let (d1, r, bs) := s.dev.busLoad c.master .exec a 4
      let s1 := { s with dev := d1 }
      if r ≠ .ok then (s1, .error (xFetch 4 a))
      else if inFlash a ∧ d1.nvmErased false (a - flashBase) 4 then (s1, .error (xFetch 2 a))
      else if anyPoison bs then (s1, .error (xPoison 5 a))
      else (s1, .ok (wordOf bs))

/-! ### Completion: delay slots, shadows and loops (R177, R166, R181 to R183) -/

/-- The loop-back of R181 and R183 for an instruction at `at_` that completes and would continue at `at_ + 4`. -/
def Core.loopBack (c : Core) (at_ : Word) : Core :=
  let next : Word := at_ + 4
  let end1 := c.lc[1] ≠ 0 ∧ c.le[1] = at_
  let end0 := c.lc[0] ≠ 0 ∧ c.le[0] = at_
  if end1 then
    let n1 := c.lc[1] - 1
    let c1 := { c with lc := c.lc.set 1 n1 }
    if n1 ≠ 0 then { c1 with pc := c.ls[1] }
    else if end0 then
      let n0 := c.lc[0] - 1
      { c1 with lc := c1.lc.set 0 n0, pc := if n0 ≠ 0 then c.ls[0] else next }
    else { c1 with pc := next }
  else if end0 then
    let n0 := c.lc[0] - 1
    { c with lc := c.lc.set 0 n0, pc := if n0 ≠ 0 then c.ls[0] else next }
  else { c with pc := next }

/-- An instruction without control transfer completes: a delay slot continues at its branch's target, a shadow puts its
MODE value in force, and otherwise the loops are looked at. -/
def Core.retire (c : Core) (cycles : Nat) : Core :=
  let c1 := { c with cycle := c.cycle + BitVec.ofNat 64 cycles }
  match c1.slot with
  | some x => { c1 with slot := none, pc := x.target }
  | none =>
    match c1.shadow with
    | some v => { (c1.loopBack c1.pc) with mode := v, shadow := none }
    | none => c1.loopBack c1.pc

/-- A taken transfer to `t` ends each active loop whose body does not hold `t` (R181). -/
def Core.endLoops (c : Core) (t : Word) : Core :=
  let out (i : Fin 2) : Bool := c.lc[i] ≠ 0 && !(c.ls[i].toNat ≤ t.toNat && t.toNat ≤ c.le[i].toNat)
  let c1 := if out 0 then { c with lc := c.lc.set 0 0 } else c
  if out 1 then { c1 with lc := c1.lc.set 1 0 } else c1

/-- A branch or jump completes: its delay slot is next, then `target` if it is taken (R177). -/
def Core.branch (c : Core) (taken : Bool) (target : Word) : Core :=
  let c1 := if taken then c.endLoops target else c
  { c1 with
    slot := some ⟨c.pc, if taken then target else c.pc + 8⟩
    pc := c.pc + 4
    cycle := c.cycle + 1 }

/-- Is the address the last instruction of an active loop's body? -/
def Core.atLoopEnd (c : Core) (a : Word) : Bool :=
  (c.lc[0] ≠ 0 && c.le[0] == a) || (c.lc[1] ≠ 0 && c.le[1] == a)

/-! ### Running an instruction -/

/-- How an instruction's body ends: completed, or an exception with the state in which it is taken. -/
inductive Done where
  | ok (s : State)
  | exc (s : State) (x : Exc)

/-- The classes the restricted set and the loop-end rule distinguish (R178, R182). -/
inductive Klass where
  /-- permitted everywhere -/
  | free
  /-- restricted, but may end a loop body: the long instructions and WAIT -/
  | mayEnd
  /-- restricted everywhere -/
  | restricted
  deriving DecidableEq, Repr

/-- The illegal-instruction exception that the place of an instruction raises (R178, R182). -/
def Core.placeFault (c : Core) (k : Klass) : Option Exc :=
  if k ≠ .free ∧ c.slot.isSome then some (xIllegal 2)
  else if k ≠ .free ∧ c.shadow.isSome then some (xIllegal 3)
  else if c.atLoopEnd c.pc ∧ (k = .restricted ∨ c.slot.isSome) then some (xIllegal 4)
  else none

/-- Take an instruction's exception at the state its body left. -/
def State.raise (s : State) (x : Exc) : State := s.enter x none false

/-- An instruction at the boundary: a pending IMPRECISE_STORE first, then an interrupt, then the fetch
and the place, then the body (R200). A core that does not run leaves the command without effect (log entry 8). -/
def State.boundaryStep (s : State) (k : Klass) (body : State → Done) : State :=
  if !s.running then s
  else
    match s.impreciseNow with
    | some i => s.enterImprecise i
    | none =>
      match s.interruptNow with
      | some (src, p) => s.enterInterrupt src p
      | none =>
        match s.fetch with
        | (s1, .error x) => s1.raise x
        | (s1, .ok _) =>
          match s1.core.placeFault k with
          | some x => s1.raise x
          | none =>
            match body s1 with
            | .ok s2 => s2
            | .exc s2 x => s2.raise x

/-- Run a core instruction's body at the boundary, and let the core follow what it asked for. -/
def State.coreStep (s : State) (k : Klass) (body : State → Done) : State := (s.boundaryStep k body).settle

/-- A command that acts on the device alone, and what it asks of the core. -/
def State.onDev (s : State) (f : Dev → Dev) : Host.Outcome State Fault Refusal :=
  .next (State.settle { s with dev := f s.dev })

/-- A body that only computes on the core. -/
def State.onCore (s : State) (f : Core → Core) : Done := .ok { s with core := f s.core }

end Sys2Proof.Machine
end

