-- ==== Sys2Proof/Machine/CmdAccess.lean ====
section
/-! DEFINITION. The commands of the access rules (R236 to R240): writes of ACCESS_FW_COMMIT, and the end of an epoch.
-/
namespace Sys2Proof.Machine

/-- NOW: a write of ACCESS_FW_COMMIT (R238). -/
def execNow (m : Master) (s : State) : Host.Outcome State Fault Refusal :=
  s.onDev fun d => d.write m F.ACCESS_FW_COMMIT_OP.addr 1

/-- WITH_SWAP: a write of ACCESS_FW_COMMIT (R238). -/
def execWithSwap (m : Master) (s : State) : Host.Outcome State Fault Refusal :=
  s.onDev fun d => d.write m F.ACCESS_FW_COMMIT_OP.addr 2

/-- CANCEL: a write of ACCESS_FW_COMMIT (R238). -/
def execCancel (m : Master) (s : State) : Host.Outcome State Fault Refusal :=
  s.onDev fun d => d.write m F.ACCESS_FW_COMMIT_OP.addr 3

/-- EPOCH_DRAINED (R239). -/
def execEpochDrained (s : State) : Host.Outcome State Fault Refusal :=
  s.onDev fun d => d.epochDrainedOp

/-- REGISTER_WRITE: a store of a word, or of a poisoned word (R8). -/
def execRegisterWrite (m : Master) (addr v : Word) (poison : Bool) (s : State) : Host.Outcome State Fault Refusal :=
  s.onDev fun d => (d.busStore d.epoch m addr.toNat (marked (leBytes 4 v.toNat) poison)).1

/-- COUNTER_LATCH_READ: a load of the low word (R109). -/
def execCounterLatchRead (m : Master) (addr : Word) (s : State) : Host.Outcome State Fault Refusal :=
  s.onDev fun d => (d.busLoad m .read addr.toNat 4).1

/-- AON_STORE_COMPLETE (R20). -/
def execAonStoreComplete (s : State) : Host.Outcome State Fault Refusal :=
  s.onDev fun d => d.aonStoreCompleteOp

/-- CLEAR: a write of CLAMP_CTL (R421). -/
def execClear (m : Master) (s : State) : Host.Outcome State Fault Refusal :=
  s.onDev fun d => d.write m F.CLAMP_CTL_CLEAR.addr 1

/-- CLAIM: a write of OWN_CLAIM (R33). -/
def execClaim (m : Master) (owner : BitVec 5) (res : Byte) (s : State) : Host.Outcome State Fault Refusal :=
  s.onDev fun d => d.write m F.SYS_OWN_CLAIM_RES.addr (BitVec.ofNat 32 (owner.toNat * 2 ^ 16 + 1 * 2 ^ 8 + res.toNat))

/-- RELEASE: a write of OWN_CLAIM (R33). -/
def execRelease (m : Master) (owner : BitVec 5) (res : Byte) (s : State) : Host.Outcome State Fault Refusal :=
  s.onDev fun d => d.write m F.SYS_OWN_CLAIM_RES.addr (BitVec.ofNat 32 (owner.toNat * 2 ^ 16 + 2 * 2 ^ 8 + res.toNat))

/-- FORCE_RELEASE: a write of OWN_CLAIM (R33). -/
def execForceRelease (m : Master) (owner : BitVec 5) (res : Byte) (s : State) : Host.Outcome State Fault Refusal :=
  s.onDev fun d => d.write m F.SYS_OWN_CLAIM_RES.addr (BitVec.ofNat 32 (owner.toNat * 2 ^ 16 + 3 * 2 ^ 8 + res.toNat))

end Sys2Proof.Machine
end

