-- ==== Sys2Proof/Machine/CmdCistern.lean ====
section
/-! DEFINITION. The commands of the Cistern (R296 to R325). -/
namespace Sys2Proof.Machine

/-- READ_PARAM: a write of CST_CMD (R303). -/
def execReadParam (m : Master) (target : Fin 2048) (s : State) : Host.Outcome State Fault Refusal :=
  s.onDev fun d => d.write m F.CST_CMD_OP.addr (BitVec.ofNat 32 (1 * 2 ^ 28 + target.val))

/-- WRITE_PARAM: a write of CST_CMD (R302). -/
def execWriteParam (m : Master) (target : Fin 2048) (s : State) : Host.Outcome State Fault Refusal :=
  s.onDev fun d => d.write m F.CST_CMD_OP.addr (BitVec.ofNat 32 (2 * 2 ^ 28 + target.val))

/-- ERASE_PARAM: a write of CST_CMD (R302). -/
def execEraseParam (m : Master) (target : Fin 2048) (s : State) : Host.Outcome State Fault Refusal :=
  s.onDev fun d => d.write m F.CST_CMD_OP.addr (BitVec.ofNat 32 (3 * 2 ^ 28 + target.val))

/-- READ_CTR: a write of CST_CMD (R305). -/
def execReadCtr (m : Master) (target : Fin 2048) (s : State) : Host.Outcome State Fault Refusal :=
  s.onDev fun d => d.write m F.CST_CMD_OP.addr (BitVec.ofNat 32 (4 * 2 ^ 28 + target.val))

/-- INC_CTR: a write of CST_CMD (R306). -/
def execIncCtr (m : Master) (target : Fin 2048) (s : State) : Host.Outcome State Fault Refusal :=
  s.onDev fun d => d.write m F.CST_CMD_OP.addr (BitVec.ofNat 32 (5 * 2 ^ 28 + target.val))

/-- ADVANCE_CTR: a write of CST_CMD (R306). -/
def execAdvanceCtr (m : Master) (target : Fin 2048) (s : State) : Host.Outcome State Fault Refusal :=
  s.onDev fun d => d.write m F.CST_CMD_OP.addr (BitVec.ofNat 32 (6 * 2 ^ 28 + target.val))

/-- APPEND_LOG: a write of CST_CMD (R309). -/
def execAppendLog (m : Master) (rtype : Byte) (target : Fin 2048) (s : State) : Host.Outcome State Fault Refusal :=
  s.onDev fun d => d.write m F.CST_CMD_OP.addr (BitVec.ofNat 32 (7 * 2 ^ 28 + rtype.toNat * 2 ^ 20 + target.val))

/-- READ_LOG: a write of CST_CMD (R310). -/
def execReadLog (m : Master) (target : Fin 2048) (s : State) : Host.Outcome State Fault Refusal :=
  s.onDev fun d => d.write m F.CST_CMD_OP.addr (BitVec.ofNat 32 (8 * 2 ^ 28 + target.val))

/-- READ_ALARM: a write of CST_CMD (R312). -/
def execReadAlarm (m : Master) (s : State) : Host.Outcome State Fault Refusal :=
  s.onDev fun d => d.write m F.CST_CMD_OP.addr 0x90000000

/-- ALARM_ACK: a write of CST_CMD (R312). -/
def execAlarmAck (m : Master) (s : State) : Host.Outcome State Fault Refusal :=
  s.onDev fun d => d.write m F.CST_CMD_OP.addr 0xA0000000

/-- CISTERN_BURST_DONE; a contactless command that waits for the port goes on (R317). -/
def execCisternBurstDone (s : State) : Host.Outcome State Fault Refusal :=
  s.onDev fun d => d.cisternBurstDoneOp.cstPoll

/-- POWER_UP_JOURNAL (R314). -/
def execPowerUpJournal (s : State) : Host.Outcome State Fault Refusal :=
  s.onDev fun d => d.powerUpJournalOp.cstPoll

/-- MARGIN_SCAN (R320). -/
def execMarginScan (weak : Bool) (s : State) : Host.Outcome State Fault Refusal :=
  s.onDev fun d => d.marginScanOp weak

/-- REFRESH (R321). -/
def execRefresh (s : State) : Host.Outcome State Fault Refusal :=
  s.onDev fun d => d.refreshOp

/-- ALARM_RECORD (R312). -/
def execAlarmRecord (s : State) : Host.Outcome State Fault Refusal :=
  s.onDev fun d => d.alarmRecordOp

/-- CISTERN_ENERGY_SHORT (R319). -/
def execCisternEnergyShort (s : State) : Host.Outcome State Fault Refusal :=
  s.onDev fun d => d.cisternEnergyShortOp.cstPoll

/-- CISTERN_BUF_CLEAR (R323). -/
def execCisternBufClear (s : State) : Host.Outcome State Fault Refusal :=
  s.onDev fun d => d.cisternBufClearOp

end Sys2Proof.Machine
end

