-- ==== Sys2Proof/Machine/CmdContactless.lean ====
section
/-! DEFINITION. The commands of the contactless interface and Handpump (R326 to R355). -/
namespace Sys2Proof.Machine

/-- FIELD_CHG (R327). -/
def execFieldChg (present : Bool) (s : State) : Host.Outcome State Fault Refusal :=
  s.onDev fun d => d.fieldChgOp present

/-- REQA (R331). -/
def execReqa (s : State) : Host.Outcome State Fault Refusal :=
  s.onDev fun d => d.reqaOp false

/-- WUPA (R331). -/
def execWupa (s : State) : Host.Outcome State Fault Refusal :=
  s.onDev fun d => d.reqaOp true

/-- ANTICOLLISION (R331). -/
def execAnticollision (level : Fin 2) (known : Bytes) (s : State) : Host.Outcome State Fault Refusal :=
  s.onDev fun d => d.anticollisionOp level.val known

/-- SELECT (R331). -/
def execSelect (level : Fin 2) (uid : Bytes) (s : State) : Host.Outcome State Fault Refusal :=
  s.onDev fun d => d.selectOp level.val uid

/-- HLTA (R340). -/
def execHlta (s : State) : Host.Outcome State Fault Refusal :=
  s.onDev fun d => d.hltaOp

/-- RATS (R331). -/
def execRats (param : Byte) (s : State) : Host.Outcome State Fault Refusal :=
  s.onDev fun d => d.ratsOp param

/-- PPS (R331). -/
def execPps (pps1 : Byte) (s : State) : Host.Outcome State Fault Refusal :=
  s.onDev fun d => d.ppsOp pps1

/-- REQB (R332). -/
def execReqb (s : State) : Host.Outcome State Fault Refusal :=
  s.onDev fun d => d.reqbOp false

/-- WUPB (R332). -/
def execWupb (s : State) : Host.Outcome State Fault Refusal :=
  s.onDev fun d => d.reqbOp true

/-- ATTRIB (R332). -/
def execAttrib (pupi : Bytes) (rates : Byte) (fsd : Nat) (cid : Fin 16) (s : State) : Host.Outcome State Fault Refusal :=
  s.onDev fun d => d.attribOp pupi rates fsd cid.val

/-- HLTB (R340). -/
def execHltb (pupi : Bytes) (s : State) : Host.Outcome State Fault Refusal :=
  s.onDev fun d => d.hltbOp pupi

/-- INVENTORY (R333). -/
def execInventory (s : State) : Host.Outcome State Fault Refusal :=
  s.onDev fun d => d.inventoryOp

/-- STAY_QUIET (R340). -/
def execStayQuiet (uid : Bytes) (s : State) : Host.Outcome State Fault Refusal :=
  s.onDev fun d => d.stayQuietOp uid

/-- READ_SINGLE_BLOCK (R333). -/
def execReadSingleBlock (mode : VMode) (blk : Byte) (s : State) : Host.Outcome State Fault Refusal :=
  s.onDev fun d => d.vReadOp mode blk.toNat 1

/-- READ_MULTIPLE_BLOCKS: the count byte is one less than the number of blocks, as the standard has it (R333). -/
def execReadMultipleBlocks (mode : VMode) (blk count : Byte) (s : State) : Host.Outcome State Fault Refusal :=
  s.onDev fun d => d.vReadOp mode blk.toNat (count.toNat + 1)

/-- SELECT_15693 (R333). -/
def execSelect15693 (uid : Bytes) (s : State) : Host.Outcome State Fault Refusal :=
  s.onDev fun d => d.vSelectOp uid

/-- RESET_TO_READY (R333). -/
def execResetToReady (mode : VMode) (s : State) : Host.Outcome State Fault Refusal :=
  s.onDev fun d => d.vResetOp mode

/-- GET_SYSTEM_INFORMATION (R333). -/
def execGetSystemInformation (mode : VMode) (s : State) : Host.Outcome State Fault Refusal :=
  s.onDev fun d => d.vInfoOp mode

/-- APDU_TRANSFER (R334). -/
def execApduTransfer (mode : VMode) (apdu : Bytes) (s : State) : Host.Outcome State Fault Refusal :=
  s.onDev fun d => d.apduTransferOp mode apdu

/-- GET_RESULT (R334). -/
def execGetResult (mode : VMode) (s : State) : Host.Outcome State Fault Refusal :=
  s.onDev fun d => d.getResultOp mode

/-- I_BLOCK (R337). -/
def execIBlock (b : Block) (s : State) : Host.Outcome State Fault Refusal :=
  s.onDev fun d => d.iBlockOp b

/-- R_ACK (R337). -/
def execRAck (bn : Bool) (s : State) : Host.Outcome State Fault Refusal :=
  s.onDev fun d => d.rAckOp bn

/-- R_NAK (R337). -/
def execRNak (bn : Bool) (s : State) : Host.Outcome State Fault Refusal :=
  s.onDev fun d => d.rNakOp bn

/-- S_DESELECT (R340). -/
def execSDeselect (s : State) : Host.Outcome State Fault Refusal :=
  s.onDev fun d => d.sDeselectOp

/-- S_WTX_RESPONSE (R338). -/
def execSWtxResponse (wtxm : Nat) (s : State) : Host.Outcome State Fault Refusal :=
  s.onDev fun d => d.sWtxOp wtxm

/-- SELECT_FILE (R341). -/
def execSelectFile (s : State) : Host.Outcome State Fault Refusal :=
  s.onDev fun d => d.selectFileOp

/-- READ_BINARY (R341). -/
def execReadBinary (s : State) : Host.Outcome State Fault Refusal :=
  s.onDev fun d => d.readBinaryOp

/-- UPDATE_BINARY (R341). -/
def execUpdateBinary (s : State) : Host.Outcome State Fault Refusal :=
  s.onDev fun d => d.updateBinaryOp

/-- GET_INFO (R342). -/
def execGetInfo (s : State) : Host.Outcome State Fault Refusal :=
  s.onDev fun d => d.getInfoOp

/-- AUTH_INIT (R349). -/
def execAuthInit (s : State) : Host.Outcome State Fault Refusal :=
  s.onDev fun d => d.authInitOp

/-- AUTH_FINISH (R349). -/
def execAuthFinish (s : State) : Host.Outcome State Fault Refusal :=
  s.onDev fun d => d.authFinishOp

/-- APDU_READ_PARAM (R342). -/
def execApduReadParam (s : State) : Host.Outcome State Fault Refusal :=
  s.onDev fun d => d.apduReadParamOp

/-- APDU_READ_CTR (R342). -/
def execApduReadCtr (s : State) : Host.Outcome State Fault Refusal :=
  s.onDev fun d => d.apduReadCtrOp

/-- APDU_READ_LOG (R344). -/
def execApduReadLog (s : State) : Host.Outcome State Fault Refusal :=
  s.onDev fun d => d.apduReadLogOp

/-- APDU_READ_ALARM (R344). -/
def execApduReadAlarm (s : State) : Host.Outcome State Fault Refusal :=
  s.onDev fun d => d.apduReadAlarmOp

/-- WTX_TIMER (R338). -/
def execWtxTimer (s : State) : Host.Outcome State Fault Refusal :=
  s.onDev fun d => d.wtxTimerOp

/-- RESPONSE_TRANSMIT (R336). -/
def execResponseTransmit (s : State) : Host.Outcome State Fault Refusal :=
  s.onDev fun d => d.responseTransmitOp

/-- PORT_CLAIM_RETRY (R346). -/
def execPortClaimRetry (s : State) : Host.Outcome State Fault Refusal :=
  s.onDev fun d => d.portClaimRetryOp

/-- FW_RESP: a write of RFIF_FW_RESP (R351). -/
def execFwResp (m : Master) (v : Word) (s : State) : Host.Outcome State Fault Refusal :=
  s.onDev fun d => d.write m F.RFIF_FW_RESP_SW.addr v

/-- FW_TIMEOUT (R352). -/
def execFwTimeout (s : State) : Host.Outcome State Fault Refusal :=
  s.onDev fun d => d.fwTimeoutOp

/-- FW_DATA_READ: a load of RFIF_FW_DATA (R354). -/
def execFwDataRead (m : Master) (s : State) : Host.Outcome State Fault Refusal :=
  s.onDev fun d => (d.busLoad m .read F.RFIF_FW_DATA_DATA.addr 4).1

/-- RELOAD: a write of RFIF_CTL with the other fields as they stand (R329). -/
def execReload (m : Master) (s : State) : Host.Outcome State Fault Refusal :=
  s.onDev fun d => d.write m F.RFIF_CTL_RELOAD.addr (d.reg F.RFIF_CTL_RELOAD.addr ||| 4)

/-- CONTACTLESS_CONFIG_LOAD (R329). -/
def execContactlessConfigLoad (s : State) : Host.Outcome State Fault Refusal :=
  s.onDev fun d => d.configLoadOp

end Sys2Proof.Machine
end

