-- ==== Sys2Proof/Machine/CryptoJobs.lean ====
section
/-! DEFINITION. The crypto engine at work on memory: the chunks of page jobs, public-key jobs, the end of a job with the
zeroing of R252, and the key commands (R246, R248 to R257, R263 to R265, R268). -/
namespace Sys2Proof.Machine

/-- Bus master of the crypto engine (R29). -/
def ceMaster : Master := 14

/-! ### Memory traffic -/

/-- Status of an access that failed (R254). -/
def accessStatus (r : Resp) : Nat := if r = .refused then jsACCESS else jsBUS_ERROR

/-- Does the window of a page, where there is one, permit a burst (R244)? -/
def winOk (w : Option (Nat × Nat)) (a n : Nat) : Bool := w.all fun x => inWindow x a n

/-- Length of the next burst of `n` bytes at `a`: it crosses no 64-byte boundary (R133, R243). -/
def burstLen (a n : Nat) : Nat := min n (64 - a % 64)

/-- Read `n` bytes in bursts, each of them inside the window: status and failing address where a byte is refused or
poisoned (R244, R254, R268); `fuel` bounds the bursts. -/
def Dev.ceReadN (w : Option (Nat × Nat)) : Nat → Dev → Nat → Nat → Dev × Except (Nat × Nat) Bytes
  | 0, d, _, _ => (d, .ok [])
  | fuel + 1, d, a, n =>
    if n = 0 then (d, .ok [])
    else
      let k := burstLen a n
      if !winOk w a k then (d, .error (jsWINDOW, a))
      else
        let x := d.busLoad ceMaster .read a k
        if x.2.1 ≠ .ok then (x.1, .error (accessStatus x.2.1, a + x.2.2.length))
        else
          match x.2.2.findIdx? fun b => b.2 with
          | some i => (x.1, .error (jsPOISON, a + i))
          | none =>
            match Dev.ceReadN w fuel x.1 (a + k) (n - k) with
            | (d2, .ok rest) => (d2, .ok (x.2.2.map Prod.fst ++ rest))
            | (d2, .error e) => (d2, .error e)

def Dev.ceRead (d : Dev) (w : Option (Nat × Nat)) (a n : Nat) : Dev × Except (Nat × Nat) Bytes :=
  Dev.ceReadN w (n + 1) d a n

/-- Write bytes in bursts: the number written, and status and address of a failure. -/
def Dev.ceWriteN (w : Option (Nat × Nat)) : Nat → Dev → Nat → Bytes → Dev × Nat × Option (Nat × Nat)
  | 0, d, _, _ => (d, 0, none)
  | fuel + 1, d, a, bs =>
    if bs.isEmpty then (d, 0, none)
    else
      let k := burstLen a bs.length
      if !winOk w a k then (d, 0, some (jsWINDOW, a))
      else
        let x := d.burstStore d.epoch ceMaster a (marked (bs.take k) false)
        if x.2.1 ≠ .ok then (x.1, x.2.2, some (accessStatus x.2.1, a + x.2.2))
        else
          let y := Dev.ceWriteN w fuel x.1 (a + k) (bs.drop k)
          (y.1, x.2.2 + y.2.1, y.2.2)

def Dev.ceWrite (d : Dev) (w : Option (Nat × Nat)) (a : Nat) (bs : Bytes) : Dev × Nat × Option (Nat × Nat) :=
  Dev.ceWriteN w (bs.length + 1) d a bs

/-- Zeros over `n` bytes in bursts, going on past a failure: the first byte left uncleared (R252, R253). -/
def Dev.ceZero (w : Option (Nat × Nat)) : Nat → Dev → Nat → Nat → Dev × Option Nat
  | 0, d, _, _ => (d, none)
  | fuel + 1, d, a, n =>
    if n = 0 then (d, none)
    else
      let k := burstLen a n
      if !winOk w a k then
        let y := Dev.ceZero w fuel d (a + k) (n - k)
        (y.1, some a)
      else
        let x := d.burstStore d.epoch ceMaster a (marked (List.replicate k 0) false)
        let y := Dev.ceZero w fuel x.1 (a + k) (n - k)
        (y.1, if x.2.1 = .ok then y.2 else some (a + x.2.2))

/-! ### Results of a whole message (R246, R248) -/

/-- The tag of GCM and GMAC from the accumulator. -/
def CeJob.gcmTag (j : CeJob) (key : Bytes) : Bytes :=
  let lens := if j.op = 4 then beBytes 8 (8 * j.aad) ++ beBytes 8 (8 * j.len) else beBytes 8 (8 * j.len) ++ beBytes 8 0
  let s := ghash (ghashKey key) j.run.gh lens
  xorBytes (beBytes 16 s) (aesEnc key (j.iv.take 12 ++ [0, 0, 0, 1]))

/-- The digest of a SHA job, or the value of an HMAC job. -/
def CeJob.digest (j : CeJob) (key : Bytes) : Bytes :=
  let s := opSha j.op
  let inner := s.final j.run.hash j.run.tail j.run.total
  if isHmac j.op then s.hmacOuter key inner else inner

/-- The job has failed in an access: only a byte outside the window has no address to show (R254). -/
def CeJob.fail (j : CeJob) (e : Nat × Nat) : CeJob :=
  { j with ended := some (e.1, if e.1 = jsWINDOW then none else some e.2) }

/-- Does the job end its message: WHOLE or LAST? -/
def CeJob.closes (j : CeJob) : Bool := j.part == 0 || j.part == 3

/-- Status of a job that has done all its bytes. -/
def CeJob.verdict (j : CeJob) (key : Bytes) : Nat :=
  if j.dir = 1 ∧ j.closes ∧ (j.op = 4 ∨ j.op = 5 ∨ isHmac j.op) then
    let v := if isHmac j.op then j.digest key else j.gcmTag key
    if v.take j.tagLen = j.tag.take j.tagLen then jsOK else jsAUTH_FAIL
  else jsOK

/-! ### Chunks (R249, R268) -/

/-- Bytes of additional data that precede the data. -/
def CeJob.aadLen (j : CeJob) : Nat := if j.op = 4 then j.aad else 0

/-- Running state and output of a chunk of data. -/
def CeJob.crunch (j : CeJob) (key : Bytes) (o : Nat) (data : Bytes) : CeRun × Bytes :=
  let x := j.run
  if j.op = 1 then (x, aesEcb (j.dir == 0) key data)
  else if j.op = 2 then
    let y := aesCbc (j.dir == 0) key x.chain data
    ({ x with chain := y.2 }, y.1)
  else if j.op = 3 then
    let y := aesCtr key x.chain data
    let end_ := beNat (x.chain.drop 12) + ceilDiv data.length 16
    ({ x with chain := y.2, wrapped := x.wrapped || decide (2 ^ 32 ≤ end_) }, y.1)
  else if j.op = 4 then
    let y := aesCtr key x.chain data
    ({ x with chain := y.2, gh := ghash (ghashKey key) x.gh (if j.dir = 0 then y.1 else data) }, y.1)
  else if j.op = 5 then ({ x with gh := ghash (ghashKey key) x.gh data }, [])
  else if isSha j.op ∨ isHmac j.op then
    let s := opSha j.op
    let buf := x.tail ++ data
    let k := buf.length / s.block * s.block
    ({ x with hash := s.update x.hash (buf.take k), tail := buf.drop k, total := x.total + data.length }, [])
  else (x, slice j.rnd o data.length)

/-- A chunk of the AES or hash engine, of a job of page `r` that has begun. -/
def Dev.ceDataChunk (d : Dev) (r : Fin 16) (j : CeJob) : Dev × CeJob :=
  let key := (d.slot j.slot).key
  let w := some (d.pageWindow r)
  let total := j.aadLen + j.len
  if j.pos < j.aadLen then
    let k := min 64 (j.aadLen - j.pos)
    match d.ceRead w (j.src + j.pos) k with
    | (d1, .error e) => (d1, j.fail e)
    | (d1, .ok data) =>
      let j1 := { j with pos := j.pos + k, run := { j.run with gh := ghash (ghashKey key) j.run.gh data } }
      (d1, if total ≤ j1.pos then { j1 with ended := some (j1.verdict key, none) } else j1)
  else
    let o := j.pos - j.aadLen
    let k := min 64 (j.len - o)
    match (if j.op = 0x30 then (d, .ok (List.replicate k 0)) else d.ceRead w (j.src + j.pos) k) with
    | (d1, .error e) => (d1, j.fail e)
    | (d1, .ok data) =>
      let (run, out) := j.crunch key o data
      let (d2, n, err) := d1.ceWrite w (j.dst + o) out
      let j1 := { j with run := run, written := j.written + n }
      match err with
      | some e => (d2, j1.fail e)
      | none =>
        let j2 := { j1 with pos := j.pos + k }
        (d2, if total ≤ j2.pos then { j2 with ended := some (j2.verdict key, none) } else j2)

/-! ### Wrapped blobs (R265) -/

/-- The header of a blob: type, length, usage and fixed field; none where it is illegal. -/
def blobHeader (h : Bytes) : Option (Nat × Nat × Nat × Word) :=
  let w0 := leNat (slice h 0 4)
  let usage := leNat (slice h 4 4)
  let typ := w0 % 256
  if w0 / 256 % 256 = 1 ∧ usage < 1024 ∧ leNat (slice h 12 4) = 0 ∧ usageOk typ usage ∧ 1 ≤ typ ∧ typ ≤ 6 then
    some (typ, w0 / 65536, usage, BitVec.ofNat 32 (leNat (slice h 8 4)))
  else none

/-- The key of a blob, if its tag verifies under `kek`. -/
def unwrapKey (kek blob : Bytes) (plen : Nat) : Option Bytes :=
  let iv := slice blob 16 12
  let ct := slice blob 28 plen
  if gcmTag kek iv (blob.take 16) ct = slice blob (28 + plen) 16 then some (gcmCrypt kek iv ct) else none

/-- The blob of a key slot under `kek`. -/
def wrapKey (kek iv : Bytes) (k : KeySlot) : Bytes :=
  let head := leBytes 4 (k.key.length * 65536 + 256 + k.typ) ++ leBytes 4 k.usage ++ leBytes 4 k.fixed.toNat ++ [0, 0, 0, 0]
  let ct := gcmCrypt kek iv k.key
  head ++ iv ++ ct ++ gcmTag kek iv head ct

/-! ### Public-key jobs (R256) -/

/-- Does a modulus of `k` bytes fit: odd, its top bit set? -/
def modulusOk (k m : Nat) : Bool := m % 2 == 1 && bitAt m (8 * k - 1)

/-- The result of a public-key job from its operands: status, and the bytes for DST. -/
def pkResult (j : CeJob) (k : KeySlot) (inp : Bytes) (random : Bytes) : Nat × Bytes :=
  let c := opCurve j.op
  let n := c.len
  if isEcdsa j.op then
    let h := inp.take j.len
    if j.dir = 0 then (jsOK, c.sign (beNat k.key) (c.secret random) h)
    else
      let f (i : Nat) : Nat := beNat (slice inp (j.len + n * i) n)
      if !c.onCurve (f 0) (f 1) ∨ f 2 = 0 ∨ c.n ≤ f 2 ∨ f 3 = 0 ∨ c.n ≤ f 3 then (jsBAD_INPUT, [])
      else (if c.verify (f 0) (f 1) (f 2) (f 3) h then jsOK else jsAUTH_FAIL, [])
  else if j.dir = 1 then
    let m := beNat (inp.take j.len)
    let e := beNat (slice inp j.len 4)
    let x := beNat (slice inp (j.len + 4) j.len)
    if !modulusOk j.len m ∨ e % 2 = 0 ∨ e < 3 ∨ m ≤ x then (jsBAD_INPUT, []) else (jsOK, beBytes j.len (modExp x e m))
  else
    let x := beNat (inp.take j.len)
    let blob := inp.drop j.len
    let plen := 5 * j.len / 2
    match unwrapKey k.key blob plen, blobHeader (blob.take 16) with
    | some key, some (typ, len, usage, _) =>
      if typ ≠ 6 ∨ len ≠ plen then (jsAUTH_FAIL, [])
      else if !bitAt usage 4 then (jsKEY_DENIED, [])
      else
        let f (i : Nat) : Nat := beNat (slice key (j.len / 2 * i) (j.len / 2))
        let p := f 0
        let q := f 1
        if !modulusOk j.len (p * q) ∨ p * q ≤ x then (jsBAD_INPUT, [])
        else
          let m1 := modExp x (f 2) p
          let m2 := modExp x (f 3) q
          let h := f 4 * ((m1 + p - m2 % p) % p) % p
          (jsOK, beBytes j.len (m2 + h * q))
    | _, _ => (jsAUTH_FAIL, [])

/-- The last step of a public-key job: its operands, its result, its end (log entry 44). -/
def Dev.cePkJob (d : Dev) (r : Fin 16) (j : CeJob) : Dev × CeJob :=
  let w := some (d.pageWindow r)
  match d.ceRead w j.src j.inLen with
  | (d1, .error e) => (d1, j.fail e)
  | (d1, .ok inp) =>
    let (st, out) := pkResult j (d1.slot j.slot) inp j.rnd
    let (d2, n, err) := d1.ceWrite w j.dst out
    let j1 := { j with pos := j.len, written := n }
    match err with
    | some e => (d2, j1.fail e)
    | none => (d2, { j1 with ended := some (st, none) })

/-- Steps of a public-key job or key generation before its last one: outside HOST it pauses between them (R257, R268). -/
def Dev.pkPauses (d : Dev) (op len : Nat) : Nat := if d.opState = stHost then 0 else Config.pkMoreSteps op len

/-! ### CE_CHUNK -/

/-- The job's next step, once it has been granted: its key is read, and it fails where a byte of the key is not
correctable (R268). -/
def Dev.ceStep (d : Dev) (r : Fin 16) (j : CeJob) : Dev × CeJob :=
  let d1 := if usesSlot j.op j.dir then d.keyRead 14 j.slot else d
  if usesSlot j.op j.dir ∧ (d1.slot j.slot).damaged then (d1, { j with ended := some (jsPOISON, none) })
  else if isPk j.op then
    if j.steps < d1.pkPauses j.op j.len then (d1, { j with steps := j.steps + 1 }) else d1.cePkJob r j
  else d1.ceDataChunk r j

/-- CE_CHUNK: an engine takes the next step of page `r`'s job, if it is that page's turn (R249, R255, R268). -/
def Dev.ceChunkOp (d : Dev) (r : Fin 16) : Dev :=
  if !d.on .core then d
  else
    match (d.page r).job with
    | none => d
    | some j =>
      if j.ended.isSome then d
      else if j.abort then d.setJobCe r (some { j with short := none, ended := some (jsABORTED, none) })
      else if !j.begun ∨ j.short.isSome ∨ !d.ceTurn r then d
      else
        match d.ceAsk r j with
        | (d1, false) => d1.setJobCe r (some { j with short := some d.now })
        | (d1, true) =>
          let (d2, j1) := d1.ceStep r j
          ((((d2.ceServed r j.op).setJobCe r (some { j1 with granted := false })).energyEnd (.ce r))).put
            (pageField r F.CE_PROG_DONE) (j1.pos - j1.aadLen)

/-! ### CE_JOB_DONE (R248, R252 to R254) -/

/-- What a job that ends with OK leaves in its page. -/
def Dev.ceResults (d : Dev) (r : Fin 16) (j : CeJob) : Dev :=
  let key := (d.slot j.slot).key
  if (j.op = 4 ∨ j.op = 5) ∧ j.dir = 0 then d.putRegBytes (pageTag r) 4 ((j.gcmTag key).take j.tagLen)
  else if j.op = 2 ∨ j.op = 3 then d.putRegBytes (pageIv r) 4 j.run.chain
  else if (isSha j.op ∨ (isHmac j.op ∧ j.dir = 0)) ∧ j.closes then d.putRegBytes (pageDigest r) 16 (j.digest key)
  else d

/-- CE_JOB_DONE: the zeroing of a failed GCM decryption, the results, and DONE. -/
def Dev.ceJobDoneOp (d : Dev) (r : Fin 16) : Dev :=
  match (d.page r).job with
  | none => d
  | some j =>
    match j.ended with
    | none => d
    | some (st, fa) =>
      let z := if j.op = 4 ∧ j.dir = 1 ∧ st ≠ jsOK then Dev.ceZero (some (d.pageWindow r)) (j.written + 1) d j.dst j.written
        else (d, none)
      let d1 := z.1.energyEnd (.ce r)
      let keep := if (j.part = 1 ∨ j.part = 2) ∧ st = jsOK then some j.run else none
      let d2 := d1.setPage r ⟨none, keep⟩
      let d3 := match z.2 with
        | some a => (d2.trouble tCRYPTO).event 7 2 clsFault (BitVec.ofNat 32 a) (BitVec.ofNat 32 r.val)
        | none => d2
      if j.closing then d3.pageReset r
      else
        match z.2 with
        | some a => ((d3.zeroResults r j.dir).put (pageField r F.CE_FAIL_ADDR_ADDR) a).jobStatus r jsUNCLEARED
        | none =>
          if st = jsOK then (d3.ceResults r j).jobStatus r jsOK
          else
            let d4 := d3.zeroResults r j.dir
            (match fa with | some a => d4.put (pageField r F.CE_FAIL_ADDR_ADDR) a | none => d4).jobStatus r st

/-! ### Key commands (R263, R264) -/

/-- Statuses of a key command. -/
def ksOK : Nat := 0
def ksBAD_CMD : Nat := 1
def ksPROV_LOCKED : Nat := 2
def ksOCCUPIED : Nat := 3
def ksEMPTY : Nat := 4
def ksIN_USE : Nat := 5
def ksKEK_DENIED : Nat := 6
def ksNOT_EXPORTABLE : Nat := 7
def ksUNWRAP_FAIL : Nat := 8
def ksACCESS : Nat := 9
def ksPOISON : Nat := 10
def ksRNG_FAIL : Nat := 11
def ksNONCE : Nat := 12

/-- Would the blob of an export be refused at CE_KEY_ADDR? The attempt is made for its check alone: what it stored is taken
back (R264, log entry 44). -/
def Dev.exportRefused (d : Dev) (k : CeKeyCmd) : Option Dev :=
  if isRegAddr k.addr then none
  else
    let x := d.ceWrite none k.addr (List.replicate (44 + (d.slot k.slot).key.length) 0)
    x.2.2.map fun _ => { x.1 with ram := d.ram, chk := d.chk, integ := d.integ }

/-- The conditions that are known before anything is read: the first that fails. A DAMAGED slot serves only ERASE
(R268, log entry 44). -/
def Dev.keyCmdFails (d : Dev) (k : CeKeyCmd) : Option Nat :=
  let s := d.slot k.slot
  let kek := d.slot k.kek
  if (k.op = 2 ∨ k.op = 3) ∧ (!plenOk k.typ k.plen ∨ !usageOk k.typ k.usage) then some ksBAD_CMD
  else if k.op = 6 ∧ s.typ ≠ 0 ∧ s.typ ≠ 4 ∧ s.typ ≠ 5 then some ksBAD_CMD
  else if k.op = 2 ∧ d.flag F.CE_CTRL_PROV_LOCK then some ksPROV_LOCKED
  else if k.op ≤ 3 ∧ s.typ ≠ 0 then some ksOCCUPIED
  else if 4 ≤ k.op ∧ s.typ = 0 then some ksEMPTY
  else if k.op = 5 ∧ (d.cached (slotIdx k.slot) ∨ d.slotHeld k.slot) then some ksIN_USE
  else if (k.op = 1 ∨ k.op = 4) ∧ (kek.typ ≠ 2 ∨ !bitAt kek.usage 5 ∨ kek.damaged ∨ k.kek = k.slot) then some ksKEK_DENIED
  else if k.op = 4 ∧ !bitAt s.usage 8 then some ksNOT_EXPORTABLE
  else if (k.op = 4 ∨ k.op = 6) ∧ s.damaged then some ksPOISON
  else if k.op = 4 ∧ (k.want ≠ 0 ∨ 2 ^ 32 ≤ kek.inv) ∧ (d.exportRefused k).isSome then some ksACCESS
  else if k.want ≠ 0 then some ksRNG_FAIL
  else if k.op = 4 ∧ 2 ^ 32 ≤ kek.inv then some ksNONCE
  else none

/-- Status of a read or write at CE_KEY_ADDR that failed. -/
def keyAccess (st : Nat) : Nat := if st = jsPOISON then ksPOISON else ksACCESS

/-- A key enters its slot. -/
def Dev.fillSlot (d : Dev) (k : CeKeyCmd) (typ usage : Nat) (fixed : Word) (key : Bytes) (origin : Bool) : Dev :=
  d.setSlot k.slot ⟨typ, key, usage, origin, fixed, 0, false, []⟩

/-- The effect of a key command, and its status. -/
def Dev.keyCmdRun (d : Dev) (k : CeKeyCmd) : Dev × Nat :=
  let s := d.slot k.slot
  let kek := d.slot k.kek
  if k.op = 1 then
    match d.ceRead none k.addr 16 with
    | (d1, .error e) => (d1, keyAccess e.1)
    | (d1, .ok head) =>
      match blobHeader head with
      | none => (d1, ksUNWRAP_FAIL)
      | some (typ, plen, usage, fixed) =>
        if !plenOk typ plen then (d1, ksUNWRAP_FAIL)
        else
          match d1.ceRead none (k.addr + 16) (28 + plen) with
          | (d2, .error e) => (d2, keyAccess e.1)
          | (d2, .ok rest) =>
            match unwrapKey kek.key (head ++ rest) plen with
            | none => (d2, ksUNWRAP_FAIL)
            | some key => (d2.fillSlot k typ usage fixed key false, ksOK)
  else if k.op = 2 then
    match d.ceRead none k.addr k.plen with
    | (d1, .error e) => (d1, keyAccess e.1)
    | (d1, .ok key) => (d1.fillSlot k k.typ k.usage k.fixed key false, ksOK)
  else if k.op = 3 then
    let key :=
      if k.typ = 4 then beBytes 32 (p256.secret k.rnd)
      else if k.typ = 5 then beBytes 48 (p384.secret k.rnd)
      else padTo k.plen (k.rnd.take k.plen)
    (d.fillSlot k k.typ k.usage k.fixed key true, ksOK)
  else if k.op = 4 then
    let d1 := d.setSlot k.kek { kek with inv := kek.inv + 1 }
    let x := d1.ceWrite none k.addr (wrapKey kek.key k.rnd s)
    (x.1, match x.2.2 with | some e => keyAccess e.1 | none => ksOK)
  else if k.op = 5 then (d.setSlot k.slot KeySlot.empty, ksOK)
  else
    let c := if s.typ = 4 then p256 else p384
    let x := d.ceWrite none k.addr (c.public (beNat s.key))
    (x.1, match x.2.2 with | some e => keyAccess e.1 | none => ksOK)

/-- The slots that a key command reads are read: an uncorrectable byte fails it with POISON (R268). -/
def Dev.keyCmdReads (d : Dev) (k : CeKeyCmd) : Dev × Bool :=
  let used : List Nat := if k.op = 1 then [k.kek] else if k.op = 4 then [k.kek, k.slot] else if k.op = 6 then [k.slot] else []
  let d1 := used.foldl (fun x s => x.keyRead ceMaster s) d
  (d1, used.all fun s => !(d1.slot s).damaged)

/-- A key command at its end: what it leaves, and its status. -/
def Dev.keyCmdEnd (d : Dev) (k : CeKeyCmd) : Dev × Nat :=
  match d.keyCmdFails k with
  | some st => (if st = ksACCESS then (d.exportRefused k).getD d else d, st)
  | none =>
    match d.keyCmdReads k with
    | (d1, true) => d1.keyCmdRun k
    | (d1, false) => (d1, ksPOISON)

/-- Does the command work on an EC key? -/
def CeKeyCmd.ec (k : CeKeyCmd) : Bool := k.op == 6 || (k.op == 3 && (k.typ == 4 || k.typ == 5))

/-- The budget of a key command's step in pJ (R363): one public-key step, or a chunk. -/
def keyBudget (k : CeKeyCmd) : Nat := if k.op = 6 ∨ k.typ = 4 ∨ k.typ = 5 then 11000000 else ceilDiv (60 * 2750) 3

/-- CE_KEY_CMD_DONE: the next step of the command that executes, and with the last one its completion; it waits for its
random numbers, and in PASSIVE_RUN for its energy (R263, R264, R268). -/
def Dev.ceKeyCmdDoneOp (d : Dev) : Dev :=
  match d.ce.key with
  | none => d
  | some k =>
    if !d.on .core ∨ (k.want ≠ 0 ∧ d.rngState ≠ rngFAILED ∧ (d.keyCmdFails { k with want := 0 }).isNone) then d
    else
      match d.askEnergy .key 5 (keyBudget k) with
      | (d1, false) => d1
      | (d1, true) =>
        if k.ec ∧ k.steps < d1.pkPauses k.op k.plen then
          { d1 with ce := { d1.ce with key := some { k with steps := k.steps + 1 } } }.energyEnd .key
        else
          let x := d1.keyCmdEnd k
          let d2 := { x.1 with ce := { x.1.ce with key := none } }.energyEnd .key
          (d2.put F.CE_KEY_RESULT_STATUS x.2).put F.CE_KEY_RESULT_BUSY 0

end Sys2Proof.Machine
end

