-- ==== Sys2Proof/Machine/CmdCrypto.lean ====
section
/-! DEFINITION. The commands of the crypto engine: page jobs, key commands and the random numbers (R243 to R268). -/
namespace Sys2Proof.Machine

/-- START of a page's job, if the operation that CE_CFG selects is `op`. -/
def Dev.startJob (d : Dev) (m : Master) (r : Fin 16) (op : Nat) : Dev :=
  if d.get (pageField r F.CE_CFG_OP) = op then d.write m (pageField r F.CE_CMD_OP).addr 1 else d

/-- AES_ECB: START of a job whose CE_CFG.OP says so (R246). -/
def execAesEcb (m : Master) (r : Fin 16) (s : State) : Host.Outcome State Fault Refusal :=
  s.onDev fun d => d.startJob m r 0x01

/-- AES_CBC: START of a job whose CE_CFG.OP says so (R246). -/
def execAesCbc (m : Master) (r : Fin 16) (s : State) : Host.Outcome State Fault Refusal :=
  s.onDev fun d => d.startJob m r 0x02

/-- AES_CTR: START of a job whose CE_CFG.OP says so (R246). -/
def execAesCtr (m : Master) (r : Fin 16) (s : State) : Host.Outcome State Fault Refusal :=
  s.onDev fun d => d.startJob m r 0x03

/-- AES_GCM: START of a job whose CE_CFG.OP says so (R252). -/
def execAesGcm (m : Master) (r : Fin 16) (s : State) : Host.Outcome State Fault Refusal :=
  s.onDev fun d => d.startJob m r 0x04

/-- AES_GMAC: START of a job whose CE_CFG.OP says so (R246). -/
def execAesGmac (m : Master) (r : Fin 16) (s : State) : Host.Outcome State Fault Refusal :=
  s.onDev fun d => d.startJob m r 0x05

/-- SHA256: START of a job whose CE_CFG.OP says so (R246). -/
def execSha256 (m : Master) (r : Fin 16) (s : State) : Host.Outcome State Fault Refusal :=
  s.onDev fun d => d.startJob m r 0x10

/-- SHA384: START of a job whose CE_CFG.OP says so (R246). -/
def execSha384 (m : Master) (r : Fin 16) (s : State) : Host.Outcome State Fault Refusal :=
  s.onDev fun d => d.startJob m r 0x11

/-- SHA512: START of a job whose CE_CFG.OP says so (R246). -/
def execSha512 (m : Master) (r : Fin 16) (s : State) : Host.Outcome State Fault Refusal :=
  s.onDev fun d => d.startJob m r 0x12

/-- HMAC_SHA256: START of a job whose CE_CFG.OP says so (R246). -/
def execHmacSha256 (m : Master) (r : Fin 16) (s : State) : Host.Outcome State Fault Refusal :=
  s.onDev fun d => d.startJob m r 0x18

/-- HMAC_SHA384: START of a job whose CE_CFG.OP says so (R246). -/
def execHmacSha384 (m : Master) (r : Fin 16) (s : State) : Host.Outcome State Fault Refusal :=
  s.onDev fun d => d.startJob m r 0x19

/-- HMAC_SHA512: START of a job whose CE_CFG.OP says so (R246). -/
def execHmacSha512 (m : Master) (r : Fin 16) (s : State) : Host.Outcome State Fault Refusal :=
  s.onDev fun d => d.startJob m r 0x1A

/-- ECDSA_P256: START of a job whose CE_CFG.OP says so (R256). -/
def execEcdsaP256 (m : Master) (r : Fin 16) (s : State) : Host.Outcome State Fault Refusal :=
  s.onDev fun d => d.startJob m r 0x20

/-- ECDSA_P384: START of a job whose CE_CFG.OP says so (R256). -/
def execEcdsaP384 (m : Master) (r : Fin 16) (s : State) : Host.Outcome State Fault Refusal :=
  s.onDev fun d => d.startJob m r 0x21

/-- RSA: START of a job whose CE_CFG.OP says so (R256). -/
def execRsa (m : Master) (r : Fin 16) (s : State) : Host.Outcome State Fault Refusal :=
  s.onDev fun d => d.startJob m r 0x24

/-- RANDOM: START of a job whose CE_CFG.OP says so (R246). -/
def execRandom (m : Master) (r : Fin 16) (s : State) : Host.Outcome State Fault Refusal :=
  s.onDev fun d => d.startJob m r 0x30

/-- CE_ABORT: a write of CE_CMD (R255). -/
def execCeAbort (m : Master) (r : Fin 16) (s : State) : Host.Outcome State Fault Refusal :=
  s.onDev fun d => d.write m (pageField r F.CE_CMD_OP).addr 2

/-- PAGE_DISABLE: a write of CE_PAGE_CTL with the other fields as they stand (R245). -/
def execPageDisable (m : Master) (r : Fin 16) (s : State) : Host.Outcome State Fault Refusal :=
  s.onDev fun d =>
    d.write m (F.CE_PAGE_CTL_EN.plus (0x20 * r.val)).addr
      (d.reg (F.CE_PAGE_CTL_EN.plus (0x20 * r.val)).addr &&& 0x7FFFFFFF)

/-- CE_CHUNK (R249). -/
def execCeChunk (r : Fin 16) (s : State) : Host.Outcome State Fault Refusal :=
  s.onDev fun d => d.ceChunkOp r

/-- CE_JOB_DONE (R252). -/
def execCeJobDone (r : Fin 16) (s : State) : Host.Outcome State Fault Refusal :=
  s.onDev fun d => d.ceJobDoneOp r

/-- CE_ENERGY_SHORT (R268). -/
def execCeEnergyShort (r : Fin 16) (s : State) : Host.Outcome State Fault Refusal :=
  s.onDev fun d => d.ceEnergyShortOp r

/-- IMPORT_WRAPPED: a write of CE_KEY_CMD (R263). -/
def execImportWrapped (m : Master) (kek slot : Fin 64) (s : State) : Host.Outcome State Fault Refusal :=
  s.onDev fun d => d.write m F.CE_KEY_CMD_OP.addr (BitVec.ofNat 32 (kek.val * 2 ^ 16 + slot.val * 2 ^ 8 + 1))

/-- IMPORT_PLAIN: a write of CE_KEY_CMD (R263). -/
def execImportPlain (m : Master) (slot : Fin 64) (s : State) : Host.Outcome State Fault Refusal :=
  s.onDev fun d => d.write m F.CE_KEY_CMD_OP.addr (BitVec.ofNat 32 (slot.val * 2 ^ 8 + 2))

/-- GENERATE: a write of CE_KEY_CMD (R263). -/
def execGenerate (m : Master) (slot : Fin 64) (s : State) : Host.Outcome State Fault Refusal :=
  s.onDev fun d => d.write m F.CE_KEY_CMD_OP.addr (BitVec.ofNat 32 (slot.val * 2 ^ 8 + 3))

/-- EXPORT_WRAPPED: a write of CE_KEY_CMD (R263). -/
def execExportWrapped (m : Master) (kek slot : Fin 64) (s : State) : Host.Outcome State Fault Refusal :=
  s.onDev fun d => d.write m F.CE_KEY_CMD_OP.addr (BitVec.ofNat 32 (kek.val * 2 ^ 16 + slot.val * 2 ^ 8 + 4))

/-- ERASE: a write of CE_KEY_CMD (R263). -/
def execErase (m : Master) (slot : Fin 64) (s : State) : Host.Outcome State Fault Refusal :=
  s.onDev fun d => d.write m F.CE_KEY_CMD_OP.addr (BitVec.ofNat 32 (slot.val * 2 ^ 8 + 5))

/-- PUBLIC: a write of CE_KEY_CMD (R263). -/
def execPublicPoint (m : Master) (slot : Fin 64) (s : State) : Host.Outcome State Fault Refusal :=
  s.onDev fun d => d.write m F.CE_KEY_CMD_OP.addr (BitVec.ofNat 32 (slot.val * 2 ^ 8 + 6))

/-- CE_KEY_CMD_DONE (R264). -/
def execCeKeyCmdDone (s : State) : Host.Outcome State Fault Refusal :=
  s.onDev fun d => d.ceKeyCmdDoneOp

/-- RESEED: a write of CE_RNG_CTL (R259). -/
def execReseed (m : Master) (s : State) : Host.Outcome State Fault Refusal :=
  s.onDev fun d => d.write m F.CE_RNG_CTL_PR.addr ((d.reg F.CE_RNG_CTL_PR.addr &&& 4) ||| 2)

/-- RESEED_DONE (R259). -/
def execReseedDone (s : State) : Host.Outcome State Fault Refusal :=
  s.onDev fun d => d.reseedDoneOp

/-- RESTART: a write of CE_RNG_CTL (R260). -/
def execRestart (m : Master) (s : State) : Host.Outcome State Fault Refusal :=
  s.onDev fun d => d.write m F.CE_RNG_CTL_PR.addr ((d.reg F.CE_RNG_CTL_PR.addr &&& 4) ||| 1)

/-- RNG_READY (R258). -/
def execRngReady (s : State) : Host.Outcome State Fault Refusal :=
  s.onDev fun d => d.rngReadyOp

/-- HEALTH_FAIL (R260). -/
def execHealthFail (rct : Bool) (s : State) : Host.Outcome State Fault Refusal :=
  s.onDev fun d => d.healthFailOp rct

end Sys2Proof.Machine
end

