-- ==== Sys2Proof/Machine/CmdEvent.lean ====
section
/-! DEFINITION. The commands of the event issuer, the watchdog and Wellcap (R377 to R397). -/
namespace Sys2Proof.Machine

/-- EVENT_ISSUE (R377). -/
def execEventIssue (src : Fin 32) (s : State) : Host.Outcome State Fault Refusal :=
  s.onDev fun d => d.eventIssueOp src.val

/-- COAL_WINDOW_CLOSE (R383). -/
def execCoalWindowClose (src : Fin 32) (s : State) : Host.Outcome State Fault Refusal :=
  s.onDev fun d => d.coalWindowCloseOp src.val

/-- EVT_SW: a write of EVT_SW, completed (R397). -/
def execEvtSw (m : Master) (v : Word) (s : State) : Host.Outcome State Fault Refusal :=
  s.onDev fun d => d.writeAon m F.EVT_SW_CODE.addr v

/-- WDOG_KICK: a write of WDOG_KICK, completed (R388). -/
def execWdogKick (m : Master) (v : Word) (s : State) : Host.Outcome State Fault Refusal :=
  s.onDev fun d => d.writeAon m F.WDOG_KICK_KEY.addr v

/-- WDOG_START: a write of WDOG_CTL, completed (R389). -/
def execWdogStart (m : Master) (v : Word) (s : State) : Host.Outcome State Fault Refusal :=
  s.onDev fun d => d.writeAon m F.WDOG_CTL_EN.addr v

/-- WDOG_EXPIRY (R389). -/
def execWdogExpiry (s : State) : Host.Outcome State Fault Refusal :=
  s.onDev fun d => d.wdogExpiryOp

/-- ALARM_EDGE (R393). -/
def execAlarmEdge (cause : Fin 9) (detail : Byte) (s : State) : Host.Outcome State Fault Refusal :=
  s.onDev fun d => d.alarmEdgeOp cause.val detail.toNat

/-- MESH_SAMPLE (R390). -/
def execMeshSample (bad : Option (Fin 8)) (s : State) : Host.Outcome State Fault Refusal :=
  s.onDev fun d => d.meshSampleOp bad

/-- MESH_RESAMPLE (R390). -/
def execMeshResample (bad : Option (Fin 8)) (s : State) : Host.Outcome State Fault Refusal :=
  s.onDev fun d => d.meshResampleOp bad

/-- LIGHT (R390). -/
def execLight (sensor : Option (Fin 4)) (s : State) : Host.Outcome State Fault Refusal :=
  s.onDev fun d => d.lightOp sensor

/-- VGLITCH (R390). -/
def execVglitch (which : Glitch) (s : State) : Host.Outcome State Fault Refusal :=
  s.onDev fun d => d.vglitchOp which

/-- VBAT_UV (R390). -/
def execVbatUv (mv : Nat) (s : State) : Host.Outcome State Fault Refusal :=
  s.onDev fun d => d.vbatUvOp mv

/-- CLOCK (R390). -/
def execClock (obs : ClockObs) (s : State) : Host.Outcome State Fault Refusal :=
  s.onDev fun d => d.clockOp obs

/-- AON_CLOCK (R390). -/
def execAonClock (s : State) : Host.Outcome State Fault Refusal :=
  s.onDev fun d => d.aonClockOp

/-- TEMP (R390). -/
def execTemp (tj : Int) (s : State) : Host.Outcome State Fault Refusal :=
  s.onDev fun d => d.tempOp tj

/-- LOCKSTEP (R390). -/
def execLockstep (s : State) : Host.Outcome State Fault Refusal :=
  s.onDev fun d => d.lockstepOp

end Sys2Proof.Machine
end

