-- ==== Sys2Proof/Machine/Boot.lean ====
section
/-! DEFINITION. The boot ROM: image checks, hand-over and recovery (R410 to R414). The ROM runs as the core at Vault; its
accesses are the model's own and pass the rules that its instructions would (log entry 4). -/
namespace Sys2Proof.Machine

/-! ### Images (R411, R412) -/

/-- First byte of a bank: A or B. -/
def bankBase (b : Bool) : Nat := flashBase + 0x200000 * b2n b

/-- What the boot ROM knows of the Cistern when it checks an image. -/
structure BootRefs where
  keys : Twins
  floor : Option Nat
  rollback : Option Nat
  deriving DecidableEq, Repr

def Dev.bootRefs (d : Dev) : BootRefs :=
  ⟨d.param 8, (d.counter 25).map Prod.fst, (d.counter 24).map Prod.fst⟩

/-- Little-endian field of a header. -/
def hdrField (h : Bytes) (o n : Nat) : Nat := leNat (slice h o n)

def allZero (bs : Bytes) : Bool := bs.all (· == 0)

/-- Is a header in rule? -/
def headerOk (h : Bytes) : Bool :=
  let len := hdrField h 0x10 4
  let entry := hdrField h 0x14 4
  hdrField h 0 4 == 0x4D494356 && hdrField h 4 2 == 1 && hdrField h 7 1 == 0 &&
    len % 4 == 0 && decide (4 ≤ len) && decide (len ≤ 0x1FFE00) && entry % 4 == 0 && decide (entry < len) &&
    allZero (slice h 0x1C 4) && allZero (slice h 0xB0 0xF0)

/-- Is KEYIDX below the key floor, or the floor unknown? -/
def keyRevoked (r : BootRefs) (h : Bytes) : Bool :=
  match r.floor with
  | some f => decide (hdrField h 6 1 < f)
  | none => true

/-- Is the image's key unknown? -/
def keyUnknown (r : BootRefs) (h : Bytes) : Bool :=
  match r.keys.single with
  | none => true
  | some rec =>
    let n := leNat (rec.data.take 1)
    let k := hdrField h 6 1
    rec.data.length != 1 + 48 * n || decide (n ≤ k) || Sha.s384.hash (slice h 0x50 96) != slice rec.data (1 + 48 * k) 48

/-- Does the signature verify under the image's own key? -/
def sigOk (h : Bytes) : Bool :=
  p384.verify (beNat (slice h 0x50 48)) (beNat (slice h 0x80 48)) (beNat (slice h 0x1A0 48)) (beNat (slice h 0x1D0 48))
    (Sha.s384.hash (h.take 0x1A0))

/-- The code of an image, 0 for one that passes: `erased` tells a header whose first word reads ERASED, `room` what the
image's place can hold, and `code` delivers code bytes (R412). -/
def imageCode (r : BootRefs) (erased : Bool) (hdr : List MByte) (room : Nat) (code : Nat → List MByte) : Nat :=
  let h := hdr.map Prod.fst
  let len := hdrField h 0x10 4
  if erased then 1
  else if !headerOk h || decide (room < 0x200 + len) then 2
  else if r.keys ≠ .empty ∧ keyRevoked r h then 3
  else if r.keys ≠ .empty ∧ keyUnknown r h then 4
  else if (match r.rollback with | some v => decide (hdrField h 8 4 < v) | none => true) then 5
  else if !sigOk h then 6
  else if Sha.s384.hash ((code len).map Prod.fst) ≠ slice h 0x20 48 then 7
  else if anyPoison hdr || anyPoison (code len) then 8
  else 0

/-- The record that a whole-page read of a flash page makes (R280, R291). -/
def Dev.bootPage (d : Dev) (page : Nat) : Dev :=
  (d.pageRead 2 false page).1

/-- Bytes of flash at offset `a`, as whole-page reads deliver them (R280). -/
def Dev.flashBytes (d : Dev) (a n : Nat) : List MByte :=
  (((List.range (ceilDiv (a % 1024 + n) 1024)).flatMap fun k => (d.pageRead 2 false (a / 1024 + k)).2).drop (a % 1024)).take n

/-- The check of a bank: the device with what its reads record, and the bank's code. An operation on the bank ends
first (R418). -/
def Dev.checkBank (d : Dev) (b : Bool) : Dev × Nat :=
  let d0 := d.flashWait (bankBase b)
  let o := bankBase b - flashBase
  let hdr := d0.flashBytes o 0x200
  let c := imageCode d0.bootRefs (d0.nvmWord false (o / 8) == .erased) hdr 0x200000 fun n => d0.flashBytes (o + 0x200) n
  let pages := if c = 0 ∨ 7 ≤ c then ceilDiv (0x200 + hdrField (hdr.map Prod.fst) 0x10 4) 1024 else 1
  (((List.range pages).foldl (fun x p => x.bootPage (o / 1024 + p)) d0), c)

/-! ### Hand-over (R414) -/

/-- A region of the staged copy is written (R236). -/
def Dev.stageRegion (d : Dev) (f r base limit rule : Nat) : Dev :=
  let a := 0x40032000 + 0x200 * f + 0x10 * r
  ((d.setReg a (BitVec.ofNat 32 base)).setReg (a + 4) (BitVec.ofNat 32 limit)).setReg (a + 8) (BitVec.ofNat 32 rule)

/-- The firewall steps of a hand-over, skipped while the rules are locked. -/
def Dev.bootRules (d : Dev) (b : Bool) : Dev :=
  if d.flag F.ACCESS_CTRL_LOCK then d.put F.SYS_BOOT_STAT_RULES_KEPT 1
  else
    let r1 : Nat := 0x40032000 + 0x10
    let d1 := d.stageRegion 0 0 (bankBase b) (bankBase b + 0x1FFFFF) 0x80050003
    (d1.setReg (r1 + 8) (d1.reg (r1 + 8) &&& 0x7FFFFFFF)).fwCommit 1

/-- What hand-over does to the device: the rules, the bank's protection, the boot registers, the resource. -/
def Dev.bootHand (d : Dev) (b trial : Bool) : Dev :=
  let h := (d.flashBytes (bankBase b - flashBase) 0x200).map Prod.fst
  let d1 := ((d.bootRules b).put F.FLASH_PROT_PROT_A (b2n !b)).put F.FLASH_PROT_PROT_B (b2n b)
  let d2 := ((d1.put F.SYS_BOOT_STAT_TRIAL_BOOTED (b2n trial)).put F.SYS_BOOT_STAT_KEYIDX (hdrField h 6 1)).put
    F.SYS_BOOT_STAT_BANK (b2n b)
  let d3 := d2.put F.SYS_BOOT_SVN_SVN (hdrField h 8 4)
  { d3.changeOwner 0x40 ownFree with boot := .firmware }

/-- The general registers at hand-over: w4, w5 and w31 as R414 says, the others free values. -/
def bootRegs (draw : Nat) (base stat stack : Word) : Vector Word 32 :=
  Vector.ofFn fun i : Fin 32 =>
    if i.val = 0 then 0 else if i.val = 4 then base else if i.val = 5 then stat else if i.val = 31 then stack
    else Config.bootReg draw i.val

/-- The core at hand-over: Vault, IE = 0, MODE = 0. -/
def Core.handOver (c : Core) (draw : Nat) (base entry stat stack : Word) : Core :=
  { c with
    regs := bootRegs draw base stat stack
    poison := 0
    pc := base + 0x200 + entry
    cst := (c.cst &&& 0xF0) ||| 2
    mode := 0
    slot := none
    shadow := none }

def State.handOver (s : State) (b trial : Bool) : State :=
  let h := (s.dev.flashBytes (bankBase b - flashBase) 0x200).map Prod.fst
  let d := s.dev.bootHand b trial
  { s with
    core := s.core.handOver d.freeCount (BitVec.ofNat 32 (bankBase b)) (BitVec.ofNat 32 (hdrField h 0x14 4))
      (d.reg F.SYS_BOOT_STAT_UNPROV.addr) (BitVec.ofNat 32 (hdrField h 0x18 4))
    dev := d.draw 1 }

/-! ### The order of the banks, and what follows when both fail (R413) -/

def codeField (b : Bool) : Fl := if b then F.SYS_BOOT_STAT_CODE_B else F.SYS_BOOT_STAT_CODE_A

/-- The core stops in WAIT with IE = 0. -/
def Core.halt (c : Core) : Core := { c with cst := (c.cst &&& 0xF0) ||| 2, waiting := true }

/-- The regions that recovery opens to the host: the WOHIAL window, and SRAM banks 2 to 9 (R413). -/
def Dev.recoveryRules (d : Dev) : Dev :=
  if d.flag F.ACCESS_CTRL_LOCK then d
  else
    let d1 := d.stageRegion (firewallOf 0x400C0000) 0 0x400C0000 0x400CFFFF 0x80032000
    ((List.range 8).foldl (fun x k =>
      let b := ramBase + 0x20000 * (k + 2)
      x.stageRegion (firewallOf b) 0 b (b + 0x1FFFF) 0x80032000) d1).fwCommit 1

/-- Is NO_RECOVERY set? -/
def Dev.noRecovery (d : Dev) : Bool :=
  match (d.param 9).single with
  | some r => leNat (r.data.take 1) % 2 == 1
  | none => false

/-- Both banks have failed. -/
def State.bothFailed (s : State) : State :=
  if s.dev.opState = stHost ∧ !s.dev.noRecovery then
    { s with core := s.core.halt, dev := { s.dev.recoveryRules with boot := .recovery } }
  else { s with core := s.core.halt, dev := { s.dev with boot := .halted } }

/-- The banks in order. -/
def State.tryBanks (trial : Bool) : List Bool → State → State
  | [], s => s.bothFailed
  | b :: t, s =>
    let x := s.dev.checkBank b
    let s1 := { s with dev := x.1.put (codeField b) x.2 }
    if x.2 = 0 then s1.handOver b trial else State.tryBanks false t s1

/-- The preferred bank: B when counter 26 is odd; 0 where it is INVALID. -/
def Dev.preferred (d : Dev) : Bool := ((d.counter 26).map Prod.fst).getD 0 % 2 == 1

/-- Does counter 27 request a trial? -/
def Dev.trialAsked (d : Dev) : Bool := ((d.counter 27).map Prod.fst).getD 0 % 2 == 1

/-- The two boot registers begin the boot at their Reset values, but for UNPROV. -/
def Dev.bootStatStart (d : Dev) : Dev :=
  ((d.dropRegs fun a => a == 0x40000040 || a == 0x40000044)).put F.SYS_BOOT_STAT_UNPROV (b2n (d.param 8 == .empty))

/-! ### BOOT and RECOVERY_IMAGE -/

/-- Parameter 7, when VALID, gives the WOHIAL_MGMT registers. -/
def Dev.bootMac (d : Dev) : Dev :=
  match (d.param 7).single with
  | some r =>
    if r.data.length < 8 then d
    else
      ((d.put F.WOHIAL_MGMT_MAC_LO_MAC (leNat (slice r.data 0 4))).put F.WOHIAL_MGMT_MAC_HI_MAC
        (leNat (slice r.data 4 2))).put F.WOHIAL_MGMT_MAC_HI_ETYPE (beNat (slice r.data 6 2))
  | none => d

/-- The claim of resource 0x40 and the reads, as commands of master 2. -/
def Dev.bootReads (d : Dev) : Dev :=
  let d1 := if d.owner 0x40 = 2 then d else d.changeOwner 0x40 2
  let d2 := [7, 8, 9].foldl (fun x p => x.cstReadParam 2 p) (if d1.cst.clearDue then d1.cstBufClear else d1)
  ([24, 25, 26, 27].foldl (fun x c => x.cstReadCtr 2 c) d2).bootMac

/-- Can the boot ROM go on: the journal is done, the port is free and idle, and no earlier epoch drains? -/
def Dev.bootReady (d : Dev) : Bool :=
  d.on .isle && !d.cst.due && d.cst.job.isNone && (d.owner 0x40 == ownFree || d.owner 0x40 == 2) &&
    !d.flag F.ACCESS_EPOCH_PREV_LIVE

/-- BOOT (R413): the boot ROM reads the Cistern and boots a bank; a trial waits for its INC_CTR, and goes on with the next
BOOT. -/
def State.bootOp (s : State) : State :=
  if !(s.dev.on .core && s.core.released && !s.core.stopped) then s
  else
    match s.dev.boot with
    | .fresh =>
      if !s.dev.bootReady then s
      else
        let d1 := s.dev.bootReads.bootStatStart
        let p := d1.preferred
        if d1.opState = stHost ∧ d1.trialAsked then
          { s with dev := { d1.cstCmdWritten 2 (5 * 2 ^ 28 + 27) with boot := .trial } }
        else State.tryBanks false [p, !p] { s with dev := d1 }
    | .trial =>
      if s.dev.flag F.CST_STAT_BUSY then s
      else
        let p := s.dev.preferred
        if s.dev.get F.CST_STAT_STATUS = csOK then State.tryBanks true [!p, p] s else State.tryBanks false [p, !p] s
    | _ => s

/-- Bytes of RAM as the core reads them. -/
def Dev.ramBytes (d : Dev) (a n : Nat) : Dev × List MByte := Dev.ramRead 2 (n + 1) d a n

/-- An image is erased and programmed into a bank (R413, R418). -/
def Dev.programBank (d : Dev) (b : Bool) (image : Bytes) : Dev :=
  let p := 2048 * b2n b
  let d0 := d.flashWait (bankBase b)
  (List.range (ceilDiv image.length 1024)).foldl (fun x k =>
    x.flashProgram (p + k) ((List.range 1024).map fun i =>
      image.getD (1024 * k + i) (Config.recoveryPad (1024 * k + i)))) (d0.flashErase p 2048)

/-- RECOVERY_IMAGE (R413): doorbell 0 has rung, and the image at 0x1004_0000 is checked. -/
def Dev.recoveryImageOp (d : Dev) : Dev :=
  if d.boot = .recovery ∧ bitAt (d.get F.WOHIAL_DB_DB) 0 then
    let d0 := d.put F.WOHIAL_DB_DB (d.get F.WOHIAL_DB_DB / 2 * 2)
    let x := d0.ramBytes 0x10040000 0x200
    let len := hdrField (x.2.map Prod.fst) 0x10 4
    let y := if headerOk (x.2.map Prod.fst) ∧ 0x200 + len ≤ 0x100000 then x.1.ramBytes 0x10040200 len else (x.1, [])
    let c := imageCode y.1.bootRefs false x.2 0x100000 fun _ => y.2
    if c = 0 then (y.1.programBank y.1.preferred ((x.2 ++ y.2).map Prod.fst)).requestReset 5
    else y.1.put F.WOHIAL_MSG_MSG c
  else d

end Sys2Proof.Machine
end

