-- ==== Sys2Proof/Machine/Wohial.lean ====
section
/-! DEFINITION. The Wohial host link, a transaction at a time, as master 13 (R400 to R406). -/
namespace Sys2Proof.Machine

/-! ### Statuses (R402) -/

def wsOK : Nat := 0
def wsCRC_ERR : Nat := 1
def wsBAD_CMD : Nat := 2
def wsBAD_ALIGN : Nat := 3
def wsACCESS : Nat := 4
def wsBUS_ERROR : Nat := 5
def wsPOISON : Nat := 6
def wsTIMEOUT : Nat := 7
def wsABORTED : Nat := 8

/-- Status of a part that failed. -/
def wohStatus : Resp → Nat
  | .ok => wsOK
  | .refused => wsACCESS
  | .decode | .domainOff | .width => wsBUS_ERROR

/-! ### Reads and writes (R403) -/

/-- Length of the next access: an aligned word in the register space, else a burst that stays in its 64-byte block. -/
def wohPart (a n : Nat) : Nat := if isRegAddr a then min n 4 else min n (64 - a % 64)

/-- Bytes before the first word that carries poison, and whether there is such a word. -/
def cleanPrefix (a : Nat) (bs : List MByte) : Bytes × Bool :=
  match (List.range bs.length).find? fun i => (bs.getD i (0, false)).2 with
  | none => (bs.map Prod.fst, false)
  | some i => ((bs.take (i - min i ((a + i) % 4))).map Prod.fst, true)

/-- The read of `n` bytes at `a`: status and the bytes that may leave. The first access carries rule epoch `e`. -/
def Dev.wohReads : Nat → Dev → BitVec 4 → Nat → Nat → Dev × Nat × Bytes
  | 0, d, _, _, _ => (d, wsOK, [])
  | fuel + 1, d, e, a, n =>
    if n = 0 then (d, wsOK, [])
    else
      let l := wohPart a n
      let x := d.busLoadAt e 13 .read a l
      match cleanPrefix a x.2.2 with
      | (bs, true) => (x.1, wsPOISON, bs)
      | (bs, false) =>
        if x.2.1 = .ok then
          let y := Dev.wohReads fuel x.1 x.1.epoch (a + l) (n - l)
          (y.1, y.2.1, bs ++ y.2.2)
        else (x.1, wohStatus x.2.1, bs)

/-- The write of some bytes at `a`: status and the number performed. -/
def Dev.wohWrites : Nat → Dev → BitVec 4 → Nat → Bytes → Dev × Nat × Nat
  | 0, d, _, _, _ => (d, wsOK, 0)
  | fuel + 1, d, e, a, bs =>
    if bs.isEmpty then (d, wsOK, 0)
    else
      let l := wohPart a bs.length
      let x := d.burstStore e 13 a (marked (bs.take l) false)
      let d1 := x.1.chansAbort
      if x.2.1 = .ok then
        let y := Dev.wohWrites fuel d1 d1.epoch (a + l) (bs.drop l)
        (y.1, y.2.1, l + y.2.2)
      else (d1, wohStatus x.2.1, x.2.2)

/-! ### Answer and record (R401, R402) -/

/-- From Start to the device check. -/
def wohAnswer (status count : Nat) (data : Bytes) : Bytes :=
  let body := BitVec.ofNat 8 status :: leBytes 2 count ++ data
  0x5A :: body ++ leBytes 4 (crc32c body)

/-- A transaction's outcome in the registers. `first` is the first byte not performed, none where no address came. A
write to GEN takes effect as WH_CS_N rises (R400). -/
def Dev.wohRecord (d : Dev) (cmd status : Nat) (first : Option Nat) : Dev :=
  let d1 := (((d.put F.WOHIAL_STAT_LAST_CMD cmd).put F.WOHIAL_STAT_LAST_STATUS status).bump F.WOHIAL_COUNT_TXNS 1)
  let d2 :=
    if status = wsOK then d1
    else
      let e := (d1.put F.WOHIAL_STAT_ERR 1).bump F.WOHIAL_COUNT_ERRORS 1
      match first with
      | some a => e.put F.WOHIAL_ERR_ADDR_ADDR a
      | none => e
  { d2 with woh := { d2.woh with gen := d2.get F.WOHIAL_CTL_GEN } }

/-- A transaction that ends in its wait phase: what is sent, and the record. -/
def Dev.wohEnd (d : Dev) (cmd status addr count : Nat) (data : Bytes) : Dev :=
  let d1 := { d with woh := { d.woh with answer := wohAnswer status count data } }
  d1.wohRecord cmd status (some (addr + count))

/-- The outcome of an operation after TIMEOUT has been sent: it replaces LAST_STATUS (R404). -/
def Dev.wohLate (d : Dev) (status addr count : Nat) : Dev :=
  let d1 := (d.put F.WOHIAL_STAT_PEND 0).put F.WOHIAL_STAT_LAST_STATUS status
  if status = wsOK then d1 else (d1.put F.WOHIAL_STAT_ERR 1).put F.WOHIAL_ERR_ADDR_ADDR (addr + count)

/-- Run an operation to its end: status, bytes performed, data read. -/
def Dev.wohRun (d : Dev) (j : WohJob) : Dev × Nat × Nat × Bytes :=
  if j.cmd = 3 then
    let x := Dev.wohReads (j.len + 2) d j.epoch j.addr (j.len + 1)
    (x.1, x.2.1, x.2.2.length, x.2.2)
  else
    let x := Dev.wohWrites (j.data.length + 1) d j.epoch j.addr j.data
    (x.1, x.2.1, x.2.2, [])

/-- WOHIAL_OP_DONE (R404): the operation that waits runs to its end. -/
def Dev.wohialOpDoneOp (d : Dev) : Dev :=
  match d.woh.job with
  | none => d
  | some j =>
    let x := Dev.wohRun { d with woh := { d.woh with job := none } } j
    if j.timedOut then x.1.wohLate x.2.1 j.addr x.2.2.1
    else x.1.wohEnd j.cmd x.2.1 j.addr x.2.2.1 x.2.2.2

/-- Have TMO × 256 CORE cycles passed since the host check? An end on the same edge is in time (R39, R404). -/
def Dev.wohExpired (d : Dev) (j : WohJob) : Bool :=
  decide (d.get F.WOHIAL_CTL_TMO * 256 * 1000 < (d.now - j.start) * d.coreMhz)

/-- WOHIAL_TIMEOUT (R404): TIMEOUT is sent for an operation that still waits, which goes on. -/
def Dev.wohialTimeoutOp (d : Dev) : Dev :=
  match d.woh.job with
  | none => d
  | some j =>
    if j.timedOut || !d.wohExpired j then d
    else
      let d1 := { d with woh := { d.woh with job := some { j with timedOut := true } } }
      (d1.put F.WOHIAL_STAT_PEND 1).wohEnd j.cmd wsTIMEOUT j.addr 0 []

/-- Does an array of the range answer nothing at the moment (R318, R404, R418)? -/
def Dev.wohStalled (d : Dev) (j : WohJob) : Bool :=
  j.cmd == 3 &&
    ((inCstWin j.addr && (match d.cst.job with | some c => c.running.isSome | none => false)) ||
      (inFlash j.addr && (match d.flashJob with
        | some f => (j.addr - flashBase) / 0x200000 == f.page / 2048 ||
            (j.addr + j.len - flashBase) / 0x200000 == f.page / 2048
        | none => false)))

/-- A READ or WRITE whose host check has passed. An earlier operation that still runs ends first (R404). -/
def Dev.wohBegin (d : Dev) (j : WohJob) : Dev :=
  let d0 := d.wohialOpDoneOp
  if 0x40000000 ≤ j.addr ∧ (j.addr % 4 ≠ 0 ∨ (j.len + 1) % 4 ≠ 0) then d0.wohEnd j.cmd wsBAD_ALIGN j.addr 0 []
  else
    let d1 := { d0 with woh := { d0.woh with job := some { j with epoch := d0.epoch, start := d0.now } } }
    if d1.wohStalled j then d1 else d1.wohialOpDoneOp

/-! ### Transactions (R401, R405) -/

/-- The link works only in HOST (R400). -/
def Dev.wohialOn (d : Dev) : Bool := d.opState == stHost && d.on .core && !d.alarming

/-- CS_RISE_EARLY (R405). -/
def Dev.csRiseEarlyOp (d : Dev) (cmd : Nat) : Dev :=
  if d.wohialOn then d.wohRecord cmd wsABORTED none else d

/-- The bytes from Command to the last data byte. -/
def wohBody (cmd len : Byte) (addr : Word) (data : Bytes) : Bytes := cmd :: len :: leBytes 4 addr.toNat ++ data

/-- The eight data bytes of IDENT. -/
def Dev.identBytes (d : Dev) : Bytes :=
  let st : Nat := match d.boot with | .recovery => 1 | .halted => 2 | _ => 0
  [0x20, 0x48, 0x01, 0x03, BitVec.ofNat 8 (d.get F.WOHIAL_CTL_GEN), BitVec.ofNat 8 st, 0, 0]

/-- IDENT. -/
def Dev.identOp (d : Dev) (len : Byte) (addr chk : Word) : Dev :=
  if !d.wohialOn then d
  else if crc32c (wohBody 0x9F len addr []) ≠ chk.toNat then d.wohEnd 0x9F wsCRC_ERR addr.toNat 0 []
  else d.wohEnd 0x9F wsOK addr.toNat 8 d.identBytes

/-- READ, or a command of the same shape: 0x9F is IDENT, a WRITE without its data ends before its check, and anything
else is unknown. -/
def Dev.wohReadOp (d : Dev) (cmd len : Byte) (addr chk : Word) : Dev :=
  if !d.wohialOn then d
  else if cmd = 0x9F then d.identOp len addr chk
  else if cmd = 0x02 then d.csRiseEarlyOp 2
  else if crc32c (wohBody cmd len addr []) ≠ chk.toNat then d.wohEnd cmd.toNat wsCRC_ERR addr.toNat 0 []
  else if cmd ≠ 0x03 then d.wohEnd cmd.toNat wsBAD_CMD addr.toNat 0 []
  else d.wohBegin ⟨3, len.toNat, addr.toNat, [], false, d.epoch, d.now⟩

/-- WRITE. -/
def Dev.wohWriteOp (d : Dev) (len : Byte) (addr : Word) (data : Bytes) (chk : Word) : Dev :=
  if !d.wohialOn then d
  else if data.length ≠ len.toNat + 1 then d.csRiseEarlyOp 2
  else if crc32c (wohBody 0x02 len addr data) ≠ chk.toNat then d.wohEnd 2 wsCRC_ERR addr.toNat 0 []
  else d.wohBegin ⟨2, len.toNat, addr.toNat, data, false, d.epoch, d.now⟩

end Sys2Proof.Machine
end

