-- ==== Sys2Proof/Machine/CmdHost.lean ====
section
/-! DEFINITION. The commands of the host link, the boot ROM, the flash controller and the balls (R400 to R424). -/
namespace Sys2Proof.Machine

/-- READ (R401). -/
def execRead (cmd len : Byte) (addr chk : Word) (s : State) : Host.Outcome State Fault Refusal :=
  s.onDev fun d => d.wohReadOp cmd len addr chk

/-- WRITE (R401). -/
def execWrite (len : Byte) (addr : Word) (data : Bytes) (chk : Word) (s : State) : Host.Outcome State Fault Refusal :=
  s.onDev fun d => d.wohWriteOp len addr data chk

/-- IDENT (R401). -/
def execIdent (len : Byte) (addr chk : Word) (s : State) : Host.Outcome State Fault Refusal :=
  s.onDev fun d => d.identOp len addr chk

/-- WOHIAL_TIMEOUT (R404). -/
def execWohialTimeout (s : State) : Host.Outcome State Fault Refusal :=
  s.onDev fun d => d.wohialTimeoutOp

/-- WOHIAL_OP_DONE (R404). -/
def execWohialOpDone (s : State) : Host.Outcome State Fault Refusal :=
  s.onDev fun d => d.wohialOpDoneOp

/-- CS_RISE_EARLY (R405). -/
def execCsRiseEarly (cmd : Byte) (s : State) : Host.Outcome State Fault Refusal :=
  s.onDev fun d => d.csRiseEarlyOp cmd.toNat

/-- HOST_DB: a write of WOHIAL_HOST_DB (R406). -/
def execHostDb (m : Master) (v : Word) (s : State) : Host.Outcome State Fault Refusal :=
  s.onDev fun d => d.write m F.WOHIAL_HOST_DB_SET.addr v

/-- BOOT (R413). -/
def execBoot (s : State) : Host.Outcome State Fault Refusal :=
  .next s.bootOp.settle

/-- RECOVERY_IMAGE (R413). -/
def execRecoveryImage (s : State) : Host.Outcome State Fault Refusal :=
  s.onDev fun d => d.recoveryImageOp

/-- ERASE_SECTOR: a write of FLASH_CMD (R418). -/
def execEraseSector (m : Master) (page : BitVec 12) (s : State) : Host.Outcome State Fault Refusal :=
  s.onDev fun d => d.write m F.FLASH_CMD_OP.addr (BitVec.ofNat 32 (2 ^ 16 + page.toNat))

/-- PROGRAM_PAGE: a write of FLASH_CMD (R418). -/
def execProgramPage (m : Master) (page : BitVec 12) (s : State) : Host.Outcome State Fault Refusal :=
  s.onDev fun d => d.write m F.FLASH_CMD_OP.addr (BitVec.ofNat 32 (2 * 2 ^ 16 + page.toNat))

/-- FLASH_OP_DONE (R418). -/
def execFlashOpDone (s : State) : Host.Outcome State Fault Refusal :=
  s.onDev fun d => d.flashOpDoneOp

/-- GPIO_EDGE (R424). -/
def execGpioEdge (k : Fin 24) (rising : Bool) (s : State) : Host.Outcome State Fault Refusal :=
  s.onDev fun d => d.gpioEdgeOp k.val rising

/-- AON_TIMER_EXPIRY (R37). -/
def execAonTimerExpiry (ch : Fin 8) (s : State) : Host.Outcome State Fault Refusal :=
  s.onDev fun d => d.aonTimerExpiryOp ch

end Sys2Proof.Machine
end

