-- ==== Sys2Proof/Machine/Dredge.lean ====
section
/-! DEFINITION. Dredge, the scrubber that reads memory as master 15 (R292, R293). -/
namespace Sys2Proof.Machine

/-- Words among the 16 of a RAM block that a read finds in class `c`. -/
def Dev.wordsOfClass (d : Dev) (c : EccClass) (a : Nat) : List Nat :=
  ((List.range 16).map fun i => a + 4 * i).filter fun w => !(d.badLanes c w 4).isEmpty

/-- The summary of uncorrectable words: their count, and the address of the first one (R295). -/
def Dev.drgUes (d : Dev) (ws : List Nat) : Dev :=
  match ws with
  | [] => d
  | w :: t =>
    let d1 := d.drgCount 2 (t.length + 1)
    if d1.get (F.DRG_SUM_COUNT.plus 28) = 0 then d1.put (F.DRG_SUM_COUNT.plus 28) w else d1

/-- The summary of a RAM block that is read: what the read finds is there before it. -/
def Dev.drgRam (d before : Dev) (a : Nat) : Dev :=
  (((d.drgCount 0 1).drgCount 1 (before.wordsOfClass .corrected a).length).drgCount 3
    (before.wordsOfClass .poison a).length).drgUes (before.wordsOfClass .uncorrectable a)

/-- A block of a non-volatile array, at offset `a` of it: the first block of a page reads the whole page (R292). One
decode of the page code is one result; in a slot page, which has none, each word that fails is one (R280, R291, R297). -/
def Dev.drgNvm (d : Dev) (cst : Bool) (a : Nat) : Dev :=
  let n := if a % 1024 = 0 then 128 else 8
  let d1 := d.drgCount 0 1
  let bad := (List.range n).filter fun i => d.needsCode cst (a / 8 + i)
  if cst && cstSlotPage (a / 1024) then
    (bad.foldl (fun x i => x.nvmFound 15 cst (a + 8 * i)) d1).drgUes (bad.map fun i => nvmBase cst + a + 8 * i)
  else if a % 1024 = 0 ∧ d.pageSuspect cst (a / 1024) ∨ !bad.isEmpty then
    let x := a + 8 * (bad.head?.getD 0)
    let found := d.pageDecode cst (a / 1024)
    let d2 := d1.nvmRecord 15 cst x (found.map List.length)
    if found.isSome then d2.drgCount 1 1 else d2.drgUes [nvmBase cst + x]
  else d1

/-- The read of one block, with the summary's counts. -/
def Dev.drgBlock (d : Dev) (a : Nat) : Dev :=
  if inFlash a ∨ inCstWin a then
    match d.reachCheck 15 .read a with
    | (d1, false) => d1.drgCount 6 1
    | (d1, true) =>
      match d1.slaveCheck d1.epoch 15 false .read a with
      | (d2, .ok) =>
        if inFlash a then (d2.flashWait a).drgNvm false (a - flashBase)
        else
          let d3 := d2.cstWait
          d3.drgNvm true (1024 * d3.cstPage ((a - cstWinBase) / 1024) + a % 1024)
      | (d2, _) => d2.drgCount 6 1
  else
    match d.busLoad 15 .read a 64 with
    | (d1, .ok, _) => d1.drgRam d a
    | (d1, _, _) => d1.drgCount 6 1

/-- A pass ends with a status (R293). -/
def Dev.drgEnd (d : Dev) (st : Nat) : Dev :=
  (({ d with integ := { d.integ with drgAbort := false } }.put F.DRG_STAT_RUN 0).put F.DRG_STAT_DONE 1).put
    F.DRG_STAT_STATUS st

/-- DREDGE_BURST (R292, R293): the next block of the pass, or its end at a block boundary when an ABORT waits. -/
def Dev.dredgeBurstOp (d : Dev) : Dev :=
  if d.on .core ∧ d.flag F.DRG_STAT_RUN then
    if d.integ.drgAbort then d.drgEnd 1
    else
      let a := d.integ.drgNext
      let d1 := d.drgBlock a
      if a = 64 * d1.get (F.DRG_BASE_ADDR.plus 4) then d1.drgEnd 0
      else { d1 with integ := { d1.integ with drgNext := a + 64 } }
  else d

end Sys2Proof.Machine
end

