-- ==== Sys2Proof/Machine/CmdIntegrity.lean ====
section
/-! DEFINITION. The commands of the memory integrity block (R276, R285 to R293). -/
namespace Sys2Proof.Machine

/-- WRITE_BACK (R276). -/
def execWriteBack (s : State) : Host.Outcome State Fault Refusal :=
  s.onDev fun d => d.writeBackOp

/-- TRACKER_OFFER (R285). -/
def execTrackerOffer (s : State) : Host.Outcome State Fault Refusal :=
  s.onDev fun d => d.trackerOfferOp

/-- ROW_REMAP_DONE (R286). -/
def execRowRemapDone (s : State) : Host.Outcome State Fault Refusal :=
  s.onDev fun d => d.rowRemapDoneOp

/-- INTEG_REMAP_CMD: a write of INTEG_REMAP_CMD with GO (R288). -/
def execIntegRemapCmd (m : Master) (bank : Fin 16) (row : Fin 2048) (s : State) : Host.Outcome State Fault Refusal :=
  s.onDev fun d => d.write m F.INTEG_REMAP_CMD_GO.addr (BitVec.ofNat 32 (2 ^ 16 + bank.val * 2 ^ 12 + row.val))

/-- REMOVE: a write of INTEG_REFQ_CMD (R290). -/
def execRemove (m : Master) (entry : Fin 8) (s : State) : Host.Outcome State Fault Refusal :=
  s.onDev fun d => d.write m F.INTEG_REFQ_CMD_REMOVE.addr (BitVec.ofNat 32 (8 + entry.val))

/-- DREDGE_START: a write of DRG_CTL with PACE as it stands (R293). -/
def execDredgeStart (m : Master) (s : State) : Host.Outcome State Fault Refusal :=
  s.onDev fun d => d.write m F.DRG_CTL_OP.addr ((d.reg F.DRG_CTL_OP.addr &&& 0xF00) ||| 1)

/-- DREDGE_ABORT: a write of DRG_CTL with PACE as it stands (R293). -/
def execDredgeAbort (m : Master) (s : State) : Host.Outcome State Fault Refusal :=
  s.onDev fun d => d.write m F.DRG_CTL_OP.addr ((d.reg F.DRG_CTL_OP.addr &&& 0xF00) ||| 2)

/-- DREDGE_BURST (R292). -/
def execDredgeBurst (s : State) : Host.Outcome State Fault Refusal :=
  s.onDev fun d => d.dredgeBurstOp

end Sys2Proof.Machine
end

