-- ==== Sys2Proof/Machine/Posting.lean ====
section
/-! DEFINITION. What joins the lanes and the rings through memory: posting the entries of FROM_DEVICE rings, the start and
the end of an egress, frames of the transmit rings among them, and one-step PTP insertion (R53, R54, R65, R125, R137,
R148 to R151). -/
namespace Sys2Proof.Machine

/-! ### Posting (R125 to R131) -/

/-- What a posting does beside advancing PROD: the pending bit, and the end of a diverted frame (R54, R119, R141). -/
def Dev.posted (d : Dev) (n : Nat) (e : RingEntry) : Dev :=
  let d1 := if d.flag (ringField n F.RING_CFG_IRQ_EN) then d.ringPend n else d
  match e.kind with
  | .frame l k => d1.divertPosted l k
  | .lost => d1.trouble tLOST
  | _ => d1

/-- PROD advances over the slots that are written, up to the first that is not (R125). -/
def Dev.postWritten (n : Nat) : Dev → List RingEntry → Dev
  | d, [] => d
  | d, e :: t =>
    if e.written then
      let j := d.ringProd n
      let r := d.ring n
      let held := match e.bucket with | some b => [(j, b)] | none => []
      let d1 := (d.setRing n { r with reserved := r.reserved.drop 1, held := r.held ++ held }).put
        (ringField n F.RING_PROD_INDEX) ((j + 1) % 8192)
      Dev.postWritten n (d1.posted n e) t
    else d

/-- The first reserved entry that is complete and not yet written, and its place among the reserved ones. -/
def RingHw.complete (r : RingHw) : Option (RingEntry × Nat) :=
  r.reserved.zipIdx.find? fun e => e.1.words.isSome && !e.1.written

/-- The entry in place `k` is written. -/
def RingHw.mark (r : RingHw) (k : Nat) : RingHw :=
  { r with reserved := r.reserved.zipIdx.map fun e => if e.2 = k then { e.1 with written := true } else e.1 }

/-- DESC_POST: the first complete entry of the ring is written, words 1 to 7, then word 0; then PROD advances. A slot that
the device does not own, or that cannot be read or written, stops the ring; the entry waits for RESUME (R128). Entries are
written by Pumphouse. -/
def Dev.descPostOp (d : Dev) (n : Nat) : Dev :=
  if !d.on .core ∨ d.ringState n ≠ ringRUN then d
  else
    match (d.ring n).complete with
    | none => d
    | some (e, k) =>
      let ws := e.words.getD []
      let j := d.ringProd n + k
      match d.descRead 11 n j with
      | (d1, .error err) => d1.ringStop n err
      | (d1, .ok _) =>
        let irq := d1.flag (ringField n F.RING_CFG_IRQ_EN)
        let w0 : Word := BitVec.ofNat 32 (withBits (withBits (wordN ws 0) 31 31 0) 25 25 (b2n irq))
        let body := (List.range 7).map fun i => (i + 1, ws.getD (i + 1) 0)
        match Dev.descWrite 11 (d1.descAddr n j) d1 (body ++ [(0, w0)]) with
        | (d2, some err) => d2.ringStop n err
        | (d2, none) =>
          let r := (d2.ring n).mark k
          (Dev.postWritten n (d2.setRing n r) r.reserved).ringSettle n

/-! ### Frames of the transmit rings (R137, R150, R151) -/

/-- Master of the channel that serves ring `n`. -/
def Dev.ringMaster (d : Dev) (n : Nat) : Master :=
  chanMaster ⟨d.get (ringField n F.RING_CFG_CHAN) % 8, Nat.mod_lt _ (by decide)⟩

/-- A staged frame's descriptor completes. -/
def Dev.txDone (d : Dev) (s : Staged) (status : Nat) (ts : Nat × Nat) : Dev :=
  let d1 := { d with staging := d.staging.filter fun x => x.ring != s.ring }
  let stamp := if status = dsOK ∧ bitAt (wordN s.words 3) 0 then some (ts.1 % 2 ^ 32, ts.2) else none
  d1.descDone (d1.ringMaster s.ring) s.ring s.index s.words ⟨status, descLen s.words, none, false, stamp⟩

/-- First byte of the PTP message of a frame. -/
def ptpAt (bs : Bytes) : Nat := if cTagged bs then 18 else 14

/-- One-step insertion into a ring 5 frame whose egress timestamp is `t3` (R150, R151). -/
def Dev.oneStep (d : Dev) (s : Staged) (t3 : Nat × Nat) : Dev × Bytes :=
  let bs := s.bytes
  let h := ptpAt bs
  if s.ring ≠ 5 ∨ !d.flag F.TIME_CTRL_ONE_STEP ∨ !isPtp bs ∨ bitAt (byteAt bs (h + 6)) 1 then (d, bs)
  else if byteAt bs h % 16 = 0 then (d, patch bs (h + 34) (beBytes 6 t3.1 ++ beBytes 4 t3.2))
  else if byteAt bs h % 16 = 3 then
    let sec := (t3.1 + 2 ^ 32 - wordN s.words 6) % 2 ^ 32
    let diff : Int := (sec * 10 ^ 9 + t3.2 : Nat) - ((wordN s.words 7 % 2 ^ 30 : Nat) : Int)
    if 0 ≤ diff ∧ diff < 10 ^ 9 then
      (d, patch bs (h + 8) (beBytes 8 ((beNat (slice bs (h + 8) 8) + diff.toNat * 2 ^ 16) % 2 ^ 64)))
    else
      let d1 := d.put F.TIME_STAT_ONE_STEP_SKIP 1
      (d1.event 10 3 clsInfo d1.timeStat 0, bs)
  else (d, bs)

/-- The egress of a staged frame starts: padded to 60 bytes, with its FCS; or it completes where the port is down. -/
def Dev.txStart (d : Dev) (p : Port) (s : Staged) : Dev :=
  if d.linkUp p then
    let t3 := d.stamp
    let x := d.oneStep s t3
    let body := padTo 60 x.2
    (x.1.setEgress p (some ⟨.ring s.ring, withFcs body, none, [], false, t3⟩)).linkActive p
  else d.txDone s dsEGRESS_DOWN (0, 0)

/-! ### EGRESS_START and FRAME_COMMIT (R54, R65) -/

/-- EGRESS_START: the first choice of R65 that is ready. -/
def Dev.egressStartOp (d : Dev) (p : Port) : Dev :=
  if (d.egress p).isSome then (if d.on .pump then d.egressBusy p else d)
  else
    let l := p.laneTo
    match d.cutReady l with
    | some f => d.begin l f
    | none =>
      match (if d.on .pump then d.catchUpReady l else none) with
      | some f => d.release l f
      | none =>
        match (if p = .a then d.stagedFrom 5 else none) with
        | some s => d.txStart p s
        | none =>
          match (if d.on .pump then d.heldReady l else none) with
          | some f => d.release l f
          | none =>
            match d.stagedFrom (if p = .a then 0 else 1) with
            | some s => d.txStart p s
            | none =>
              match (if p = .b then d.stagedFrom 3 else none) with
              | some s => d.txStart p s
              | none => d

/-- The frame in egress has handed its last byte, or was lost with its port. -/
def Dev.egressEndOp (d : Dev) (p : Port) : Dev :=
  match d.egress p with
  | some e =>
    match e.src with
    | .ring r =>
      let d1 := (d.setEgress p none).linkActive p
      match d.stagedFrom r with
      | some s => d1.txDone s (if e.lost then dsEGRESS_DOWN else dsOK) e.ts
      | none => d1
    | _ => d.egressDone p
  | none => d

/-- FRAME_COMMIT. Buckets rows that wait for their remap are looked at as slots become free (R287). -/
def Dev.frameCommitOp (d : Dev) (p : Port) (src : EgressSrc) : Dev :=
  if !d.on .core then d
  else
    (match src with
      | .inEgress => d.egressEndOp p
      | .discarded l n => d.dropDone l n
      | .diverted l n => d.divertDone l n).bktRemaps

end Sys2Proof.Machine
end

