-- ==== Sys2Proof/Machine/CmdLane.lean ====
section
/-! DEFINITION. The commands of the lanes (R44 to R79, R105). -/
namespace Sys2Proof.Machine

/-- RX_FRAME (R44). -/
def execRxFrame (l : Lane) (f : RxFrame) (s : State) : Host.Outcome State Fault Refusal :=
  s.onDev fun d => d.rxFrameOp l f

/-- LOOKUP (R48). -/
def execLookup (l : Lane) (n : Nat) (s : State) : Host.Outcome State Fault Refusal :=
  s.onDev fun d => d.lookupOp l n

/-- REPLAY_EARLY (R105). -/
def execReplayEarly (l : Lane) (n : Nat) (s : State) : Host.Outcome State Fault Refusal :=
  s.onDev fun d => d.replayEarlyOp l n

/-- FRAME_FAILURE (R59). -/
def execFrameFailure (l : Lane) (n : Nat) (why : FailKind) (p : Nat) (s : State) : Host.Outcome State Fault Refusal :=
  s.onDev fun d => d.frameFailureOp l n why p

/-- VERDICT (R57). -/
def execVerdict (l : Lane) (n : Nat) (s : State) : Host.Outcome State Fault Refusal :=
  s.onDev fun d => d.verdictOp l n

/-- EGRESS_START (R65). -/
def execEgressStart (p : Port) (s : State) : Host.Outcome State Fault Refusal :=
  s.onDev fun d => d.egressStartOp p

/-- HOLD_RELEASE (R64). -/
def execHoldRelease (l : Lane) (n : Nat) (s : State) : Host.Outcome State Fault Refusal :=
  s.onDev fun d => d.holdReleaseOp l n

/-- FRAME_COMMIT (R54). -/
def execFrameCommit (p : Port) (src : EgressSrc) (s : State) : Host.Outcome State Fault Refusal :=
  s.onDev fun d => d.frameCommitOp p src

/-- LANE_MISMATCH (R70). -/
def execLaneMismatch (l : Lane) (point : Fin 6) (p : Nat) (s : State) : Host.Outcome State Fault Refusal :=
  s.onDev fun d => d.laneMismatchOp l point.val p

/-- LANE_RESTART_DONE (R71). -/
def execLaneRestartDone (l : Lane) (s : State) : Host.Outcome State Fault Refusal :=
  s.onDev fun d => d.laneRestartDoneOp l

/-- CATCH_UP_DONE (R71). -/
def execCatchUpDone (l : Lane) (s : State) : Host.Outcome State Fault Refusal :=
  s.onDev fun d => d.catchUpDoneOp l

/-- LANE_CFG_WRITE: a write of PUMPHOUSE_LANE_CFG (R47). -/
def execLaneCfgWrite (m : Master) (l : Lane) (v : Word) (s : State) : Host.Outcome State Fault Refusal :=
  s.onDev fun d => d.write m (laneField l F.LANE_CFG_ENABLE).addr v

/-- LANE_OFF_APPLIED (R47). -/
def execLaneOffApplied (l : Lane) (s : State) : Host.Outcome State Fault Refusal :=
  s.onDev fun d => d.laneOffAppliedOp l

/-- SNAP: a write of CNT_CTL (R78). -/
def execSnap (m : Master) (l : Lane) (s : State) : Host.Outcome State Fault Refusal :=
  s.onDev fun d => d.write m (laneField l F.CNT_CTL_OP).addr 1

/-- SNAP_CLR: a write of CNT_CTL (R78). -/
def execSnapClr (m : Master) (l : Lane) (s : State) : Host.Outcome State Fault Refusal :=
  s.onDev fun d => d.write m (laneField l F.CNT_CTL_OP).addr 2

end Sys2Proof.Machine
end

