-- ==== Sys2Proof/Machine/CmdLink.lean ====
section
/-! DEFINITION. The commands of the ports: link start-up and the ACT balls (R42, R43, R422). -/
namespace Sys2Proof.Machine

/-- AN_RESTART: a write of LINKx_CTRL with the other fields as they stand (R43). -/
def execAnRestart (m : Master) (p : Port) (s : State) : Host.Outcome State Fault Refusal :=
  s.onDev fun d =>
    d.write m (portField p F.LINK_CTRL_AN_RESTART).addr (d.reg (portField p F.LINK_CTRL_AN_RESTART).addr ||| 0x10)

/-- LINK_MODE_CHANGE: a write of LINKx_CTRL (R43). -/
def execLinkModeChange (m : Master) (p : Port) (v : Word) (s : State) : Host.Outcome State Fault Refusal :=
  s.onDev fun d => d.write m (portField p F.LINK_CTRL_MODE).addr v

/-- SERDES_LOCK (R43). -/
def execSerdesLock (p : Port) (s : State) : Host.Outcome State Fault Refusal :=
  s.onDev fun d => d.serdesLockOp p

/-- SERDES_LOCK_TIMEOUT (R43). -/
def execSerdesLockTimeout (p : Port) (s : State) : Host.Outcome State Fault Refusal :=
  s.onDev fun d => d.serdesLockTimeoutOp p

/-- PCS_SYNC (R43). -/
def execPcsSync (p : Port) (s : State) : Host.Outcome State Fault Refusal :=
  s.onDev fun d => d.pcsSyncOp p

/-- PCS_SYNC_TIMEOUT (R43). -/
def execPcsSyncTimeout (p : Port) (s : State) : Host.Outcome State Fault Refusal :=
  s.onDev fun d => d.pcsSyncTimeoutOp p

/-- AN_DONE (R43). -/
def execAnDone (p : Port) (w : AnWord) (s : State) : Host.Outcome State Fault Refusal :=
  s.onDev fun d => d.anDoneOp p w

/-- AN_LINK_TIMER (R43). -/
def execAnLinkTimer (p : Port) (s : State) : Host.Outcome State Fault Refusal :=
  s.onDev fun d => d.anLinkTimerOp p

/-- SYNC_LOSS (R43). -/
def execSyncLoss (p : Port) (s : State) : Host.Outcome State Fault Refusal :=
  s.onDev fun d => d.syncLossOp p

/-- ACT_TIMEOUT (R422). -/
def execActTimeout (p : Port) (s : State) : Host.Outcome State Fault Refusal :=
  s.onDev fun d => d.actTimeoutOp p

end Sys2Proof.Machine
end

