-- ==== Sys2Proof/Machine/CmdPower.lean ====
section
/-! DEFINITION. The commands of the state controller, the domains, the resets and the supplies (R13 to R31, R356,
R357, R416, R417, R432, R433). -/
namespace Sys2Proof.Machine

/-- HOST_GOOD_QUALIFIED (R357). -/
def execHostGoodQualified (core sd io0 io1 io2 : Nat) (s : State) : Host.Outcome State Fault Refusal :=
  s.onDev fun d => d.hostGoodQualifiedOp core sd io0 io1 io2

/-- HOST_GOOD (R22). -/
def execHostGood (s : State) : Host.Outcome State Fault Refusal :=
  s.onDev fun d => d.hostGoodOp

/-- HOST_SUPPLY_LOSS (R26). -/
def execHostSupplyLoss (core sd io0 : Nat) (s : State) : Host.Outcome State Fault Refusal :=
  s.onDev fun d => d.hostSupplyLossOp core sd io0

/-- HOST_LOSS (R22). -/
def execHostLoss (s : State) : Host.Outcome State Fault Refusal :=
  s.onDev fun d => d.hostLossOp

/-- FIELD_ON (R22). -/
def execFieldOn (s : State) : Host.Outcome State Fault Refusal :=
  s.onDev fun d => d.fieldOnOp

/-- FIELD_OFF (R22). -/
def execFieldOff (s : State) : Host.Outcome State Fault Refusal :=
  s.onDev fun d => d.fieldOffOp

/-- RUN_REACHED (R22). -/
def execRunReached (s : State) : Host.Outcome State Fault Refusal :=
  s.onDev fun d => d.runReachedOp

/-- RUN_LOST (R22). -/
def execRunLost (s : State) : Host.Outcome State Fault Refusal :=
  s.onDev fun d => d.runLostOp

/-- RUNLOW (R22). -/
def execRunlow (s : State) : Host.Outcome State Fault Refusal :=
  s.onDev fun d => d.runlowOp

/-- ALARM (R22). -/
def execAlarm (s : State) : Host.Outcome State Fault Refusal :=
  s.onDev fun d => d.alarmOp

/-- ALARM_DONE (R393). -/
def execAlarmDone (s : State) : Host.Outcome State Fault Refusal :=
  s.onDev fun d => d.alarmDoneOp

/-- DEVICE_RESET (R13). -/
def execDeviceReset (s : State) : Host.Outcome State Fault Refusal :=
  s.onDev fun d => d.deviceResetOp

/-- CORE_RESET: a write of SYSCTL_CORE_RESET (R416). -/
def execCoreReset (m : Master) (v : Word) (s : State) : Host.Outcome State Fault Refusal :=
  s.onDev fun d => d.write m F.SYS_CORE_RESET_KEY.addr v

/-- DEV_RESET: a write of SYSCTL_DEV_RESET (R417). -/
def execDevReset (m : Master) (v : Word) (s : State) : Host.Outcome State Fault Refusal :=
  s.onDev fun d => d.write m F.SYS_DEV_RESET_KEY.addr v

/-- AON_POWER_UP (R433). -/
def execAonPowerUp (s : State) : Host.Outcome State Fault Refusal :=
  s.onDev fun d => d.aonPowerUpOp

/-- AON_UNPOWERED (R356). -/
def execAonUnpowered (s : State) : Host.Outcome State Fault Refusal :=
  s.onDev fun d => d.aonUnpoweredOp

/-- AON_XTAL_SWITCH (R433). -/
def execAonXtalSwitch (s : State) : Host.Outcome State Fault Refusal :=
  s.onDev fun d => d.aonXtalSwitchOp

/-- PLL_LOCK (R432). -/
def execPllLock (s : State) : Host.Outcome State Fault Refusal :=
  s.onDev fun d => d.pllLockOp

/-- FILL_DONE (R281). -/
def execFillDone (mem : FillMem) (s : State) : Host.Outcome State Fault Refusal :=
  s.onDev fun d => d.fillDoneOp mem

/-- PWR_REQ_WRITE: a write of SYSCTL_PWR_REQ (R17). -/
def execPwrReqWrite (m : Master) (v : Word) (s : State) : Host.Outcome State Fault Refusal :=
  s.onDev fun d => d.write m F.SYS_PWR_REQ_LINKA_ON.addr v

/-- LINK_POWER_OFF (R17). -/
def execLinkPowerOff (p : Port) (s : State) : Host.Outcome State Fault Refusal :=
  s.onDev fun d => d.linkPowerOffOp p

end Sys2Proof.Machine
end

