-- ==== Sys2Proof/Machine/CmdRing.lean ====
section
/-! DEFINITION. The commands of the Buckets partition, the descriptor rings and Windlass (R113, R117 to R141). -/
namespace Sys2Proof.Machine

/-- BKT_PART_WRITE: a write of PUMPHOUSE_BKT_PART (R113). -/
def execBktPartWrite (m : Master) (v : Word) (s : State) : Host.Outcome State Fault Refusal :=
  s.onDev fun d => d.write m F.BKT_PART_HOLD_SLOTS.addr v

/-- RING_CFG_WRITE: a write of RING_CFG (R120). -/
def execRingCfgWrite (m : Master) (n : Fin 256) (v : Word) (s : State) : Host.Outcome State Fault Refusal :=
  s.onDev fun d => d.write m (ringField n.val F.RING_CFG_ENABLE).addr v

/-- RING_DOORBELL: a write of RING_PROD (R124). -/
def execRingDoorbell (m : Master) (n : Fin 256) (v : Word) (s : State) : Host.Outcome State Fault Refusal :=
  s.onDev fun d => d.write m (ringField n.val F.RING_PROD_INDEX).addr v

/-- RING_CONS_WRITE: a write of RING_CONS (R125). -/
def execRingConsWrite (m : Master) (n : Fin 256) (v : Word) (s : State) : Host.Outcome State Fault Refusal :=
  s.onDev fun d => d.write m (ringField n.val F.RING_CONS_INDEX).addr v

/-- RESUME: a write of RING_STAT (R128). -/
def execResume (m : Master) (n : Fin 256) (s : State) : Host.Outcome State Fault Refusal :=
  s.onDev fun d => d.write m (ringField n.val F.RING_STAT_RESUME).addr 1

/-- FRAME_TX (R137). -/
def execFrameTx (c : Fin 8) (s : State) : Host.Outcome State Fault Refusal :=
  s.onDev fun d => d.chanStart c .tx

/-- COPY (R132). -/
def execCopy (c : Fin 8) (s : State) : Host.Outcome State Fault Refusal :=
  s.onDev fun d => d.chanStart c .copy

/-- FILL (R132). -/
def execFill (c : Fin 8) (s : State) : Host.Outcome State Fault Refusal :=
  s.onDev fun d => d.chanStart c .fill

/-- CHECK (R132). -/
def execCheck (c : Fin 8) (s : State) : Host.Outcome State Fault Refusal :=
  s.onDev fun d => d.chanStart c .check

/-- WINDLASS_BURST (R133). -/
def execWindlassBurst (c : Fin 8) (s : State) : Host.Outcome State Fault Refusal :=
  s.onDev fun d => d.windlassBurstOp c

/-- WINDLASS_ENERGY_SHORT (R140). -/
def execWindlassEnergyShort (c : Fin 8) (s : State) : Host.Outcome State Fault Refusal :=
  s.onDev fun d => d.windlassEnergyShortOp c

/-- CH_CTRL_WRITE: a write of CH_CTRL (R136). -/
def execChCtrlWrite (m : Master) (c : Fin 8) (v : Word) (s : State) : Host.Outcome State Fault Refusal :=
  s.onDev fun d => d.write m (chField c F.CH_CTRL_ENABLE).addr v

/-- DESC_POST (R125). -/
def execDescPost (n : Fin 256) (s : State) : Host.Outcome State Fault Refusal :=
  s.onDev fun d => d.descPostOp n.val

end Sys2Proof.Machine
end

