-- ==== Sys2Proof/Machine/CmdStream.lean ====
section
/-! DEFINITION. The commands of the stream contexts and their key epochs (R86 to R101). -/
namespace Sys2Proof.Machine

/-- EPOCH_SWEEP (R100). -/
def execEpochSweep (i : Fin 1024) (s : State) : Host.Outcome State Fault Refusal :=
  s.onDev fun d => d.sweep i

/-- CTX_ENABLE: a write of CTX_CMD (R88). -/
def execCtxEnable (m : Master) (i : Fin 1024) (s : State) : Host.Outcome State Fault Refusal :=
  s.onDev fun d => d.write m F.CTX_CMD_OP.addr (BitVec.ofNat 32 (1 * 2 ^ 16 + i.val))

/-- CTX_DISABLE: a write of CTX_CMD (R88). -/
def execCtxDisable (m : Master) (i : Fin 1024) (s : State) : Host.Outcome State Fault Refusal :=
  s.onDev fun d => d.write m F.CTX_CMD_OP.addr (BitVec.ofNat 32 (2 * 2 ^ 16 + i.val))

/-- RESET_GUARD: a write of CTX_CMD (R88). -/
def execResetGuard (m : Master) (i : Fin 1024) (s : State) : Host.Outcome State Fault Refusal :=
  s.onDev fun d => d.write m F.CTX_CMD_OP.addr (BitVec.ofNat 32 (3 * 2 ^ 16 + i.val))

/-- CLEAR_STATS: a write of CTX_CMD (R88). -/
def execClearStats (m : Master) (i : Fin 1024) (s : State) : Host.Outcome State Fault Refusal :=
  s.onDev fun d => d.write m F.CTX_CMD_OP.addr (BitVec.ofNat 32 (4 * 2 ^ 16 + i.val))

/-- INSTALL_CURRENT: a write of KEY_CMD (R98). -/
def execInstallCurrent (m : Master) (slot : Fin 64) (alg : Fin 8) (i : Fin 1024) (s : State) : Host.Outcome State Fault Refusal :=
  s.onDev fun d =>
    d.write m F.PK_KEY_CMD_OP.addr (BitVec.ofNat 32 (slot.val * 2 ^ 24 + alg.val * 2 ^ 20 + 1 * 2 ^ 16 + i.val))

/-- INSTALL_NEXT: a write of KEY_CMD (R98). -/
def execInstallNext (m : Master) (slot : Fin 64) (alg : Fin 8) (i : Fin 1024) (s : State) : Host.Outcome State Fault Refusal :=
  s.onDev fun d =>
    d.write m F.PK_KEY_CMD_OP.addr (BitVec.ofNat 32 (slot.val * 2 ^ 24 + alg.val * 2 ^ 20 + 2 * 2 ^ 16 + i.val))

/-- CANCEL_NEXT: a write of KEY_CMD (R98). -/
def execCancelNext (m : Master) (i : Fin 1024) (s : State) : Host.Outcome State Fault Refusal :=
  s.onDev fun d => d.write m F.PK_KEY_CMD_OP.addr (BitVec.ofNat 32 (3 * 2 ^ 16 + i.val))

/-- REVOKE: a write of KEY_CMD (R98). -/
def execRevoke (m : Master) (i : Fin 1024) (s : State) : Host.Outcome State Fault Refusal :=
  s.onDev fun d => d.write m F.PK_KEY_CMD_OP.addr (BitVec.ofNat 32 (4 * 2 ^ 16 + i.val))

/-- KEY_CMD_DONE (R98). -/
def execKeyCmdDone (s : State) : Host.Outcome State Fault Refusal :=
  s.onDev fun d => d.keyCmdDoneOp

end Sys2Proof.Machine
end

