-- ==== Sys2Proof/Machine/CmdTime.lean ====
section
/-! DEFINITION. The commands of the time unit and the pulse-per-second balls (R142 to R158). -/
namespace Sys2Proof.Machine

/-- STEP: a write of TIME_CMD (R143). -/
def execStep (m : Master) (s : State) : Host.Outcome State Fault Refusal :=
  s.onDev fun d => d.write m F.TIME_CMD_OP.addr 1

/-- TIME_ADD: a write of TIME_CMD (R143). -/
def execTimeAdd (m : Master) (s : State) : Host.Outcome State Fault Refusal :=
  s.onDev fun d => d.write m F.TIME_CMD_OP.addr 2

/-- DECLARE_LOCK: a write of TIME_CMD (R153). -/
def execDeclareLock (m : Master) (s : State) : Host.Outcome State Fault Refusal :=
  s.onDev fun d => d.write m F.TIME_CMD_OP.addr 3

/-- DECLARE_HOLDOVER: a write of TIME_CMD (R153). -/
def execDeclareHoldover (m : Master) (s : State) : Host.Outcome State Fault Refusal :=
  s.onDev fun d => d.write m F.TIME_CMD_OP.addr 4

/-- TIME_FREQ_WRITE: a write of TIME_FREQ (R143). -/
def execTimeFreqWrite (m : Master) (v : Word) (s : State) : Host.Outcome State Fault Refusal :=
  s.onDev fun d => d.write m F.TIME_FREQ_FREQ.addr v

/-- SERVO_TIMEOUT (R153). -/
def execServoTimeout (s : State) : Host.Outcome State Fault Refusal :=
  s.onDev fun d => d.servoTimeoutOp

/-- HOLDOVER_EXPIRY (R153). -/
def execHoldoverExpiry (s : State) : Host.Outcome State Fault Refusal :=
  s.onDev fun d => d.holdoverExpiryOp

/-- PPS_OUT_PULSE (R156). -/
def execPpsOutPulse (s : State) : Host.Outcome State Fault Refusal :=
  s.onDev fun d => d.ppsOutPulseOp

/-- PPS_OUT_END (R156). -/
def execPpsOutEnd (s : State) : Host.Outcome State Fault Refusal :=
  s.onDev fun d => d.ppsOutEndOp

/-- PPS_IN_EDGE (R157). -/
def execPpsInEdge (edge : PpsEdge) (s : State) : Host.Outcome State Fault Refusal :=
  s.onDev fun d => d.ppsInEdgeOp edge.rising edge.fine

/-- PPS_CFG_WRITE: a write of TIME_PPS_CFG (R155). -/
def execPpsCfgWrite (m : Master) (v : Word) (s : State) : Host.Outcome State Fault Refusal :=
  s.onDev fun d => d.write m F.TIME_PPS_CFG_OUT_EN.addr v

/-- TIME_NOW_READ: a load of TIME_NOW_NS (R145). -/
def execTimeNowRead (m : Master) (s : State) : Host.Outcome State Fault Refusal :=
  s.onDev fun d => (d.busLoad m .read F.TIME_NOW_NS_NS.addr 4).1

end Sys2Proof.Machine
end

