-- ==== Sys2Proof/Machine/CmdWellhead.lean ====
section
/-! DEFINITION. The commands of Wellhead: VHOLD, the gauge, the harvester, the voltage loop and the power modes (R356
to R376). -/
namespace Sys2Proof.Machine

/-- ENERGY_GRANT (R362, R365): an AON edge on which the gauge judges a request, after those ahead of it: Cistern bursts,
transmissions, CE pages and Windlass channels in ascending order. -/
def Dev.energyGrantOp (d : Dev) (who : Requester) : Dev :=
  let d1 := d.cisternGrant.cstPoll
  match who with
  | .cistern => d1
  | .response => d1.askFrame
  | .ce r => d1.askFrame.ceGrants (· ≤ r)
  | .key => (d1.askFrame.ceGrants fun _ => true).ceKeyCmdDoneOp
  | .windlass c =>
    ((List.finRange 8).filter (· ≤ c)).foldl Dev.chanAsk (d1.askFrame.ceGrants fun _ => true)

/-- ENERGY_GRANT (R362). -/
def execEnergyGrant (who : Requester) (s : State) : Host.Outcome State Fault Refusal :=
  s.onDev fun d => d.energyGrantOp who

/-- MARK_CHANGE (R360). -/
def execMarkChange (mv : Nat) (s : State) : Host.Outcome State Fault Refusal :=
  s.onDev fun d => (d.markChangeOp mv).alarmCharged

/-- PV_SAMPLE (R367). -/
def execPvSample (vocMv : Nat) (covers : Bool) (vbatMv : Nat) (s : State) : Host.Outcome State Fault Refusal :=
  s.onDev fun d => d.pvSampleOp vocMv covers vbatMv

/-- PV_AON_RAIL_LOSS (R367). -/
def execPvAonRailLoss (s : State) : Host.Outcome State Fault Refusal :=
  s.onDev fun d => d.pvRailLossOp

/-- CANARY_LATE (R371). -/
def execCanaryLate (s : State) : Host.Outcome State Fault Refusal :=
  s.onDev fun d => d.canaryLateOp

/-- AVS_LOWER (R371). -/
def execAvsLower (s : State) : Host.Outcome State Fault Refusal :=
  s.onDev fun d => d.avsLowerOp

/-- AVS_LINK_FAIL (R373). -/
def execAvsLinkFail (s : State) : Host.Outcome State Fault Refusal :=
  s.onDev fun d => d.avsLinkFailOp

/-- PMODE_WRITE: a write of WH_PMODE (R375). -/
def execPmodeWrite (m : Master) (v : Word) (s : State) : Host.Outcome State Fault Refusal :=
  s.onDev fun d => d.write m F.WH_PMODE_MODE.addr v

/-- PMODE_DONE (R375). -/
def execPmodeDone (s : State) : Host.Outcome State Fault Refusal :=
  s.onDev fun d => d.pmodeDoneOp

/-- ALARM_CHARGE_TIMEOUT (R366). -/
def execAlarmChargeTimeout (s : State) : Host.Outcome State Fault Refusal :=
  s.onDev fun d => d.alarmChargeTimeoutOp

end Sys2Proof.Machine
end

