-- ==== Sys2Proof/Machine/CoreArith.lean ====
section
/-! DEFINITION. The computational instructions of the Enuth core (R172, R173): each writes one register from registers
and an immediate, and carries the poison marks of the operands it reads (R160). None raises an exception of its own. -/
namespace Sys2Proof.Machine

/-! ### Results (R172, R173) -/

/-- The high word of a product of two signed words (MULH). -/
def mulh (a b : Word) : Word := BitVec.ofInt 32 ((a.toInt * b.toInt) >>> (32 : Nat))
/-- The high word of a product of two unsigned words (MULHU). -/
def mulhu (a b : Word) : Word := BitVec.ofNat 32 ((a.toNat * b.toNat) >>> 32)
/-- Signed quotient rounded towards zero; R173's value for divisor 0; the overflow case wraps to 0x8000_0000. -/
def divS (a b : Word) : Word := if b = 0 then 0xFFFFFFFF else BitVec.ofInt 32 (Int.tdiv a.toInt b.toInt)
/-- Signed remainder with the sign of the dividend; the dividend for divisor 0 (R173). -/
def remS (a b : Word) : Word := if b = 0 then a else BitVec.ofInt 32 (Int.tmod a.toInt b.toInt)
/-- Unsigned quotient (R173). -/
def divU (a b : Word) : Word := if b = 0 then 0xFFFFFFFF else BitVec.ofNat 32 (a.toNat / b.toNat)
/-- Unsigned remainder (R173). -/
def remU (a b : Word) : Word := if b = 0 then a else BitVec.ofNat 32 (a.toNat % b.toNat)
/-- Number of leading zero bits; 32 for zero (CLZ). -/
def clzOf (a : Word) : Nat := if a = 0 then 32 else 31 - Nat.log2 a.toNat
/-- 1 for true, 0 for false, as a register value. -/
def boolWord (b : Bool) : Word := if b then 1 else 0

/-- A register result: `rd` takes `v` with the mark `p`, and the instruction completes after `cycles` (R160, R195). -/
def Core.result (c : Core) (rd : RegNo) (v : Word) (p : Bool) (cycles : Nat) : Core := (c.wr rd v p).retire cycles

/-- A computation on two registers. -/
def State.binop (s : State) (rd ra rb : RegNo) (f : Word → Word → Word) (cycles : Nat) : State :=
  s.coreStep .free fun t => t.onCore fun c =>
    c.result rd (f (c.rd ra) (c.rd rb)) (c.psn ra || c.psn rb) cycles

/-- A computation on one register. -/
def State.unop (s : State) (rd ra : RegNo) (f : Word → Word) : State :=
  s.coreStep .free fun t => t.onCore fun c => c.result rd (f (c.rd ra)) (c.psn ra) 1

/-- ADD (R172). -/
def execAdd (rd ra rb : RegNo) (s : State) : Host.Outcome State Fault Refusal :=
  .next (s.binop rd ra rb (fun a b => a + b) 1)

/-- SUB (R172). -/
def execSub (rd ra rb : RegNo) (s : State) : Host.Outcome State Fault Refusal :=
  .next (s.binop rd ra rb (fun a b => a - b) 1)

/-- AND (R172). -/
def execAnd (rd ra rb : RegNo) (s : State) : Host.Outcome State Fault Refusal :=
  .next (s.binop rd ra rb (fun a b => a &&& b) 1)

/-- OR (R172). -/
def execOr (rd ra rb : RegNo) (s : State) : Host.Outcome State Fault Refusal :=
  .next (s.binop rd ra rb (fun a b => a ||| b) 1)

/-- XOR (R172). -/
def execXor (rd ra rb : RegNo) (s : State) : Host.Outcome State Fault Refusal :=
  .next (s.binop rd ra rb (fun a b => a ^^^ b) 1)

/-- NOR (R172). -/
def execNor (rd ra rb : RegNo) (s : State) : Host.Outcome State Fault Refusal :=
  .next (s.binop rd ra rb (fun a b => ~~~(a ||| b)) 1)

/-- SLT (R172). -/
def execSlt (rd ra rb : RegNo) (s : State) : Host.Outcome State Fault Refusal :=
  .next (s.binop rd ra rb (fun a b => boolWord (a.slt b)) 1)

/-- SLTU (R172). -/
def execSltu (rd ra rb : RegNo) (s : State) : Host.Outcome State Fault Refusal :=
  .next (s.binop rd ra rb (fun a b => boolWord (a.ult b)) 1)

/-- SLL (R172). -/
def execSll (rd ra rb : RegNo) (s : State) : Host.Outcome State Fault Refusal :=
  .next (s.binop rd ra rb (fun a b => a <<< (b.toNat % 32)) 1)

/-- SRL (R172). -/
def execSrl (rd ra rb : RegNo) (s : State) : Host.Outcome State Fault Refusal :=
  .next (s.binop rd ra rb (fun a b => a >>> (b.toNat % 32)) 1)

/-- SRA (R172). -/
def execSra (rd ra rb : RegNo) (s : State) : Host.Outcome State Fault Refusal :=
  .next (s.binop rd ra rb (fun a b => a.sshiftRight (b.toNat % 32)) 1)

/-- MUL (R172). -/
def execMul (rd ra rb : RegNo) (s : State) : Host.Outcome State Fault Refusal :=
  .next (s.binop rd ra rb (fun a b => a * b) 1)

/-- MULH (R172). -/
def execMulh (rd ra rb : RegNo) (s : State) : Host.Outcome State Fault Refusal :=
  .next (s.binop rd ra rb (fun a b => mulh a b) 1)

/-- MULHU (R172). -/
def execMulhu (rd ra rb : RegNo) (s : State) : Host.Outcome State Fault Refusal :=
  .next (s.binop rd ra rb (fun a b => mulhu a b) 1)

/-- DIV (R173). -/
def execDiv (rd ra rb : RegNo) (s : State) : Host.Outcome State Fault Refusal :=
  .next (s.binop rd ra rb (fun a b => divS a b) 34)

/-- DIVU (R173). -/
def execDivu (rd ra rb : RegNo) (s : State) : Host.Outcome State Fault Refusal :=
  .next (s.binop rd ra rb (fun a b => divU a b) 34)

/-- REM (R173). -/
def execRem (rd ra rb : RegNo) (s : State) : Host.Outcome State Fault Refusal :=
  .next (s.binop rd ra rb (fun a b => remS a b) 34)

/-- REMU (R173). -/
def execRemu (rd ra rb : RegNo) (s : State) : Host.Outcome State Fault Refusal :=
  .next (s.binop rd ra rb (fun a b => remU a b) 34)

/-- SLLI (R172). -/
def execSlli (rd ra : RegNo) (sh : BitVec 5) (s : State) : Host.Outcome State Fault Refusal :=
  .next (s.unop rd ra fun a => a <<< sh.toNat)

/-- SRLI (R172). -/
def execSrli (rd ra : RegNo) (sh : BitVec 5) (s : State) : Host.Outcome State Fault Refusal :=
  .next (s.unop rd ra fun a => a >>> sh.toNat)

/-- SRAI (R172). -/
def execSrai (rd ra : RegNo) (sh : BitVec 5) (s : State) : Host.Outcome State Fault Refusal :=
  .next (s.unop rd ra fun a => a.sshiftRight sh.toNat)

/-- CLZ (R172). -/
def execClz (rd ra : RegNo) (s : State) : Host.Outcome State Fault Refusal :=
  .next (s.unop rd ra fun a => BitVec.ofNat 32 (clzOf a))

/-- ADDI (R172). -/
def execAddi (rd ra : RegNo) (imm : BitVec 16) (s : State) : Host.Outcome State Fault Refusal :=
  .next (s.unop rd ra fun a => a + imm.signExtend 32)

/-- ANDI (R172). -/
def execAndi (rd ra : RegNo) (imm : BitVec 16) (s : State) : Host.Outcome State Fault Refusal :=
  .next (s.unop rd ra fun a => a &&& imm.zeroExtend 32)

/-- ORI (R172). -/
def execOri (rd ra : RegNo) (imm : BitVec 16) (s : State) : Host.Outcome State Fault Refusal :=
  .next (s.unop rd ra fun a => a ||| imm.zeroExtend 32)

/-- XORI (R172). -/
def execXori (rd ra : RegNo) (imm : BitVec 16) (s : State) : Host.Outcome State Fault Refusal :=
  .next (s.unop rd ra fun a => a ^^^ imm.zeroExtend 32)

/-- SLTI (R172). -/
def execSlti (rd ra : RegNo) (imm : BitVec 16) (s : State) : Host.Outcome State Fault Refusal :=
  .next (s.unop rd ra fun a => boolWord (a.slt (imm.signExtend 32)))

/-- SLTIU (R172). -/
def execSltiu (rd ra : RegNo) (imm : BitVec 16) (s : State) : Host.Outcome State Fault Refusal :=
  .next (s.unop rd ra fun a => boolWord (a.ult (imm.signExtend 32)))

/-- LUI (R172). -/
def execLui (rd : RegNo) (imm : BitVec 16) (s : State) : Host.Outcome State Fault Refusal :=
  .next (s.unop rd 0 fun _ => imm.zeroExtend 32 <<< 16)

end Sys2Proof.Machine
end

