-- ==== Sys2Proof/Machine/CoreFlow.lean ====
section
/-! DEFINITION. Branches, jumps and the hardware loop instructions (R176 to R180). -/
namespace Sys2Proof.Machine

/-- A branch that compares two registers (R160, R176). -/
def State.branchIf (s : State) (ra rb : RegNo) (off : BitVec 16) (f : Word → Word → Bool) : State :=
  s.coreStep .restricted fun t =>
    let c := t.core
    if c.psn ra || c.psn rb then .exc t (xPoison 2 0)
    else t.onCore fun c => c.branch (f (c.rd ra) (c.rd rb)) (c.pc + (off.signExtend 32 <<< 2))

/-- A jump to an address in a register (R176). -/
def State.jumpReg (s : State) (ra : RegNo) (link : Option RegNo) : State :=
  s.coreStep .restricted fun t =>
    let c := t.core
    let a := c.rd ra
    if c.psn ra then .exc t (xPoison 1 0)
    else if a.toNat % 4 ≠ 0 then .exc t (xAlign 2 a.toNat)
    else t.onCore fun c =>
      (match link with
        | some rd => c.wr rd (c.pc + 8) false
        | none => c).branch true a

/-- BEQ (R176). -/
def execBeq (ra rb : RegNo) (off : BitVec 16) (s : State) : Host.Outcome State Fault Refusal :=
  .next (s.branchIf ra rb off fun a b => a == b)

/-- BNE (R176). -/
def execBne (ra rb : RegNo) (off : BitVec 16) (s : State) : Host.Outcome State Fault Refusal :=
  .next (s.branchIf ra rb off fun a b => a != b)

/-- BLT (R176). -/
def execBlt (ra rb : RegNo) (off : BitVec 16) (s : State) : Host.Outcome State Fault Refusal :=
  .next (s.branchIf ra rb off fun a b => a.slt b)

/-- BGE (R176). -/
def execBge (ra rb : RegNo) (off : BitVec 16) (s : State) : Host.Outcome State Fault Refusal :=
  .next (s.branchIf ra rb off fun a b => !a.slt b)

/-- BLTU (R176). -/
def execBltu (ra rb : RegNo) (off : BitVec 16) (s : State) : Host.Outcome State Fault Refusal :=
  .next (s.branchIf ra rb off fun a b => a.ult b)

/-- BGEU (R176). -/
def execBgeu (ra rb : RegNo) (off : BitVec 16) (s : State) : Host.Outcome State Fault Refusal :=
  .next (s.branchIf ra rb off fun a b => !a.ult b)

/-- J (R176). -/
def execJ (off : BitVec 26) (s : State) : Host.Outcome State Fault Refusal :=
  .next (s.coreStep .restricted fun t => t.onCore fun c => c.branch true (c.pc + (off.signExtend 32 <<< 2)))

/-- JAL (R176): the link register is w30. -/
def execJal (off : BitVec 26) (s : State) : Host.Outcome State Fault Refusal :=
  .next (s.coreStep .restricted fun t => t.onCore fun c =>
    (c.wr 30 (c.pc + 8) false).branch true (c.pc + (off.signExtend 32 <<< 2)))

/-- JR (R176). -/
def execJr (ra : RegNo) (s : State) : Host.Outcome State Fault Refusal := .next (s.jumpReg ra none)

/-- JALR (R176): wa is read before wd is written. -/
def execJalr (rd ra : RegNo) (s : State) : Host.Outcome State Fault Refusal := .next (s.jumpReg ra (some rd))

/-- Set up loop `n` (R180): a count of 0 skips the body. -/
def Core.setLoop (c : Core) (n : BitVec 1) (len : BitVec 10) (count : Word) : Core :=
  let e := c.pc + (len.zeroExtend 32 <<< 2)
  let i : Fin 2 := n.toFin
  { c with
    ls := c.ls.set i (c.pc + 4)
    le := c.le.set i e
    lc := c.lc.set i count
    pc := if count = 0 then e + 4 else c.pc + 4
    cycle := c.cycle + 1 }

/-- LOOP (R180): the count comes from wa. -/
def execLoop (ra : RegNo) (n : BitVec 1) (len : BitVec 10) (s : State) : Host.Outcome State Fault Refusal :=
  .next (s.coreStep .restricted fun t =>
    if len = 0 then .exc t (xIllegal 4)
    else if t.core.psn ra then .exc t (xPoison 3 0)
    else t.onCore fun c => c.setLoop n len (c.rd ra))

/-- LOOPI (R180): the count is ICNT. -/
def execLoopi (n : BitVec 1) (icnt len : BitVec 10) (s : State) : Host.Outcome State Fault Refusal :=
  .next (s.coreStep .restricted fun t =>
    if len = 0 then .exc t (xIllegal 4)
    else t.onCore fun c => c.setLoop n len (icnt.zeroExtend 32))

end Sys2Proof.Machine
end

