-- ==== Sys2Proof/Machine/CoreLong.lean ====
section
/-! DEFINITION. The long instructions (R185 to R191): they run unit by unit, their progress in PROG and PACC. The operand
`stop` gives the number of units after which an interrupt is requested from outside; the instruction then stands with its
progress, as it does at a boundary between units at which an IMPRECISE_STORE or an interrupt is pending (R186, R219). -/
namespace Sys2Proof.Machine

/-- PROG of a long instruction of kind `k` interrupted after `n` units or bytes (R185). -/
def progWord (k n : Nat) : Word := BitVec.ofNat 32 (k * 2 ^ 29 + 2 ^ 28 + n % 2 ^ 24)

/-- Start or resume (R186): PROG and PACC at the first unit. -/
def Core.startLong (c : Core) (kind : Nat) (pacc : Word) (psn : Bool) : Core :=
  if c.prog.getLsbD 28 ∧ bitsOf c.prog.toNat 31 29 = kind then c
  else { c with prog := progWord kind 0, pacc := pacc, paccPoison := psn }

/-- Units done, as PROG has them. -/
def Core.done (c : Core) : Nat := bitsOf c.prog.toNat 23 0

/-- The master-end checks of a unit's accesses, before any of them is made (R186, R191): the exception of the first one
that is refused. -/
def State.unitChecks (s : State) : List (Kind × Nat × Nat) → Option (State × Exc)
  | [] => none
  | (k, a, n) :: t =>
    match s.dev.mpuCheck (s.core.mpuOn s.core.pl) s.core.pl k a n with
    | some (d1, x) => some ({ s with dev := d1 }, xAccess (if k = .read then 2 else 3) x)
    | none => s.unitChecks t

/-- A long instruction's load of `n` bytes after its check (R191). -/
def State.longLoad (s : State) (a n : Nat) : State × Except Exc (List MByte) :=
  let (d1, r, bs) := s.dev.cpuLoad s.core.master a n
  if r ≠ .ok then ({ s with dev := d1 }, .error (xBus r a)) else ({ s with dev := d1 }, .ok bs)

/-- A long instruction's store after its check. -/
def State.longStore (s : State) (a : Nat) (bs : List MByte) : State × Option Exc :=
  let (d1, r) := s.dev.cpuStore (s.core.mode.getLsbD 1) s.core.master a bs
  ({ s with dev := d1 }, if r ≠ .ok then some (xBus r a) else none)

/-- How a unit ends. -/
inductive UnitEnd where
  | ok (s : State)
  | exc (s : State) (x : Exc)

/-- Is an exception or interrupt taken at the boundary at which the core stands (R218, R219)? -/
def State.called (s : State) : Bool := s.impreciseNow.isSome || s.interruptNow.isSome

/-- Run up to `n` units, at most `stop` of them, and none behind a boundary at which the core is called away (R186, R219);
true if the instruction is then complete. -/
def runUnits (unit : State → UnitEnd) (complete : Core → Bool) : Nat → Option Nat → State → Done × Bool
  | 0, _, s => (.ok s, true)
  | n + 1, stop, s =>
    if complete s.core then (.ok s, true)
    else if stop = some 0 then (.ok s, false)
    else
      match unit s with
      | .exc s1 x => (.exc s1 x, false)
      | .ok s1 =>
        if s1.called && !complete s1.core then (.ok s1, false) else runUnits unit complete n (stop.map (· - 1)) s1

/-- Finish a long instruction: on completion its result is written, PROG is zeroed and the instruction retires; otherwise
it stands with its progress. -/
def finishLong (r : Done × Bool) (result : Core → Core) (cycles : Nat) : Done :=
  match r with
  | (.exc s x, _) => .exc s x
  | (.ok s, true) => .ok { s with core := { result s.core with prog := 0 }.retire cycles }
  | (.ok s, false) => .ok s

/-- A unit's progress. -/
def Core.progress (c : Core) (kind done : Nat) (pacc : Word) (psn : Bool) : Core :=
  { c with prog := progWord kind done, pacc := pacc, paccPoison := psn }

/-! ### MPMAC (R187, R190) -/

/-- Unit `j` of MPMAC: a limb, or the carry into word `n` of Z. An access that fails leaves the unit's others undone. -/
def mpmacUnit (z a : Nat) (b : Word) (bp : Bool) (n : Nat) (s : State) : UnitEnd :=
  let j := s.core.done
  let zj := z + 4 * j
  let aj := a + 4 * j
  match s.unitChecks ((.read, zj, 4) :: (if j < n then [(.read, aj, 4)] else []) ++ [(.write, zj, 4)]) with
  | some (s1, x) => .exc s1 x
  | none =>
    match s.longLoad zj 4 with
    | (s1, .error x) => .exc s1 x
    | (s1, .ok zb) =>
      match (if j < n then s1.longLoad aj 4 else (s1, .ok (marked (leBytes 4 0) false))) with
      | (_, .error x) => .exc (s.longLoad aj 4).1 x
      | (s2, .ok ab) =>
        let p := anyPoison zb || anyPoison ab || bp || s2.core.paccPoison
        let t := (wordOf zb).toNat + (wordOf ab).toNat * b.toNat + s2.core.pacc.toNat
        let w := marked (leBytes 4 t) p
        match s2.longStore zj w with
        | (_, some x) => .exc (s.longStore zj w).1 x
        | (s3, none) => .ok { s3 with core := s3.core.progress 1 (j + 1) (BitVec.ofNat 32 (t / 2 ^ 32)) p }

/-- Do two addresses lie in one SRAM bank of 128 KiB (R27)? -/
def sameBank (z a : Nat) : Bool := inSram z && inSram a && (z - ramBase) / 0x20000 == (a - ramBase) / 0x20000

/-- The aligned words that `len` bytes at `a` touch: the word units of R195. -/
def wordUnits (a len : Nat) : Nat := if len = 0 then 0 else ceilDiv (a % 4 + len) 4

/-- CORE cycles of BMOV (R195): a unit is a word where both addresses agree modulo 4, otherwise a byte. -/
def bmovCycles (dst src len : Nat) : Nat := 4 + (if dst % 4 = src % 4 then wordUnits dst len else len)

/-- MPMAC (R187). -/
def execMpmac (rd ra rb rc : RegNo) (stop : Option Nat) (s : State) : Host.Outcome State Fault Refusal :=
  .next (s.coreStep .mayEnd fun t =>
    let c := t.core
    let n := (c.rd rc).toNat
    let z := (c.rd rd).toNat
    let a := (c.rd ra).toNat
    if n = 0 ∨ 128 < n ∨ z % 4 ≠ 0 ∨ a % 4 ≠ 0 then .exc t (xIllegal 5)
    else if c.psn rd || c.psn ra || c.psn rc then .exc t (xPoison 3 0)
    else
      let t1 := { t with core := c.startLong 1 0 (c.psn rb) }
      finishLong (runUnits (mpmacUnit z a (c.rd rb) (c.psn rb) n) (fun k => decide (n < k.done)) (n + 1) stop t1) id
        (6 + (if sameBank z a then 3 else 2) * (n + 1)))

/-! ### BMOV and BFILL (R188, R190) -/

/-- Bytes of the unit at `a` when `left` bytes remain: to the end of the aligned word, or all that is left. -/
def unitLen (a left : Nat) : Nat := min left (4 - a % 4)

/-- Write bytes of a unit as one store, or byte by byte where three bytes or a half-word off its alignment lie there.
A store that fails leaves the unit's other accesses undone: `s0` is the state in which the unit began (R186). -/
def State.storeUnit (s0 s : State) (a : Nat) : List MByte → State × Option Exc
  | [] => (s, none)
  | b :: t =>
    let bs := b :: t
    if bs.length = 4 ∨ (bs.length = 2 ∧ a % 2 = 0) then
      match s.longStore a bs with
      | (_, some x) => ((s0.longStore a bs).1, some x)
      | (s1, none) => (s1, none)
    else
      match s.longStore a [b] with
      | (_, some x) => ((s0.longStore a [b]).1, some x)
      | (s1, none) => State.storeUnit s0 s1 (a + 1) t

/-- Read the bytes of a unit: as one load, or byte by byte in the same cases. -/
def State.loadUnit (s0 s : State) : Nat → Nat → State × Except Exc (List MByte)
  | _, 0 => (s, .ok [])
  | a, n + 1 =>
    if n = 3 ∨ (n = 1 ∧ a % 2 = 0) then
      match s.longLoad a (n + 1) with
      | (_, .error x) => ((s0.longLoad a (n + 1)).1, .error x)
      | (s1, .ok bs) => (s1, .ok bs)
    else
      match s.longLoad a 1 with
      | (_, .error x) => ((s0.longLoad a 1).1, .error x)
      | (s1, .ok b) =>
        match State.loadUnit s0 s1 (a + 1) n with
        | (s2, .error x) => (s2, .error x)
        | (s2, .ok t) => (s2, .ok (b ++ t))

/-- Copy bytes one after the other, each read after the one before has been written (R188). -/
def State.moveBytes (s0 : State) : Nat → State → Nat → Nat → State × Option Exc
  | 0, s, _, _ => (s, none)
  | n + 1, s, dst, src =>
    match State.loadUnit s0 s src 1 with
    | (s1, .error x) => (s1, some x)
    | (s1, .ok bs) =>
      match State.storeUnit s0 s1 dst bs with
      | (s2, some x) => (s2, some x)
      | (s2, none) => State.moveBytes s0 n s2 (dst + 1) (src + 1)

/-- A unit of BMOV: an aligned word of the destination, or the part of one in the range (R188). It moves at once where both
addresses agree modulo 4, and byte by byte where they do not (R195). -/
def bmovUnit (dst src len : Nat) (s : State) : UnitEnd :=
  let k := s.core.done
  let n := unitLen (dst + k) (len - k)
  match s.unitChecks [(.read, src + k, n), (.write, dst + k, n)] with
  | some (s1, x) => .exc s1 x
  | none =>
    let r :=
      if dst % 4 = src % 4 then
        match State.loadUnit s s (src + k) n with
        | (s1, .error x) => (s1, some x)
        | (s1, .ok bs) => State.storeUnit s s1 (dst + k) bs
      else State.moveBytes s n s (dst + k) (src + k)
    match r with
    | (s1, some x) => .exc s1 x
    | (s1, none) => .ok { s1 with core := s1.core.progress 2 (k + n) 0 false }

/-- BMOV (R188). -/
def execBmov (rd ra rb : RegNo) (stop : Option Nat) (s : State) : Host.Outcome State Fault Refusal :=
  .next (s.coreStep .mayEnd fun t =>
    let c := t.core
    let len := (c.rd rb).toNat
    if 0x00FFFFFF < len then .exc t (xIllegal 5)
    else if c.psn rd || c.psn ra || c.psn rb then .exc t (xPoison 3 0)
    else
      let t1 := { t with core := c.startLong 2 0 false }
      finishLong (runUnits (bmovUnit (c.rd rd).toNat (c.rd ra).toNat len) (fun k => decide (len ≤ k.done)) len stop t1)
        id (bmovCycles (c.rd rd).toNat (c.rd ra).toNat len))

/-- Byte `k` of the fill pattern (R188). -/
def fillByte (v : Word) (k : Nat) : Byte := BitVec.ofNat 8 (v.toNat >>> (8 * (k % 4)))

/-- A unit of BFILL. -/
def bfillUnit (dst len : Nat) (v : Word) (p : Bool) (s : State) : UnitEnd :=
  let k := s.core.done
  let n := unitLen (dst + k) (len - k)
  match s.unitChecks [(.write, dst + k, n)] with
  | some (s1, x) => .exc s1 x
  | none =>
    match State.storeUnit s s (dst + k) ((List.range n).map fun i => (fillByte v (k + i), p)) with
    | (s1, some x) => .exc s1 x
    | (s1, none) => .ok { s1 with core := s1.core.progress 3 (k + n) 0 false }

/-- BFILL (R188). -/
def execBfill (rd ra rb : RegNo) (stop : Option Nat) (s : State) : Host.Outcome State Fault Refusal :=
  .next (s.coreStep .mayEnd fun t =>
    let c := t.core
    let len := (c.rd rb).toNat
    if 0x00FFFFFF < len then .exc t (xIllegal 5)
    else if c.psn rd || c.psn rb then .exc t (xPoison 3 0)
    else
      let t1 := { t with core := c.startLong 3 0 false }
      finishLong (runUnits (bfillUnit (c.rd rd).toNat len (c.rd ra) (c.psn ra)) (fun k => decide (len ≤ k.done)) len
        stop t1) id (4 + wordUnits (c.rd rd).toNat len))

/-! ### CRCB (R189, R190) -/

/-- A unit of CRCB. -/
def crcbUnit (src len : Nat) (s : State) : UnitEnd :=
  let k := s.core.done
  let n := unitLen (src + k) (len - k)
  match s.unitChecks [(.read, src + k, n)] with
  | some (s1, x) => .exc s1 x
  | none =>
    match State.loadUnit s s (src + k) n with
    | (s1, .error x) => .exc s1 x
    | (s1, .ok bs) =>
      let crc := BitVec.ofNat 32 (crc32cState s1.core.pacc.toNat (bs.map Prod.fst))
      .ok { s1 with core := s1.core.progress 4 (k + n) crc (s1.core.paccPoison || anyPoison bs) }

/-- CRCB (R189): rd is written only at completion. -/
def execCrcb (rd ra rb rc : RegNo) (stop : Option Nat) (s : State) : Host.Outcome State Fault Refusal :=
  .next (s.coreStep .mayEnd fun t =>
    let c := t.core
    let len := (c.rd rb).toNat
    if 0x00FFFFFF < len then .exc t (xIllegal 5)
    else if c.psn ra || c.psn rb then .exc t (xPoison 3 0)
    else
      let t1 := { t with core :=
        if c.prog.getLsbD 28 ∧ bitsOf c.prog.toNat 31 29 = 4 ∧ c.done ≠ 0 then c
        else { c with prog := progWord 4 0, pacc := (c.rd rc), paccPoison := (c.psn rc) } }
      finishLong (runUnits (crcbUnit (c.rd ra).toNat len) (fun k => decide (len ≤ k.done)) len stop t1)
        (fun k => k.wr rd k.pacc k.paccPoison) (4 + wordUnits (c.rd ra).toNat len))

end Sys2Proof.Machine
end

