-- ==== Sys2Proof/Machine/CoreMem.lean ====
section
/-! DEFINITION. Loads and stores (R174, R193, R194). -/
namespace Sys2Proof.Machine

/-- The address of a load or store (R174). -/
def Core.ea (c : Core) (ra : RegNo) (imm : BitVec 16) : Word := c.rd ra + imm.signExtend 32

/-- A load of `n` bytes; `ext` extends what is read (R160, R174, R194). -/
def State.load (s : State) (rd ra : RegNo) (imm : BitVec 16) (n : Nat) (ext : Nat → Word) : State :=
  s.coreStep .free fun t =>
    let c := t.core
    let a := (c.ea ra imm).toNat
    if c.psn ra then .exc t (xPoison 0 0)
    else if a % n ≠ 0 then .exc t (xAlign 0 a)
    else
      match t.dev.mpuCheck (c.mpuOn c.pl) c.pl .read a n with
      | some (d1, x) => .exc { t with dev := d1 } (xAccess 0 x)
      | none =>
        let (d1, r, bs) := t.dev.cpuLoad c.master a n
        if r ≠ .ok then .exc { t with dev := d1 } (xBus r a)
        else .ok { t with core := c.result rd (ext (leNat (bs.map Prod.fst))) (anyPoison bs) 1, dev := d1 }

/-- The bytes a store takes from a register, each with the register's mark (R160, R174). -/
def Core.storeBytes (c : Core) (rb : RegNo) (n : Nat) : List MByte := marked (leBytes n (c.rd rb).toNat) (c.psn rb)

/-- A store of `n` bytes (R174, R193). -/
def State.store (s : State) (rb ra : RegNo) (imm : BitVec 16) (n : Nat) : State :=
  s.coreStep .free fun t =>
    let c := t.core
    let a := (c.ea ra imm).toNat
    if c.psn ra then .exc t (xPoison 0 0)
    else if a % n ≠ 0 then .exc t (xAlign 1 a)
    else
      match t.dev.mpuCheck (c.mpuOn c.pl) c.pl .write a n with
      | some (d1, x) => .exc { t with dev := d1 } (xAccess 1 x)
      | none =>
        let (d1, r) := t.dev.cpuStore (c.mode.getLsbD 1) c.master a (c.storeBytes rb n)
        if r ≠ .ok then .exc { t with dev := d1 } (xBus r a)
        else .ok { t with core := c.retire 1, dev := d1 }

/-- LW (R174). -/
def execLw (rd ra : RegNo) (imm : BitVec 16) (s : State) : Host.Outcome State Fault Refusal :=
  .next (s.load rd ra imm 4 fun v => BitVec.ofNat 32 v)

/-- LH (R174). -/
def execLh (rd ra : RegNo) (imm : BitVec 16) (s : State) : Host.Outcome State Fault Refusal :=
  .next (s.load rd ra imm 2 fun v => (BitVec.ofNat 16 v).signExtend 32)

/-- LHU (R174). -/
def execLhu (rd ra : RegNo) (imm : BitVec 16) (s : State) : Host.Outcome State Fault Refusal :=
  .next (s.load rd ra imm 2 fun v => BitVec.ofNat 32 v)

/-- LB (R174). -/
def execLb (rd ra : RegNo) (imm : BitVec 16) (s : State) : Host.Outcome State Fault Refusal :=
  .next (s.load rd ra imm 1 fun v => (BitVec.ofNat 8 v).signExtend 32)

/-- LBU (R174). -/
def execLbu (rd ra : RegNo) (imm : BitVec 16) (s : State) : Host.Outcome State Fault Refusal :=
  .next (s.load rd ra imm 1 fun v => BitVec.ofNat 32 v)

/-- SW (R174). -/
def execSw (rb ra : RegNo) (imm : BitVec 16) (s : State) : Host.Outcome State Fault Refusal :=
  .next (s.store rb ra imm 4)

/-- SH (R174). -/
def execSh (rb ra : RegNo) (imm : BitVec 16) (s : State) : Host.Outcome State Fault Refusal :=
  .next (s.store rb ra imm 2)

/-- SB (R174). -/
def execSb (rb ra : RegNo) (imm : BitVec 16) (s : State) : Host.Outcome State Fault Refusal :=
  .next (s.store rb ra imm 1)

end Sys2Proof.Machine
end

