-- ==== Sys2Proof/Machine/CoreSys.lean ====
section
/-! DEFINITION. Special registers and the system group, the store buffer's drain, exception entry and interrupts (R163
to R166, R192 to R194, R201 to R219). -/
namespace Sys2Proof.Machine

/-! ### Special registers (R162) -/

/-- The special registers by name. -/
inductive Spr where
  | cst
  | mode
  | prog
  | pacc
  | ls (n : Fin 2)
  | le (n : Fin 2)
  | lc (n : Fin 2)
  | epc
  | etgt
  | ecause
  | eaddr
  | spc
  | sst
  | sysent
  | extb
  | estk
  | slim (n : Fin 4)
  | ssp (n : Fin 4)
  | cycleLo
  | cycleHi
  | coreId
  deriving DecidableEq, Repr

/-- The register a number names (R162); none is absent. -/
def sprOf (n : BitVec 16) : Option Spr :=
  match n.toNat with
  | 0x000 => some .cst
  | 0x001 => some .mode
  | 0x002 => some .prog
  | 0x003 => some .pacc
  | 0x008 => some (.ls 0)
  | 0x009 => some (.le 0)
  | 0x00A => some (.lc 0)
  | 0x00C => some (.ls 1)
  | 0x00D => some (.le 1)
  | 0x00E => some (.lc 1)
  | 0x010 => some .epc
  | 0x011 => some .etgt
  | 0x012 => some .ecause
  | 0x013 => some .eaddr
  | 0x018 => some .spc
  | 0x019 => some .sst
  | 0x01A => some .sysent
  | 0x020 => some .extb
  | 0x021 => some .estk
  | 0x024 => some (.slim 0)
  | 0x025 => some (.slim 1)
  | 0x026 => some (.slim 2)
  | 0x027 => some (.slim 3)
  | 0x028 => some (.ssp 0)
  | 0x029 => some (.ssp 1)
  | 0x02A => some (.ssp 2)
  | 0x02B => some (.ssp 3)
  | 0x030 => some .cycleLo
  | 0x031 => some .cycleHi
  | 0x03F => some .coreId
  | _ => none

/-- Lowest level that reads the register (R162). -/
def Spr.readLevel : Spr → Nat
  | .cst | .prog | .pacc | .ls _ | .le _ | .lc _ | .cycleLo | .cycleHi | .coreId => 0
  | .mode | .epc | .etgt | .ecause | .eaddr | .spc | .sst | .sysent => 1
  | .extb | .estk | .slim _ | .ssp _ => 2

/-- Lowest level that writes the register; none where the Write column is a dash (R162). -/
def Spr.writeLevel : Spr → Option Nat
  | .prog | .pacc | .ls _ | .le _ | .lc _ => some 0
  | .cst | .epc | .etgt | .spc | .sst | .sysent => some 1
  | .mode | .extb | .estk | .slim _ | .ssp _ => some 2
  | .ecause | .eaddr | .cycleLo | .cycleHi | .coreId => none

/-- The level as an index of the CYCLE_HI latches. -/
def Core.plIdx (c : Core) : Fin 3 := if c.pl = 0 then 0 else if c.pl = 1 then 1 else 2

/-- Value of a special register. -/
def Core.sprRead (c : Core) : Spr → Word
  | .cst => c.cst
  | .mode => c.mode
  | .prog => c.prog
  | .pacc => c.pacc
  | .ls n => c.ls[n]
  | .le n => c.le[n]
  | .lc n => c.lc[n]
  | .epc => c.epc
  | .etgt => c.etgt
  | .ecause => c.ecause
  | .eaddr => c.eaddr
  | .spc => c.spc
  | .sst => c.sst
  | .sysent => c.sysent
  | .extb => c.extb
  | .estk => c.estk
  | .slim n => c.slim[n]
  | .ssp n => c.ssp[n]
  | .cycleLo => c.cycle.extractLsb' 0 32
  | .cycleHi => (c.cycleLatch[c.plIdx]).getD (c.cycle.extractLsb' 32 32)
  | .coreId => 0x00010000

/-- The side effect of a read on the CYCLE_HI latch of the reading level (R163). -/
def Core.sprLatch (c : Core) : Spr → Core
  | .cycleLo => { c with cycleLatch := c.cycleLatch.set c.plIdx (some (c.cycle.extractLsb' 32 32)) }
  | .cycleHi => { c with cycleLatch := c.cycleLatch.set c.plIdx none }
  | _ => c

/-- A saved status with its reserved bits zero and PL 3 clamped to 2 (R165). -/
def sstMask (v : Word) : Word :=
  let w := v &&& 0x000700F7
  if w.toNat % 4 = 3 then w - 1 else w

/-- Write a special register other than MODE (R162 to R166, R185). -/
def Core.sprWrite (c : Core) (r : Spr) (v : Word) : Core :=
  match r with
  | .cst => { c with cst := (c.cst &&& 0x3) ||| (v &&& 0xF4) }
  | .mode => c
  | .prog => { c with prog := v &&& 0xF0FFFFFF }
  | .pacc => { c with pacc := v, paccPoison := false }
  | .ls n => { c with ls := c.ls.set n (v &&& 0xFFFFFFFC) }
  | .le n => { c with le := c.le.set n (v &&& 0xFFFFFFFC) }
  | .lc n => { c with lc := c.lc.set n v }
  | .epc => { c with epc := v }
  | .etgt => { c with etgt := v }
  | .spc => { c with spc := v }
  | .sst => { c with sst := sstMask v }
  | .sysent => { c with sysent := v &&& 0xFFFFFFFC }
  | .extb => { c with extb := v }
  | .estk => { c with estk := v }
  | .slim n => { c with slim := c.slim.set n v }
  | .ssp n => { c with ssp := c.ssp.set n v }
  | .ecause | .eaddr | .cycleLo | .cycleHi | .coreId => c

/-- MFS (R163): an absent number is illegal, a level too low is a privilege exception. A read of PACC carries its
mark. -/
def execMfs (rd : RegNo) (spr : BitVec 16) (s : State) : Host.Outcome State Fault Refusal :=
  .next (s.coreStep .free fun t =>
    match sprOf spr with
    | none => .exc t (xIllegal 6)
    | some r =>
      if t.core.pl < r.readLevel then .exc t (xPrivilege 1)
      else t.onCore fun c =>
        (c.sprLatch r).result rd (c.sprRead r) (decide (r = .pacc) && c.paccPoison) 1)

/-- MTS (R163, R166): a write to MODE waits for its shadow instruction. -/
def execMts (ra : RegNo) (spr : BitVec 16) (s : State) : Host.Outcome State Fault Refusal :=
  .next (s.coreStep .restricted fun t =>
    match (sprOf spr).bind fun r => r.writeLevel.map fun l => (r, l) with
    | none => .exc t (xIllegal 6)
    | some (r, l) =>
      if t.core.pl < l then .exc t (xPrivilege 2)
      else if t.core.psn ra then .exc t (xPoison 4 0)
      else t.onCore fun c =>
        if r = .mode then { c.retire 1 with shadow := some (c.rd ra &&& 7) }
        else (c.sprWrite r (c.rd ra)).retire 1)

/-! ### SYSCALL, SYSRET, RETX (R192, R211, R216) -/

/-- SYSCALL: the fast path at User, the exception above it (R192). A SYSCALL inside a loop body ends the loop (R181). -/
def execSyscall (s : State) : Host.Outcome State Fault Refusal :=
  .next (s.coreStep .restricted fun t =>
    if t.core.pl ≠ 0 then .exc t ⟨11, 0, 0⟩
    else t.onCore fun c =>
      let inside (i : Fin 2) : Bool := c.ls[i].toNat ≤ c.pc.toNat && c.pc.toNat ≤ c.le[i].toNat
      let lc0 : Word := if inside 0 then 0 else c.lc[0]
      let lc1 : Word := if inside 1 then 0 else c.lc[1]
      { c with
        spc := c.pc + 4
        sst := c.cst &&& 0xF7
        cst := (c.cst &&& 0xF0) ||| 1
        lc := (c.lc.set 0 lc0).set 1 lc1
        pc := c.sysent
        cycle := c.cycle + 2 })

/-- SYSRET (R192, R216): PL, IE and IPL come from SST. -/
def execSysret (s : State) : Host.Outcome State Fault Refusal :=
  .next (s.coreStep .restricted fun t =>
    let c := t.core
    if c.pl = 0 then .exc t (xPrivilege 0)
    else if c.pl < c.sst.toNat % 4 then .exc t (xPrivilege 3)
    else if c.spc.toNat % 4 ≠ 0 then .exc t (xAlign 3 c.spc.toNat)
    else t.onCore fun c => { c with cst := c.sst &&& 0xF7, pc := c.spc, cycle := c.cycle + 2 })

/-- Read the frame's words as loads of the current level (R211); an exception of the first word that fails. -/
def State.readFrame : Nat → State → Nat → State × Except Exc (List (Word × Bool))
  | 0, s, _ => (s, .ok [])
  | n + 1, s, a =>
    let c := s.core
    match s.dev.mpuCheck (c.mpuOn c.pl) c.pl .read a 4 with
    | some (d1, x) => ({ s with dev := d1 }, .error (xAccess 4 x))
    | none =>
      let (d1, r, bs) := s.dev.cpuLoad c.master a 4
      let s1 := { s with dev := d1 }
      if r ≠ .ok then (s1, .error (xBus r a))
      else
        match State.readFrame n s1 (a + 4) with
        | (s2, .error x) => (s2, .error x)
        | (s2, .ok t) => (s2, .ok ((wordOf bs, anyPoison bs) :: t))

/-- Word `i` of a frame. -/
def frameWord (f : List (Word × Bool)) (i : Nat) : Word := (f.getD i (0, false)).1

/-- The checks of RETX on the words it has read (R211, step 2). -/
def Core.retxCheck (c : Core) (base : Nat) (f : List (Word × Bool)) : Option Exc :=
  let st := frameWord f 2
  let ds := st.getLsbD 16
  let mpend := st.getLsbD 17
  match f.findIdx? fun w => w.2 with
  | some i => some (xPoison 6 (base + 4 * i))
  | none =>
    if c.pl < st.toNat % 4 then some (xPrivilege 3)
    else if c.pl < 2 ∧ (frameWord f 12 ≠ c.mode ∨ mpend) then some (xPrivilege 3)
    else if st.toNat % 4 = 3 ∨ (ds && mpend) then some (xIllegal 7)
    else if (frameWord f 0).toNat % 4 ≠ 0 then some (xAlign 3 (frameWord f 0).toNat)
    else if ds ∧ (frameWord f 1).toNat % 4 ≠ 0 then some (xAlign 3 (frameWord f 1).toNat)
    else none

/-- The restore of RETX (R211, step 3; R212, R214). -/
def Core.retxRestore (c : Core) (f : List (Word × Bool)) : Core :=
  let st := frameWord f 2
  let epc := frameWord f 0
  let etgt := frameWord f 1
  { c.wr 31 (frameWord f 14) false with
    ls := #v[frameWord f 4 &&& 0xFFFFFFFC, frameWord f 7 &&& 0xFFFFFFFC]
    le := #v[frameWord f 5 &&& 0xFFFFFFFC, frameWord f 8 &&& 0xFFFFFFFC]
    lc := #v[frameWord f 6, frameWord f 9]
    prog := frameWord f 10 &&& 0xF0FFFFFF
    pacc := frameWord f 11
    paccPoison := false
    mode := frameWord f 12 &&& 7
    sst := sstMask (frameWord f 3)
    cst := st &&& 0xF7
    epc := epc
    etgt := etgt
    slot := if st.getLsbD 16 then some ⟨epc, etgt⟩ else none
    shadow := if st.getLsbD 17 then some (frameWord f 13 &&& 7) else none
    pc := if st.getLsbD 16 then epc + 4 else epc
    cycle := c.cycle + 20 }

/-- RETX (R211): a swap waits without effect while PREV_LIVE = 1 (R240). -/
def execRetx (s : State) : Host.Outcome State Fault Refusal :=
  .next (s.coreStep .restricted fun t =>
    let c := t.core
    let a := (c.rd 31).toNat
    if c.pl = 0 then .exc t (xPrivilege 0)
    else if c.psn 31 then .exc t (xPoison 6 0)
    else if a % 4 ≠ 0 then .exc t (xAlign 3 a)
    else
      match State.readFrame 16 t a with
      | (t1, .error x) => .exc t1 x
      | (t1, .ok f) =>
        match c.retxCheck a f with
        | some x => .exc t1 x
        | none =>
          if (frameWord f 2).getLsbD 18 then
            if t1.dev.flag F.ACCESS_EPOCH_PREV_LIVE then .ok t
            else .ok { t1 with core := c.retxRestore f, dev := t1.dev.swapRules }
          else .ok { t1 with core := c.retxRestore f })

/-! ### The rest of the system group (R192) -/

/-- SWAPRULES (R229): it waits without effect while PREV_LIVE = 1 (R240). -/
def execSwaprules (s : State) : Host.Outcome State Fault Refusal :=
  .next (s.coreStep .restricted fun t =>
    if t.core.pl = 0 then .exc t (xPrivilege 0)
    else if t.dev.flag F.ACCESS_EPOCH_PREV_LIVE then .ok t
    else .ok { t with core := t.core.retire 1, dev := t.dev.swapRules })

/-- Every store issued before is acknowledged (R192): the buffer is empty and the AON stores have completed (R20). -/
def Dev.fence (d : Dev) : Dev := d.drainAll.aonCompleteAll

/-- FENCE (R192). -/
def execFence (s : State) : Host.Outcome State Fault Refusal :=
  .next (s.coreStep .free fun t => .ok { t with core := t.core.retire 1, dev := t.dev.fence })

/-- IFENCE (R192): as FENCE; the model fetches nothing ahead. -/
def execIfence (s : State) : Host.Outcome State Fault Refusal :=
  .next (s.coreStep .free fun t => .ok { t with core := t.core.retire 1, dev := t.dev.fence })

/-- The wait ends: execution continues after WAIT. A pending IMPRECISE_STORE is taken there first (R218), and with IE = 1
the interrupt (R192). -/
def State.wake (s : State) : State :=
  let s1 := { s with core := { s.core with waiting := false }.retire 1 }
  match s1.impreciseNow with
  | some i => s1.enterImprecise i
  | none =>
    match s1.interruptNow with
    | some (src, p) => s1.enterInterrupt src p
    | none => s1

/-- WAIT (R192): it ends at once if an interrupt above IPL is already pending. -/
def execWait (s : State) : Host.Outcome State Fault Refusal :=
  .next (s.coreStep .mayEnd fun t =>
    if t.core.pl = 0 then .exc t (xPrivilege 0)
    else if (t.dev.topSource t.core.ipl).isSome then .ok t.wake
    else t.onCore fun c => { c with waiting := true })

/-- WAIT_WAKE (R192, R220). -/
def execWaitWake (s : State) : Host.Outcome State Fault Refusal :=
  .next (if s.dev.on .core && s.core.released && !s.core.stopped && s.core.waiting &&
      (s.dev.topSource s.core.ipl).isSome then s.wake.settle else s)

/-- BREAK (R192). -/
def execBrk (s : State) : Host.Outcome State Fault Refusal :=
  .next (s.coreStep .free fun t => .exc t ⟨12, 0, 0⟩)

/-- STORE_DRAIN (R193, R217). -/
def execStoreDrain (s : State) : Host.Outcome State Fault Refusal :=
  s.onDev Dev.drainOne

/-- EXCEPTION_ENTRY (R208): with no word, the pending IMPRECISE_STORE, which also ends a WAIT; with a word, the exception
of fetching or decoding that word at pc (R168, R175). -/
def execExceptionEntry (w : Option Word) (s : State) : Host.Outcome State Fault Refusal :=
  match w with
  | none =>
    if s.dev.on .core && s.core.released && !s.core.stopped then
      let s1 := if s.core.waiting then { s with core := { s.core with waiting := false }.retire 1 } else s
      match s1.impreciseNow with
      | some i => .next (s1.enterImprecise i).settle
      | none => .next s
    else .next s
  | some x =>
    .next (s.coreStep .free fun t =>
      match decodeWord x with
      | .illegal k => .exc t (xIllegal k)
      | .instr _ => .ok s)

/-- INTERRUPT (R219). -/
def execInterrupt (s : State) : Host.Outcome State Fault Refusal :=
  .next (if s.running then
      match s.impreciseNow with
      | some i => (s.enterImprecise i).settle
      | none =>
        match s.interruptNow with
        | some (src, p) => (s.enterInterrupt src p).settle
        | none => s
    else s)

end Sys2Proof.Machine
end

