-- ==== Sys2Proof/Machine/Dispatch.lean ====
section
/-! DEFINITION. The one dispatch: each command to its meaning. -/
namespace Sys2Proof.Machine

/-- The effect of a command on everything but the queue. -/
def exec (i : Instr) (s : State) : Host.Outcome State Fault Refusal :=
  match i with
  | .hostGoodQualified core sd io0 io1 io2 => Sys2Proof.Machine.execHostGoodQualified core sd io0 io1 io2 s
  | .hostGood => Sys2Proof.Machine.execHostGood s
  | .hostSupplyLoss core sd io0 => Sys2Proof.Machine.execHostSupplyLoss core sd io0 s
  | .hostLoss => Sys2Proof.Machine.execHostLoss s
  | .fieldChg present => Sys2Proof.Machine.execFieldChg present s
  | .fieldOn => Sys2Proof.Machine.execFieldOn s
  | .fieldOff => Sys2Proof.Machine.execFieldOff s
  | .runReached => Sys2Proof.Machine.execRunReached s
  | .runLost => Sys2Proof.Machine.execRunLost s
  | .runlow => Sys2Proof.Machine.execRunlow s
  | .alarm => Sys2Proof.Machine.execAlarm s
  | .alarmDone => Sys2Proof.Machine.execAlarmDone s
  | .deviceReset => Sys2Proof.Machine.execDeviceReset s
  | .coreReset m v => Sys2Proof.Machine.execCoreReset m v s
  | .devReset m v => Sys2Proof.Machine.execDevReset m v s
  | .aonPowerUp => Sys2Proof.Machine.execAonPowerUp s
  | .aonXtalSwitch => Sys2Proof.Machine.execAonXtalSwitch s
  | .pllLock => Sys2Proof.Machine.execPllLock s
  | .fillDone mem => Sys2Proof.Machine.execFillDone mem s
  | .pwrReqWrite m v => Sys2Proof.Machine.execPwrReqWrite m v s
  | .linkPowerOff p => Sys2Proof.Machine.execLinkPowerOff p s
  | .aonStoreComplete => Sys2Proof.Machine.execAonStoreComplete s
  | .claim m owner res => Sys2Proof.Machine.execClaim m owner res s
  | .release m owner res => Sys2Proof.Machine.execRelease m owner res s
  | .forceRelease m owner res => Sys2Proof.Machine.execForceRelease m owner res s
  | .registerWrite m addr v poison => Sys2Proof.Machine.execRegisterWrite m addr v poison s
  | .counterLatchRead m addr => Sys2Proof.Machine.execCounterLatchRead m addr s
  | .anRestart m p => Sys2Proof.Machine.execAnRestart m p s
  | .linkModeChange m p v => Sys2Proof.Machine.execLinkModeChange m p v s
  | .serdesLock p => Sys2Proof.Machine.execSerdesLock p s
  | .serdesLockTimeout p => Sys2Proof.Machine.execSerdesLockTimeout p s
  | .pcsSync p => Sys2Proof.Machine.execPcsSync p s
  | .pcsSyncTimeout p => Sys2Proof.Machine.execPcsSyncTimeout p s
  | .anDone p w => Sys2Proof.Machine.execAnDone p w s
  | .anLinkTimer p => Sys2Proof.Machine.execAnLinkTimer p s
  | .syncLoss p => Sys2Proof.Machine.execSyncLoss p s
  | .rxFrame l f => Sys2Proof.Machine.execRxFrame l f s
  | .lookup l n => Sys2Proof.Machine.execLookup l n s
  | .replayEarly l n => Sys2Proof.Machine.execReplayEarly l n s
  | .frameFailure l n why p => Sys2Proof.Machine.execFrameFailure l n why p s
  | .verdict l n => Sys2Proof.Machine.execVerdict l n s
  | .egressStart p => Sys2Proof.Machine.execEgressStart p s
  | .holdRelease l n => Sys2Proof.Machine.execHoldRelease l n s
  | .frameCommit p src => Sys2Proof.Machine.execFrameCommit p src s
  | .laneMismatch l point p => Sys2Proof.Machine.execLaneMismatch l point p s
  | .laneRestartDone l => Sys2Proof.Machine.execLaneRestartDone l s
  | .catchUpDone l => Sys2Proof.Machine.execCatchUpDone l s
  | .laneCfgWrite m l v => Sys2Proof.Machine.execLaneCfgWrite m l v s
  | .laneOffApplied l => Sys2Proof.Machine.execLaneOffApplied l s
  | .snap m l => Sys2Proof.Machine.execSnap m l s
  | .snapClr m l => Sys2Proof.Machine.execSnapClr m l s
  | .epochSweep idx => Sys2Proof.Machine.execEpochSweep idx s
  | .ctxEnable m idx => Sys2Proof.Machine.execCtxEnable m idx s
  | .ctxDisable m idx => Sys2Proof.Machine.execCtxDisable m idx s
  | .resetGuard m idx => Sys2Proof.Machine.execResetGuard m idx s
  | .clearStats m idx => Sys2Proof.Machine.execClearStats m idx s
  | .installCurrent m slot alg idx => Sys2Proof.Machine.execInstallCurrent m slot alg idx s
  | .installNext m slot alg idx => Sys2Proof.Machine.execInstallNext m slot alg idx s
  | .cancelNext m idx => Sys2Proof.Machine.execCancelNext m idx s
  | .revoke m idx => Sys2Proof.Machine.execRevoke m idx s
  | .keyCmdDone => Sys2Proof.Machine.execKeyCmdDone s
  | .bktPartWrite m v => Sys2Proof.Machine.execBktPartWrite m v s
  | .ringCfgWrite m n v => Sys2Proof.Machine.execRingCfgWrite m n v s
  | .ringDoorbell m n v => Sys2Proof.Machine.execRingDoorbell m n v s
  | .ringConsWrite m n v => Sys2Proof.Machine.execRingConsWrite m n v s
  | .resume m n => Sys2Proof.Machine.execResume m n s
  | .frameTx c => Sys2Proof.Machine.execFrameTx c s
  | .copy c => Sys2Proof.Machine.execCopy c s
  | .fill c => Sys2Proof.Machine.execFill c s
  | .check c => Sys2Proof.Machine.execCheck c s
  | .windlassBurst c => Sys2Proof.Machine.execWindlassBurst c s
  | .windlassEnergyShort c => Sys2Proof.Machine.execWindlassEnergyShort c s
  | .chCtrlWrite m c v => Sys2Proof.Machine.execChCtrlWrite m c v s
  | .descPost n => Sys2Proof.Machine.execDescPost n s
  | .energyGrant who => Sys2Proof.Machine.execEnergyGrant who s
  | .step m => Sys2Proof.Machine.execStep m s
  | .timeAdd m => Sys2Proof.Machine.execTimeAdd m s
  | .declareLock m => Sys2Proof.Machine.execDeclareLock m s
  | .declareHoldover m => Sys2Proof.Machine.execDeclareHoldover m s
  | .timeFreqWrite m v => Sys2Proof.Machine.execTimeFreqWrite m v s
  | .servoTimeout => Sys2Proof.Machine.execServoTimeout s
  | .holdoverExpiry => Sys2Proof.Machine.execHoldoverExpiry s
  | .ppsOutPulse => Sys2Proof.Machine.execPpsOutPulse s
  | .ppsOutEnd => Sys2Proof.Machine.execPpsOutEnd s
  | .ppsInEdge edge => Sys2Proof.Machine.execPpsInEdge edge s
  | .ppsCfgWrite m v => Sys2Proof.Machine.execPpsCfgWrite m v s
  | .timeNowRead m => Sys2Proof.Machine.execTimeNowRead m s
  | .add rd ra rb => Sys2Proof.Machine.execAdd rd ra rb s
  | .sub rd ra rb => Sys2Proof.Machine.execSub rd ra rb s
  | .and rd ra rb => Sys2Proof.Machine.execAnd rd ra rb s
  | .or rd ra rb => Sys2Proof.Machine.execOr rd ra rb s
  | .xor rd ra rb => Sys2Proof.Machine.execXor rd ra rb s
  | .nor rd ra rb => Sys2Proof.Machine.execNor rd ra rb s
  | .slt rd ra rb => Sys2Proof.Machine.execSlt rd ra rb s
  | .sltu rd ra rb => Sys2Proof.Machine.execSltu rd ra rb s
  | .sll rd ra rb => Sys2Proof.Machine.execSll rd ra rb s
  | .srl rd ra rb => Sys2Proof.Machine.execSrl rd ra rb s
  | .sra rd ra rb => Sys2Proof.Machine.execSra rd ra rb s
  | .slli rd ra sh => Sys2Proof.Machine.execSlli rd ra sh s
  | .srli rd ra sh => Sys2Proof.Machine.execSrli rd ra sh s
  | .srai rd ra sh => Sys2Proof.Machine.execSrai rd ra sh s
  | .mul rd ra rb => Sys2Proof.Machine.execMul rd ra rb s
  | .mulh rd ra rb => Sys2Proof.Machine.execMulh rd ra rb s
  | .mulhu rd ra rb => Sys2Proof.Machine.execMulhu rd ra rb s
  | .div rd ra rb => Sys2Proof.Machine.execDiv rd ra rb s
  | .divu rd ra rb => Sys2Proof.Machine.execDivu rd ra rb s
  | .rem rd ra rb => Sys2Proof.Machine.execRem rd ra rb s
  | .remu rd ra rb => Sys2Proof.Machine.execRemu rd ra rb s
  | .clz rd ra => Sys2Proof.Machine.execClz rd ra s
  | .addi rd ra imm => Sys2Proof.Machine.execAddi rd ra imm s
  | .andi rd ra imm => Sys2Proof.Machine.execAndi rd ra imm s
  | .ori rd ra imm => Sys2Proof.Machine.execOri rd ra imm s
  | .xori rd ra imm => Sys2Proof.Machine.execXori rd ra imm s
  | .lui rd imm => Sys2Proof.Machine.execLui rd imm s
  | .slti rd ra imm => Sys2Proof.Machine.execSlti rd ra imm s
  | .sltiu rd ra imm => Sys2Proof.Machine.execSltiu rd ra imm s
  | .lw rd ra imm => Sys2Proof.Machine.execLw rd ra imm s
  | .lh rd ra imm => Sys2Proof.Machine.execLh rd ra imm s
  | .lhu rd ra imm => Sys2Proof.Machine.execLhu rd ra imm s
  | .lb rd ra imm => Sys2Proof.Machine.execLb rd ra imm s
  | .lbu rd ra imm => Sys2Proof.Machine.execLbu rd ra imm s
  | .sw rb ra imm => Sys2Proof.Machine.execSw rb ra imm s
  | .sh rb ra imm => Sys2Proof.Machine.execSh rb ra imm s
  | .sb rb ra imm => Sys2Proof.Machine.execSb rb ra imm s
  | .beq ra rb off => Sys2Proof.Machine.execBeq ra rb off s
  | .bne ra rb off => Sys2Proof.Machine.execBne ra rb off s
  | .blt ra rb off => Sys2Proof.Machine.execBlt ra rb off s
  | .bge ra rb off => Sys2Proof.Machine.execBge ra rb off s
  | .bltu ra rb off => Sys2Proof.Machine.execBltu ra rb off s
  | .bgeu ra rb off => Sys2Proof.Machine.execBgeu ra rb off s
  | .j off => Sys2Proof.Machine.execJ off s
  | .jal off => Sys2Proof.Machine.execJal off s
  | .jr ra => Sys2Proof.Machine.execJr ra s
  | .jalr rd ra => Sys2Proof.Machine.execJalr rd ra s
  | .loop ra n len => Sys2Proof.Machine.execLoop ra n len s
  | .loopi n icnt len => Sys2Proof.Machine.execLoopi n icnt len s
  | .mfs rd spr => Sys2Proof.Machine.execMfs rd spr s
  | .mts ra spr => Sys2Proof.Machine.execMts ra spr s
  | .mpmac rd ra rb rc stop => Sys2Proof.Machine.execMpmac rd ra rb rc stop s
  | .bmov rd ra rb stop => Sys2Proof.Machine.execBmov rd ra rb stop s
  | .bfill rd ra rb stop => Sys2Proof.Machine.execBfill rd ra rb stop s
  | .crcb rd ra rb rc stop => Sys2Proof.Machine.execCrcb rd ra rb rc stop s
  | .syscall => Sys2Proof.Machine.execSyscall s
  | .sysret => Sys2Proof.Machine.execSysret s
  | .retx => Sys2Proof.Machine.execRetx s
  | .swaprules => Sys2Proof.Machine.execSwaprules s
  | .fence => Sys2Proof.Machine.execFence s
  | .ifence => Sys2Proof.Machine.execIfence s
  | .wait => Sys2Proof.Machine.execWait s
  | .waitWake => Sys2Proof.Machine.execWaitWake s
  | .brk => Sys2Proof.Machine.execBrk s
  | .storeDrain => Sys2Proof.Machine.execStoreDrain s
  | .exceptionEntry w => Sys2Proof.Machine.execExceptionEntry w s
  | .interrupt => Sys2Proof.Machine.execInterrupt s
  | .now m => Sys2Proof.Machine.execNow m s
  | .withSwap m => Sys2Proof.Machine.execWithSwap m s
  | .cancel m => Sys2Proof.Machine.execCancel m s
  | .epochDrained => Sys2Proof.Machine.execEpochDrained s
  | .aesEcb m r => Sys2Proof.Machine.execAesEcb m r s
  | .aesCbc m r => Sys2Proof.Machine.execAesCbc m r s
  | .aesCtr m r => Sys2Proof.Machine.execAesCtr m r s
  | .aesGcm m r => Sys2Proof.Machine.execAesGcm m r s
  | .aesGmac m r => Sys2Proof.Machine.execAesGmac m r s
  | .sha256 m r => Sys2Proof.Machine.execSha256 m r s
  | .sha384 m r => Sys2Proof.Machine.execSha384 m r s
  | .sha512 m r => Sys2Proof.Machine.execSha512 m r s
  | .hmacSha256 m r => Sys2Proof.Machine.execHmacSha256 m r s
  | .hmacSha384 m r => Sys2Proof.Machine.execHmacSha384 m r s
  | .hmacSha512 m r => Sys2Proof.Machine.execHmacSha512 m r s
  | .ecdsaP256 m r => Sys2Proof.Machine.execEcdsaP256 m r s
  | .ecdsaP384 m r => Sys2Proof.Machine.execEcdsaP384 m r s
  | .rsa m r => Sys2Proof.Machine.execRsa m r s
  | .random m r => Sys2Proof.Machine.execRandom m r s
  | .ceAbort m r => Sys2Proof.Machine.execCeAbort m r s
  | .pageDisable m r => Sys2Proof.Machine.execPageDisable m r s
  | .ceChunk r => Sys2Proof.Machine.execCeChunk r s
  | .ceJobDone r => Sys2Proof.Machine.execCeJobDone r s
  | .ceEnergyShort r => Sys2Proof.Machine.execCeEnergyShort r s
  | .importWrapped m kek slot => Sys2Proof.Machine.execImportWrapped m kek slot s
  | .importPlain m slot => Sys2Proof.Machine.execImportPlain m slot s
  | .generate m slot => Sys2Proof.Machine.execGenerate m slot s
  | .exportWrapped m kek slot => Sys2Proof.Machine.execExportWrapped m kek slot s
  | .erase m slot => Sys2Proof.Machine.execErase m slot s
  | .publicPoint m slot => Sys2Proof.Machine.execPublicPoint m slot s
  | .ceKeyCmdDone => Sys2Proof.Machine.execCeKeyCmdDone s
  | .reseed m => Sys2Proof.Machine.execReseed m s
  | .reseedDone => Sys2Proof.Machine.execReseedDone s
  | .restart m => Sys2Proof.Machine.execRestart m s
  | .rngReady => Sys2Proof.Machine.execRngReady s
  | .healthFail rct => Sys2Proof.Machine.execHealthFail rct s
  | .writeBack => Sys2Proof.Machine.execWriteBack s
  | .trackerOffer => Sys2Proof.Machine.execTrackerOffer s
  | .rowRemapDone => Sys2Proof.Machine.execRowRemapDone s
  | .integRemapCmd m bank row => Sys2Proof.Machine.execIntegRemapCmd m bank row s
  | .remove m entry => Sys2Proof.Machine.execRemove m entry s
  | .dredgeStart m => Sys2Proof.Machine.execDredgeStart m s
  | .dredgeAbort m => Sys2Proof.Machine.execDredgeAbort m s
  | .dredgeBurst => Sys2Proof.Machine.execDredgeBurst s
  | .readParam m target => Sys2Proof.Machine.execReadParam m target s
  | .writeParam m target => Sys2Proof.Machine.execWriteParam m target s
  | .eraseParam m target => Sys2Proof.Machine.execEraseParam m target s
  | .readCtr m target => Sys2Proof.Machine.execReadCtr m target s
  | .incCtr m target => Sys2Proof.Machine.execIncCtr m target s
  | .advanceCtr m target => Sys2Proof.Machine.execAdvanceCtr m target s
  | .appendLog m rtype target => Sys2Proof.Machine.execAppendLog m rtype target s
  | .readLog m target => Sys2Proof.Machine.execReadLog m target s
  | .readAlarm m => Sys2Proof.Machine.execReadAlarm m s
  | .alarmAck m => Sys2Proof.Machine.execAlarmAck m s
  | .cisternBurstDone => Sys2Proof.Machine.execCisternBurstDone s
  | .powerUpJournal => Sys2Proof.Machine.execPowerUpJournal s
  | .marginScan weak => Sys2Proof.Machine.execMarginScan weak s
  | .refresh => Sys2Proof.Machine.execRefresh s
  | .alarmRecord => Sys2Proof.Machine.execAlarmRecord s
  | .cisternEnergyShort => Sys2Proof.Machine.execCisternEnergyShort s
  | .cisternBufClear => Sys2Proof.Machine.execCisternBufClear s
  | .reqa => Sys2Proof.Machine.execReqa s
  | .wupa => Sys2Proof.Machine.execWupa s
  | .anticollision level known => Sys2Proof.Machine.execAnticollision level known s
  | .select level uid => Sys2Proof.Machine.execSelect level uid s
  | .hlta => Sys2Proof.Machine.execHlta s
  | .rats param => Sys2Proof.Machine.execRats param s
  | .pps pps1 => Sys2Proof.Machine.execPps pps1 s
  | .reqb => Sys2Proof.Machine.execReqb s
  | .wupb => Sys2Proof.Machine.execWupb s
  | .attrib pupi rates fsd cid => Sys2Proof.Machine.execAttrib pupi rates fsd cid s
  | .hltb pupi => Sys2Proof.Machine.execHltb pupi s
  | .inventory => Sys2Proof.Machine.execInventory s
  | .stayQuiet uid => Sys2Proof.Machine.execStayQuiet uid s
  | .readSingleBlock mode blk => Sys2Proof.Machine.execReadSingleBlock mode blk s
  | .readMultipleBlocks mode blk count => Sys2Proof.Machine.execReadMultipleBlocks mode blk count s
  | .select15693 uid => Sys2Proof.Machine.execSelect15693 uid s
  | .resetToReady mode => Sys2Proof.Machine.execResetToReady mode s
  | .getSystemInformation mode => Sys2Proof.Machine.execGetSystemInformation mode s
  | .apduTransfer mode apdu => Sys2Proof.Machine.execApduTransfer mode apdu s
  | .getResult mode => Sys2Proof.Machine.execGetResult mode s
  | .iBlock b => Sys2Proof.Machine.execIBlock b s
  | .rAck bn => Sys2Proof.Machine.execRAck bn s
  | .rNak bn => Sys2Proof.Machine.execRNak bn s
  | .sDeselect => Sys2Proof.Machine.execSDeselect s
  | .sWtxResponse wtxm => Sys2Proof.Machine.execSWtxResponse wtxm s
  | .selectFile => Sys2Proof.Machine.execSelectFile s
  | .readBinary => Sys2Proof.Machine.execReadBinary s
  | .updateBinary => Sys2Proof.Machine.execUpdateBinary s
  | .getInfo => Sys2Proof.Machine.execGetInfo s
  | .authInit => Sys2Proof.Machine.execAuthInit s
  | .authFinish => Sys2Proof.Machine.execAuthFinish s
  | .apduReadParam => Sys2Proof.Machine.execApduReadParam s
  | .apduReadCtr => Sys2Proof.Machine.execApduReadCtr s
  | .apduReadLog => Sys2Proof.Machine.execApduReadLog s
  | .apduReadAlarm => Sys2Proof.Machine.execApduReadAlarm s
  | .wtxTimer => Sys2Proof.Machine.execWtxTimer s
  | .responseTransmit => Sys2Proof.Machine.execResponseTransmit s
  | .portClaimRetry => Sys2Proof.Machine.execPortClaimRetry s
  | .fwResp m v => Sys2Proof.Machine.execFwResp m v s
  | .fwTimeout => Sys2Proof.Machine.execFwTimeout s
  | .fwDataRead m => Sys2Proof.Machine.execFwDataRead m s
  | .reload m => Sys2Proof.Machine.execReload m s
  | .contactlessConfigLoad => Sys2Proof.Machine.execContactlessConfigLoad s
  | .markChange mv => Sys2Proof.Machine.execMarkChange mv s
  | .pvSample vocMv covers vbatMv => Sys2Proof.Machine.execPvSample vocMv covers vbatMv s
  | .canaryLate => Sys2Proof.Machine.execCanaryLate s
  | .avsLower => Sys2Proof.Machine.execAvsLower s
  | .avsLinkFail => Sys2Proof.Machine.execAvsLinkFail s
  | .pmodeWrite m v => Sys2Proof.Machine.execPmodeWrite m v s
  | .pmodeDone => Sys2Proof.Machine.execPmodeDone s
  | .alarmChargeTimeout => Sys2Proof.Machine.execAlarmChargeTimeout s
  | .eventIssue src => Sys2Proof.Machine.execEventIssue src s
  | .coalWindowClose src => Sys2Proof.Machine.execCoalWindowClose src s
  | .evtSw m v => Sys2Proof.Machine.execEvtSw m v s
  | .wdogKick m v => Sys2Proof.Machine.execWdogKick m v s
  | .wdogStart m v => Sys2Proof.Machine.execWdogStart m v s
  | .wdogExpiry => Sys2Proof.Machine.execWdogExpiry s
  | .alarmEdge cause detail => Sys2Proof.Machine.execAlarmEdge cause detail s
  | .meshSample bad => Sys2Proof.Machine.execMeshSample bad s
  | .meshResample bad => Sys2Proof.Machine.execMeshResample bad s
  | .light sensor => Sys2Proof.Machine.execLight sensor s
  | .vglitch which => Sys2Proof.Machine.execVglitch which s
  | .vbatUv mv => Sys2Proof.Machine.execVbatUv mv s
  | .clock obs => Sys2Proof.Machine.execClock obs s
  | .aonClock => Sys2Proof.Machine.execAonClock s
  | .temp tj => Sys2Proof.Machine.execTemp tj s
  | .lockstep => Sys2Proof.Machine.execLockstep s
  | .read cmd len addr chk => Sys2Proof.Machine.execRead cmd len addr chk s
  | .write len addr data chk => Sys2Proof.Machine.execWrite len addr data chk s
  | .ident len addr chk => Sys2Proof.Machine.execIdent len addr chk s
  | .wohialTimeout => Sys2Proof.Machine.execWohialTimeout s
  | .wohialOpDone => Sys2Proof.Machine.execWohialOpDone s
  | .csRiseEarly cmd => Sys2Proof.Machine.execCsRiseEarly cmd s
  | .hostDb m v => Sys2Proof.Machine.execHostDb m v s
  | .boot => Sys2Proof.Machine.execBoot s
  | .recoveryImage => Sys2Proof.Machine.execRecoveryImage s
  | .eraseSector m page => Sys2Proof.Machine.execEraseSector m page s
  | .programPage m page => Sys2Proof.Machine.execProgramPage m page s
  | .flashOpDone => Sys2Proof.Machine.execFlashOpDone s
  | .clear m => Sys2Proof.Machine.execClear m s
  | .gpioEdge k rising => Sys2Proof.Machine.execGpioEdge k rising s
  | .actTimeout p => Sys2Proof.Machine.execActTimeout p s
  | .aonUnpowered => Sys2Proof.Machine.execAonUnpowered s
  | .pvAonRailLoss => Sys2Proof.Machine.execPvAonRailLoss s
  | .aonTimerExpiry ch => Sys2Proof.Machine.execAonTimerExpiry ch s

end Sys2Proof.Machine
end

