-- ==== Sys2Proof/Laws/Sparse.lean ====
section
/-! SUPPORT. Sparse contents: a read after a write, and the canonical form that every write, deletion and drop keeps. -/
namespace Sys2Proof.Machine

variable {β : Type}

@[simp] theorem Sparse.get_nil (dflt : Nat → β) (k : Nat) : Sparse.get dflt k [] = dflt k := rfl

theorem Sparse.get_cons (dflt : Nat → β) (k j : Nat) (v : β) (t : List (Nat × β)) :
    Sparse.get dflt k ((j, v) :: t) = if j = k then v else Sparse.get dflt k t := rfl

theorem Sparse.get_ins_same (dflt : Nat → β) (k : Nat) (v : β) (l : List (Nat × β)) :
    Sparse.get dflt k (Sparse.ins k v l) = v := by
  induction l with
  | nil => simp [Sparse.ins, Sparse.get]
  | cons e t ih =>
    obtain ⟨j, w⟩ := e
    simp only [Sparse.ins]
    split
    · simp [Sparse.get]
    · split
      · simp [Sparse.get]
      · simp [Sparse.get, *]

theorem Sparse.get_ins_ne (dflt : Nat → β) {k j : Nat} (v : β) (l : List (Nat × β)) (h : j ≠ k) :
    Sparse.get dflt j (Sparse.ins k v l) = Sparse.get dflt j l := by
  induction l with
  | nil => simp [Sparse.ins, Sparse.get, Ne.symm h]
  | cons e t ih =>
    obtain ⟨i, w⟩ := e
    simp only [Sparse.ins]
    split
    · simp [Sparse.get, Ne.symm h]
    · split
      · next e => subst e; simp [Sparse.get, Ne.symm h]
      · simp [Sparse.get, ih]

theorem Sparse.get_del_same (dflt : Nat → β) (k : Nat) (l : List (Nat × β)) :
    Sparse.get dflt k (Sparse.del k l) = dflt k := by
  induction l with
  | nil => rfl
  | cons e t ih =>
    obtain ⟨i, w⟩ := e
    by_cases h : i = k <;> simp [Sparse.del, Sparse.get, h, ih]

theorem Sparse.get_del_ne (dflt : Nat → β) {k j : Nat} (l : List (Nat × β)) (h : j ≠ k) :
    Sparse.get dflt j (Sparse.del k l) = Sparse.get dflt j l := by
  induction l with
  | nil => rfl
  | cons e t ih =>
    obtain ⟨i, w⟩ := e
    by_cases hi : i = k
    · subst hi; simp [Sparse.del, Sparse.get, Ne.symm h, ih]
    · simp [Sparse.del, Sparse.get, hi, ih]

/-- A read of the key just written gives the value written. -/
theorem Sparse.get_set_same [DecidableEq β] (dflt : Nat → β) (k : Nat) (v : β) (l : List (Nat × β)) :
    Sparse.get dflt k (Sparse.set dflt k v l) = v := by
  unfold Sparse.set
  split
  · next h => rw [Sparse.get_del_same, h]
  · exact Sparse.get_ins_same dflt k v l

/-- A write leaves every other key alone. -/
theorem Sparse.get_set_ne [DecidableEq β] (dflt : Nat → β) {k j : Nat} (v : β) (l : List (Nat × β)) (h : j ≠ k) :
    Sparse.get dflt j (Sparse.set dflt k v l) = Sparse.get dflt j l := by
  unfold Sparse.set
  split
  · exact Sparse.get_del_ne dflt l h
  · exact Sparse.get_ins_ne dflt v l h

/-- A dropped key reads as unlisted; another reads as before. -/
theorem Sparse.get_drop (dflt : Nat → β) (p : Nat → Bool) (k : Nat) (l : List (Nat × β)) :
    Sparse.get dflt k (Sparse.drop p l) = if p k then dflt k else Sparse.get dflt k l := by
  induction l with
  | nil => simp [Sparse.drop, Sparse.get]
  | cons e t ih =>
    obtain ⟨j, w⟩ := e
    simp only [Sparse.drop] at ih
    by_cases hj : p j = true
    · simp only [Sparse.drop, List.filter, hj, Bool.not_true, ih, Sparse.get]
      by_cases hk : j = k
      · subst hk; simp [hj]
      · simp [hk]
    · simp only [Sparse.drop, List.filter, hj, Bool.not_false, Sparse.get, ih]
      by_cases hk : j = k
      · subst hk; simp [hj]
      · simp [hk]

/-! ### The canonical form -/

/-- Every key of the list is above `lo`. -/
def Sparse.above (lo : Nat) (l : List (Nat × β)) : Prop := ∀ e ∈ l, lo < e.1

theorem Sparse.rising_some {lo : Nat} {l : List (Nat × β)} :
    Sparse.rising (some lo) l = true ↔ Sparse.above lo l ∧ Sparse.rising none l = true := by
  induction l generalizing lo with
  | nil => simp [Sparse.rising, Sparse.above]
  | cons e t ih =>
    obtain ⟨j, v⟩ := e
    simp only [Sparse.rising, Bool.and_eq_true, decide_eq_true_eq, Sparse.above, List.mem_cons, forall_eq_or_imp]
    constructor
    · rintro ⟨h1, h2⟩
      exact ⟨⟨h1, fun e he => Nat.lt_trans h1 ((ih.1 h2).1 e he)⟩, h2⟩
    · rintro ⟨⟨h1, _⟩, h2⟩
      exact ⟨h1, h2⟩

theorem Sparse.rising_cons {j : Nat} {v : β} {t : List (Nat × β)} :
    Sparse.rising none ((j, v) :: t) = true ↔ Sparse.above j t ∧ Sparse.rising none t = true := by
  rw [show Sparse.rising none ((j, v) :: t) = Sparse.rising (some j) t from rfl, Sparse.rising_some]

theorem Sparse.above_ins {lo k : Nat} {v : β} {l : List (Nat × β)} (h : Sparse.above lo l) (hk : lo < k) :
    Sparse.above lo (Sparse.ins k v l) := by
  induction l with
  | nil => intro e he; simp [Sparse.ins] at he; subst he; exact hk
  | cons e t ih =>
    obtain ⟨j, w⟩ := e
    have hj : lo < j := h (j, w) (by simp)
    have ht : Sparse.above lo t := fun e he => h e (by simp [he])
    unfold Sparse.ins
    split
    · intro e he
      simp only [List.mem_cons] at he
      obtain rfl | rfl | he := he
      · exact hk
      · exact hj
      · exact ht e he
    · split
      · intro e he
        simp only [List.mem_cons] at he
        obtain rfl | he := he
        · exact hk
        · exact ht e he
      · intro e he
        simp only [List.mem_cons] at he
        obtain rfl | he := he
        · exact hj
        · exact ih ht e he

/-- An insertion keeps the keys strictly rising. -/
theorem Sparse.rising_ins {k : Nat} {v : β} {l : List (Nat × β)} (h : Sparse.rising none l = true) :
    Sparse.rising none (Sparse.ins k v l) = true := by
  induction l with
  | nil => rfl
  | cons e t ih =>
    obtain ⟨j, w⟩ := e
    obtain ⟨ha, ht⟩ := Sparse.rising_cons.1 h
    unfold Sparse.ins
    split
    · next hk =>
      refine Sparse.rising_cons.2 ⟨?_, h⟩
      intro e he
      simp only [List.mem_cons] at he
      obtain rfl | he := he
      · exact hk
      · exact Nat.lt_trans hk (ha e he)
    · split
      · next hk => subst hk; exact Sparse.rising_cons.2 ⟨ha, ht⟩
      · next h1 h2 => exact Sparse.rising_cons.2 ⟨Sparse.above_ins ha (by omega), ih ht⟩

theorem Sparse.rising_filter {l : List (Nat × β)} (p : Nat × β → Bool) (h : Sparse.rising none l = true) :
    Sparse.rising none (l.filter p) = true := by
  induction l with
  | nil => rfl
  | cons e t ih =>
    obtain ⟨j, w⟩ := e
    obtain ⟨ha, ht⟩ := Sparse.rising_cons.1 h
    by_cases hp : p (j, w) = true
    · rw [List.filter_cons_of_pos hp]
      exact Sparse.rising_cons.2 ⟨fun e he => ha e (List.mem_of_mem_filter he), ih ht⟩
    · rw [List.filter_cons_of_neg hp]
      exact ih ht

theorem Sparse.del_eq_filter (k : Nat) (l : List (Nat × β)) : Sparse.del k l = l.filter fun e => e.1 != k := by
  induction l with
  | nil => rfl
  | cons e t ih =>
    obtain ⟨j, w⟩ := e
    by_cases h : j = k <;> simp [Sparse.del, h, ih]

theorem Sparse.mem_ins {k : Nat} {v : β} {l : List (Nat × β)} {e : Nat × β} (h : e ∈ Sparse.ins k v l) :
    e = (k, v) ∨ e ∈ l := by
  induction l with
  | nil => simpa [Sparse.ins] using h
  | cons a t ih =>
    obtain ⟨j, w⟩ := a
    unfold Sparse.ins at h
    split at h
    · simp only [List.mem_cons] at h ⊢; tauto
    · split at h
      · simp only [List.mem_cons] at h ⊢; tauto
      · simp only [List.mem_cons] at h ⊢
        obtain h | h := h
        · tauto
        · have := ih h; tauto

theorem Sparse.wf_iff [DecidableEq β] {dflt : Nat → β} {l : List (Nat × β)} :
    Sparse.wf dflt l = true ↔ Sparse.rising none l = true ∧ ∀ e ∈ l, e.2 ≠ dflt e.1 := by
  simp [Sparse.wf, List.all_eq_true]

/-- A filter keeps the canonical form. -/
theorem Sparse.wf_filter [DecidableEq β] {dflt : Nat → β} {l : List (Nat × β)} (p : Nat × β → Bool)
    (h : Sparse.wf dflt l = true) : Sparse.wf dflt (l.filter p) = true := by
  rw [Sparse.wf_iff] at h ⊢
  exact ⟨Sparse.rising_filter p h.1, fun e he => h.2 e (List.mem_of_mem_filter he)⟩

/-- A drop keeps the canonical form. -/
theorem Sparse.wf_drop [DecidableEq β] {dflt : Nat → β} {l : List (Nat × β)} (p : Nat → Bool)
    (h : Sparse.wf dflt l = true) : Sparse.wf dflt (Sparse.drop p l) = true := Sparse.wf_filter _ h

/-- A write keeps the canonical form. -/
theorem Sparse.wf_set [DecidableEq β] {dflt : Nat → β} {l : List (Nat × β)} (k : Nat) (v : β)
    (h : Sparse.wf dflt l = true) : Sparse.wf dflt (Sparse.set dflt k v l) = true := by
  unfold Sparse.set
  split
  · rw [Sparse.del_eq_filter]; exact Sparse.wf_filter _ h
  · next hv =>
    rw [Sparse.wf_iff] at h ⊢
    refine ⟨Sparse.rising_ins h.1, fun e he => ?_⟩
    obtain rfl | he := Sparse.mem_ins he
    · exact hv
    · exact h.2 e he

end Sys2Proof.Machine
end

