-- ==== Sys2Proof/Laws/Fields.lean ====
section
/-! SUPPORT. Bit fields and registers: a field reads what was put into it, and a put leaves every other register and
every disjoint field of its own register alone. -/
namespace Sys2Proof.Machine

/-! ### Bit fields of numbers -/

theorem bitsOf_lt (n hi lo : Nat) : bitsOf n hi lo < 2 ^ (hi + 1 - lo) := Nat.mod_lt _ (by positivity)

theorem bitsOf_eq (n hi lo : Nat) : bitsOf n hi lo = n / 2 ^ lo % 2 ^ (hi + 1 - lo) := by
  simp [bitsOf, Nat.shiftRight_eq_div_pow]

/-- A number cut at a field: what is above it, the field, and what is below it. -/
theorem bits_split (n hi lo : Nat) :
    n = n / 2 ^ lo / 2 ^ (hi + 1 - lo) * 2 ^ (hi + 1 - lo) * 2 ^ lo + bitsOf n hi lo * 2 ^ lo + n % 2 ^ lo := by
  have h1 := Nat.div_add_mod n (2 ^ lo)
  have h2 := Nat.div_add_mod (n / 2 ^ lo) (2 ^ (hi + 1 - lo))
  rw [bitsOf_eq]
  generalize n / 2 ^ lo = a at *
  generalize hm : a % 2 ^ (hi + 1 - lo) = f at *
  generalize a / 2 ^ (hi + 1 - lo) = g at *
  generalize 2 ^ (hi + 1 - lo) = w at *
  generalize 2 ^ lo = p at *
  subst h2
  nlinarith [h1]

theorem withBits_eq (n hi lo v : Nat) :
    withBits n hi lo v =
      n / 2 ^ lo / 2 ^ (hi + 1 - lo) * 2 ^ (hi + 1 - lo) * 2 ^ lo + v % 2 ^ (hi + 1 - lo) * 2 ^ lo + n % 2 ^ lo := by
  have h := bits_split n hi lo
  unfold withBits
  simp only [Nat.shiftLeft_eq]
  generalize bitsOf n hi lo * 2 ^ lo = b at *
  generalize n / 2 ^ lo / 2 ^ (hi + 1 - lo) * 2 ^ (hi + 1 - lo) * 2 ^ lo = g at *
  generalize n % 2 ^ lo = r at *
  omega

theorem withBits_shift (n hi lo v : Nat) :
    withBits n hi lo v / 2 ^ lo = n / 2 ^ lo / 2 ^ (hi + 1 - lo) * 2 ^ (hi + 1 - lo) + v % 2 ^ (hi + 1 - lo) := by
  rw [withBits_eq, ← Nat.add_mul]
  have hp : 0 < 2 ^ lo := by positivity
  rw [Nat.mul_comm _ (2 ^ lo), Nat.mul_add_div hp, Nat.div_eq_of_lt (Nat.mod_lt _ hp), Nat.add_zero]

theorem withBits_low (n hi lo v : Nat) : withBits n hi lo v % 2 ^ lo = n % 2 ^ lo := by
  rw [withBits_eq, ← Nat.add_mul, Nat.mul_comm _ (2 ^ lo), Nat.mul_add_mod, Nat.mod_mod]

/-- The field reads what was put into it. -/
theorem bitsOf_withBits_same (n hi lo v : Nat) : bitsOf (withBits n hi lo v) hi lo = v % 2 ^ (hi + 1 - lo) := by
  rw [bitsOf_eq, withBits_shift, Nat.mul_comm, Nat.mul_add_mod, Nat.mod_mod]

/-- A field below the one written reads as before. -/
theorem bitsOf_withBits_below (n hi lo v : Nat) {h l : Nat} (hl : h < lo) :
    bitsOf (withBits n hi lo v) h l = bitsOf n h l := by
  by_cases hlh : l ≤ h
  · have e : ∀ m, bitsOf m h l = bitsOf (m % 2 ^ lo) h l := by
      intro m
      simp only [bitsOf_eq]
      have : 2 ^ lo = 2 ^ l * 2 ^ (lo - l) := by rw [← pow_add]; congr 1; omega
      rw [this, Nat.mod_mul_right_div_self, Nat.mod_mod_of_dvd]
      exact pow_dvd_pow 2 (by omega)
    rw [e, withBits_low, ← e]
  · have : h + 1 - l = 0 := by omega
    simp [bitsOf_eq, this, Nat.mod_one]

/-- A field above the one written reads as before. -/
theorem bitsOf_withBits_above (n hi lo v : Nat) {h l : Nat} (hl : hi < l) (hlo : lo ≤ hi + 1) :
    bitsOf (withBits n hi lo v) h l = bitsOf n h l := by
  simp only [bitsOf_eq]
  congr 1
  have e : ∀ m, m / 2 ^ l = m / 2 ^ lo / 2 ^ (hi + 1 - lo) / 2 ^ (l - (hi + 1)) := by
    intro m
    rw [Nat.div_div_eq_div_mul, Nat.div_div_eq_div_mul, ← pow_add, ← pow_add]
    congr 2; omega
  rw [e, e n, withBits_shift]
  congr 1
  have hp : 0 < 2 ^ (hi + 1 - lo) := by positivity
  rw [Nat.mul_comm, Nat.mul_add_div hp, Nat.div_eq_of_lt (Nat.mod_lt _ hp), Nat.add_zero]

theorem withBits_lt (n hi lo v w : Nat) (hn : n < 2 ^ w) (hhi : hi < w) (hlo : lo ≤ hi + 1) :
    withBits n hi lo v < 2 ^ w := by
  have key : withBits n hi lo v / 2 ^ (hi + 1) = n / 2 ^ (hi + 1) := by
    have e : ∀ m, m / 2 ^ (hi + 1) = m / 2 ^ lo / 2 ^ (hi + 1 - lo) := by
      intro m
      rw [Nat.div_div_eq_div_mul, ← pow_add]
      congr 2; omega
    rw [e, e n, withBits_shift]
    have hp : 0 < 2 ^ (hi + 1 - lo) := by positivity
    rw [Nat.mul_comm, Nat.mul_add_div hp, Nat.div_eq_of_lt (Nat.mod_lt _ hp), Nat.add_zero]
  have hw : 2 ^ w = 2 ^ (hi + 1) * 2 ^ (w - (hi + 1)) := by rw [← pow_add]; congr 1; omega
  rw [hw] at hn ⊢
  rw [Nat.mul_comm] at hn ⊢
  rw [← Nat.div_lt_iff_lt_mul (by positivity)] at hn ⊢
  rw [key]; exact hn

/-! ### Registers -/

@[simp] theorem Dev.reg_setReg_same (d : Dev) (a : Nat) (w : Word) : (d.setReg a w).reg a = w :=
  Sparse.get_set_same _ _ _ _

theorem Dev.reg_setReg_ne (d : Dev) {a b : Nat} (w : Word) (h : b ≠ a) : (d.setReg a w).reg b = d.reg b :=
  Sparse.get_set_ne _ _ _ h

theorem Dev.reg_put_same (d : Dev) (f : Fl) (v : Nat) :
    (d.put f v).reg f.addr = BitVec.ofNat 32 (withBits (d.reg f.addr).toNat f.hi f.lo v) := by
  simp [Dev.put]

/-- A put leaves every other register alone. -/
theorem Dev.reg_put_ne (d : Dev) (f : Fl) (v : Nat) {a : Nat} (h : a ≠ f.addr) : (d.put f v).reg a = d.reg a :=
  Dev.reg_setReg_ne _ _ h

/-- Is the field within a 32-bit register? -/
def Fl.ok (f : Fl) : Bool := decide (f.lo ≤ f.hi) && decide (f.hi < 32)

theorem Dev.put_word (d : Dev) (f : Fl) (v : Nat) (hf : f.ok = true) :
    ((d.put f v).reg f.addr).toNat = withBits (d.reg f.addr).toNat f.hi f.lo v := by
  simp only [Fl.ok, Bool.and_eq_true, decide_eq_true_eq] at hf
  rw [Dev.reg_put_same, BitVec.toNat_ofNat, Nat.mod_eq_of_lt]
  exact withBits_lt _ _ _ _ _ (d.reg f.addr).isLt hf.2 (by omega)

/-- A field reads what was put into it, cut to its width. -/
theorem Dev.get_put_same (d : Dev) (f : Fl) (v : Nat) (hf : f.ok = true) :
    (d.put f v).get f = v % 2 ^ (f.hi + 1 - f.lo) := by
  rw [Dev.get, Dev.put_word d f v hf, bitsOf_withBits_same]

/-- Do two fields share no bit: of different registers, or of disjoint bits of one? -/
def Fl.apart (f g : Fl) : Bool := g.addr != f.addr || decide (g.hi < f.lo) || decide (f.hi < g.lo)

/-- A put leaves every field alone that shares no bit with the one written. -/
theorem Dev.get_put_apart (d : Dev) (f g : Fl) (v : Nat) (hf : f.ok = true) (h : f.apart g = true) :
    (d.put f v).get g = d.get g := by
  by_cases ha : g.addr = f.addr
  · have hw := Dev.put_word d f v hf
    simp only [Fl.ok, Bool.and_eq_true, decide_eq_true_eq] at hf
    simp only [Fl.apart, ha, bne_self_eq_false, Bool.false_or, Bool.or_eq_true, decide_eq_true_eq] at h
    simp only [Dev.get, ha, hw]
    obtain h | h := h
    · exact bitsOf_withBits_below _ _ _ _ h
    · exact bitsOf_withBits_above _ _ _ _ h (by omega)
  · simp only [Dev.get, Dev.reg_put_ne d f v ha]

/-- Registers that are dropped read as at reset; the others read as before. -/
theorem Dev.reg_drop (d : Dev) (p : Nat → Bool) (a : Nat) :
    Sparse.get regReset a (Sparse.drop p d.regs) = if p a then regReset a else d.reg a := Sparse.get_drop _ _ _ _

end Sys2Proof.Machine
end

