-- ==== Sys2Proof/Safety.lean ====
section
/-! DEFINITION. What counts as a safe run: every command has its effect, and none ends the run. With it the vocabulary
of the statements: the conditions under which a core instruction executes and under which a register write arrives. -/
namespace Sys2Proof.Machine

/-- The next step of the state is neither a fault nor a refusal. -/
def stepSafe (s : State) : Prop := ∃ t, step s = .next t

/-- Nothing has asked the core to reset or to stop. -/
abbrev Dev.calm (d : Dev) : Prop := d.coreResetReq = false ∧ d.coreStopReq = false

end Sys2Proof.Machine

namespace Sys2Proof.Claims
open Sys2Proof Sys2Proof.Machine

/-! ### Vocabulary: the core at a boundary -/

/-- The core stands before an instruction of class `k` that will execute: the core runs (R161, R192), no IMPRECISE_STORE
and no interrupt is taken at this boundary (R218, R219), the fetch at pc succeeds (R175), the place permits the class
(R178, R182), and nothing has asked the core to reset or to stop. -/
abbrev Ready (s : State) (k : Klass) : Prop :=
  s.running = true ∧ s.impreciseNow = none ∧ s.interruptNow = none ∧ s.fetch.2.isOk = true ∧
    s.core.placeFault k = none ∧ s.fetch.1.dev.calm

/-- The device as the fetch leaves it: a corrected or poisoned word leaves its record. -/
def fetched (s : State) : Dev := s.fetch.1.dev

/-- The state in which the core is `c` and the device `d`; the release follows the fills (R281). -/
def became (s : State) (c : Core) (d : Dev) : State :=
  { s with core := { c with released := d.filled[0] }, dev := d }

/-- The state controller has moved from `s` to `t` by a transition to `st` for `cause` (R22, R30): STATE, PREV, CAUSE and
RUNLOW, and the transition's event where its class is enabled; the non-volatile arrays, the keys and the ESN count stay. -/
abbrev moved (s t : State) (st cause : Nat) : Prop :=
  t.dev.opState = st ∧ t.dev.get F.SYS_PREV = s.dev.opState ∧ t.dev.get F.SYS_CAUSE = cause ∧
    t.dev.get F.SYS_RUNLOW = 0 ∧ t.pending = s.pending ∧ t.dev.flash = s.dev.flash ∧
    t.dev.cstArray = s.dev.cstArray ∧ t.dev.slots = s.dev.slots ∧ t.dev.evt.esn = s.dev.evt.esn ∧
    (bitAt (t.dev.get F.EVT_CFG_CLASS_EN) clsState = true →
      t.dev.evt.queue.getLast?.map (fun e => (e.src, e.code, e.cls, e.arg0)) =
        some (0, 1, clsState, t.dev.reg F.SYS_STATE.addr))

/-! ### Vocabulary: results of the computations (R172, R173) -/

/-- What an instruction that computes one register writes: the register, its value, its poison mark and the cycles it
takes, read off the tables of R172, R173 and R195. None for any other command. -/
def computes (c : Core) : Instr → Option (RegNo × Word × Bool × Nat)
  | .add d a b => some (d, c.rd a + c.rd b, c.psn a || c.psn b, 1)
  | .sub d a b => some (d, c.rd a - c.rd b, c.psn a || c.psn b, 1)
  | .and d a b => some (d, c.rd a &&& c.rd b, c.psn a || c.psn b, 1)
  | .or d a b => some (d, c.rd a ||| c.rd b, c.psn a || c.psn b, 1)
  | .xor d a b => some (d, c.rd a ^^^ c.rd b, c.psn a || c.psn b, 1)
  | .nor d a b => some (d, ~~~(c.rd a ||| c.rd b), c.psn a || c.psn b, 1)
  | .slt d a b => some (d, if (c.rd a).toInt < (c.rd b).toInt then 1 else 0, c.psn a || c.psn b, 1)
  | .sltu d a b => some (d, if (c.rd a).toNat < (c.rd b).toNat then 1 else 0, c.psn a || c.psn b, 1)
  | .sll d a b => some (d, c.rd a <<< (c.rd b).extractLsb' 0 5, c.psn a || c.psn b, 1)
  | .srl d a b => some (d, c.rd a >>> (c.rd b).extractLsb' 0 5, c.psn a || c.psn b, 1)
  | .sra d a b => some (d, (c.rd a).sshiftRight' ((c.rd b).extractLsb' 0 5), c.psn a || c.psn b, 1)
  | .slli d a k => some (d, c.rd a <<< k, c.psn a, 1)
  | .srli d a k => some (d, c.rd a >>> k, c.psn a, 1)
  | .srai d a k => some (d, (c.rd a).sshiftRight' k, c.psn a, 1)
  | .mul d a b => some (d, c.rd a * c.rd b, c.psn a || c.psn b, 1)
  | .mulh d a b =>
    some (d, ((c.rd a).signExtend 64 * (c.rd b).signExtend 64).extractLsb' 32 32, c.psn a || c.psn b, 1)
  | .mulhu d a b =>
    some (d, ((c.rd a).zeroExtend 64 * (c.rd b).zeroExtend 64).extractLsb' 32 32, c.psn a || c.psn b, 1)
  | .div d a b => some (d, if c.rd b = 0 then 0xFFFFFFFF else (c.rd a).sdiv (c.rd b), c.psn a || c.psn b, 34)
  | .divu d a b => some (d, if c.rd b = 0 then 0xFFFFFFFF else c.rd a / c.rd b, c.psn a || c.psn b, 34)
  | .rem d a b => some (d, if c.rd b = 0 then c.rd a else (c.rd a).srem (c.rd b), c.psn a || c.psn b, 34)
  | .remu d a b => some (d, if c.rd b = 0 then c.rd a else c.rd a % c.rd b, c.psn a || c.psn b, 34)
  | .clz d a => some (d, (c.rd a).clz, c.psn a, 1)
  | .addi d a i => some (d, c.rd a + i.signExtend 32, c.psn a, 1)
  | .andi d a i => some (d, c.rd a &&& i.zeroExtend 32, c.psn a, 1)
  | .ori d a i => some (d, c.rd a ||| i.zeroExtend 32, c.psn a, 1)
  | .xori d a i => some (d, c.rd a ^^^ i.zeroExtend 32, c.psn a, 1)
  | .lui d i => some (d, i ++ (0 : BitVec 16), false, 1)
  | .slti d a i => some (d, if (c.rd a).toInt < i.toInt then 1 else 0, c.psn a, 1)
  | .sltiu d a i => some (d, if (c.rd a).toNat < (i.signExtend 32).toNat then 1 else 0, c.psn a, 1)
  | _ => none

/-- The registers of `c` with `rd` and its mark written, and w0 as it was (R159, R160). -/
abbrev wrote (c t : Core) (rd : RegNo) (v : Word) (p : Bool) : Prop :=
  ∀ r : RegNo, t.rd r = (if r = rd ∧ r ≠ 0 then v else c.rd r) ∧ t.psn r = (if r = rd ∧ r ≠ 0 then p else c.psn r)

/-! ### Vocabulary: what holds of the core in every run -/

/-- The core's registers as their fields allow them: w0 is 0 and unmarked (R159, R160); pc, SYSENT and the loop registers
name words; the reserved bits of CST, SST, MODE and PROG are 0 and no saved or present level is 3 (R164, R165, R166,
R185); a delay slot follows its branch, its target names a word, and no MODE value waits beside it (R177, R178). -/
abbrev CoreLegal (c : Core) : Prop :=
  (c.regs[0] = 0 ∧ c.poison.getLsbD 0 = false) ∧
    (c.pc.toNat % 4 = 0 ∧ c.sysent.toNat % 4 = 0 ∧ ∀ n : Fin 2, c.ls[n].toNat % 4 = 0 ∧ c.le[n].toNat % 4 = 0) ∧
    (c.cst &&& 0xF7 = c.cst ∧ c.cst.toNat % 4 ≠ 3 ∧ c.sst &&& 0x000700F7 = c.sst ∧ c.sst.toNat % 4 ≠ 3 ∧
      c.mode.toNat < 8 ∧ c.prog &&& 0x0F000000 = 0) ∧
    (c.slot.all fun x => decide (c.pc = x.branch + 4 ∧ x.branch.toNat % 4 = 0 ∧ x.target.toNat % 4 = 0 ∧
      c.shadow = none)) = true ∧
    (c.shadow.all fun v => decide (v.toNat < 8)) = true

/-- Nothing has asked the core for anything that it has not followed, and it is released when its fill has ended (R281,
R392, R416). -/
abbrev Settled (s : State) : Prop := s.dev.calm ∧ s.core.released = s.dev.filled[0]

/-! ### Vocabulary: register writes -/

/-- No channel holds a descriptor that its ENABLE at 0 ends (R136). -/
abbrev noAbort (d : Dev) : Prop := ∀ c : Fin 8, (d.chans[c]).job.isSome → d.flag (chField c F.CH_CTRL_ENABLE) = true

/-- A word `v` that master `m` writes to the register at `a` reaches every field it is meant for: nothing has asked the
core to reset or stop, the master's reach, the decode, the domain and the firewall let the store pass (R224, R230,
R233), no rule of the register turns it away (R36, R87, R113, R228, R236, R323), it is no FIELD case (R235), and no
channel has a descriptor to end (R136). -/
abbrev Arrives (d : Dev) (m : Master) (a : Nat) (v : Nat) : Prop :=
  d.calm ∧ noAbort d ∧ d.reachCheck m .write a = (d, true) ∧ d.slaveCheck d.epoch m false .write a = (d, .ok) ∧
    d.writeGate m a = none ∧ d.fieldCase m a v = false

/-- The slot of a descriptor takes the words of its completion `k` (R124, R126), and they ask the core and the channels for
nothing. -/
abbrev SlotTakes (d : Dev) (m : Master) (j : DescJob) (k : Completion) : Prop :=
  let x := Dev.descWrite m (d.takeEsn.1.descAddr j.ring j.index) d.takeEsn.1 (k.words j.words d.takeEsn.2)
  x.2 = none ∧ x.1.calm ∧ noAbort x.1

/-! ### Vocabulary: the Cistern port and the contactless side -/

/-- The Cistern controller is idle: its journal has run, nothing of a command, a job or upkeep waits (R311, R324). -/
abbrev CstIdle (d : Dev) : Prop :=
  d.flag F.CST_STAT_BUSY = false ∧ d.cst.job = none ∧ d.cst.due = false ∧ d.cst.waiting = none ∧ d.cst.queue = [] ∧
    d.alarmTidy = []

/-- The access rules let Handpump's writes pass to the Cistern port, whoever holds it (R224, R230, R346). -/
abbrev PortOpen (d : Dev) : Prop :=
  ∀ (own : List (Nat × BitVec 5)) (hp : Hp),
    Dev.portReached { d with own := own, hp := hp } = ({ d with own := own, hp := hp }, true)

/-- A command APDU that is in work and that Handpump executes now: its tier is reached, and it has not begun (R335, R342). -/
abbrev ApduRuns (d : Dev) (a : Apdu) (ins : Nat) : Prop :=
  d.hp.apdu = some a ∧ a.ins = ins ∧ a.secure = false ∧ d.implemented a = true ∧ 2 ≤ d.tier ∧ d.alarming = false ∧
    d.hp.stage = 0 ∧ d.hp.tries = 0

/-- The command in work has ended and its response, data and status word, is ready: for a poll over ISO/IEC 15693 (R334),
else as the first block of the block protocol, the rest chained (R337). -/
abbrev Responds (s t : State) (bytes : Bytes) : Prop :=
  let h := s.dev.hp
  let room := h.fsd - (h.pcb 0).length - 2
  t.core = (became s s.core t.dev).core ∧ t.pending = s.pending ∧ t.dev.hp.apdu = none ∧
    (s.dev.proto = 3 → t.dev.hp.result = some (bytes, false)) ∧
    (s.dev.proto ≠ 3 → t.dev.hp.rest = bytes.drop room ∧
      t.dev.hp.out = some ⟨.block, h.pcb (2 + 16 * b2n (decide (room < bytes.length)) + b2n h.bn) ++ bytes.take room,
        true, false, decide (bytes.length ≤ room)⟩)

/-- The protocol in use has ended in `layer`: session, command, chaining and rate are gone (R340). -/
abbrev ProtocolEnded (s t : State) (layer : Nat) : Prop :=
  t.core = (became s s.core t.dev).core ∧ t.pending = s.pending ∧ t.dev.layer = layer ∧
    t.dev.get F.RFIF_STAT_SESSION = 0 ∧ t.dev.get F.RFIF_STAT_RATE = 0 ∧ t.dev.hp.session = none ∧ t.dev.hp.auth = none ∧
    t.dev.hp.apdu = none ∧ t.dev.hp.fw = none ∧ t.dev.hp.chain = [] ∧ t.dev.hp.rest = [] ∧ t.dev.hp.bn = true ∧
    t.dev.hp.n = 0 ∧ t.dev.hp.file = none ∧ t.dev.owner 0x40 ≠ 12 ∧ t.dev.ram = s.dev.ram ∧
    t.dev.cstArray = s.dev.cstArray ∧ t.dev.slots = s.dev.slots ∧ t.dev.evt = s.dev.evt

end Sys2Proof.Claims
end

