-- ==== Sys2Proof/Laws/State.lean ====
section
/-! SUPPORT. What each named update of the device changes: one lemma for each field, and the reads that go with it. -/
namespace Sys2Proof.Machine

/-! ### `Dev.setReg` -/

@[simp] theorem Dev.setReg_now (d : Dev) (a : Nat) (w : Word) : (d.setReg a w).now = d.now := rfl
@[simp] theorem Dev.setReg_freeCount (d : Dev) (a : Nat) (w : Word) : (d.setReg a w).freeCount = d.freeCount := rfl
@[simp] theorem Dev.setReg_env (d : Dev) (a : Nat) (w : Word) : (d.setReg a w).env = d.env := rfl
@[simp] theorem Dev.setReg_regs (d : Dev) (a : Nat) (w : Word) : (d.setReg a w).regs = Sparse.set regReset a w d.regs := rfl
@[simp] theorem Dev.setReg_ram (d : Dev) (a : Nat) (w : Word) : (d.setReg a w).ram = d.ram := rfl
@[simp] theorem Dev.setReg_chk (d : Dev) (a : Nat) (w : Word) : (d.setReg a w).chk = d.chk := rfl
@[simp] theorem Dev.setReg_flash (d : Dev) (a : Nat) (w : Word) : (d.setReg a w).flash = d.flash := rfl
@[simp] theorem Dev.setReg_cstArray (d : Dev) (a : Nat) (w : Word) : (d.setReg a w).cstArray = d.cstArray := rfl
@[simp] theorem Dev.setReg_torn (d : Dev) (a : Nat) (w : Word) : (d.setReg a w).torn = d.torn := rfl
@[simp] theorem Dev.setReg_codes (d : Dev) (a : Nat) (w : Word) : (d.setReg a w).codes = d.codes.written a := rfl
@[simp] theorem Dev.setReg_dom (d : Dev) (a : Nat) (w : Word) : (d.setReg a w).dom = d.dom := rfl
@[simp] theorem Dev.setReg_resetReq (d : Dev) (a : Nat) (w : Word) : (d.setReg a w).resetReq = d.resetReq := rfl
@[simp] theorem Dev.setReg_coreResetReq (d : Dev) (a : Nat) (w : Word) : (d.setReg a w).coreResetReq = d.coreResetReq := rfl
@[simp] theorem Dev.setReg_coreStopReq (d : Dev) (a : Nat) (w : Word) : (d.setReg a w).coreStopReq = d.coreStopReq := rfl
@[simp] theorem Dev.setReg_filled (d : Dev) (a : Nat) (w : Word) : (d.setReg a w).filled = d.filled := rfl
@[simp] theorem Dev.setReg_xtal (d : Dev) (a : Nat) (w : Word) : (d.setReg a w).xtal = d.xtal := rfl
@[simp] theorem Dev.setReg_pll (d : Dev) (a : Nat) (w : Word) : (d.setReg a w).pll = d.pll := rfl
@[simp] theorem Dev.setReg_ioClass (d : Dev) (a : Nat) (w : Word) : (d.setReg a w).ioClass = d.ioClass := rfl
@[simp] theorem Dev.setReg_own (d : Dev) (a : Nat) (w : Word) : (d.setReg a w).own = d.own := rfl
@[simp] theorem Dev.setReg_ownResult (d : Dev) (a : Nat) (w : Word) : (d.setReg a w).ownResult = d.ownResult := rfl
@[simp] theorem Dev.setReg_latches (d : Dev) (a : Nat) (w : Word) : (d.setReg a w).latches = d.latches := rfl
@[simp] theorem Dev.setReg_aonPend (d : Dev) (a : Nat) (w : Word) : (d.setReg a w).aonPend = d.aonPend := rfl
@[simp] theorem Dev.setReg_sbuf (d : Dev) (a : Nat) (w : Word) : (d.setReg a w).sbuf = d.sbuf := rfl
@[simp] theorem Dev.setReg_impStore (d : Dev) (a : Nat) (w : Word) : (d.setReg a w).impStore = d.impStore := rfl
@[simp] theorem Dev.setReg_irq (d : Dev) (a : Nat) (w : Word) : (d.setReg a w).irq = d.irq := rfl
@[simp] theorem Dev.setReg_prevFw (d : Dev) (a : Nat) (w : Word) : (d.setReg a w).prevFw = d.prevFw := rfl
@[simp] theorem Dev.setReg_linkA (d : Dev) (a : Nat) (w : Word) : (d.setReg a w).linkA = d.linkA := rfl
@[simp] theorem Dev.setReg_linkB (d : Dev) (a : Nat) (w : Word) : (d.setReg a w).linkB = d.linkB := rfl
@[simp] theorem Dev.setReg_laneV (d : Dev) (a : Nat) (w : Word) : (d.setReg a w).laneV = d.laneV := rfl
@[simp] theorem Dev.setReg_laneT (d : Dev) (a : Nat) (w : Word) : (d.setReg a w).laneT = d.laneT := rfl
@[simp] theorem Dev.setReg_egressA (d : Dev) (a : Nat) (w : Word) : (d.setReg a w).egressA = d.egressA := rfl
@[simp] theorem Dev.setReg_egressB (d : Dev) (a : Nat) (w : Word) : (d.setReg a w).egressB = d.egressB := rfl
@[simp] theorem Dev.setReg_integ (d : Dev) (a : Nat) (w : Word) : (d.setReg a w).integ = d.integ := rfl
@[simp] theorem Dev.setReg_evt (d : Dev) (a : Nat) (w : Word) : (d.setReg a w).evt = d.evt := rfl
@[simp] theorem Dev.setReg_rings (d : Dev) (a : Nat) (w : Word) : (d.setReg a w).rings = d.rings := rfl
@[simp] theorem Dev.setReg_chans (d : Dev) (a : Nat) (w : Word) : (d.setReg a w).chans = d.chans := rfl
@[simp] theorem Dev.setReg_chanLast (d : Dev) (a : Nat) (w : Word) : (d.setReg a w).chanLast = d.chanLast := rfl
@[simp] theorem Dev.setReg_staging (d : Dev) (a : Nat) (w : Word) : (d.setReg a w).staging = d.staging := rfl
@[simp] theorem Dev.setReg_holdUsed (d : Dev) (a : Nat) (w : Word) : (d.setReg a w).holdUsed = d.holdUsed := rfl
@[simp] theorem Dev.setReg_divertUsed (d : Dev) (a : Nat) (w : Word) : (d.setReg a w).divertUsed = d.divertUsed := rfl
@[simp] theorem Dev.setReg_reserve (d : Dev) (a : Nat) (w : Word) : (d.setReg a w).reserve = d.reserve := rfl
@[simp] theorem Dev.setReg_keyCmd (d : Dev) (a : Nat) (w : Word) : (d.setReg a w).keyCmd = d.keyCmd := rfl
@[simp] theorem Dev.setReg_tu (d : Dev) (a : Nat) (w : Word) : (d.setReg a w).tu = d.tu := rfl
@[simp] theorem Dev.setReg_slots (d : Dev) (a : Nat) (w : Word) : (d.setReg a w).slots = d.slots := rfl
@[simp] theorem Dev.setReg_ce (d : Dev) (a : Nat) (w : Word) : (d.setReg a w).ce = d.ce := rfl
@[simp] theorem Dev.setReg_cst (d : Dev) (a : Nat) (w : Word) : (d.setReg a w).cst = d.cst := rfl
@[simp] theorem Dev.setReg_hp (d : Dev) (a : Nat) (w : Word) : (d.setReg a w).hp = d.hp := rfl
@[simp] theorem Dev.setReg_well (d : Dev) (a : Nat) (w : Word) : (d.setReg a w).well = d.well := rfl
@[simp] theorem Dev.setReg_wellcap (d : Dev) (a : Nat) (w : Word) : (d.setReg a w).wellcap = d.wellcap := rfl
@[simp] theorem Dev.setReg_wdog (d : Dev) (a : Nat) (w : Word) : (d.setReg a w).wdog = d.wdog := rfl
@[simp] theorem Dev.setReg_woh (d : Dev) (a : Nat) (w : Word) : (d.setReg a w).woh = d.woh := rfl
@[simp] theorem Dev.setReg_boot (d : Dev) (a : Nat) (w : Word) : (d.setReg a w).boot = d.boot := rfl
@[simp] theorem Dev.setReg_flashJob (d : Dev) (a : Nat) (w : Word) : (d.setReg a w).flashJob = d.flashJob := rfl

/-! ### `Dev.put` -/

@[simp] theorem Dev.put_now (d : Dev) (f : Fl) (v : Nat) : (d.put f v).now = d.now := rfl
@[simp] theorem Dev.put_freeCount (d : Dev) (f : Fl) (v : Nat) : (d.put f v).freeCount = d.freeCount := rfl
@[simp] theorem Dev.put_env (d : Dev) (f : Fl) (v : Nat) : (d.put f v).env = d.env := rfl
@[simp] theorem Dev.put_ram (d : Dev) (f : Fl) (v : Nat) : (d.put f v).ram = d.ram := rfl
@[simp] theorem Dev.put_chk (d : Dev) (f : Fl) (v : Nat) : (d.put f v).chk = d.chk := rfl
@[simp] theorem Dev.put_flash (d : Dev) (f : Fl) (v : Nat) : (d.put f v).flash = d.flash := rfl
@[simp] theorem Dev.put_cstArray (d : Dev) (f : Fl) (v : Nat) : (d.put f v).cstArray = d.cstArray := rfl
@[simp] theorem Dev.put_torn (d : Dev) (f : Fl) (v : Nat) : (d.put f v).torn = d.torn := rfl
@[simp] theorem Dev.put_codes (d : Dev) (f : Fl) (v : Nat) : (d.put f v).codes = d.codes.written f.addr := rfl
@[simp] theorem Dev.put_dom (d : Dev) (f : Fl) (v : Nat) : (d.put f v).dom = d.dom := rfl
@[simp] theorem Dev.put_resetReq (d : Dev) (f : Fl) (v : Nat) : (d.put f v).resetReq = d.resetReq := rfl
@[simp] theorem Dev.put_coreResetReq (d : Dev) (f : Fl) (v : Nat) : (d.put f v).coreResetReq = d.coreResetReq := rfl
@[simp] theorem Dev.put_coreStopReq (d : Dev) (f : Fl) (v : Nat) : (d.put f v).coreStopReq = d.coreStopReq := rfl
@[simp] theorem Dev.put_filled (d : Dev) (f : Fl) (v : Nat) : (d.put f v).filled = d.filled := rfl
@[simp] theorem Dev.put_xtal (d : Dev) (f : Fl) (v : Nat) : (d.put f v).xtal = d.xtal := rfl
@[simp] theorem Dev.put_pll (d : Dev) (f : Fl) (v : Nat) : (d.put f v).pll = d.pll := rfl
@[simp] theorem Dev.put_ioClass (d : Dev) (f : Fl) (v : Nat) : (d.put f v).ioClass = d.ioClass := rfl
@[simp] theorem Dev.put_own (d : Dev) (f : Fl) (v : Nat) : (d.put f v).own = d.own := rfl
@[simp] theorem Dev.put_ownResult (d : Dev) (f : Fl) (v : Nat) : (d.put f v).ownResult = d.ownResult := rfl
@[simp] theorem Dev.put_latches (d : Dev) (f : Fl) (v : Nat) : (d.put f v).latches = d.latches := rfl
@[simp] theorem Dev.put_aonPend (d : Dev) (f : Fl) (v : Nat) : (d.put f v).aonPend = d.aonPend := rfl
@[simp] theorem Dev.put_sbuf (d : Dev) (f : Fl) (v : Nat) : (d.put f v).sbuf = d.sbuf := rfl
@[simp] theorem Dev.put_impStore (d : Dev) (f : Fl) (v : Nat) : (d.put f v).impStore = d.impStore := rfl
@[simp] theorem Dev.put_irq (d : Dev) (f : Fl) (v : Nat) : (d.put f v).irq = d.irq := rfl
@[simp] theorem Dev.put_prevFw (d : Dev) (f : Fl) (v : Nat) : (d.put f v).prevFw = d.prevFw := rfl
@[simp] theorem Dev.put_linkA (d : Dev) (f : Fl) (v : Nat) : (d.put f v).linkA = d.linkA := rfl
@[simp] theorem Dev.put_linkB (d : Dev) (f : Fl) (v : Nat) : (d.put f v).linkB = d.linkB := rfl
@[simp] theorem Dev.put_laneV (d : Dev) (f : Fl) (v : Nat) : (d.put f v).laneV = d.laneV := rfl
@[simp] theorem Dev.put_laneT (d : Dev) (f : Fl) (v : Nat) : (d.put f v).laneT = d.laneT := rfl
@[simp] theorem Dev.put_egressA (d : Dev) (f : Fl) (v : Nat) : (d.put f v).egressA = d.egressA := rfl
@[simp] theorem Dev.put_egressB (d : Dev) (f : Fl) (v : Nat) : (d.put f v).egressB = d.egressB := rfl
@[simp] theorem Dev.put_integ (d : Dev) (f : Fl) (v : Nat) : (d.put f v).integ = d.integ := rfl
@[simp] theorem Dev.put_evt (d : Dev) (f : Fl) (v : Nat) : (d.put f v).evt = d.evt := rfl
@[simp] theorem Dev.put_rings (d : Dev) (f : Fl) (v : Nat) : (d.put f v).rings = d.rings := rfl
@[simp] theorem Dev.put_chans (d : Dev) (f : Fl) (v : Nat) : (d.put f v).chans = d.chans := rfl
@[simp] theorem Dev.put_chanLast (d : Dev) (f : Fl) (v : Nat) : (d.put f v).chanLast = d.chanLast := rfl
@[simp] theorem Dev.put_staging (d : Dev) (f : Fl) (v : Nat) : (d.put f v).staging = d.staging := rfl
@[simp] theorem Dev.put_holdUsed (d : Dev) (f : Fl) (v : Nat) : (d.put f v).holdUsed = d.holdUsed := rfl
@[simp] theorem Dev.put_divertUsed (d : Dev) (f : Fl) (v : Nat) : (d.put f v).divertUsed = d.divertUsed := rfl
@[simp] theorem Dev.put_reserve (d : Dev) (f : Fl) (v : Nat) : (d.put f v).reserve = d.reserve := rfl
@[simp] theorem Dev.put_keyCmd (d : Dev) (f : Fl) (v : Nat) : (d.put f v).keyCmd = d.keyCmd := rfl
@[simp] theorem Dev.put_tu (d : Dev) (f : Fl) (v : Nat) : (d.put f v).tu = d.tu := rfl
@[simp] theorem Dev.put_slots (d : Dev) (f : Fl) (v : Nat) : (d.put f v).slots = d.slots := rfl
@[simp] theorem Dev.put_ce (d : Dev) (f : Fl) (v : Nat) : (d.put f v).ce = d.ce := rfl
@[simp] theorem Dev.put_cst (d : Dev) (f : Fl) (v : Nat) : (d.put f v).cst = d.cst := rfl
@[simp] theorem Dev.put_hp (d : Dev) (f : Fl) (v : Nat) : (d.put f v).hp = d.hp := rfl
@[simp] theorem Dev.put_well (d : Dev) (f : Fl) (v : Nat) : (d.put f v).well = d.well := rfl
@[simp] theorem Dev.put_wellcap (d : Dev) (f : Fl) (v : Nat) : (d.put f v).wellcap = d.wellcap := rfl
@[simp] theorem Dev.put_wdog (d : Dev) (f : Fl) (v : Nat) : (d.put f v).wdog = d.wdog := rfl
@[simp] theorem Dev.put_woh (d : Dev) (f : Fl) (v : Nat) : (d.put f v).woh = d.woh := rfl
@[simp] theorem Dev.put_boot (d : Dev) (f : Fl) (v : Nat) : (d.put f v).boot = d.boot := rfl
@[simp] theorem Dev.put_flashJob (d : Dev) (f : Fl) (v : Nat) : (d.put f v).flashJob = d.flashJob := rfl

/-! ### `Dev.trouble` -/

@[simp] theorem Dev.trouble_now (d : Dev) (k : Nat) : (d.trouble k).now = d.now := rfl
@[simp] theorem Dev.trouble_freeCount (d : Dev) (k : Nat) : (d.trouble k).freeCount = d.freeCount := rfl
@[simp] theorem Dev.trouble_env (d : Dev) (k : Nat) : (d.trouble k).env = d.env := rfl
@[simp] theorem Dev.trouble_ram (d : Dev) (k : Nat) : (d.trouble k).ram = d.ram := rfl
@[simp] theorem Dev.trouble_chk (d : Dev) (k : Nat) : (d.trouble k).chk = d.chk := rfl
@[simp] theorem Dev.trouble_flash (d : Dev) (k : Nat) : (d.trouble k).flash = d.flash := rfl
@[simp] theorem Dev.trouble_cstArray (d : Dev) (k : Nat) : (d.trouble k).cstArray = d.cstArray := rfl
@[simp] theorem Dev.trouble_torn (d : Dev) (k : Nat) : (d.trouble k).torn = d.torn := rfl
@[simp] theorem Dev.trouble_codes (d : Dev) (k : Nat) : (d.trouble k).codes = d.codes := rfl
@[simp] theorem Dev.trouble_dom (d : Dev) (k : Nat) : (d.trouble k).dom = d.dom := rfl
@[simp] theorem Dev.trouble_resetReq (d : Dev) (k : Nat) : (d.trouble k).resetReq = d.resetReq := rfl
@[simp] theorem Dev.trouble_coreResetReq (d : Dev) (k : Nat) : (d.trouble k).coreResetReq = d.coreResetReq := rfl
@[simp] theorem Dev.trouble_coreStopReq (d : Dev) (k : Nat) : (d.trouble k).coreStopReq = d.coreStopReq := rfl
@[simp] theorem Dev.trouble_filled (d : Dev) (k : Nat) : (d.trouble k).filled = d.filled := rfl
@[simp] theorem Dev.trouble_xtal (d : Dev) (k : Nat) : (d.trouble k).xtal = d.xtal := rfl
@[simp] theorem Dev.trouble_pll (d : Dev) (k : Nat) : (d.trouble k).pll = d.pll := rfl
@[simp] theorem Dev.trouble_ioClass (d : Dev) (k : Nat) : (d.trouble k).ioClass = d.ioClass := rfl
@[simp] theorem Dev.trouble_own (d : Dev) (k : Nat) : (d.trouble k).own = d.own := rfl
@[simp] theorem Dev.trouble_ownResult (d : Dev) (k : Nat) : (d.trouble k).ownResult = d.ownResult := rfl
@[simp] theorem Dev.trouble_latches (d : Dev) (k : Nat) : (d.trouble k).latches = d.latches := rfl
@[simp] theorem Dev.trouble_aonPend (d : Dev) (k : Nat) : (d.trouble k).aonPend = d.aonPend := rfl
@[simp] theorem Dev.trouble_sbuf (d : Dev) (k : Nat) : (d.trouble k).sbuf = d.sbuf := rfl
@[simp] theorem Dev.trouble_impStore (d : Dev) (k : Nat) : (d.trouble k).impStore = d.impStore := rfl
@[simp] theorem Dev.trouble_irq (d : Dev) (k : Nat) : (d.trouble k).irq = d.irq := rfl
@[simp] theorem Dev.trouble_prevFw (d : Dev) (k : Nat) : (d.trouble k).prevFw = d.prevFw := rfl
@[simp] theorem Dev.trouble_linkA (d : Dev) (k : Nat) : (d.trouble k).linkA = d.linkA := rfl
@[simp] theorem Dev.trouble_linkB (d : Dev) (k : Nat) : (d.trouble k).linkB = d.linkB := rfl
@[simp] theorem Dev.trouble_laneV (d : Dev) (k : Nat) : (d.trouble k).laneV = d.laneV := rfl
@[simp] theorem Dev.trouble_laneT (d : Dev) (k : Nat) : (d.trouble k).laneT = d.laneT := rfl
@[simp] theorem Dev.trouble_egressA (d : Dev) (k : Nat) : (d.trouble k).egressA = d.egressA := rfl
@[simp] theorem Dev.trouble_egressB (d : Dev) (k : Nat) : (d.trouble k).egressB = d.egressB := rfl
@[simp] theorem Dev.trouble_integ (d : Dev) (k : Nat) : (d.trouble k).integ = d.integ := rfl
@[simp] theorem Dev.trouble_evt (d : Dev) (k : Nat) : (d.trouble k).evt = d.evt := rfl
@[simp] theorem Dev.trouble_rings (d : Dev) (k : Nat) : (d.trouble k).rings = d.rings := rfl
@[simp] theorem Dev.trouble_chans (d : Dev) (k : Nat) : (d.trouble k).chans = d.chans := rfl
@[simp] theorem Dev.trouble_chanLast (d : Dev) (k : Nat) : (d.trouble k).chanLast = d.chanLast := rfl
@[simp] theorem Dev.trouble_staging (d : Dev) (k : Nat) : (d.trouble k).staging = d.staging := rfl
@[simp] theorem Dev.trouble_holdUsed (d : Dev) (k : Nat) : (d.trouble k).holdUsed = d.holdUsed := rfl
@[simp] theorem Dev.trouble_divertUsed (d : Dev) (k : Nat) : (d.trouble k).divertUsed = d.divertUsed := rfl
@[simp] theorem Dev.trouble_reserve (d : Dev) (k : Nat) : (d.trouble k).reserve = d.reserve := rfl
@[simp] theorem Dev.trouble_keyCmd (d : Dev) (k : Nat) : (d.trouble k).keyCmd = d.keyCmd := rfl
@[simp] theorem Dev.trouble_tu (d : Dev) (k : Nat) : (d.trouble k).tu = d.tu := rfl
@[simp] theorem Dev.trouble_slots (d : Dev) (k : Nat) : (d.trouble k).slots = d.slots := rfl
@[simp] theorem Dev.trouble_ce (d : Dev) (k : Nat) : (d.trouble k).ce = d.ce := rfl
@[simp] theorem Dev.trouble_cst (d : Dev) (k : Nat) : (d.trouble k).cst = d.cst := rfl
@[simp] theorem Dev.trouble_hp (d : Dev) (k : Nat) : (d.trouble k).hp = d.hp := rfl
@[simp] theorem Dev.trouble_well (d : Dev) (k : Nat) : (d.trouble k).well = d.well := rfl
@[simp] theorem Dev.trouble_wellcap (d : Dev) (k : Nat) : (d.trouble k).wellcap = d.wellcap := rfl
@[simp] theorem Dev.trouble_wdog (d : Dev) (k : Nat) : (d.trouble k).wdog = d.wdog := rfl
@[simp] theorem Dev.trouble_woh (d : Dev) (k : Nat) : (d.trouble k).woh = d.woh := rfl
@[simp] theorem Dev.trouble_boot (d : Dev) (k : Nat) : (d.trouble k).boot = d.boot := rfl
@[simp] theorem Dev.trouble_flashJob (d : Dev) (k : Nat) : (d.trouble k).flashJob = d.flashJob := rfl

/-! ### `Dev.setDom` -/

@[simp] theorem Dev.setDom_now (d : Dev) (x : Dom) (on : Bool) : (d.setDom x on).now = d.now := rfl
@[simp] theorem Dev.setDom_freeCount (d : Dev) (x : Dom) (on : Bool) : (d.setDom x on).freeCount = d.freeCount := rfl
@[simp] theorem Dev.setDom_env (d : Dev) (x : Dom) (on : Bool) : (d.setDom x on).env = d.env := rfl
@[simp] theorem Dev.setDom_regs (d : Dev) (x : Dom) (on : Bool) : (d.setDom x on).regs = d.regs := rfl
@[simp] theorem Dev.setDom_ram (d : Dev) (x : Dom) (on : Bool) : (d.setDom x on).ram = d.ram := rfl
@[simp] theorem Dev.setDom_chk (d : Dev) (x : Dom) (on : Bool) : (d.setDom x on).chk = d.chk := rfl
@[simp] theorem Dev.setDom_flash (d : Dev) (x : Dom) (on : Bool) : (d.setDom x on).flash = d.flash := rfl
@[simp] theorem Dev.setDom_cstArray (d : Dev) (x : Dom) (on : Bool) : (d.setDom x on).cstArray = d.cstArray := rfl
@[simp] theorem Dev.setDom_torn (d : Dev) (x : Dom) (on : Bool) : (d.setDom x on).torn = d.torn := rfl
@[simp] theorem Dev.setDom_codes (d : Dev) (x : Dom) (on : Bool) : (d.setDom x on).codes = d.codes := rfl
@[simp] theorem Dev.setDom_resetReq (d : Dev) (x : Dom) (on : Bool) : (d.setDom x on).resetReq = d.resetReq := rfl
@[simp] theorem Dev.setDom_coreResetReq (d : Dev) (x : Dom) (on : Bool) : (d.setDom x on).coreResetReq = d.coreResetReq := rfl
@[simp] theorem Dev.setDom_coreStopReq (d : Dev) (x : Dom) (on : Bool) : (d.setDom x on).coreStopReq = d.coreStopReq := rfl
@[simp] theorem Dev.setDom_filled (d : Dev) (x : Dom) (on : Bool) : (d.setDom x on).filled = d.filled := rfl
@[simp] theorem Dev.setDom_xtal (d : Dev) (x : Dom) (on : Bool) : (d.setDom x on).xtal = d.xtal := rfl
@[simp] theorem Dev.setDom_pll (d : Dev) (x : Dom) (on : Bool) : (d.setDom x on).pll = d.pll := rfl
@[simp] theorem Dev.setDom_ioClass (d : Dev) (x : Dom) (on : Bool) : (d.setDom x on).ioClass = d.ioClass := rfl
@[simp] theorem Dev.setDom_own (d : Dev) (x : Dom) (on : Bool) : (d.setDom x on).own = d.own := rfl
@[simp] theorem Dev.setDom_ownResult (d : Dev) (x : Dom) (on : Bool) : (d.setDom x on).ownResult = d.ownResult := rfl
@[simp] theorem Dev.setDom_latches (d : Dev) (x : Dom) (on : Bool) : (d.setDom x on).latches = d.latches := rfl
@[simp] theorem Dev.setDom_aonPend (d : Dev) (x : Dom) (on : Bool) : (d.setDom x on).aonPend = d.aonPend := rfl
@[simp] theorem Dev.setDom_sbuf (d : Dev) (x : Dom) (on : Bool) : (d.setDom x on).sbuf = d.sbuf := rfl
@[simp] theorem Dev.setDom_impStore (d : Dev) (x : Dom) (on : Bool) : (d.setDom x on).impStore = d.impStore := rfl
@[simp] theorem Dev.setDom_irq (d : Dev) (x : Dom) (on : Bool) : (d.setDom x on).irq = d.irq := rfl
@[simp] theorem Dev.setDom_prevFw (d : Dev) (x : Dom) (on : Bool) : (d.setDom x on).prevFw = d.prevFw := rfl
@[simp] theorem Dev.setDom_linkA (d : Dev) (x : Dom) (on : Bool) : (d.setDom x on).linkA = d.linkA := rfl
@[simp] theorem Dev.setDom_linkB (d : Dev) (x : Dom) (on : Bool) : (d.setDom x on).linkB = d.linkB := rfl
@[simp] theorem Dev.setDom_laneV (d : Dev) (x : Dom) (on : Bool) : (d.setDom x on).laneV = d.laneV := rfl
@[simp] theorem Dev.setDom_laneT (d : Dev) (x : Dom) (on : Bool) : (d.setDom x on).laneT = d.laneT := rfl
@[simp] theorem Dev.setDom_egressA (d : Dev) (x : Dom) (on : Bool) : (d.setDom x on).egressA = d.egressA := rfl
@[simp] theorem Dev.setDom_egressB (d : Dev) (x : Dom) (on : Bool) : (d.setDom x on).egressB = d.egressB := rfl
@[simp] theorem Dev.setDom_integ (d : Dev) (x : Dom) (on : Bool) : (d.setDom x on).integ = d.integ := rfl
@[simp] theorem Dev.setDom_evt (d : Dev) (x : Dom) (on : Bool) : (d.setDom x on).evt = d.evt := rfl
@[simp] theorem Dev.setDom_rings (d : Dev) (x : Dom) (on : Bool) : (d.setDom x on).rings = d.rings := rfl
@[simp] theorem Dev.setDom_chans (d : Dev) (x : Dom) (on : Bool) : (d.setDom x on).chans = d.chans := rfl
@[simp] theorem Dev.setDom_chanLast (d : Dev) (x : Dom) (on : Bool) : (d.setDom x on).chanLast = d.chanLast := rfl
@[simp] theorem Dev.setDom_staging (d : Dev) (x : Dom) (on : Bool) : (d.setDom x on).staging = d.staging := rfl
@[simp] theorem Dev.setDom_holdUsed (d : Dev) (x : Dom) (on : Bool) : (d.setDom x on).holdUsed = d.holdUsed := rfl
@[simp] theorem Dev.setDom_divertUsed (d : Dev) (x : Dom) (on : Bool) : (d.setDom x on).divertUsed = d.divertUsed := rfl
@[simp] theorem Dev.setDom_reserve (d : Dev) (x : Dom) (on : Bool) : (d.setDom x on).reserve = d.reserve := rfl
@[simp] theorem Dev.setDom_keyCmd (d : Dev) (x : Dom) (on : Bool) : (d.setDom x on).keyCmd = d.keyCmd := rfl
@[simp] theorem Dev.setDom_tu (d : Dev) (x : Dom) (on : Bool) : (d.setDom x on).tu = d.tu := rfl
@[simp] theorem Dev.setDom_slots (d : Dev) (x : Dom) (on : Bool) : (d.setDom x on).slots = d.slots := rfl
@[simp] theorem Dev.setDom_ce (d : Dev) (x : Dom) (on : Bool) : (d.setDom x on).ce = d.ce := rfl
@[simp] theorem Dev.setDom_cst (d : Dev) (x : Dom) (on : Bool) : (d.setDom x on).cst = d.cst := rfl
@[simp] theorem Dev.setDom_hp (d : Dev) (x : Dom) (on : Bool) : (d.setDom x on).hp = d.hp := rfl
@[simp] theorem Dev.setDom_well (d : Dev) (x : Dom) (on : Bool) : (d.setDom x on).well = d.well := rfl
@[simp] theorem Dev.setDom_wellcap (d : Dev) (x : Dom) (on : Bool) : (d.setDom x on).wellcap = d.wellcap := rfl
@[simp] theorem Dev.setDom_wdog (d : Dev) (x : Dom) (on : Bool) : (d.setDom x on).wdog = d.wdog := rfl
@[simp] theorem Dev.setDom_woh (d : Dev) (x : Dom) (on : Bool) : (d.setDom x on).woh = d.woh := rfl
@[simp] theorem Dev.setDom_boot (d : Dev) (x : Dom) (on : Bool) : (d.setDom x on).boot = d.boot := rfl
@[simp] theorem Dev.setDom_flashJob (d : Dev) (x : Dom) (on : Bool) : (d.setDom x on).flashJob = d.flashJob := rfl

/-! ### `Dev.dropRegs` -/

@[simp] theorem Dev.dropRegs_now (d : Dev) (p : Nat → Bool) : (d.dropRegs p).now = d.now := rfl
@[simp] theorem Dev.dropRegs_freeCount (d : Dev) (p : Nat → Bool) : (d.dropRegs p).freeCount = d.freeCount := rfl
@[simp] theorem Dev.dropRegs_env (d : Dev) (p : Nat → Bool) : (d.dropRegs p).env = d.env := rfl
@[simp] theorem Dev.dropRegs_regs (d : Dev) (p : Nat → Bool) : (d.dropRegs p).regs = Sparse.drop p d.regs := rfl
@[simp] theorem Dev.dropRegs_ram (d : Dev) (p : Nat → Bool) : (d.dropRegs p).ram = d.ram := rfl
@[simp] theorem Dev.dropRegs_chk (d : Dev) (p : Nat → Bool) : (d.dropRegs p).chk = d.chk := rfl
@[simp] theorem Dev.dropRegs_flash (d : Dev) (p : Nat → Bool) : (d.dropRegs p).flash = d.flash := rfl
@[simp] theorem Dev.dropRegs_cstArray (d : Dev) (p : Nat → Bool) : (d.dropRegs p).cstArray = d.cstArray := rfl
@[simp] theorem Dev.dropRegs_torn (d : Dev) (p : Nat → Bool) : (d.dropRegs p).torn = d.torn := rfl
@[simp] theorem Dev.dropRegs_codes (d : Dev) (p : Nat → Bool) : (d.dropRegs p).codes = d.codes := rfl
@[simp] theorem Dev.dropRegs_dom (d : Dev) (p : Nat → Bool) : (d.dropRegs p).dom = d.dom := rfl
@[simp] theorem Dev.dropRegs_resetReq (d : Dev) (p : Nat → Bool) : (d.dropRegs p).resetReq = d.resetReq := rfl
@[simp] theorem Dev.dropRegs_coreResetReq (d : Dev) (p : Nat → Bool) : (d.dropRegs p).coreResetReq = d.coreResetReq := rfl
@[simp] theorem Dev.dropRegs_coreStopReq (d : Dev) (p : Nat → Bool) : (d.dropRegs p).coreStopReq = d.coreStopReq := rfl
@[simp] theorem Dev.dropRegs_filled (d : Dev) (p : Nat → Bool) : (d.dropRegs p).filled = d.filled := rfl
@[simp] theorem Dev.dropRegs_xtal (d : Dev) (p : Nat → Bool) : (d.dropRegs p).xtal = d.xtal := rfl
@[simp] theorem Dev.dropRegs_pll (d : Dev) (p : Nat → Bool) : (d.dropRegs p).pll = d.pll := rfl
@[simp] theorem Dev.dropRegs_ioClass (d : Dev) (p : Nat → Bool) : (d.dropRegs p).ioClass = d.ioClass := rfl
@[simp] theorem Dev.dropRegs_own (d : Dev) (p : Nat → Bool) : (d.dropRegs p).own = d.own := rfl
@[simp] theorem Dev.dropRegs_ownResult (d : Dev) (p : Nat → Bool) : (d.dropRegs p).ownResult = d.ownResult := rfl
@[simp] theorem Dev.dropRegs_latches (d : Dev) (p : Nat → Bool) : (d.dropRegs p).latches = d.latches := rfl
@[simp] theorem Dev.dropRegs_aonPend (d : Dev) (p : Nat → Bool) : (d.dropRegs p).aonPend = d.aonPend := rfl
@[simp] theorem Dev.dropRegs_sbuf (d : Dev) (p : Nat → Bool) : (d.dropRegs p).sbuf = d.sbuf := rfl
@[simp] theorem Dev.dropRegs_impStore (d : Dev) (p : Nat → Bool) : (d.dropRegs p).impStore = d.impStore := rfl
@[simp] theorem Dev.dropRegs_irq (d : Dev) (p : Nat → Bool) : (d.dropRegs p).irq = d.irq := rfl
@[simp] theorem Dev.dropRegs_prevFw (d : Dev) (p : Nat → Bool) : (d.dropRegs p).prevFw = d.prevFw := rfl
@[simp] theorem Dev.dropRegs_linkA (d : Dev) (p : Nat → Bool) : (d.dropRegs p).linkA = d.linkA := rfl
@[simp] theorem Dev.dropRegs_linkB (d : Dev) (p : Nat → Bool) : (d.dropRegs p).linkB = d.linkB := rfl
@[simp] theorem Dev.dropRegs_laneV (d : Dev) (p : Nat → Bool) : (d.dropRegs p).laneV = d.laneV := rfl
@[simp] theorem Dev.dropRegs_laneT (d : Dev) (p : Nat → Bool) : (d.dropRegs p).laneT = d.laneT := rfl
@[simp] theorem Dev.dropRegs_egressA (d : Dev) (p : Nat → Bool) : (d.dropRegs p).egressA = d.egressA := rfl
@[simp] theorem Dev.dropRegs_egressB (d : Dev) (p : Nat → Bool) : (d.dropRegs p).egressB = d.egressB := rfl
@[simp] theorem Dev.dropRegs_integ (d : Dev) (p : Nat → Bool) : (d.dropRegs p).integ = d.integ := rfl
@[simp] theorem Dev.dropRegs_evt (d : Dev) (p : Nat → Bool) : (d.dropRegs p).evt = d.evt := rfl
@[simp] theorem Dev.dropRegs_rings (d : Dev) (p : Nat → Bool) : (d.dropRegs p).rings = d.rings := rfl
@[simp] theorem Dev.dropRegs_chans (d : Dev) (p : Nat → Bool) : (d.dropRegs p).chans = d.chans := rfl
@[simp] theorem Dev.dropRegs_chanLast (d : Dev) (p : Nat → Bool) : (d.dropRegs p).chanLast = d.chanLast := rfl
@[simp] theorem Dev.dropRegs_staging (d : Dev) (p : Nat → Bool) : (d.dropRegs p).staging = d.staging := rfl
@[simp] theorem Dev.dropRegs_holdUsed (d : Dev) (p : Nat → Bool) : (d.dropRegs p).holdUsed = d.holdUsed := rfl
@[simp] theorem Dev.dropRegs_divertUsed (d : Dev) (p : Nat → Bool) : (d.dropRegs p).divertUsed = d.divertUsed := rfl
@[simp] theorem Dev.dropRegs_reserve (d : Dev) (p : Nat → Bool) : (d.dropRegs p).reserve = d.reserve := rfl
@[simp] theorem Dev.dropRegs_keyCmd (d : Dev) (p : Nat → Bool) : (d.dropRegs p).keyCmd = d.keyCmd := rfl
@[simp] theorem Dev.dropRegs_tu (d : Dev) (p : Nat → Bool) : (d.dropRegs p).tu = d.tu := rfl
@[simp] theorem Dev.dropRegs_slots (d : Dev) (p : Nat → Bool) : (d.dropRegs p).slots = d.slots := rfl
@[simp] theorem Dev.dropRegs_ce (d : Dev) (p : Nat → Bool) : (d.dropRegs p).ce = d.ce := rfl
@[simp] theorem Dev.dropRegs_cst (d : Dev) (p : Nat → Bool) : (d.dropRegs p).cst = d.cst := rfl
@[simp] theorem Dev.dropRegs_hp (d : Dev) (p : Nat → Bool) : (d.dropRegs p).hp = d.hp := rfl
@[simp] theorem Dev.dropRegs_well (d : Dev) (p : Nat → Bool) : (d.dropRegs p).well = d.well := rfl
@[simp] theorem Dev.dropRegs_wellcap (d : Dev) (p : Nat → Bool) : (d.dropRegs p).wellcap = d.wellcap := rfl
@[simp] theorem Dev.dropRegs_wdog (d : Dev) (p : Nat → Bool) : (d.dropRegs p).wdog = d.wdog := rfl
@[simp] theorem Dev.dropRegs_woh (d : Dev) (p : Nat → Bool) : (d.dropRegs p).woh = d.woh := rfl
@[simp] theorem Dev.dropRegs_boot (d : Dev) (p : Nat → Bool) : (d.dropRegs p).boot = d.boot := rfl
@[simp] theorem Dev.dropRegs_flashJob (d : Dev) (p : Nat → Bool) : (d.dropRegs p).flashJob = d.flashJob := rfl

/-! ### `Dev.setOwner` -/

@[simp] theorem Dev.setOwner_now (d : Dev) (i : Nat) (o : BitVec 5) : (d.setOwner i o).now = d.now := rfl
@[simp] theorem Dev.setOwner_freeCount (d : Dev) (i : Nat) (o : BitVec 5) : (d.setOwner i o).freeCount = d.freeCount := rfl
@[simp] theorem Dev.setOwner_env (d : Dev) (i : Nat) (o : BitVec 5) : (d.setOwner i o).env = d.env := rfl
@[simp] theorem Dev.setOwner_regs (d : Dev) (i : Nat) (o : BitVec 5) : (d.setOwner i o).regs = d.regs := rfl
@[simp] theorem Dev.setOwner_ram (d : Dev) (i : Nat) (o : BitVec 5) : (d.setOwner i o).ram = d.ram := rfl
@[simp] theorem Dev.setOwner_chk (d : Dev) (i : Nat) (o : BitVec 5) : (d.setOwner i o).chk = d.chk := rfl
@[simp] theorem Dev.setOwner_flash (d : Dev) (i : Nat) (o : BitVec 5) : (d.setOwner i o).flash = d.flash := rfl
@[simp] theorem Dev.setOwner_cstArray (d : Dev) (i : Nat) (o : BitVec 5) : (d.setOwner i o).cstArray = d.cstArray := rfl
@[simp] theorem Dev.setOwner_torn (d : Dev) (i : Nat) (o : BitVec 5) : (d.setOwner i o).torn = d.torn := rfl
@[simp] theorem Dev.setOwner_codes (d : Dev) (i : Nat) (o : BitVec 5) : (d.setOwner i o).codes = d.codes := rfl
@[simp] theorem Dev.setOwner_dom (d : Dev) (i : Nat) (o : BitVec 5) : (d.setOwner i o).dom = d.dom := rfl
@[simp] theorem Dev.setOwner_resetReq (d : Dev) (i : Nat) (o : BitVec 5) : (d.setOwner i o).resetReq = d.resetReq := rfl
@[simp] theorem Dev.setOwner_coreResetReq (d : Dev) (i : Nat) (o : BitVec 5) : (d.setOwner i o).coreResetReq = d.coreResetReq := rfl
@[simp] theorem Dev.setOwner_coreStopReq (d : Dev) (i : Nat) (o : BitVec 5) : (d.setOwner i o).coreStopReq = d.coreStopReq := rfl
@[simp] theorem Dev.setOwner_filled (d : Dev) (i : Nat) (o : BitVec 5) : (d.setOwner i o).filled = d.filled := rfl
@[simp] theorem Dev.setOwner_xtal (d : Dev) (i : Nat) (o : BitVec 5) : (d.setOwner i o).xtal = d.xtal := rfl
@[simp] theorem Dev.setOwner_pll (d : Dev) (i : Nat) (o : BitVec 5) : (d.setOwner i o).pll = d.pll := rfl
@[simp] theorem Dev.setOwner_ioClass (d : Dev) (i : Nat) (o : BitVec 5) : (d.setOwner i o).ioClass = d.ioClass := rfl
@[simp] theorem Dev.setOwner_own (d : Dev) (i : Nat) (o : BitVec 5) : (d.setOwner i o).own = Sparse.set ownReset i o d.own := rfl
@[simp] theorem Dev.setOwner_ownResult (d : Dev) (i : Nat) (o : BitVec 5) : (d.setOwner i o).ownResult = d.ownResult := rfl
@[simp] theorem Dev.setOwner_latches (d : Dev) (i : Nat) (o : BitVec 5) : (d.setOwner i o).latches = d.latches := rfl
@[simp] theorem Dev.setOwner_aonPend (d : Dev) (i : Nat) (o : BitVec 5) : (d.setOwner i o).aonPend = d.aonPend := rfl
@[simp] theorem Dev.setOwner_sbuf (d : Dev) (i : Nat) (o : BitVec 5) : (d.setOwner i o).sbuf = d.sbuf := rfl
@[simp] theorem Dev.setOwner_impStore (d : Dev) (i : Nat) (o : BitVec 5) : (d.setOwner i o).impStore = d.impStore := rfl
@[simp] theorem Dev.setOwner_irq (d : Dev) (i : Nat) (o : BitVec 5) : (d.setOwner i o).irq = d.irq := rfl
@[simp] theorem Dev.setOwner_prevFw (d : Dev) (i : Nat) (o : BitVec 5) : (d.setOwner i o).prevFw = d.prevFw := rfl
@[simp] theorem Dev.setOwner_linkA (d : Dev) (i : Nat) (o : BitVec 5) : (d.setOwner i o).linkA = d.linkA := rfl
@[simp] theorem Dev.setOwner_linkB (d : Dev) (i : Nat) (o : BitVec 5) : (d.setOwner i o).linkB = d.linkB := rfl
@[simp] theorem Dev.setOwner_laneV (d : Dev) (i : Nat) (o : BitVec 5) : (d.setOwner i o).laneV = d.laneV := rfl
@[simp] theorem Dev.setOwner_laneT (d : Dev) (i : Nat) (o : BitVec 5) : (d.setOwner i o).laneT = d.laneT := rfl
@[simp] theorem Dev.setOwner_egressA (d : Dev) (i : Nat) (o : BitVec 5) : (d.setOwner i o).egressA = d.egressA := rfl
@[simp] theorem Dev.setOwner_egressB (d : Dev) (i : Nat) (o : BitVec 5) : (d.setOwner i o).egressB = d.egressB := rfl
@[simp] theorem Dev.setOwner_integ (d : Dev) (i : Nat) (o : BitVec 5) : (d.setOwner i o).integ = d.integ := rfl
@[simp] theorem Dev.setOwner_evt (d : Dev) (i : Nat) (o : BitVec 5) : (d.setOwner i o).evt = d.evt := rfl
@[simp] theorem Dev.setOwner_rings (d : Dev) (i : Nat) (o : BitVec 5) : (d.setOwner i o).rings = d.rings := rfl
@[simp] theorem Dev.setOwner_chans (d : Dev) (i : Nat) (o : BitVec 5) : (d.setOwner i o).chans = d.chans := rfl
@[simp] theorem Dev.setOwner_chanLast (d : Dev) (i : Nat) (o : BitVec 5) : (d.setOwner i o).chanLast = d.chanLast := rfl
@[simp] theorem Dev.setOwner_staging (d : Dev) (i : Nat) (o : BitVec 5) : (d.setOwner i o).staging = d.staging := rfl
@[simp] theorem Dev.setOwner_holdUsed (d : Dev) (i : Nat) (o : BitVec 5) : (d.setOwner i o).holdUsed = d.holdUsed := rfl
@[simp] theorem Dev.setOwner_divertUsed (d : Dev) (i : Nat) (o : BitVec 5) : (d.setOwner i o).divertUsed = d.divertUsed := rfl
@[simp] theorem Dev.setOwner_reserve (d : Dev) (i : Nat) (o : BitVec 5) : (d.setOwner i o).reserve = d.reserve := rfl
@[simp] theorem Dev.setOwner_keyCmd (d : Dev) (i : Nat) (o : BitVec 5) : (d.setOwner i o).keyCmd = d.keyCmd := rfl
@[simp] theorem Dev.setOwner_tu (d : Dev) (i : Nat) (o : BitVec 5) : (d.setOwner i o).tu = d.tu := rfl
@[simp] theorem Dev.setOwner_slots (d : Dev) (i : Nat) (o : BitVec 5) : (d.setOwner i o).slots = d.slots := rfl
@[simp] theorem Dev.setOwner_ce (d : Dev) (i : Nat) (o : BitVec 5) : (d.setOwner i o).ce = d.ce := rfl
@[simp] theorem Dev.setOwner_cst (d : Dev) (i : Nat) (o : BitVec 5) : (d.setOwner i o).cst = d.cst := rfl
@[simp] theorem Dev.setOwner_hp (d : Dev) (i : Nat) (o : BitVec 5) : (d.setOwner i o).hp = d.hp := rfl
@[simp] theorem Dev.setOwner_well (d : Dev) (i : Nat) (o : BitVec 5) : (d.setOwner i o).well = d.well := rfl
@[simp] theorem Dev.setOwner_wellcap (d : Dev) (i : Nat) (o : BitVec 5) : (d.setOwner i o).wellcap = d.wellcap := rfl
@[simp] theorem Dev.setOwner_wdog (d : Dev) (i : Nat) (o : BitVec 5) : (d.setOwner i o).wdog = d.wdog := rfl
@[simp] theorem Dev.setOwner_woh (d : Dev) (i : Nat) (o : BitVec 5) : (d.setOwner i o).woh = d.woh := rfl
@[simp] theorem Dev.setOwner_boot (d : Dev) (i : Nat) (o : BitVec 5) : (d.setOwner i o).boot = d.boot := rfl
@[simp] theorem Dev.setOwner_flashJob (d : Dev) (i : Nat) (o : BitVec 5) : (d.setOwner i o).flashJob = d.flashJob := rfl

/-! ### `Dev.draw` -/

@[simp] theorem Dev.draw_now (d : Dev) (k : Nat) : (d.draw k).now = d.now := rfl
@[simp] theorem Dev.draw_freeCount (d : Dev) (k : Nat) : (d.draw k).freeCount = d.freeCount + k := rfl
@[simp] theorem Dev.draw_env (d : Dev) (k : Nat) : (d.draw k).env = d.env := rfl
@[simp] theorem Dev.draw_regs (d : Dev) (k : Nat) : (d.draw k).regs = d.regs := rfl
@[simp] theorem Dev.draw_ram (d : Dev) (k : Nat) : (d.draw k).ram = d.ram := rfl
@[simp] theorem Dev.draw_chk (d : Dev) (k : Nat) : (d.draw k).chk = d.chk := rfl
@[simp] theorem Dev.draw_flash (d : Dev) (k : Nat) : (d.draw k).flash = d.flash := rfl
@[simp] theorem Dev.draw_cstArray (d : Dev) (k : Nat) : (d.draw k).cstArray = d.cstArray := rfl
@[simp] theorem Dev.draw_torn (d : Dev) (k : Nat) : (d.draw k).torn = d.torn := rfl
@[simp] theorem Dev.draw_codes (d : Dev) (k : Nat) : (d.draw k).codes = d.codes := rfl
@[simp] theorem Dev.draw_dom (d : Dev) (k : Nat) : (d.draw k).dom = d.dom := rfl
@[simp] theorem Dev.draw_resetReq (d : Dev) (k : Nat) : (d.draw k).resetReq = d.resetReq := rfl
@[simp] theorem Dev.draw_coreResetReq (d : Dev) (k : Nat) : (d.draw k).coreResetReq = d.coreResetReq := rfl
@[simp] theorem Dev.draw_coreStopReq (d : Dev) (k : Nat) : (d.draw k).coreStopReq = d.coreStopReq := rfl
@[simp] theorem Dev.draw_filled (d : Dev) (k : Nat) : (d.draw k).filled = d.filled := rfl
@[simp] theorem Dev.draw_xtal (d : Dev) (k : Nat) : (d.draw k).xtal = d.xtal := rfl
@[simp] theorem Dev.draw_pll (d : Dev) (k : Nat) : (d.draw k).pll = d.pll := rfl
@[simp] theorem Dev.draw_ioClass (d : Dev) (k : Nat) : (d.draw k).ioClass = d.ioClass := rfl
@[simp] theorem Dev.draw_own (d : Dev) (k : Nat) : (d.draw k).own = d.own := rfl
@[simp] theorem Dev.draw_ownResult (d : Dev) (k : Nat) : (d.draw k).ownResult = d.ownResult := rfl
@[simp] theorem Dev.draw_latches (d : Dev) (k : Nat) : (d.draw k).latches = d.latches := rfl
@[simp] theorem Dev.draw_aonPend (d : Dev) (k : Nat) : (d.draw k).aonPend = d.aonPend := rfl
@[simp] theorem Dev.draw_sbuf (d : Dev) (k : Nat) : (d.draw k).sbuf = d.sbuf := rfl
@[simp] theorem Dev.draw_impStore (d : Dev) (k : Nat) : (d.draw k).impStore = d.impStore := rfl
@[simp] theorem Dev.draw_irq (d : Dev) (k : Nat) : (d.draw k).irq = d.irq := rfl
@[simp] theorem Dev.draw_prevFw (d : Dev) (k : Nat) : (d.draw k).prevFw = d.prevFw := rfl
@[simp] theorem Dev.draw_linkA (d : Dev) (k : Nat) : (d.draw k).linkA = d.linkA := rfl
@[simp] theorem Dev.draw_linkB (d : Dev) (k : Nat) : (d.draw k).linkB = d.linkB := rfl
@[simp] theorem Dev.draw_laneV (d : Dev) (k : Nat) : (d.draw k).laneV = d.laneV := rfl
@[simp] theorem Dev.draw_laneT (d : Dev) (k : Nat) : (d.draw k).laneT = d.laneT := rfl
@[simp] theorem Dev.draw_egressA (d : Dev) (k : Nat) : (d.draw k).egressA = d.egressA := rfl
@[simp] theorem Dev.draw_egressB (d : Dev) (k : Nat) : (d.draw k).egressB = d.egressB := rfl
@[simp] theorem Dev.draw_integ (d : Dev) (k : Nat) : (d.draw k).integ = d.integ := rfl
@[simp] theorem Dev.draw_evt (d : Dev) (k : Nat) : (d.draw k).evt = d.evt := rfl
@[simp] theorem Dev.draw_rings (d : Dev) (k : Nat) : (d.draw k).rings = d.rings := rfl
@[simp] theorem Dev.draw_chans (d : Dev) (k : Nat) : (d.draw k).chans = d.chans := rfl
@[simp] theorem Dev.draw_chanLast (d : Dev) (k : Nat) : (d.draw k).chanLast = d.chanLast := rfl
@[simp] theorem Dev.draw_staging (d : Dev) (k : Nat) : (d.draw k).staging = d.staging := rfl
@[simp] theorem Dev.draw_holdUsed (d : Dev) (k : Nat) : (d.draw k).holdUsed = d.holdUsed := rfl
@[simp] theorem Dev.draw_divertUsed (d : Dev) (k : Nat) : (d.draw k).divertUsed = d.divertUsed := rfl
@[simp] theorem Dev.draw_reserve (d : Dev) (k : Nat) : (d.draw k).reserve = d.reserve := rfl
@[simp] theorem Dev.draw_keyCmd (d : Dev) (k : Nat) : (d.draw k).keyCmd = d.keyCmd := rfl
@[simp] theorem Dev.draw_tu (d : Dev) (k : Nat) : (d.draw k).tu = d.tu := rfl
@[simp] theorem Dev.draw_slots (d : Dev) (k : Nat) : (d.draw k).slots = d.slots := rfl
@[simp] theorem Dev.draw_ce (d : Dev) (k : Nat) : (d.draw k).ce = d.ce := rfl
@[simp] theorem Dev.draw_cst (d : Dev) (k : Nat) : (d.draw k).cst = d.cst := rfl
@[simp] theorem Dev.draw_hp (d : Dev) (k : Nat) : (d.draw k).hp = d.hp := rfl
@[simp] theorem Dev.draw_well (d : Dev) (k : Nat) : (d.draw k).well = d.well := rfl
@[simp] theorem Dev.draw_wellcap (d : Dev) (k : Nat) : (d.draw k).wellcap = d.wellcap := rfl
@[simp] theorem Dev.draw_wdog (d : Dev) (k : Nat) : (d.draw k).wdog = d.wdog := rfl
@[simp] theorem Dev.draw_woh (d : Dev) (k : Nat) : (d.draw k).woh = d.woh := rfl
@[simp] theorem Dev.draw_boot (d : Dev) (k : Nat) : (d.draw k).boot = d.boot := rfl
@[simp] theorem Dev.draw_flashJob (d : Dev) (k : Nat) : (d.draw k).flashJob = d.flashJob := rfl

/-! ### `Dev.setHp` -/

@[simp] theorem Dev.setHp_now (d : Dev) (h : Hp) : (d.setHp h).now = d.now := rfl
@[simp] theorem Dev.setHp_freeCount (d : Dev) (h : Hp) : (d.setHp h).freeCount = d.freeCount := rfl
@[simp] theorem Dev.setHp_env (d : Dev) (h : Hp) : (d.setHp h).env = d.env := rfl
@[simp] theorem Dev.setHp_regs (d : Dev) (h : Hp) : (d.setHp h).regs = d.regs := rfl
@[simp] theorem Dev.setHp_ram (d : Dev) (h : Hp) : (d.setHp h).ram = d.ram := rfl
@[simp] theorem Dev.setHp_chk (d : Dev) (h : Hp) : (d.setHp h).chk = d.chk := rfl
@[simp] theorem Dev.setHp_flash (d : Dev) (h : Hp) : (d.setHp h).flash = d.flash := rfl
@[simp] theorem Dev.setHp_cstArray (d : Dev) (h : Hp) : (d.setHp h).cstArray = d.cstArray := rfl
@[simp] theorem Dev.setHp_torn (d : Dev) (h : Hp) : (d.setHp h).torn = d.torn := rfl
@[simp] theorem Dev.setHp_codes (d : Dev) (h : Hp) : (d.setHp h).codes = d.codes := rfl
@[simp] theorem Dev.setHp_dom (d : Dev) (h : Hp) : (d.setHp h).dom = d.dom := rfl
@[simp] theorem Dev.setHp_resetReq (d : Dev) (h : Hp) : (d.setHp h).resetReq = d.resetReq := rfl
@[simp] theorem Dev.setHp_coreResetReq (d : Dev) (h : Hp) : (d.setHp h).coreResetReq = d.coreResetReq := rfl
@[simp] theorem Dev.setHp_coreStopReq (d : Dev) (h : Hp) : (d.setHp h).coreStopReq = d.coreStopReq := rfl
@[simp] theorem Dev.setHp_filled (d : Dev) (h : Hp) : (d.setHp h).filled = d.filled := rfl
@[simp] theorem Dev.setHp_xtal (d : Dev) (h : Hp) : (d.setHp h).xtal = d.xtal := rfl
@[simp] theorem Dev.setHp_pll (d : Dev) (h : Hp) : (d.setHp h).pll = d.pll := rfl
@[simp] theorem Dev.setHp_ioClass (d : Dev) (h : Hp) : (d.setHp h).ioClass = d.ioClass := rfl
@[simp] theorem Dev.setHp_own (d : Dev) (h : Hp) : (d.setHp h).own = d.own := rfl
@[simp] theorem Dev.setHp_ownResult (d : Dev) (h : Hp) : (d.setHp h).ownResult = d.ownResult := rfl
@[simp] theorem Dev.setHp_latches (d : Dev) (h : Hp) : (d.setHp h).latches = d.latches := rfl
@[simp] theorem Dev.setHp_aonPend (d : Dev) (h : Hp) : (d.setHp h).aonPend = d.aonPend := rfl
@[simp] theorem Dev.setHp_sbuf (d : Dev) (h : Hp) : (d.setHp h).sbuf = d.sbuf := rfl
@[simp] theorem Dev.setHp_impStore (d : Dev) (h : Hp) : (d.setHp h).impStore = d.impStore := rfl
@[simp] theorem Dev.setHp_irq (d : Dev) (h : Hp) : (d.setHp h).irq = d.irq := rfl
@[simp] theorem Dev.setHp_prevFw (d : Dev) (h : Hp) : (d.setHp h).prevFw = d.prevFw := rfl
@[simp] theorem Dev.setHp_linkA (d : Dev) (h : Hp) : (d.setHp h).linkA = d.linkA := rfl
@[simp] theorem Dev.setHp_linkB (d : Dev) (h : Hp) : (d.setHp h).linkB = d.linkB := rfl
@[simp] theorem Dev.setHp_laneV (d : Dev) (h : Hp) : (d.setHp h).laneV = d.laneV := rfl
@[simp] theorem Dev.setHp_laneT (d : Dev) (h : Hp) : (d.setHp h).laneT = d.laneT := rfl
@[simp] theorem Dev.setHp_egressA (d : Dev) (h : Hp) : (d.setHp h).egressA = d.egressA := rfl
@[simp] theorem Dev.setHp_egressB (d : Dev) (h : Hp) : (d.setHp h).egressB = d.egressB := rfl
@[simp] theorem Dev.setHp_integ (d : Dev) (h : Hp) : (d.setHp h).integ = d.integ := rfl
@[simp] theorem Dev.setHp_evt (d : Dev) (h : Hp) : (d.setHp h).evt = d.evt := rfl
@[simp] theorem Dev.setHp_rings (d : Dev) (h : Hp) : (d.setHp h).rings = d.rings := rfl
@[simp] theorem Dev.setHp_chans (d : Dev) (h : Hp) : (d.setHp h).chans = d.chans := rfl
@[simp] theorem Dev.setHp_chanLast (d : Dev) (h : Hp) : (d.setHp h).chanLast = d.chanLast := rfl
@[simp] theorem Dev.setHp_staging (d : Dev) (h : Hp) : (d.setHp h).staging = d.staging := rfl
@[simp] theorem Dev.setHp_holdUsed (d : Dev) (h : Hp) : (d.setHp h).holdUsed = d.holdUsed := rfl
@[simp] theorem Dev.setHp_divertUsed (d : Dev) (h : Hp) : (d.setHp h).divertUsed = d.divertUsed := rfl
@[simp] theorem Dev.setHp_reserve (d : Dev) (h : Hp) : (d.setHp h).reserve = d.reserve := rfl
@[simp] theorem Dev.setHp_keyCmd (d : Dev) (h : Hp) : (d.setHp h).keyCmd = d.keyCmd := rfl
@[simp] theorem Dev.setHp_tu (d : Dev) (h : Hp) : (d.setHp h).tu = d.tu := rfl
@[simp] theorem Dev.setHp_slots (d : Dev) (h : Hp) : (d.setHp h).slots = d.slots := rfl
@[simp] theorem Dev.setHp_ce (d : Dev) (h : Hp) : (d.setHp h).ce = d.ce := rfl
@[simp] theorem Dev.setHp_cst (d : Dev) (h : Hp) : (d.setHp h).cst = d.cst := rfl
@[simp] theorem Dev.setHp_hp (d : Dev) (h : Hp) : (d.setHp h).hp = h := rfl
@[simp] theorem Dev.setHp_well (d : Dev) (h : Hp) : (d.setHp h).well = d.well := rfl
@[simp] theorem Dev.setHp_wellcap (d : Dev) (h : Hp) : (d.setHp h).wellcap = d.wellcap := rfl
@[simp] theorem Dev.setHp_wdog (d : Dev) (h : Hp) : (d.setHp h).wdog = d.wdog := rfl
@[simp] theorem Dev.setHp_woh (d : Dev) (h : Hp) : (d.setHp h).woh = d.woh := rfl
@[simp] theorem Dev.setHp_boot (d : Dev) (h : Hp) : (d.setHp h).boot = d.boot := rfl
@[simp] theorem Dev.setHp_flashJob (d : Dev) (h : Hp) : (d.setHp h).flashJob = d.flashJob := rfl

/-! ### `Dev.latchIrq` -/

@[simp] theorem Dev.latchIrq_now (d : Dev) (k : Nat) : (d.latchIrq k).now = d.now := rfl
@[simp] theorem Dev.latchIrq_freeCount (d : Dev) (k : Nat) : (d.latchIrq k).freeCount = d.freeCount := rfl
@[simp] theorem Dev.latchIrq_env (d : Dev) (k : Nat) : (d.latchIrq k).env = d.env := rfl
@[simp] theorem Dev.latchIrq_regs (d : Dev) (k : Nat) : (d.latchIrq k).regs = d.regs := rfl
@[simp] theorem Dev.latchIrq_ram (d : Dev) (k : Nat) : (d.latchIrq k).ram = d.ram := rfl
@[simp] theorem Dev.latchIrq_chk (d : Dev) (k : Nat) : (d.latchIrq k).chk = d.chk := rfl
@[simp] theorem Dev.latchIrq_flash (d : Dev) (k : Nat) : (d.latchIrq k).flash = d.flash := rfl
@[simp] theorem Dev.latchIrq_cstArray (d : Dev) (k : Nat) : (d.latchIrq k).cstArray = d.cstArray := rfl
@[simp] theorem Dev.latchIrq_torn (d : Dev) (k : Nat) : (d.latchIrq k).torn = d.torn := rfl
@[simp] theorem Dev.latchIrq_codes (d : Dev) (k : Nat) : (d.latchIrq k).codes = d.codes := rfl
@[simp] theorem Dev.latchIrq_dom (d : Dev) (k : Nat) : (d.latchIrq k).dom = d.dom := rfl
@[simp] theorem Dev.latchIrq_resetReq (d : Dev) (k : Nat) : (d.latchIrq k).resetReq = d.resetReq := rfl
@[simp] theorem Dev.latchIrq_coreResetReq (d : Dev) (k : Nat) : (d.latchIrq k).coreResetReq = d.coreResetReq := rfl
@[simp] theorem Dev.latchIrq_coreStopReq (d : Dev) (k : Nat) : (d.latchIrq k).coreStopReq = d.coreStopReq := rfl
@[simp] theorem Dev.latchIrq_filled (d : Dev) (k : Nat) : (d.latchIrq k).filled = d.filled := rfl
@[simp] theorem Dev.latchIrq_xtal (d : Dev) (k : Nat) : (d.latchIrq k).xtal = d.xtal := rfl
@[simp] theorem Dev.latchIrq_pll (d : Dev) (k : Nat) : (d.latchIrq k).pll = d.pll := rfl
@[simp] theorem Dev.latchIrq_ioClass (d : Dev) (k : Nat) : (d.latchIrq k).ioClass = d.ioClass := rfl
@[simp] theorem Dev.latchIrq_own (d : Dev) (k : Nat) : (d.latchIrq k).own = d.own := rfl
@[simp] theorem Dev.latchIrq_ownResult (d : Dev) (k : Nat) : (d.latchIrq k).ownResult = d.ownResult := rfl
@[simp] theorem Dev.latchIrq_latches (d : Dev) (k : Nat) : (d.latchIrq k).latches = d.latches := rfl
@[simp] theorem Dev.latchIrq_aonPend (d : Dev) (k : Nat) : (d.latchIrq k).aonPend = d.aonPend := rfl
@[simp] theorem Dev.latchIrq_sbuf (d : Dev) (k : Nat) : (d.latchIrq k).sbuf = d.sbuf := rfl
@[simp] theorem Dev.latchIrq_impStore (d : Dev) (k : Nat) : (d.latchIrq k).impStore = d.impStore := rfl
@[simp] theorem Dev.latchIrq_irq (d : Dev) (k : Nat) : (d.latchIrq k).irq = d.irq ||| BitVec.ofNat 192 (2 ^ k) := rfl
@[simp] theorem Dev.latchIrq_prevFw (d : Dev) (k : Nat) : (d.latchIrq k).prevFw = d.prevFw := rfl
@[simp] theorem Dev.latchIrq_linkA (d : Dev) (k : Nat) : (d.latchIrq k).linkA = d.linkA := rfl
@[simp] theorem Dev.latchIrq_linkB (d : Dev) (k : Nat) : (d.latchIrq k).linkB = d.linkB := rfl
@[simp] theorem Dev.latchIrq_laneV (d : Dev) (k : Nat) : (d.latchIrq k).laneV = d.laneV := rfl
@[simp] theorem Dev.latchIrq_laneT (d : Dev) (k : Nat) : (d.latchIrq k).laneT = d.laneT := rfl
@[simp] theorem Dev.latchIrq_egressA (d : Dev) (k : Nat) : (d.latchIrq k).egressA = d.egressA := rfl
@[simp] theorem Dev.latchIrq_egressB (d : Dev) (k : Nat) : (d.latchIrq k).egressB = d.egressB := rfl
@[simp] theorem Dev.latchIrq_integ (d : Dev) (k : Nat) : (d.latchIrq k).integ = d.integ := rfl
@[simp] theorem Dev.latchIrq_evt (d : Dev) (k : Nat) : (d.latchIrq k).evt = d.evt := rfl
@[simp] theorem Dev.latchIrq_rings (d : Dev) (k : Nat) : (d.latchIrq k).rings = d.rings := rfl
@[simp] theorem Dev.latchIrq_chans (d : Dev) (k : Nat) : (d.latchIrq k).chans = d.chans := rfl
@[simp] theorem Dev.latchIrq_chanLast (d : Dev) (k : Nat) : (d.latchIrq k).chanLast = d.chanLast := rfl
@[simp] theorem Dev.latchIrq_staging (d : Dev) (k : Nat) : (d.latchIrq k).staging = d.staging := rfl
@[simp] theorem Dev.latchIrq_holdUsed (d : Dev) (k : Nat) : (d.latchIrq k).holdUsed = d.holdUsed := rfl
@[simp] theorem Dev.latchIrq_divertUsed (d : Dev) (k : Nat) : (d.latchIrq k).divertUsed = d.divertUsed := rfl
@[simp] theorem Dev.latchIrq_reserve (d : Dev) (k : Nat) : (d.latchIrq k).reserve = d.reserve := rfl
@[simp] theorem Dev.latchIrq_keyCmd (d : Dev) (k : Nat) : (d.latchIrq k).keyCmd = d.keyCmd := rfl
@[simp] theorem Dev.latchIrq_tu (d : Dev) (k : Nat) : (d.latchIrq k).tu = d.tu := rfl
@[simp] theorem Dev.latchIrq_slots (d : Dev) (k : Nat) : (d.latchIrq k).slots = d.slots := rfl
@[simp] theorem Dev.latchIrq_ce (d : Dev) (k : Nat) : (d.latchIrq k).ce = d.ce := rfl
@[simp] theorem Dev.latchIrq_cst (d : Dev) (k : Nat) : (d.latchIrq k).cst = d.cst := rfl
@[simp] theorem Dev.latchIrq_hp (d : Dev) (k : Nat) : (d.latchIrq k).hp = d.hp := rfl
@[simp] theorem Dev.latchIrq_well (d : Dev) (k : Nat) : (d.latchIrq k).well = d.well := rfl
@[simp] theorem Dev.latchIrq_wellcap (d : Dev) (k : Nat) : (d.latchIrq k).wellcap = d.wellcap := rfl
@[simp] theorem Dev.latchIrq_wdog (d : Dev) (k : Nat) : (d.latchIrq k).wdog = d.wdog := rfl
@[simp] theorem Dev.latchIrq_woh (d : Dev) (k : Nat) : (d.latchIrq k).woh = d.woh := rfl
@[simp] theorem Dev.latchIrq_boot (d : Dev) (k : Nat) : (d.latchIrq k).boot = d.boot := rfl
@[simp] theorem Dev.latchIrq_flashJob (d : Dev) (k : Nat) : (d.latchIrq k).flashJob = d.flashJob := rfl

/-! ### `Dev.event` -/

@[simp] theorem Dev.event_now (d : Dev) (src code cls : Nat) (x y : Word) : (d.event src code cls x y).now = d.now := by unfold Dev.event; split <;> rfl
@[simp] theorem Dev.event_freeCount (d : Dev) (src code cls : Nat) (x y : Word) : (d.event src code cls x y).freeCount = d.freeCount := by unfold Dev.event; split <;> rfl
@[simp] theorem Dev.event_env (d : Dev) (src code cls : Nat) (x y : Word) : (d.event src code cls x y).env = d.env := by unfold Dev.event; split <;> rfl
@[simp] theorem Dev.event_regs (d : Dev) (src code cls : Nat) (x y : Word) : (d.event src code cls x y).regs = d.regs := by unfold Dev.event; split <;> rfl
@[simp] theorem Dev.event_ram (d : Dev) (src code cls : Nat) (x y : Word) : (d.event src code cls x y).ram = d.ram := by unfold Dev.event; split <;> rfl
@[simp] theorem Dev.event_chk (d : Dev) (src code cls : Nat) (x y : Word) : (d.event src code cls x y).chk = d.chk := by unfold Dev.event; split <;> rfl
@[simp] theorem Dev.event_flash (d : Dev) (src code cls : Nat) (x y : Word) : (d.event src code cls x y).flash = d.flash := by unfold Dev.event; split <;> rfl
@[simp] theorem Dev.event_cstArray (d : Dev) (src code cls : Nat) (x y : Word) : (d.event src code cls x y).cstArray = d.cstArray := by unfold Dev.event; split <;> rfl
@[simp] theorem Dev.event_torn (d : Dev) (src code cls : Nat) (x y : Word) : (d.event src code cls x y).torn = d.torn := by unfold Dev.event; split <;> rfl
@[simp] theorem Dev.event_codes (d : Dev) (src code cls : Nat) (x y : Word) : (d.event src code cls x y).codes = d.codes := by unfold Dev.event; split <;> rfl
@[simp] theorem Dev.event_dom (d : Dev) (src code cls : Nat) (x y : Word) : (d.event src code cls x y).dom = d.dom := by unfold Dev.event; split <;> rfl
@[simp] theorem Dev.event_resetReq (d : Dev) (src code cls : Nat) (x y : Word) : (d.event src code cls x y).resetReq = d.resetReq := by unfold Dev.event; split <;> rfl
@[simp] theorem Dev.event_coreResetReq (d : Dev) (src code cls : Nat) (x y : Word) : (d.event src code cls x y).coreResetReq = d.coreResetReq := by unfold Dev.event; split <;> rfl
@[simp] theorem Dev.event_coreStopReq (d : Dev) (src code cls : Nat) (x y : Word) : (d.event src code cls x y).coreStopReq = d.coreStopReq := by unfold Dev.event; split <;> rfl
@[simp] theorem Dev.event_filled (d : Dev) (src code cls : Nat) (x y : Word) : (d.event src code cls x y).filled = d.filled := by unfold Dev.event; split <;> rfl
@[simp] theorem Dev.event_xtal (d : Dev) (src code cls : Nat) (x y : Word) : (d.event src code cls x y).xtal = d.xtal := by unfold Dev.event; split <;> rfl
@[simp] theorem Dev.event_pll (d : Dev) (src code cls : Nat) (x y : Word) : (d.event src code cls x y).pll = d.pll := by unfold Dev.event; split <;> rfl
@[simp] theorem Dev.event_ioClass (d : Dev) (src code cls : Nat) (x y : Word) : (d.event src code cls x y).ioClass = d.ioClass := by unfold Dev.event; split <;> rfl
@[simp] theorem Dev.event_own (d : Dev) (src code cls : Nat) (x y : Word) : (d.event src code cls x y).own = d.own := by unfold Dev.event; split <;> rfl
@[simp] theorem Dev.event_ownResult (d : Dev) (src code cls : Nat) (x y : Word) : (d.event src code cls x y).ownResult = d.ownResult := by unfold Dev.event; split <;> rfl
@[simp] theorem Dev.event_latches (d : Dev) (src code cls : Nat) (x y : Word) : (d.event src code cls x y).latches = d.latches := by unfold Dev.event; split <;> rfl
@[simp] theorem Dev.event_aonPend (d : Dev) (src code cls : Nat) (x y : Word) : (d.event src code cls x y).aonPend = d.aonPend := by unfold Dev.event; split <;> rfl
@[simp] theorem Dev.event_sbuf (d : Dev) (src code cls : Nat) (x y : Word) : (d.event src code cls x y).sbuf = d.sbuf := by unfold Dev.event; split <;> rfl
@[simp] theorem Dev.event_impStore (d : Dev) (src code cls : Nat) (x y : Word) : (d.event src code cls x y).impStore = d.impStore := by unfold Dev.event; split <;> rfl
@[simp] theorem Dev.event_irq (d : Dev) (src code cls : Nat) (x y : Word) : (d.event src code cls x y).irq = d.irq := by unfold Dev.event; split <;> rfl
@[simp] theorem Dev.event_prevFw (d : Dev) (src code cls : Nat) (x y : Word) : (d.event src code cls x y).prevFw = d.prevFw := by unfold Dev.event; split <;> rfl
@[simp] theorem Dev.event_linkA (d : Dev) (src code cls : Nat) (x y : Word) : (d.event src code cls x y).linkA = d.linkA := by unfold Dev.event; split <;> rfl
@[simp] theorem Dev.event_linkB (d : Dev) (src code cls : Nat) (x y : Word) : (d.event src code cls x y).linkB = d.linkB := by unfold Dev.event; split <;> rfl
@[simp] theorem Dev.event_laneV (d : Dev) (src code cls : Nat) (x y : Word) : (d.event src code cls x y).laneV = d.laneV := by unfold Dev.event; split <;> rfl
@[simp] theorem Dev.event_laneT (d : Dev) (src code cls : Nat) (x y : Word) : (d.event src code cls x y).laneT = d.laneT := by unfold Dev.event; split <;> rfl
@[simp] theorem Dev.event_egressA (d : Dev) (src code cls : Nat) (x y : Word) : (d.event src code cls x y).egressA = d.egressA := by unfold Dev.event; split <;> rfl
@[simp] theorem Dev.event_egressB (d : Dev) (src code cls : Nat) (x y : Word) : (d.event src code cls x y).egressB = d.egressB := by unfold Dev.event; split <;> rfl
@[simp] theorem Dev.event_integ (d : Dev) (src code cls : Nat) (x y : Word) : (d.event src code cls x y).integ = d.integ := by unfold Dev.event; split <;> rfl
@[simp] theorem Dev.event_rings (d : Dev) (src code cls : Nat) (x y : Word) : (d.event src code cls x y).rings = d.rings := by unfold Dev.event; split <;> rfl
@[simp] theorem Dev.event_chans (d : Dev) (src code cls : Nat) (x y : Word) : (d.event src code cls x y).chans = d.chans := by unfold Dev.event; split <;> rfl
@[simp] theorem Dev.event_chanLast (d : Dev) (src code cls : Nat) (x y : Word) : (d.event src code cls x y).chanLast = d.chanLast := by unfold Dev.event; split <;> rfl
@[simp] theorem Dev.event_staging (d : Dev) (src code cls : Nat) (x y : Word) : (d.event src code cls x y).staging = d.staging := by unfold Dev.event; split <;> rfl
@[simp] theorem Dev.event_holdUsed (d : Dev) (src code cls : Nat) (x y : Word) : (d.event src code cls x y).holdUsed = d.holdUsed := by unfold Dev.event; split <;> rfl
@[simp] theorem Dev.event_divertUsed (d : Dev) (src code cls : Nat) (x y : Word) : (d.event src code cls x y).divertUsed = d.divertUsed := by unfold Dev.event; split <;> rfl
@[simp] theorem Dev.event_reserve (d : Dev) (src code cls : Nat) (x y : Word) : (d.event src code cls x y).reserve = d.reserve := by unfold Dev.event; split <;> rfl
@[simp] theorem Dev.event_keyCmd (d : Dev) (src code cls : Nat) (x y : Word) : (d.event src code cls x y).keyCmd = d.keyCmd := by unfold Dev.event; split <;> rfl
@[simp] theorem Dev.event_tu (d : Dev) (src code cls : Nat) (x y : Word) : (d.event src code cls x y).tu = d.tu := by unfold Dev.event; split <;> rfl
@[simp] theorem Dev.event_slots (d : Dev) (src code cls : Nat) (x y : Word) : (d.event src code cls x y).slots = d.slots := by unfold Dev.event; split <;> rfl
@[simp] theorem Dev.event_ce (d : Dev) (src code cls : Nat) (x y : Word) : (d.event src code cls x y).ce = d.ce := by unfold Dev.event; split <;> rfl
@[simp] theorem Dev.event_cst (d : Dev) (src code cls : Nat) (x y : Word) : (d.event src code cls x y).cst = d.cst := by unfold Dev.event; split <;> rfl
@[simp] theorem Dev.event_hp (d : Dev) (src code cls : Nat) (x y : Word) : (d.event src code cls x y).hp = d.hp := by unfold Dev.event; split <;> rfl
@[simp] theorem Dev.event_well (d : Dev) (src code cls : Nat) (x y : Word) : (d.event src code cls x y).well = d.well := by unfold Dev.event; split <;> rfl
@[simp] theorem Dev.event_wellcap (d : Dev) (src code cls : Nat) (x y : Word) : (d.event src code cls x y).wellcap = d.wellcap := by unfold Dev.event; split <;> rfl
@[simp] theorem Dev.event_wdog (d : Dev) (src code cls : Nat) (x y : Word) : (d.event src code cls x y).wdog = d.wdog := by unfold Dev.event; split <;> rfl
@[simp] theorem Dev.event_woh (d : Dev) (src code cls : Nat) (x y : Word) : (d.event src code cls x y).woh = d.woh := by unfold Dev.event; split <;> rfl
@[simp] theorem Dev.event_boot (d : Dev) (src code cls : Nat) (x y : Word) : (d.event src code cls x y).boot = d.boot := by unfold Dev.event; split <;> rfl
@[simp] theorem Dev.event_flashJob (d : Dev) (src code cls : Nat) (x y : Word) : (d.event src code cls x y).flashJob = d.flashJob := by unfold Dev.event; split <;> rfl

/-! ### Reads over these updates -/

@[simp] theorem Dev.reg_event (d : Dev) (src code cls : Nat) (x y : Word) (a : Nat) :
    (d.event src code cls x y).reg a = d.reg a := by simp [Dev.reg]
@[simp] theorem Dev.get_event (d : Dev) (src code cls : Nat) (x y : Word) (f : Fl) :
    (d.event src code cls x y).get f = d.get f := by simp [Dev.get]
@[simp] theorem Dev.reg_latchIrq (d : Dev) (k a : Nat) : (d.latchIrq k).reg a = d.reg a := rfl
@[simp] theorem Dev.get_latchIrq (d : Dev) (k : Nat) (f : Fl) : (d.latchIrq k).get f = d.get f := rfl
@[simp] theorem Dev.reg_setDom (d : Dev) (x : Dom) (on : Bool) (a : Nat) : (d.setDom x on).reg a = d.reg a := rfl
@[simp] theorem Dev.get_setDom (d : Dev) (x : Dom) (on : Bool) (f : Fl) : (d.setDom x on).get f = d.get f := rfl
@[simp] theorem Dev.get_setOwner (d : Dev) (i : Nat) (o : BitVec 5) (f : Fl) : (d.setOwner i o).get f = d.get f := rfl
@[simp] theorem Dev.get_draw (d : Dev) (k : Nat) (f : Fl) : (d.draw k).get f = d.get f := rfl
@[simp] theorem Dev.get_setHp (d : Dev) (h : Hp) (f : Fl) : (d.setHp h).get f = d.get f := rfl
theorem Dev.reg_dropRegs (d : Dev) (p : Nat → Bool) (a : Nat) :
    (d.dropRegs p).reg a = if p a then regReset a else d.reg a := Dev.reg_drop d p a

/-- The owner just written. -/
@[simp] theorem Dev.owner_setOwner_same (d : Dev) (i : Nat) (o : BitVec 5) : (d.setOwner i o).owner i = o :=
  Sparse.get_set_same _ _ _ _

/-- Another owner. -/
theorem Dev.owner_setOwner_ne (d : Dev) {i j : Nat} (o : BitVec 5) (h : j ≠ i) : (d.setOwner i o).owner j = d.owner j :=
  Sparse.get_set_ne _ _ _ h

/-- A trouble bit leaves every register but EVT_TRBL alone. -/
theorem Dev.reg_trouble_ne (d : Dev) (k : Nat) {a : Nat} (h : a ≠ F.EVT_TRBL_TRBL.addr) :
    (d.trouble k).reg a = d.reg a := Dev.reg_put_ne d _ _ h

/-! ### What a command leaves of the core -/

/-- With nothing asked of it, the core only follows its release. -/
theorem State.settle_of_calm (s : State) (h : s.dev.calm) :
    s.settle = { s with core := { s.core with released := s.dev.filled[0] } } := by
  simp [State.settle, State.resetIfAsked, State.stopIfAsked, h.1, h.2]

/-- After a command that acts on the device alone, with nothing asked of the core. -/
theorem State.onDev_of_calm (s : State) (f : Dev → Dev) (h : (f s.dev).calm) :
    s.onDev f = .next { s with core := { s.core with released := (f s.dev).filled[0] }, dev := f s.dev } := by
  unfold State.onDev
  rw [State.settle_of_calm { s with dev := f s.dev } h]

end Sys2Proof.Machine
end

