-- ==== Sys2Proof/Laws/CoreStep.lean ====
section
/-! SUPPORT. One lemma for each shared operation of the core: the fetch, the boundary, a register write, retirement. -/
namespace Sys2Proof.Machine
open Sys2Proof.Claims

/-- The fetch changes the device alone: its records. -/
theorem State.fetch_fst (s : State) : s.fetch.1 = { s with dev := fetched s } := by
  unfold fetched State.fetch
  dsimp only
  repeat' split
  all_goals rfl

/-- An instruction that executes and whose body completes leaves what the body left, and the core's release. -/
theorem State.coreStep_ok {s t : State} {k : Klass} {body : State → Done} (h : Ready s k)
    (hb : body { s with dev := fetched s } = .ok t) (ht : t.dev.calm) :
    s.coreStep k body = { t with core := { t.core with released := t.dev.filled[0] } } := by
  obtain ⟨h1, h2, h3, h4, h5, -⟩ := h
  obtain ⟨w, h4⟩ : ∃ w, s.fetch.2 = .ok w := by
    cases hx : s.fetch.2 with
    | ok w => exact ⟨w, rfl⟩
    | error x => rw [hx] at h4; exact absurd h4 Bool.false_ne_true
  have h6 : s.fetch = ({ s with dev := fetched s }, .ok w) := Prod.ext (State.fetch_fst s) h4
  rw [← State.settle_of_calm t ht]
  simp [State.coreStep, State.boundaryStep, h1, h2, h3, h6, h5, hb]

/-- An instruction that executes and whose body raises an exception takes it. -/
theorem State.coreStep_exc {s t : State} {k : Klass} {body : State → Done} {x : Exc} (h : Ready s k)
    (hb : body { s with dev := fetched s } = .exc t x) : s.coreStep k body = (t.raise x).settle := by
  obtain ⟨h1, h2, h3, h4, h5, -⟩ := h
  obtain ⟨w, h4⟩ : ∃ w, s.fetch.2 = .ok w := by
    cases hx : s.fetch.2 with
    | ok w => exact ⟨w, rfl⟩
    | error x => rw [hx] at h4; exact absurd h4 Bool.false_ne_true
  have h6 : s.fetch = ({ s with dev := fetched s }, .ok w) := Prod.ext (State.fetch_fst s) h4
  simp [State.coreStep, State.boundaryStep, h1, h2, h3, h6, h5, hb]

/-- An instruction whose body only changes the core. -/
theorem State.coreStep_onCore {s : State} {k : Klass} {body : State → Done} {f : Core → Core} (h : Ready s k)
    (hb : body { s with dev := fetched s } = State.onCore { s with dev := fetched s } f) :
    s.coreStep k body = became s (f s.core) (fetched s) := by
  rw [State.coreStep_ok h hb h.2.2.2.2.2]
  rfl

/-! ### Registers (R159, R160) -/

@[simp] theorem Core.rd_zero (c : Core) : c.rd 0#5 = 0#32 := by simp [Core.rd]
@[simp] theorem Core.psn_zero (c : Core) : c.psn 0#5 = false := by simp [Core.psn]
@[simp] theorem Core.wr_zero (c : Core) (v : Word) (p : Bool) : c.wr 0#5 v p = c := by simp [Core.wr]

/-- A write to a register other than w0. -/
theorem Core.wr_regs (c : Core) (d : RegNo) (v : Word) (p : Bool) (h : d ≠ 0) :
    (c.wr d v p).regs = c.regs.set d.toNat v d.isLt := by
  unfold Core.wr; rw [if_neg h]

theorem Core.wr_poison (c : Core) (d : RegNo) (v : Word) (p : Bool) (h : d ≠ 0) :
    (c.wr d v p).poison = if p then c.poison ||| (1#32 <<< d.toNat) else c.poison &&& ~~~(1#32 <<< d.toNat) := by
  unfold Core.wr; rw [if_neg h]

/-- The value of a register after a write. -/
theorem Core.rd_wr (c : Core) (d r : RegNo) (v : Word) (p : Bool) :
    (c.wr d v p).rd r = if r = d ∧ r ≠ 0 then v else c.rd r := by
  by_cases hr : r = 0
  · rw [hr, if_neg (fun h => h.2 rfl)]; exact (Core.rd_zero _).trans (Core.rd_zero c).symm
  by_cases hd : d = 0
  · rw [hd, show c.wr 0 v p = c from Core.wr_zero c v p, if_neg (fun h => hr h.1)]
  unfold Core.rd
  rw [if_neg hr, if_neg hr]
  by_cases h : r = d
  · subst h
    rw [if_pos ⟨rfl, hr⟩]
    simp only [Core.wr_regs c r v p hd, Vector.getElem_set_self]
  · have h' : d.toNat ≠ r.toNat := fun e => h (BitVec.eq_of_toNat_eq e.symm)
    simp only [if_neg (fun x : r = d ∧ r ≠ 0 => h x.1), Core.wr_regs c d v p hd, Vector.getElem_set_ne _ _ h']

/-- Bit `r` of a mark's mask. -/
theorem mark_bit (d r : RegNo) : (1#32 <<< d.toNat).getLsbD r.toNat = decide (r = d) := by
  revert d r; decide

/-- The mark of a register after a write. -/
theorem Core.psn_wr (c : Core) (d r : RegNo) (v : Word) (p : Bool) :
    (c.wr d v p).psn r = if r = d ∧ r ≠ 0 then p else c.psn r := by
  by_cases hr : r = 0
  · rw [hr, if_neg (fun h => h.2 rfl)]; exact (Core.psn_zero _).trans (Core.psn_zero c).symm
  by_cases hd : d = 0
  · rw [hd, show c.wr 0 v p = c from Core.wr_zero c v p, if_neg (fun h => hr h.1)]
  have hlt : r.toNat < 32 := r.isLt
  have hb : (r != 0) = true := bne_iff_ne.2 hr
  have hm := mark_bit d r
  unfold Core.psn
  rw [Core.wr_poison c d v p hd, hb, Bool.true_and, Bool.true_and]
  by_cases h : r = d
  · rw [if_pos (show r = d ∧ r ≠ 0 from ⟨h, hr⟩)]
    rw [decide_eq_true h] at hm
    cases p <;>
      simp only [Bool.false_eq_true, if_false, if_true, BitVec.getLsbD_or, BitVec.getLsbD_and, BitVec.getLsbD_not, hm,
        Bool.or_true, Bool.not_true, Bool.and_false]
  · rw [if_neg (fun x : r = d ∧ r ≠ 0 => h x.1)]
    rw [decide_eq_false h] at hm
    cases p <;>
      simp only [Bool.false_eq_true, if_false, if_true, BitVec.getLsbD_or, BitVec.getLsbD_and, BitVec.getLsbD_not, hm,
        Bool.or_false, Bool.not_false, Bool.and_true, hlt, decide_true]

end Sys2Proof.Machine
end

