-- ==== Sys2Proof/Certificates/Slice0/Obligations.lean ====
section
/-! DEFINITION. The statements for the provers. A statement of several parts is the conjunction of parts that stand before it
under Claims, each with the rules it formalises. -/
open Sys2Proof Sys2Proof.Machine Sys2Proof.Claims

/-! ### The step and the core -/

/-- A step takes the command at the front of the queue and runs it on the state with the rest of the queue. -/
def Obligations.StepRunsFront : Prop :=
  ∀ (s : State) (c : Instr) (rest : List Instr),
    step { s with pending := c :: rest } = exec c { s with pending := rest }

/-- R172, R173: each of the 29 computational instructions completes with its value in rd, marked as the marks of the
operands it reads say (R160); no other register, no special register but CYCLE and what a delay slot, a MODE shadow or a
loop end moves, and nothing of the device changes. -/
def Obligations.ComputationsComplete : Prop :=
  ∀ (s : State) (i : Instr) (rd : RegNo) (v : Word) (p : Bool) (n : Nat),
    computes s.core i = some (rd, v, p, n) → Ready s .free →
    exec i s = .next (became s ((s.core.wr rd v p).retire n) (fetched s))

/-- R173: DIV and DIVU round towards zero, REM takes the sign of the dividend, and the cases without a mathematical result
give the values of the table; none raises an exception. -/
def Obligations.DivisionsRound : Prop :=
  ∀ (s : State) (d a b : RegNo), Ready s .free →
    let x := s.core.rd a
    let y := s.core.rd b
    let writes (i : Instr) (v : Word) : Prop :=
      exec i s = .next (became s ((s.core.wr d v (s.core.psn a || s.core.psn b)).retire 34) (fetched s))
    ∃ q r qu ru : Word,
      writes (.div d a b) q ∧ writes (.rem d a b) r ∧ writes (.divu d a b) qu ∧ writes (.remu d a b) ru ∧
        (y = 0 → q = 0xFFFFFFFF ∧ r = x ∧ qu = 0xFFFFFFFF ∧ ru = x) ∧
        (y ≠ 0 → qu.toNat = x.toNat / y.toNat ∧ ru.toNat = x.toNat % y.toNat) ∧
        (x = 0x80000000 → y = 0xFFFFFFFF → q = 0x80000000 ∧ r = 0) ∧
        (y ≠ 0 → ¬(x = 0x80000000 ∧ y = 0xFFFFFFFF) →
          q.toInt = Int.tdiv x.toInt y.toInt ∧ r.toInt = Int.tmod x.toInt y.toInt)

/-- R159, R160: a write of a general register changes that register and its mark alone, and w0 takes nothing: it reads 0
and unmarked. -/
def Sys2Proof.Claims.RegisterWrites : Prop :=
  ∀ (c : Core) (rd : RegNo) (v : Word) (p : Bool),
    wrote c (c.wr rd v p) rd v p ∧ (c.wr rd v p).rd 0 = 0 ∧ (c.wr rd v p).psn 0 = false ∧
      c.wr 0 v p = c ∧ (c.wr rd v p).pc = c.pc ∧ (c.wr rd v p).cst = c.cst

/-- R177, R181: an instruction that transfers no control is followed by the next word, by the branch's target out of a
delay slot, and by the loop start while a count at a loop end has more than one pass to go; a count that reaches 0 falls
through. -/
def Sys2Proof.Claims.Continuation : Prop :=
  ∀ (c : Core) (n : Nat),
    (∀ x, c.slot = some x → (c.retire n).pc = x.target ∧ (c.retire n).slot = none ∧ (c.retire n).lc = c.lc) ∧
    (c.slot = none → c.lc[0] = 0 → c.lc[1] = 0 → (c.retire n).pc = c.pc + 4) ∧
    (c.slot = none → c.lc[1] ≠ 0 → c.le[1] = c.pc → c.lc[1] ≠ 1 →
      (c.retire n).pc = c.ls[1] ∧ (c.retire n).lc[1] = c.lc[1] - 1 ∧ (c.retire n).lc[0] = c.lc[0]) ∧
    (c.slot = none → c.lc[1] = 0 → c.lc[0] ≠ 0 → c.le[0] = c.pc →
      (c.retire n).lc[0] = c.lc[0] - 1 ∧ (c.retire n).pc = if c.lc[0] = 1 then c.pc + 4 else c.ls[0])

/-- A register write changes that register alone, w0 takes nothing, and execution continues in order, at the target or at the loop start. -/
def Obligations.RegistersAndContinuation : Prop :=
  Claims.RegisterWrites ∧ Claims.Continuation

/-- R174: a load of an aligned address through an unmarked base, which no rule refuses, completes with the bytes read,
extended as the instruction says, in rd; a marked byte marks the register (R160). -/
def Sys2Proof.Claims.LoadsComplete : Prop :=
  ∀ (s : State) (rd ra : RegNo) (imm : BitVec 16) (d2 : Dev) (bs : List MByte) (n : Nat) (ext : Nat → Word) (i : Instr),
    ((i, n, ext) = (.lw rd ra imm, 4, fun v => BitVec.ofNat 32 v) ∨
     (i, n, ext) = (.lh rd ra imm, 2, fun v => (BitVec.ofNat 16 v).signExtend 32) ∨
     (i, n, ext) = (.lhu rd ra imm, 2, fun v => (BitVec.ofNat 16 v).zeroExtend 32) ∨
     (i, n, ext) = (.lb rd ra imm, 1, fun v => (BitVec.ofNat 8 v).signExtend 32) ∨
     (i, n, ext) = (.lbu rd ra imm, 1, fun v => (BitVec.ofNat 8 v).zeroExtend 32)) →
    Ready s .free → s.core.psn ra = false → (s.core.rd ra + imm.signExtend 32).toNat % n = 0 →
    (fetched s).mpuCheck (s.core.mpuOn s.core.pl) s.core.pl .read (s.core.rd ra + imm.signExtend 32).toNat n = none →
    (fetched s).cpuLoad s.core.master (s.core.rd ra + imm.signExtend 32).toNat n = (d2, .ok, bs) → bs.length = n →
    d2.calm →
    exec i s = .next (became s ((s.core.wr rd (ext (leNat (bs.map Prod.fst))) (anyPoison bs)).retire 1) d2)

/-- R194: a load that the youngest overlapping buffered store covers takes its bytes from that store. -/
def Sys2Proof.Claims.LoadForwarded : Prop :=
  ∀ (d : Dev) (m : Master) (q : List Store) (x : Store) (a n : Nat),
    d.sbuf = q ++ [x] → isRegAddr a = false → 0 < n → x.addr ≤ a → a + n ≤ x.addr + x.size →
    d.cpuLoad m a n = (d, .ok, (x.bytes.drop (a - x.addr)).take n)

/-- Loads complete with the extended bytes and their mark, and take a covered access from the youngest store. -/
def Obligations.LoadsComplete : Prop :=
  Claims.LoadsComplete ∧ Claims.LoadForwarded

/-- R174, R193: a store of an aligned address through an unmarked base, which no rule refuses, completes into a buffer that
has room: the low bytes of rb with its mark are the youngest entry, no register changes, and no byte of memory does. -/
def Sys2Proof.Claims.StoresComplete : Prop :=
  ∀ (s : State) (rb ra : RegNo) (imm : BitVec 16) (n : Nat) (i : Instr),
    ((i, n) = (.sw rb ra imm, 4) ∨ (i, n) = (.sh rb ra imm, 2) ∨ (i, n) = (.sb rb ra imm, 1)) →
    Ready s .free → s.core.psn ra = false → (s.core.rd ra + imm.signExtend 32).toNat % n = 0 →
    (fetched s).mpuCheck (s.core.mpuOn s.core.pl) s.core.pl .write (s.core.rd ra + imm.signExtend 32).toNat n = none →
    s.core.mode.getLsbD 1 = false → (fetched s).sbuf.length < 4 →
    ∃ x : Store,
      exec i s = .next (became s (s.core.retire 1) { fetched s with sbuf := (fetched s).sbuf ++ [x] }) ∧
      x.addr = (s.core.rd ra + imm.signExtend 32).toNat ∧ x.size = n ∧
      (∀ k, k < 8 * n → x.data.getLsbD k = (s.core.rd rb).getLsbD k) ∧
      (∀ k, k < n → x.poison.getLsbD k = s.core.psn rb) ∧
      x.master = s.core.master ∧ x.epoch = (fetched s).epoch

/-- R193, R217: STORE_DRAIN performs the oldest buffered store in its own epoch, and a store that fails leaves a pending
IMPRECISE_STORE with its address. -/
def Sys2Proof.Claims.StoreDrains : Prop :=
  ∀ (s : State) (x : Store) (q : List Store) (d1 : Dev) (r : Resp),
    s.dev.sbuf = x :: q → s.dev.calm →
    Dev.busStore { s.dev with sbuf := q } x.epoch x.master x.addr x.bytes = (d1, r) → d1.calm →
    (r = .ok → exec .storeDrain s = .next (became s s.core d1)) ∧
    (r ≠ .ok → d1.impStore = none →
      exec .storeDrain s = .next (became s s.core { d1 with impStore := some ⟨x.addr, r.detail, false⟩ }))

/-- Stores enter the buffer with their bytes and marks, and leave it in order. -/
def Obligations.StoresComplete : Prop :=
  Claims.StoresComplete ∧ Claims.StoreDrains

/-- R176, R177: each branch and jump completes with its delay slot next, after which execution goes to its target where it
is taken and past the slot where it is not. JAL links in w30 and JALR in rd; the link is the address after the slot. -/
def Obligations.TransfersComplete : Prop :=
  ∀ (s : State) (ra rb rd : RegNo) (off : BitVec 16) (far : BitVec 26), Ready s .restricted →
    let c := s.core
    let near : Word := c.pc + (off.signExtend 32 <<< 2)
    let jump : Word := c.pc + (far.signExtend 32 <<< 2)
    (∀ (i : Instr) (p : Bool),
      ((i, p) = (.beq ra rb off, decide (c.rd ra = c.rd rb)) ∨
       (i, p) = (.bne ra rb off, decide (c.rd ra ≠ c.rd rb)) ∨
       (i, p) = (.blt ra rb off, decide ((c.rd ra).toInt < (c.rd rb).toInt)) ∨
       (i, p) = (.bge ra rb off, decide ((c.rd rb).toInt ≤ (c.rd ra).toInt)) ∨
       (i, p) = (.bltu ra rb off, decide ((c.rd ra).toNat < (c.rd rb).toNat)) ∨
       (i, p) = (.bgeu ra rb off, decide ((c.rd rb).toNat ≤ (c.rd ra).toNat))) →
      c.psn ra = false → c.psn rb = false → exec i s = .next (became s (c.branch p near) (fetched s))) ∧
    exec (.j far) s = .next (became s (c.branch true jump) (fetched s)) ∧
    exec (.jal far) s = .next (became s ((c.wr 30 (c.pc + 8) false).branch true jump) (fetched s)) ∧
    (c.psn ra = false → (c.rd ra).toNat % 4 = 0 →
      exec (.jr ra) s = .next (became s (c.branch true (c.rd ra)) (fetched s)) ∧
      exec (.jalr rd ra) s = .next (became s ((c.wr rd (c.pc + 8) false).branch true (c.rd ra)) (fetched s))) ∧
    (∀ (taken : Bool) (t : Word),
      (c.branch taken t).pc = c.pc + 4 ∧
      (c.branch taken t).slot = some ⟨c.pc, if taken then t else c.pc + 8⟩ ∧
      ∀ r, (c.branch taken t).rd r = c.rd r)

/-- R180: LOOP and LOOPI set loop N's start, end and count, and skip the body where the count is 0; a loop that is active starts
afresh; LEN 0 is illegal, and the entry is taken at the instruction. -/
def Obligations.LoopsComplete : Prop :=
  ∀ (s : State) (ra : RegNo) (n : BitVec 1) (icnt len : BitVec 10), Ready s .restricted →
    (∀ i : Instr, i = .loop ra n 0 ∨ i = .loopi n icnt 0 →
      exec i s = .next (State.enter { s with dev := fetched s } ⟨1, 4, 0⟩ none false).settle) ∧
    ∀ (i : Instr) (count : Word), len ≠ 0 →
      ((i = .loop ra n len ∧ count = s.core.rd ra ∧ s.core.psn ra = false) ∨
       (i = .loopi n icnt len ∧ count = icnt.zeroExtend 32)) →
      ∃ t, exec i s = .next t ∧ t.dev = fetched s ∧
        t.core.ls[n.toFin] = s.core.pc + 4 ∧
        t.core.le[n.toFin] = s.core.pc + 4 * len.zeroExtend 32 ∧
        t.core.lc[n.toFin] = count ∧
        t.core.pc = (if count = 0 then s.core.pc + 4 * len.zeroExtend 32 + 4 else s.core.pc + 4) ∧
        (∀ k : Fin 2, k ≠ n.toFin → t.core.ls[k] = s.core.ls[k] ∧ t.core.le[k] = s.core.le[k] ∧ t.core.lc[k] = s.core.lc[k]) ∧
        ∀ r, t.core.rd r = s.core.rd r

/-- R162, R163: MFS completes at the level that reads the register, with its value in rd; PACC brings its mark (R190), and a
read of CYCLE_LO latches CYCLE_HI for the level. -/
def Sys2Proof.Claims.MfsCompletes : Prop :=
  ∀ (s : State) (rd : RegNo) (n : BitVec 16) (r : Spr), sprOf n = some r → Ready s .free → r.readLevel ≤ s.core.pl →
    exec (.mfs rd n) s = .next (became s
      (((s.core.sprLatch r).wr rd (s.core.sprRead r) (decide (r = .pacc) && s.core.paccPoison)).retire 1) (fetched s)) ∧
    (r = .cycleLo → (s.core.sprLatch r).sprRead .cycleHi = s.core.cycle.extractLsb' 32 32)

/-- R162, R164 to R166, R185: MTS completes at the level that writes the register. A MODE value waits for its shadow and is
in force after it; every other register takes the word's writable bits, and no other special register changes. -/
def Sys2Proof.Claims.MtsCompletes : Prop :=
  ∀ (s : State) (ra : RegNo) (n : BitVec 16) (r : Spr) (l : Nat),
    sprOf n = some r → r.writeLevel = some l → Ready s .restricted → l ≤ s.core.pl → s.core.psn ra = false →
    (r = .mode →
      exec (.mts ra n) s = .next (became s { s.core.retire 1 with shadow := some (s.core.rd ra &&& 7) } (fetched s))) ∧
    (r ≠ .mode →
      exec (.mts ra n) s = .next (became s ((s.core.sprWrite r (s.core.rd ra)).retire 1) (fetched s))) ∧
    (∀ (c : Core) (v : Word),
      (r ≠ .mode → (c.sprWrite r v).sprRead r = match r with
        | .cst => (c.cst &&& 3) ||| (v &&& 0xF4)
        | .prog => v &&& 0xF0FFFFFF
        | .ls _ | .le _ | .sysent => v &&& 0xFFFFFFFC
        | .sst => sstMask v
        | _ => v) ∧
      (∀ q, q ≠ r → (c.sprWrite r v).sprRead q = c.sprRead q) ∧ (c.sprWrite r v).regs = c.regs) ∧
    ∀ (c : Core) (k : Nat) (v : Word), c.slot = none → c.shadow = some v → (c.retire k).mode = v ∧ (c.retire k).shadow = none

/-- MFS and MTS complete at the level that may read or write the register, and change no other register.
The model's choices in it: log entries 24 and 55. -/
def Obligations.SpecialRegistersMove : Prop :=
  Claims.MfsCompletes ∧ Claims.MtsCompletes

/-- R163, R192: what the system group refuses. An absent number, or a write where the register takes none, is illegal with
DETAIL 6; an access or an instruction above the level is a privilege exception; each is taken at the instruction. -/
def Sys2Proof.Claims.SystemRefusals : Prop :=
  ∀ (s : State) (rd ra : RegNo) (n : BitVec 16),
    let taken (x : Exc) : Host.Outcome State Fault Refusal :=
      .next (State.enter { s with dev := fetched s } x none false).settle
    (Ready s .free → sprOf n = none → exec (.mfs rd n) s = taken ⟨1, 6, 0⟩) ∧
    (Ready s .restricted → (∀ r, sprOf n = some r → r.writeLevel = none) → exec (.mts ra n) s = taken ⟨1, 6, 0⟩) ∧
    (∀ r, sprOf n = some r → Ready s .free → s.core.pl < r.readLevel → exec (.mfs rd n) s = taken ⟨4, 1, 0⟩) ∧
    (∀ r l, sprOf n = some r → r.writeLevel = some l → Ready s .restricted → s.core.pl < l →
      exec (.mts ra n) s = taken ⟨4, 2, 0⟩) ∧
    (Ready s .restricted → s.core.pl = 0 →
      exec .sysret s = taken ⟨4, 0, 0⟩ ∧ exec .retx s = taken ⟨4, 0, 0⟩ ∧ exec .swaprules s = taken ⟨4, 0, 0⟩) ∧
    (Ready s .mayEnd → s.core.pl = 0 → exec .wait s = taken ⟨4, 0, 0⟩)

/-- R192, R216: SYSCALL at User goes to SYSENT at Supervisor with interrupts off and leaves pc + 4 and the status behind; it
ends a loop whose body holds it. SYSRET takes PL, IE and IPL from SST and continues at SPC. -/
def Sys2Proof.Claims.FastCalls : Prop :=
  ∀ s : State, Ready s .restricted →
    (s.core.pl = 0 →
      ∃ t, exec .syscall s = .next t ∧ t.core.spc = s.core.pc + 4 ∧ t.core.sst = s.core.cst &&& 0xF7 ∧
        t.core.pl = 1 ∧ t.core.ie = false ∧ t.core.ipl = s.core.ipl ∧ t.core.pc = s.core.sysent ∧
        (∀ i : Fin 2, t.core.lc[i] =
          if s.core.ls[i].toNat ≤ s.core.pc.toNat ∧ s.core.pc.toNat ≤ s.core.le[i].toNat then 0 else s.core.lc[i]) ∧
        t = became s { s.core with spc := t.core.spc, sst := t.core.sst, cst := t.core.cst, pc := t.core.pc,
                                   lc := t.core.lc, cycle := t.core.cycle } (fetched s)) ∧
    (s.core.pl ≠ 0 → s.core.sst.toNat % 4 ≤ s.core.pl → s.core.spc.toNat % 4 = 0 →
      exec .sysret s = .next (became s
        { s.core with cst := s.core.sst &&& 0xF7, pc := s.core.spc, cycle := s.core.cycle + 2 } (fetched s)))

/-- SYSCALL and SYSRET complete, and every use above the level is refused by its exception.
The model's choices in it: log entries 8 and 11. -/
def Obligations.PrivilegeRules : Prop :=
  Claims.SystemRefusals ∧ Claims.FastCalls

/-- R203, R208, R210: an entry whose descriptor, stack and frame writes are good commits: the frame's address in w31, the
saved point and status, cause and address, the descriptor's level and IE, an interrupt's priority, loops and PROG zeroed, a
pending MODE write cancelled, the handler's address in pc. The rest of the core stays as it was. -/
def Obligations.EntryCommits : Prop :=
  ∀ (s : State) (x : Exc) (prio : Option Nat) (multi : Bool) (d1 d2 : Dev) (h w : Word) (a : Nat) (n : Fin 4),
    (x.vector = 10 ∨ 64 ≤ x.vector ∨ s.core.inEmergency = false) →
    s.dev.drainAll.descriptor s.core.extb x.vector = (d1, some (h, w), a) →
    w.getLsbD 31 = true → (w.toNat % 4 = 1 ∨ w.toNat % 4 = 2) → s.core.psn 31 = false → n.val = w.toNat / 16 % 4 →
    let c := s.core
    let w31 := (c.rd 31).toNat
    let top := if c.slim[n].toNat < w31 ∧ w31 ≤ c.ssp[n].toNat then w31 else c.ssp[n].toNat
    let lv := max (w.toNat % 4) c.pl
    let cause : Word := BitVec.ofNat 32 (2 ^ 20 * b2n multi + x.detail * 2 ^ 8 + x.vector)
    64 ≤ top → c.slim[n].toNat ≤ top - 64 → top % 4 = 0 →
    Dev.writeFrame (c.mpuOn lv) lv d1 (top - 64) (c.frameWords c.point cause) = (d2, none) →
    let t := s.enter x prio multi
    t.dev = d2 ∧ t.pending = s.pending ∧ t.core.pc = h &&& 0xFFFFFFFC ∧ t.core.rd 31 = BitVec.ofNat 32 (top - 64) ∧
      t.core.epc = c.point.epc ∧ t.core.etgt = c.point.etgt ∧ t.core.sst = c.status c.point ∧ t.core.ecause = cause ∧
      t.core.eaddr = BitVec.ofNat 32 x.addr ∧ t.core.cst.toNat % 4 = lv ∧ t.core.ie = w.getLsbD 6 ∧
      t.core.ipl = (prio.getD c.ipl) % 16 ∧ t.core.lc = Vector.replicate 2 0 ∧ t.core.prog = 0 ∧ t.core.slot = none ∧
      t.core.shadow = none ∧ t.core.mode = c.mode ∧ t.core.ls = c.ls ∧ t.core.le = c.le ∧ t.core.pacc = c.pacc ∧
      ∀ r, r ≠ 31 → t.core.rd r = c.rd r ∧ t.core.psn r = c.psn r

/-- R192, R199, R217 to R219: BREAK, SYSCALL above User, a word that does not decode, a pending IMPRECISE_STORE and an
interrupt each take their entry, with their vector, DETAIL, address and priority. -/
def Sys2Proof.Claims.EntriesTaken : Prop :=
  ∀ s : State,
    let at_ : State := { s with dev := fetched s }
    (Ready s .free → exec .brk s = .next (at_.enter ⟨12, 0, 0⟩ none false).settle) ∧
    (Ready s .restricted → s.core.pl ≠ 0 → exec .syscall s = .next (at_.enter ⟨11, 0, 0⟩ none false).settle) ∧
    (∀ (v : Word) (k : Nat), Ready s .free → decodeWord v = .illegal k →
      exec (.exceptionEntry (some v)) s = .next (at_.enter ⟨1, k, 0⟩ none false).settle) ∧
    (∀ i : ImpStore, s.dev.impStore = some i → s.running = true → s.core.slot = none → s.core.shadow = none →
      s.core.inEmergency = false →
      exec (.exceptionEntry none) s = .next
        (State.enter { s with dev := { s.dev with impStore := none } } ⟨10, i.detail, i.addr⟩ none i.multi).settle) ∧
    (∀ src p : Nat, s.running = true → s.dev.impStore = none → s.core.slot = none → s.core.shadow = none →
      s.core.ie = true → s.dev.topSource s.core.ipl = some (src, p) →
      exec .interrupt s = .next (s.enter ⟨64 + src, 0, 0⟩ (some p) false).settle)

/-- R219, R223: the interrupt that is chosen is pending and enabled at a priority above the threshold; none pending has a
higher priority, and none of its priority a lower number; and one is chosen whenever one is pending above it. -/
def Sys2Proof.Claims.InterruptChoice : Prop :=
  ∀ (d : Dev) (above : Nat),
    (∀ src p, d.topSource above = some (src, p) →
      src < 192 ∧ p = d.prio src ∧ above < p ∧ d.source src = true ∧
      ∀ k, k < 192 → d.source k = true → above < d.prio k → d.prio k ≤ p ∧ (d.prio k = p → src ≤ k)) ∧
    (d.topSource above = none → ∀ k, k < 192 → d.source k = true → d.prio k ≤ above)

/-- Each exception and interrupt takes its entry, and the interrupt chosen is the highest that is enabled.
The model's choices in it: log entries 6, 11 and 22. -/
def Obligations.EntriesTaken : Prop :=
  Claims.EntriesTaken ∧ Claims.InterruptChoice

/-- R211, R212, R214, R229: RETX with a readable and legal frame restores what the frame holds: status, mode, loops, PROG,
PACC, SST, EPC, ETGT and w31; it continues at EPC, or in the delay slot after it; a pending MODE write is armed again; and
with SWAP the rule sets are exchanged on the same edge. -/
def Sys2Proof.Claims.RetxRestores : Prop :=
  ∀ (s t1 : State) (f : List (Word × Bool)),
    Ready s .restricted → s.core.pl ≠ 0 → s.core.psn 31 = false → (s.core.rd 31).toNat % 4 = 0 →
    State.readFrame 16 { s with dev := fetched s } (s.core.rd 31).toNat = (t1, .ok f) →
    s.core.retxCheck (s.core.rd 31).toNat f = none → t1.dev.calm →
    let w (i : Nat) : Word := frameWord f i
    let swap := (w 2).getLsbD 18
    (swap = true → t1.dev.flag F.ACCESS_EPOCH_PREV_LIVE = false ∧ t1.dev.swapRules.calm) →
    ∃ t, exec .retx s = .next t ∧ t.pending = t1.pending ∧ t.dev = (if swap then t1.dev.swapRules else t1.dev) ∧
      t.core.cst = w 2 &&& 0xF7 ∧ t.core.mode = w 12 &&& 7 ∧ t.core.prog = w 10 &&& 0xF0FFFFFF ∧ t.core.pacc = w 11 ∧
      t.core.sst = sstMask (w 3) ∧ t.core.epc = w 0 ∧ t.core.etgt = w 1 ∧ t.core.rd 31 = w 14 ∧
      t.core.ls = #v[w 4 &&& 0xFFFFFFFC, w 7 &&& 0xFFFFFFFC] ∧ t.core.le = #v[w 5 &&& 0xFFFFFFFC, w 8 &&& 0xFFFFFFFC] ∧
      t.core.lc = #v[w 6, w 9] ∧
      t.core.pc = (if (w 2).getLsbD 16 then w 0 + 4 else w 0) ∧
      t.core.slot = (if (w 2).getLsbD 16 then some ⟨w 0, w 1⟩ else none) ∧
      t.core.shadow = (if (w 2).getLsbD 17 then some (w 13 &&& 7) else none) ∧
      ∀ r, r ≠ 31 → t.core.rd r = s.core.rd r

/-- R212 to R215: what an entry saves is what RETX restores. From the frame that an entry writes, the return finds the
interrupted point again: pc and a delay slot, a pending MODE write, status, mode, loops, PROG, PACC, SST and w31. -/
def Sys2Proof.Claims.ReturnUndoesEntry : Prop :=
  ∀ (c : Core) (lv frame eaddr : Nat) (ie : Bool) (prio : Option Nat) (cause h : Word), CoreLegal c →
    let r := (c.commitEntry c.point frame lv ie prio cause eaddr h).retxRestore (c.frameWords c.point cause)
    r.pc = c.pc ∧ r.slot = c.slot ∧ r.shadow = c.shadow ∧ r.cst = c.cst ∧ r.mode = c.mode ∧ r.sst = c.sst ∧
      r.ls = c.ls ∧ r.le = c.le ∧ r.lc = c.lc ∧ r.prog = c.prog ∧ r.pacc = c.pacc ∧ r.regs = c.regs

/-- RETX restores what the frame holds, and so undoes the entry that wrote it. -/
def Obligations.ReturnsRestore : Prop :=
  Claims.RetxRestores ∧ Claims.ReturnUndoesEntry

/-- R192, R194, R229, R237: SWAPRULES exchanges the active and the shadow set and advances the rule epoch, which keeps the
previous one alive while a transaction of it waits; with PREV_LIVE = 1 it waits (R240). FENCE and IFENCE complete when every
store issued before has been performed. -/
def Sys2Proof.Claims.SwapsAndFences : Prop :=
  ∀ s : State,
    (Ready s .free → ∀ i : Instr, (i = .fence ∨ i = .ifence) →
      exec i s = .next (State.settle { s with core := s.core.retire 1, dev := (fetched s).drainAll.aonCompleteAll }) ∧
      ((fetched s).sbuf = [] → (fetched s).aonPend = [] → exec i s = .next (became s (s.core.retire 1) (fetched s))) ∧
      (∀ (x : Store) (d1 : Dev), (fetched s).sbuf = [x] → (fetched s).aonPend = [] →
        Dev.busStore { fetched s with sbuf := [] } x.epoch x.master x.addr x.bytes = (d1, .ok) → d1.aonPend = [] →
        d1.calm → exec i s = .next (became s (s.core.retire 1) d1))) ∧
    (Ready s .restricted → s.core.pl ≠ 0 →
      ((fetched s).flag F.ACCESS_EPOCH_PREV_LIVE = true → exec .swaprules s = .next (became s s.core (fetched s))) ∧
      ((fetched s).flag F.ACCESS_EPOCH_PREV_LIVE = false →
        ∃ t, exec .swaprules s = .next t ∧ t.core = (became s (s.core.retire 1) t.dev).core ∧ t.pending = s.pending ∧
          t.dev.get F.ACCESS_EPOCH_SET = 1 - (fetched s).get F.ACCESS_EPOCH_SET ∧
          t.dev.get F.ACCESS_EPOCH_CUR = ((fetched s).get F.ACCESS_EPOCH_CUR + 1) % 16 ∧
          t.dev.get F.ACCESS_EPOCH_PREV = (fetched s).get F.ACCESS_EPOCH_CUR ∧
          t.dev.get F.ACCESS_EPOCH_PEND_FW = 0 ∧
          t.dev.get F.ACCESS_EPOCH_PREV_LIVE =
            b2n (decide ((fetched s).sbuf ≠ [] ∨ (fetched s).aonPend ≠ [] ∨ (fetched s).woh.job ≠ none)) ∧
          t.dev = { fetched s with regs := t.dev.regs, prevFw := t.dev.prevFw }))

/-- R192, R218, R220: WAIT stops the core until an interrupt above IPL is pending; the wake continues behind it with
interrupts off, and takes a pending IMPRECISE_STORE there first, else the interrupt with interrupts on. -/
def Sys2Proof.Claims.WaitsAndWakes : Prop :=
  ∀ s : State,
    (Ready s .mayEnd → s.core.pl ≠ 0 → (fetched s).topSource s.core.ipl = none →
      exec .wait s = .next (became s { s.core with waiting := true } (fetched s))) ∧
    (s.dev.on .core = true → s.core.released = true → s.core.stopped = false → s.core.waiting = true →
      s.dev.topSource s.core.ipl ≠ none → s.dev.calm →
      (s.core.ie = false → s.dev.impStore = none →
        exec .waitWake s = .next (became s ({ s.core with waiting := false }.retire 1) s.dev)) ∧
      (∀ i : ImpStore, s.dev.impStore = some i → s.core.slot = none → s.core.shadow = none → s.core.inEmergency = false →
        let woken : State := ⟨{ s.core with waiting := false }.retire 1, { s.dev with impStore := none }, s.pending⟩
        exec .waitWake s = .next (woken.enter ⟨10, i.detail, i.addr⟩ none i.multi).settle) ∧
      (∀ src p, s.core.ie = true → s.dev.impStore = none → s.core.slot = none → s.core.shadow = none →
        s.dev.topSource s.core.ipl = some (src, p) →
        exec .waitWake s = .next (State.enter { s with core := { s.core with waiting := false }.retire 1 }
          ⟨64 + src, 0, 0⟩ (some p) false).settle))

/-- SWAPRULES exchanges the rule sets, fences wait for the stores, and WAIT ends at an interrupt. -/
def Obligations.SwapsFencesWaits : Prop :=
  Claims.SwapsAndFences ∧ Claims.WaitsAndWakes

/-- R186 to R191: a long instruction with legal and unmarked operands starts, or resumes where PROG says, and runs its
units; when the last has completed, PROG is 0 and execution continues; CRCB then has the CRC with its mark in rd. Stopped
for an interrupt, it stands at its own address with its progress. -/
def Sys2Proof.Claims.LongComplete : Prop :=
  ∀ (s t : State) (rd ra rb rc : RegNo) (stop : Option Nat) (whole : Bool),
    Ready s .mayEnd →
    let c := s.core
    let from_ (c1 : Core) : State := { s with core := c1, dev := fetched s }
    let v (r : RegNo) : Nat := (c.rd r).toNat
    let ends (i : Instr) (result : Core → Core) (cycles : Nat) : Prop := t.dev.calm →
      exec i s = .next (became t (if whole then { result t.core with prog := 0 }.retire cycles else t.core) t.dev)
    (1 ≤ v rc → v rc ≤ 128 → v rd % 4 = 0 → v ra % 4 = 0 → c.psn rd = false → c.psn ra = false → c.psn rc = false →
      runUnits (mpmacUnit (v rd) (v ra) (c.rd rb) (c.psn rb) (v rc)) (fun k => decide (v rc < k.done)) (v rc + 1) stop
        (from_ (c.startLong 1 0 (c.psn rb))) = (.ok t, whole) →
      ends (.mpmac rd ra rb rc stop) id (6 + (if sameBank (v rd) (v ra) then 3 else 2) * (v rc + 1))) ∧
    (v rb ≤ 0x00FFFFFF → c.psn rd = false → c.psn ra = false → c.psn rb = false →
      runUnits (bmovUnit (v rd) (v ra) (v rb)) (fun k => decide (v rb ≤ k.done)) (v rb) stop
        (from_ (c.startLong 2 0 false)) = (.ok t, whole) →
      ends (.bmov rd ra rb stop) id (bmovCycles (v rd) (v ra) (v rb))) ∧
    (v rb ≤ 0x00FFFFFF → c.psn rd = false → c.psn rb = false →
      runUnits (bfillUnit (v rd) (v rb) (c.rd ra) (c.psn ra)) (fun k => decide (v rb ≤ k.done)) (v rb) stop
        (from_ (c.startLong 3 0 false)) = (.ok t, whole) →
      ends (.bfill rd ra rb stop) id (4 + wordUnits (v rd) (v rb))) ∧
    (v rb ≤ 0x00FFFFFF → c.psn ra = false → c.psn rb = false → c.prog.getLsbD 28 = false →
      runUnits (crcbUnit (v ra) (v rb)) (fun k => decide (v rb ≤ k.done)) (v rb) stop
        (from_ { c with prog := progWord 4 0, pacc := c.rd rc, paccPoison := c.psn rc }) = (.ok t, whole) →
      ends (.crcb rd ra rb rc stop) (fun k => k.wr rd k.pacc k.paccPoison) (4 + wordUnits (v ra) (v rb)))

/-- R185, R186, R219: a long instruction stopped for an interrupt from outside and run again does what it does when nothing
stops it: the units after the stop are those that were left, from the state in which it stopped. One that stands at a
boundary where an exception or interrupt is pending stands there whether or not the outside stops it. -/
def Sys2Proof.Claims.LongResumes : Prop :=
  ∀ (unit : State → UnitEnd) (complete : Core → Bool) (n k : Nat) (s t : State),
    runUnits unit complete n (some k) s = (.ok t, false) →
    (k < n ∧ runUnits unit complete n none s = runUnits unit complete (n - k) none t) ∨
      (t.called = true ∧ complete t.core = false ∧ runUnits unit complete n none s = (.ok t, false))

/-- R186 to R190: one unit of each long instruction, whose accesses are all checked before the first is made. A limb of
MPMAC is Z plus A times rb plus PACC, 32 bits stored and the rest kept, and its last unit adds the carry; a unit of BMOV is
an aligned word of the destination or the part of one in the range, moved at once where both addresses agree modulo 4 and
byte by byte where they do not; a unit of BFILL stores the pattern's bytes. A unit whose check is refused has done nothing. -/
def Sys2Proof.Claims.LongUnits : Prop :=
  ∀ (s : State) (x y len : Nat) (b v : Word) (p : Bool),
    let j := s.core.done
    let n := min (len - j) (4 - (x + j) % 4)
    (∀ (s1 s2 s4 : State) (zb ab : List MByte), j < len →
      s.unitChecks [(.read, x + 4 * j, 4), (.read, y + 4 * j, 4), (.write, x + 4 * j, 4)] = none →
      s.longLoad (x + 4 * j) 4 = (s1, .ok zb) → s1.longLoad (y + 4 * j) 4 = (s2, .ok ab) →
      let sum := (wordOf zb).toNat + (wordOf ab).toNat * b.toNat + s2.core.pacc.toNat
      let mark := anyPoison zb || anyPoison ab || p || s2.core.paccPoison
      s2.longStore (x + 4 * j) (marked (leBytes 4 sum) mark) = (s4, none) →
      mpmacUnit x y b p len s =
        .ok { s4 with core := { s4.core with prog := progWord 1 (j + 1),
                                             pacc := BitVec.ofNat 32 (sum / 2 ^ 32), paccPoison := mark } }) ∧
    (∀ (s1 s4 : State) (zb : List MByte), j = len →
      s.unitChecks [(.read, x + 4 * j, 4), (.write, x + 4 * j, 4)] = none →
      s.longLoad (x + 4 * j) 4 = (s1, .ok zb) →
      let sum := (wordOf zb).toNat + s1.core.pacc.toNat
      let mark := anyPoison zb || p || s1.core.paccPoison
      s1.longStore (x + 4 * j) (marked (leBytes 4 sum) mark) = (s4, none) →
      mpmacUnit x y b p len s =
        .ok { s4 with core := { s4.core with prog := progWord 1 (j + 1),
                                             pacc := BitVec.ofNat 32 (sum / 2 ^ 32), paccPoison := mark } }) ∧
    (∀ s3 : State, s.unitChecks [(.read, y + j, n), (.write, x + j, n)] = none →
      ((x % 4 = y % 4 ∧ ∃ s1 bs, State.loadUnit s s (y + j) n = (s1, .ok bs) ∧
          State.storeUnit s s1 (x + j) bs = (s3, none)) ∨
       (x % 4 ≠ y % 4 ∧ State.moveBytes s n s (x + j) (y + j) = (s3, none))) →
      bmovUnit x y len s =
        .ok { s3 with core := { s3.core with prog := progWord 2 (j + n), pacc := 0, paccPoison := false } }) ∧
    (∀ s3 : State, s.unitChecks [(.write, x + j, n)] = none →
      State.storeUnit s s (x + j) ((List.range n).map fun i =>
        ((v >>> (8 * ((j + i) % 4))).setWidth 8, p)) = (s3, none) →
      bfillUnit x len v p s =
        .ok { s3 with core := { s3.core with prog := progWord 3 (j + n), pacc := 0, paccPoison := false } }) ∧
    (∀ (s1 : State) (bs : List MByte), s.unitChecks [(.read, x + j, n)] = none →
      State.loadUnit s s (x + j) n = (s1, .ok bs) →
      crcbUnit x len s =
        .ok { s1 with core := { s1.core with prog := progWord 4 (j + n),
                                             pacc := BitVec.ofNat 32 (crc32cState s1.core.pacc.toNat (bs.map Prod.fst)),
                                             paccPoison := s1.core.paccPoison || anyPoison bs } }) ∧
    ∀ (s1 : State) (e : Exc),
      (s.unitChecks [(.read, y + j, n), (.write, x + j, n)] = some (s1, e) → bmovUnit x y len s = .exc s1 e) ∧
      (s.unitChecks [(.write, x + j, n)] = some (s1, e) → bfillUnit x len v p s = .exc s1 e) ∧
      (s.unitChecks [(.read, x + j, n)] = some (s1, e) → crcbUnit x len s = .exc s1 e) ∧
      (j = len → s.unitChecks [(.read, x + 4 * j, 4), (.write, x + 4 * j, 4)] = some (s1, e) →
        mpmacUnit x y b p len s = .exc s1 e)

/-- The long instructions run their units, stop between them for an interrupt, and resume to the same result.
The model's choices in it: log entry 24. -/
def Obligations.LongInstructions : Prop :=
  Claims.LongComplete ∧ Claims.LongResumes ∧ Claims.LongUnits

/-! ### Decoding and invariants -/

/-- R167 to R171: the word of an instruction decodes to that instruction, every field at every value; of a long
instruction the word says nothing of where it will be interrupted. -/
def Sys2Proof.Claims.DecodeOfEncode : Prop :=
  ∀ (i : Instr) (w : Word), encodeWord i = some w →
    decodeWord w = .instr (match i with
      | .mpmac d a b c _ => .mpmac d a b c none
      | .bmov d a b _ => .bmov d a b none
      | .bfill d a b _ => .bfill d a b none
      | .crcb d a b c _ => .crcb d a b c none
      | _ => i)

/-- R167, R168: a word that decodes is the one word of its instruction, so no two words spell one instruction; every
other word is illegal with DETAIL 0 or 1. -/
def Sys2Proof.Claims.EncodeOfDecode : Prop :=
  ∀ w : Word, (∀ i, decodeWord w = .instr i → encodeWord i = some w) ∧ ∀ k, decodeWord w = .illegal k → k ≤ 1

/-- Decode of encode is the instruction, and encode of decode is the word, for every instruction word. -/
def Obligations.DecodeAndEncodeAgree : Prop :=
  Claims.DecodeOfEncode ∧ Claims.EncodeOfDecode

/-- R159 to R166, R177, R178, R185: whatever command a step takes, in whatever state, the core's registers stay as their
fields allow them. -/
def Obligations.StepKeepsCoreLegal : Prop :=
  ∀ s t : State, CoreLegal s.core → step s = .next t → CoreLegal t.core

/-- R281, R392, R416: whatever command a step takes, the core has followed what was asked of it, and it is released
exactly when its fill has ended.
The model's choices in it: log entry 8. -/
def Obligations.StepKeepsSettled : Prop :=
  ∀ s t : State, Settled s → step s = .next t → Settled t

/-- R161, R21: the state after reset is legal and settled.
The model's choices in it: log entry 2. -/
def Obligations.ResetIsLegal : Prop :=
  CoreLegal State.reset.core ∧ Settled State.reset ∧ State.reset.pending = [] ∧ State.reset.dev.opState = stDormant ∧
    State.reset.core.pc = 0 ∧ State.reset.core.cst = 0xF2 ∧ State.reset.core.pl = 2 ∧ State.reset.core.ie = false

/-! ### Power, ownership and registers -/

/-- R22: the rows of the transition table, each with the state and cause it records, its event, and the domains it leaves
on (R16, R21). HOST_GOOD's rise goes before the other events, and VHOLD's fall below 2.80 V before the field's (R23). A
Cistern burst that runs ends first (R25); the clauses that switch ISLE off are stated for a moment without one.
The model's choices in it: log entries 16 and 17. -/
def Obligations.StateTransitions : Prop :=
  ∀ s : State, s.dev.alarming = false →
    (s.dev.opState = stDormant → s.dev.on .aon = true → s.dev.env.carrier = true → 1 ≤ s.dev.mark →
      s.dev.calm → s.dev.hostSeen = false → s.dev.on .isle = false →
      ∃ t, exec .fieldOn s = .next t ∧ moved s t stPassiveRead 3 ∧ t.dev.dom = s.dev.dom ||| 0x04) ∧
    (s.dev.opState = stPassiveRead → (s.dev.env.carrier = false ∨ s.dev.env.vhold < 1700) → s.dev.cst.job = none →
      s.dev.calm → s.dev.hostSeen = false → s.dev.on .isle = true →
      ∃ t, exec .fieldOff s = .next t ∧ moved s t stDormant 4 ∧ t.dev.dom = s.dev.dom &&& 0xFB) ∧
    (s.dev.opState = stPassiveRun →
      ((s.dev.env.carrier = false ∧ 2800 ≤ s.dev.env.vhold) ∨ s.dev.env.vhold < 1700) → s.dev.cst.job = none →
      s.dev.hostSeen = false → s.dev.on .isle = true →
      ∃ t, exec .fieldOff s = .next t ∧ moved s t stDormant 4 ∧ t.dev.dom = s.dev.dom &&& 0x03) ∧
    (s.dev.opState = stPassiveRead → 5 ≤ s.dev.mark → s.dev.hostSeen = false →
      ∃ t, exec .runReached s = .next t ∧ moved s t stPassiveRun 5 ∧ t.dev.dom = s.dev.dom ||| 0x88) ∧
    (s.dev.opState = stPassiveRun → s.dev.env.vhold < 2800 → s.dev.hostSeen = false →
      ∃ t, exec .runLost s = .next t ∧ moved s t stPassiveRead 6 ∧ t.dev.dom = s.dev.dom &&& 0x07) ∧
    (s.dev.opState < stHost → s.dev.hostSeen = true →
      ∃ t, exec .hostGood s = .next t ∧ moved s t stHost 1 ∧ t.dev.dom = s.dev.dom ||| 0xFC ∧
        t.dev.get F.EVT_RESET_CAUSE = 1) ∧
    (s.dev.opState = stHost → s.dev.hostSeen = false → s.dev.on .core = true → s.dev.env.carrier = true →
      1 ≤ s.dev.mark →
      ∃ t, exec .hostLoss s = .next t ∧ moved s t stPassiveRead 2 ∧ t.dev.dom = s.dev.dom &&& 0x07) ∧
    (s.dev.opState = stHost → s.dev.hostSeen = false → s.dev.on .core = true → s.dev.on .isle = true →
      s.dev.cst.job = none → (s.dev.env.carrier = false ∨ s.dev.mark < 1) →
      ∃ t, exec .hostLoss s = .next t ∧ moved s t stDormant 2 ∧ t.dev.dom = s.dev.dom &&& 0x03) ∧
    (s.dev.hostSeen = true → s.dev.calm → ∀ i : Instr, (i = .fieldOn ∨ i = .fieldOff ∨ i = .runReached ∨ i = .runLost) →
      exec i s = .next (became s s.core s.dev)) ∧
    (s.dev.opState = stPassiveRun → 1700 ≤ s.dev.env.vhold → s.dev.env.vhold < 2800 → s.dev.calm →
      exec .fieldOff s = .next (became s s.core s.dev))

/-- R22, R393: a Wellcap alarm takes the device into ALARM from any state, ISLE powered; the response's end is a device
reset with EVT_RESET cause ALARM_DONE (R397), and then the state that the conditions select.
The model's choices in it: log entries 17, 45 and 60. -/
def Obligations.AlarmTransitions : Prop :=
  ∀ s : State,
    (s.dev.wellcap.recs ≠ [] → s.dev.opState ≠ stAlarm →
      ∃ t, exec .alarm s = .next t ∧ t.dev.opState = stAlarm ∧ t.dev.get F.SYS_PREV = s.dev.opState ∧
        t.dev.get F.SYS_CAUSE = 7 ∧ t.dev.dom = s.dev.dom ||| 0x04 ∧ t.pending = s.pending) ∧
    (s.dev.opState = stAlarm → s.dev.wellcap.recs = [] → s.dev.cst.job = none → s.dev.on .isle = true →
      ∃ t, exec .alarmDone s = .next t ∧
        t.dev.opState = (if s.dev.hostSeen then stHost else if s.dev.env.carrier ∧ 1 ≤ s.dev.mark then stPassiveRead
          else stDormant) ∧
        t.dev.get F.SYS_PREV = stAlarm ∧ t.dev.get F.SYS_CAUSE = 8 ∧ t.dev.get F.EVT_RESET_CAUSE = 2 ∧
        bitAt (t.dev.get F.EVT_TRBL_TRBL) tRESET = true ∧
        t.dev.dom = (if s.dev.hostSeen then s.dev.dom ||| 0xFC else if s.dev.env.carrier ∧ 1 ≤ s.dev.mark then
          s.dev.dom &&& 0x07 else s.dev.dom &&& 0x03) ∧ t.pending = s.pending)

/-- R18, R22, R281, R432, R433: RUNLOW, the PLL's lock, the AON clock's power-up and its change to the crystal, and the
ends of the fills. Each changes what it names and nothing else. -/
def Sys2Proof.Claims.ClocksAndFills : Prop :=
  ∀ s : State, s.dev.calm →
    (s.dev.opState = stPassiveRun → s.dev.env.vhold < 2900 →
      exec .runlow s = .next (became s s.core (s.dev.put F.SYS_RUNLOW 1))) ∧
    (s.dev.on .pump = true → exec .pllLock s = .next (became s s.core { s.dev with pll := true })) ∧
    (s.dev.on .aon = false →
      exec .aonPowerUp s = .next (became s s.core
        { s.dev with dom := 0x03, xtal := false, wellcap := { s.dev.wellcap with aonUp := s.dev.now } })) ∧
    (s.dev.on .aon = true →
      exec .aonXtalSwitch s = .next (became s s.core
        ({ s.dev with xtal := true }.put F.WC_STAT_PRESENT (withBits (s.dev.get F.WC_STAT_PRESENT) 5 5 0)))) ∧
    (s.dev.on .core = true → (s.dev.on .pump = true → s.dev.pll = true) →
      exec (.fillDone .coreAndPump) s = .next (became s s.core { s.dev with filled := s.dev.filled.set 0 true })) ∧
    (s.dev.on .pump = true → s.dev.pll = true →
      exec (.fillDone .buckets) s = .next (became s s.core { s.dev with filled := s.dev.filled.set 1 true })) ∧
    (s.dev.on .isle = true →
      exec (.fillDone .bank0) s = .next (became s s.core { s.dev with filled := s.dev.filled.set 2 true }))

/-- R356, R357, R17, R26: the supplies' detector raises HOST_GOOD once all three have held, and senses the classes of the
I/O banks; a loss clamps the host's domains at once, in whatever state; without a source everything but the
non-volatile arrays is lost; and a link's power goes off between frames. -/
def Sys2Proof.Claims.Supplies : Prop :=
  ∀ (s : State) (core sd io0 io1 io2 : Nat), s.dev.calm →
    (s.dev.on .well = true → 680 ≤ core → 950 ≤ sd → 1620 ≤ io0 → s.dev.flag F.WH_STAT_HOST_GOOD = false →
      exec (.hostGoodQualified core sd io0 io1 io2) s = .next (became s s.core
        (({ s.dev with
          env := { s.dev.env with vddCore := core, vddSd := sd, vddIo0 := io0, vddIo1 := io1, vddIo2 := io2 }
          ioClass := #v[decide (2500 ≤ io0), decide (2500 ≤ io1), decide (2500 ≤ io2)] }.put
            F.WH_STAT_HOST_GOOD 1).put F.WH_STAT_AON_SRC 3))) ∧
    (s.dev.flag F.WH_STAT_HOST_GOOD = true → (core < 660 ∨ sd < 920 ∨ io0 < 1550) →
      ∃ t, exec (.hostSupplyLoss core sd io0) s = .next t ∧ t.dev.flag F.WH_STAT_HOST_GOOD = false ∧
        t.dev.opState = s.dev.opState ∧ t.pending = s.pending ∧
        t.dev.dom = (if s.dev.on .core = false then s.dev.dom else s.dev.dom &&& 0x07)) ∧
    (s.dev.on .aon = true → s.dev.aonSource = 0 → s.dev.on .isle = false → s.dev.flashJob = none →
      ∃ t, exec .aonUnpowered s = .next t ∧ t.dev.dom = 0 ∧ t.dev.regs = [] ∧ t.dev.ram = [] ∧ t.dev.slots = [] ∧
        t.dev.evt = Dev.reset.evt ∧ t.dev.flash = s.dev.flash ∧ t.dev.cstArray = s.dev.cstArray ∧
        t.dev.torn = s.dev.torn ∧ t.dev.wellcap = Dev.reset.wellcap) ∧
    (∀ p : Port, (s.dev.link p).offPending = true → s.dev.on p.dom = true → s.dev.egress p = none →
      (s.dev.now < (s.dev.link p).rxUntil → exec (.linkPowerOff p) s = .next (became s s.core s.dev)) ∧
      ((s.dev.link p).rxUntil ≤ s.dev.now →
        ∃ t, exec (.linkPowerOff p) s = .next t ∧ t.core = (became s s.core t.dev).core ∧ t.pending = s.pending ∧
          t.dev.dom = s.dev.dom &&& ~~~(BitVec.ofNat 8 (2 ^ p.dom.bit)) ∧
          t.dev.link p = { s.dev.link p with step := .off, offPending := false } ∧ t.dev.linkUp p = false ∧
          (s.dev.linkUp p = true → t.dev.source (portIrq p) = true) ∧
          t.dev = { s.dev with dom := t.dev.dom, regs := t.dev.regs, irq := t.dev.irq,
                               linkA := t.dev.linkA, linkB := t.dev.linkB }))

/-- R17: a write of PWR_REQ that clears an ON bit leaves the port on, to go off between its frames; one that sets it
powers the port in HOST, and the port starts at SerDes lock. -/
def Sys2Proof.Claims.PowerRequests : Prop :=
  ∀ (s : State) (m : Master) (v : Word), Arrives s.dev m F.SYS_PWR_REQ_LINKA_ON.addr v.toNat →
    ∃ t, exec (.pwrReqWrite m v) s = .next t ∧ t.core = (became s s.core t.dev).core ∧ t.pending = s.pending ∧
      t.dev.get F.SYS_PWR_REQ_LINKA_ON = b2n (v.getLsbD 0) ∧ t.dev.get F.SYS_PWR_REQ_LINKB_ON = b2n (v.getLsbD 1) ∧
      ∀ p : Port,
        let want := v.getLsbD (match p with | .a => 0 | .b => 1)
        (s.dev.on p.dom = true →
          t.dev.on p.dom = true ∧ t.dev.link p = { s.dev.link p with offPending := !want }) ∧
        (s.dev.on p.dom = false → (want = false ∨ s.dev.opState ≠ stHost) →
          t.dev.on p.dom = false ∧ t.dev.link p = s.dev.link p) ∧
        (s.dev.on p.dom = false → want = true → s.dev.opState = stHost →
          t.dev.on p.dom = true ∧ (t.dev.link p).step = .serdes ∧ (t.dev.link p).offPending = false)

/-- Clocks, fills, the supply detector and the power requests of the links.
The model's choices in it: log entries 10, 13 and 46. -/
def Obligations.ClocksAndSupplies : Prop :=
  Claims.ClocksAndFills ∧ Claims.Supplies ∧ Claims.PowerRequests

/-- R13, R35, R416, R417: a core reset returns the core and the interrupt controller to their reset state and releases the
claims of masters 0 to 2, the others persisting; DEV_RESET asks for a device reset with cause SOFTWARE; and a device reset
that has been asked for is applied with its cause: it returns the core, every register of CORE and PUMP, the queues and
lanes and every owner to their reset values, and leaves the keys, the non-volatile arrays and the event count.
The model's choices in it: log entries 2, 6 and 63. -/
def Obligations.Resets : Prop :=
  ∀ (s : State) (m : Master),
    (Arrives s.dev m F.SYS_CORE_RESET_KEY.addr 0xA55A → s.dev.sbuf = [] →
      ∃ t, exec (.coreReset m 0xA55A) s = .next t ∧ t.core = { Core.reset with released := t.dev.filled[0] } ∧
        t.pending = s.pending ∧ t.dev.irq = 0 ∧ t.dev.impStore = none ∧ t.dev.boot = .fresh ∧ t.dev.dom = s.dev.dom ∧
        t.dev.ram = s.dev.ram ∧ t.dev.flash = s.dev.flash ∧ t.dev.slots = s.dev.slots ∧
        (∀ r, r / 0x10000 = 0x400D → t.dev.reg r = regReset r) ∧
        (∀ i, i < 256 → t.dev.owner i =
          if (resourceInit i).isSome ∧ (s.dev.owner i).toNat < 3 then ownFree else s.dev.owner i)) ∧
    (Arrives s.dev m F.SYS_DEV_RESET_KEY.addr 0x5AA5 → s.dev.resetReq = none →
      exec (.devReset m 0x5AA5) s = .next (became s s.core { s.dev with resetReq := some 5 })) ∧
    (∀ c, s.dev.resetReq = some c → s.dev.alarming = false → s.dev.opState ≠ stHost → c ≤ 6 →
      ∃ t, exec .deviceReset s = .next t ∧ t.core = { Core.reset with released := t.dev.filled[0] } ∧
        t.pending = s.pending ∧ t.dev.resetReq = none ∧ t.dev.opState = s.dev.opState ∧
        t.dev.get F.EVT_RESET_CAUSE = c ∧ bitAt (t.dev.get F.EVT_TRBL_TRBL) tRESET =
          (decide (2 ≤ c) || bitAt (s.dev.get F.EVT_TRBL_TRBL) tRESET) ∧
        t.dev.evt.esn = s.dev.evt.esn ∧ t.dev.slots = s.dev.slots ∧ t.dev.flash = s.dev.flash ∧
        t.dev.cstArray = s.dev.cstArray ∧ t.dev.sbuf = [] ∧ t.dev.aonPend = [] ∧
        (∀ r, resetKind r = .device → r / 0x10000 ≠ 0x4001 → t.dev.reg r = regReset r) ∧
        t.dev.rings = [] ∧ t.dev.laneV = LaneSt.reset ∧ t.dev.laneT = LaneSt.reset ∧
        (s.dev.owner 0x40 ≠ 12 → ∀ i, i < 256 → t.dev.owner i = ownReset i))

/-- R33, R38: a claim or a release by the requester itself, and a claim of Vault's on another master's behalf, has the effect
and leaves the result that the table of R33 gives, with the holder found; no other resource changes its owner.
The model's choices in it: log entries 15 and 63. -/
def Obligations.Ownership : Prop :=
  ∀ (s : State) (m : Master) (res : Byte),
    let r := res.toNat
    let claim : Nat := 0x1F0100 + r
    let release : Nat := 0x1F0200 + r
    let force : Nat := 0x1F0300 + r
    let A := F.SYS_OWN_CLAIM_RES.addr
    let me : BitVec 5 := BitVec.ofNat 5 m.val
    let after (t : State) (status : Nat) (o : BitVec 5) : Prop :=
      t.core = (became s s.core t.dev).core ∧ t.pending = s.pending ∧
        t.dev.regView m F.SYS_OWN_RESULT_STATUS.addr =
          ownResultWord status r (if status = 3 then ownFree else s.dev.owner r) ∧
        ∀ i, i < 256 → t.dev.owner i = if i = r then o else s.dev.owner i
    (Arrives s.dev m A claim →
      ∃ t, exec (.claim m 0x1F res) s = .next t ∧
        ((resourceInit r = none → after t 3 (s.dev.owner r)) ∧
         (resourceInit r ≠ none → s.dev.owner r = ownFree ∨ s.dev.owner r = me → after t 0 me) ∧
         (resourceInit r ≠ none → s.dev.owner r ≠ ownFree → s.dev.owner r ≠ me →
           after t 1 (s.dev.owner r) ∧ bitAt (t.dev.get F.EVT_TRBL_TRBL) tCLAIM = true))) ∧
    (Arrives s.dev m A release →
      ∃ t, exec (.release m 0x1F res) s = .next t ∧
        ((resourceInit r = none → after t 3 (s.dev.owner r)) ∧
         (∀ o, resourceInit r = some (o, false) → after t 4 (s.dev.owner r)) ∧
         (∀ o, resourceInit r = some (o, true) → s.dev.owner r = me → after t 0 ownFree) ∧
         (∀ o, resourceInit r = some (o, true) → s.dev.owner r ≠ me → after t 2 (s.dev.owner r)))) ∧
    (Arrives s.dev m A force →
      ∃ t, exec (.forceRelease m 0x1F res) s = .next t ∧
        ((resourceInit r = none → after t 3 (s.dev.owner r)) ∧
         (∀ o rel, resourceInit r = some (o, rel) → (m.val ≠ 2 ∨ rel = false) → after t 4 (s.dev.owner r)) ∧
         (∀ o, resourceInit r = some (o, true) → m.val = 2 → after t 0 ownFree))) ∧
    (∀ o : BitVec 5, o ≠ 0x1F → Arrives s.dev m A (o.toNat * 2 ^ 16 + 0x100 + r) →
      ∃ t, exec (.claim m o res) s = .next t ∧
        ((resourceInit r = none → after t 3 (s.dev.owner r)) ∧
         (resourceInit r ≠ none → m.val ≠ 2 → after t 4 (s.dev.owner r)) ∧
         (resourceInit r ≠ none → m.val = 2 → 3 ≤ o.toNat → o.toNat ≤ 16 →
           (s.dev.owner r = ownFree ∨ s.dev.owner r = o → after t 0 o) ∧
           (s.dev.owner r ≠ ownFree → s.dev.owner r ≠ o →
             after t 1 (s.dev.owner r) ∧ bitAt (t.dev.get F.EVT_TRBL_TRBL) tCLAIM = true))))

/-- R8, R420, R421: what each field of a register takes from a word written to it, by its access code: the owner's level,
the lock and the fixed fields leave it; W1C clears where the word has ones; a read-write field takes the legal value that
its clamp gives, and the clamp is counted where that differs.
The model's choices in it: log entry 19. -/
def Obligations.FieldsTake : Prop :=
  ∀ (d : Dev) (m : Master) (a w : Nat) (f : Fld), f ∈ fieldsAt a →
    let t := ((fieldsAt a).reverse.foldl (d.writeField m a w) (d, 0)).1
    let v := bitsOf w f.hi f.lo
    let old := d.get (f.at a)
    (f.owner.reached (masterLevel m) = false → t.get (f.at a) = old) ∧
    (f.acc = .ro → t.get (f.at a) = old) ∧
    (f.owner.reached (masterLevel m) = true → f.acc = .w1c →
      t.get (f.at a) = (old &&& (v ^^^ (2 ^ (f.hi + 1 - f.lo) - 1)))) ∧
    (f.owner.reached (masterLevel m) = true → (f.acc = .rw ∨ f.acc = .rwl) →
      t.get (f.at a) =
        if d.fieldFixed a f ∨ d.fieldLocked a f then old
        else fieldStore a f (d.fieldClamp a w f v) % 2 ^ (f.hi + 1 - f.lo)) ∧
    t = { d with regs := t.regs, codes := t.codes }

/-- R8, R20, R109, R283: REGISTER_WRITE gives a register of the CORE side the word's effect at once; a word for a register of
the AON domain is on its way until AON_STORE_COMPLETE, which gives it its effect; a poisoned word changes no register but
those that report it. A load of a statistics count's low word latches the high word for its master, whose next load of it
reads that word.
The model's choices in it: log entries 18, 55 and 56. -/
def Obligations.RegisterAccess : Prop :=
  ∀ (s : State) (m : Master) (a v : Word),
    (a.toNat % 4 = 0 → isRegAddr a.toNat = true → Arrives s.dev m a.toNat v.toNat →
      (isAonReg a.toNat = false → noAbort (s.dev.regEffect m a.toNat v) → (s.dev.regEffect m a.toNat v).calm →
        exec (.registerWrite m a v false) s = .next (became s s.core (s.dev.regEffect m a.toNat v))) ∧
      (isAonReg a.toNat = true → (∀ x ∈ s.dev.aonPend, x.addr ≠ a.toNat) →
        exec (.registerWrite m a v false) s = .next (became s s.core
          { s.dev with aonPend := s.dev.aonPend ++ [⟨a.toNat, v, m, s.dev.epoch⟩] })) ∧
      ∃ t, exec (.registerWrite m a v true) s = .next t ∧ t.core = (became s s.core t.dev).core ∧ t.pending = s.pending ∧
        bitAt (t.dev.get F.EVT_TRBL_TRBL) tPOISON = true ∧
        (s.dev.on .core = true → t.dev.get F.INTEG_STAT_POISON_WR = 1) ∧
        (a.toNat ≠ F.EVT_TRBL_TRBL.addr → a.toNat ≠ F.INTEG_STAT_POISON_WR.addr →
          t.dev.reg a.toNat = s.dev.reg a.toNat)) ∧
    (∀ (x : AonStore) (q : List AonStore), s.dev.aonPend = x :: q → (∀ y ∈ q, y.addr ≠ x.addr) →
      (Dev.regEffect { s.dev with aonPend := q } x.master x.addr x.val).calm →
      exec .aonStoreComplete s = .next (became s s.core (Dev.regEffect { s.dev with aonPend := q } x.master x.addr x.val))) ∧
    (∀ i : Fin 1024, a.toNat = ctxWord i 0x80 → s.dev.calm → (∀ x ∈ s.dev.aonPend, x.addr ≠ a.toNat) →
      (∀ k, k < 8 → s.dev.ctxChk (a.toNat + k) = 0) → s.dev.reachCheck m .read a.toNat = (s.dev, true) →
      s.dev.slaveCheck s.dev.epoch m false .read a.toNat = (s.dev, .ok) →
      ∃ t, exec (.counterLatchRead m a) s = .next t ∧ t.core = (became s s.core t.dev).core ∧ t.pending = s.pending ∧
        t.dev.highOf m (ctxWord i 0x84) = some (s.dev.reg (ctxWord i 0x84)) ∧
        t.dev = { s.dev with latches := t.dev.latches } ∧
        (t.dev.regRead m (ctxWord i 0x84)).2 = s.dev.reg (ctxWord i 0x84) ∧
        (t.dev.regRead m (ctxWord i 0x84)).1.highOf m (ctxWord i 0x84) = none)

/-! ### Contactless side -/

/-- R327, R329, R340: the carrier's coming and going. Each sets FIELD_CHG; at its loss every session, command and activation
ends, and the layer is IDLE; a RELOAD that waited for a response then reads the parameters. -/
def Sys2Proof.Claims.FieldChanges : Prop :=
  ∀ s : State, s.dev.calm → s.dev.on .isle = true →
    (s.dev.env.carrier = false →
      exec (.fieldChg true) s = .next (became s s.core
        ({ s.dev with env := { s.dev.env with carrier := true } }.put F.RFIF_EVT_FIELD_CHG 1))) ∧
    (s.dev.env.carrier = true → (s.dev.hp.reload = true → ∀ k, (s.dev.slot k).chk = []) →
      ∃ t, exec (.fieldChg false) s = .next t ∧ ProtocolEnded s t lyIDLE ∧ t.dev.env.carrier = false ∧
        t.dev.get F.RFIF_EVT_FIELD_CHG = 1 ∧ t.dev.get F.RFIF_STAT_PROTO = 0 ∧ t.dev.hp.reload = false ∧
        t.dev.hp.loaded = (s.dev.hp.loaded || s.dev.hp.reload))

/-- R329, R340: HLTA, HLTB, S(DESELECT) and STAY_QUIET end the protocol, into HALT or QUIET; HLTB and S(DESELECT) are
answered. Where a RELOAD waited, the end without an answer leads to IDLE with the parameters read. -/
def Sys2Proof.Claims.HaltsEnd : Prop :=
  ∀ s : State, s.dev.calm → s.dev.answers = true →
    (s.dev.proto = 1 → (s.dev.layer = lyACTIVE ∨ s.dev.layer = lyPROTOCOL) →
      (s.dev.hp.reload = true → ∀ k, (s.dev.slot k).chk = []) →
      ∃ t, exec .hlta s = .next t ∧ ProtocolEnded s t (if s.dev.hp.reload then lyIDLE else lyHALT) ∧
        t.dev.hp.out = none ∧ t.dev.hp.reload = false) ∧
    (s.dev.proto = 2 → (s.dev.layer = lyREADY ∨ s.dev.layer = lyPROTOCOL) →
      ∃ t, exec (.hltb s.dev.hp.pupi) s = .next t ∧ ProtocolEnded s t lyHALT ∧
        t.dev.hp.out = some ⟨.plain, [0x00], true, false, false⟩) ∧
    (s.dev.layer = lyPROTOCOL → (s.dev.proto = 1 ∨ s.dev.proto = 2) →
      ∃ t, exec .sDeselect s = .next t ∧ ProtocolEnded s t lyHALT ∧
        t.dev.hp.out = some ⟨.plain, s.dev.hp.pcb 0xC2, true, false, false⟩) ∧
    (s.dev.hp.v15693 = true → (s.dev.proto = 0 ∨ s.dev.proto = 3 ∨ s.dev.layer = lyIDLE) →
      (s.dev.hp.reload = true → ∀ k, (s.dev.slot k).chk = []) →
      ∃ t, exec (.stayQuiet uidV) s = .next t ∧ ProtocolEnded s t (if s.dev.hp.reload then lyIDLE else lyQUIET) ∧
        t.dev.hp.out = none ∧ t.dev.hp.reload = false ∧
        t.dev.get F.RFIF_STAT_PROTO = (if s.dev.hp.reload then 0 else 3))

/-- The field's coming and going, and the halts that end a protocol.
The model's choices in it: log entry 42. -/
def Obligations.FieldChanges : Prop :=
  Claims.FieldChanges ∧ Claims.HaltsEnd

/-- R331: Type A. REQA and WUPA are answered with ATQA from IDLE, WUPA from HALT too; ANTICOLLISION with the rest of the
level's bytes and their BCC; SELECT with SAK, which leads to the second level or to ACTIVE; RATS with the ATS, which
starts the block protocol; and PPS, for a rate that TA offers, sets the rate. -/
def Sys2Proof.Claims.TypeAActivates : Prop :=
  ∀ s : State, s.dev.calm → s.dev.answers = true →
    let d := s.dev
    let u : Bytes := if d.hp.randomUid then 0x08 :: d.hp.rnd.drop 1 else if d.hp.level = 0 then 0x88 :: uidFixed.take 3
      else uidFixed.drop 3
    let last := d.hp.randomUid || d.hp.level != 0
    (∀ i : Instr, d.hp.typeA = true →
      ((i = .reqa ∨ i = .wupa) ∧ d.layer = lyIDLE ∨ i = .wupa ∧ d.layer = lyHALT ∧ d.proto = 1) →
      exec i s = .next (became s s.core
        ({ (d.put F.RFIF_STAT_LAYER lyREADY).put F.RFIF_STAT_PROTO 1 with
          hp := { d.hp with level := 0, fromHalt := decide (d.layer = lyHALT) } }.sendPlain
            (if d.hp.randomUid then [0x04, 0x00] else [0x44, 0x00]) false))) ∧
    (∀ (l : Fin 2) (known rest : Bytes), d.proto = 1 → d.layer = lyREADY → l.val = d.hp.level →
      (d.hp.randomUid = false ∨ l = 0) → known ++ rest = u ++ [bcc u] →
      exec (.anticollision l known) s = .next (became s s.core (d.sendPlain rest false))) ∧
    (∀ (l : Fin 2), d.proto = 1 → d.layer = lyREADY → l.val = d.hp.level → (d.hp.randomUid = false ∨ l = 0) →
      u.length = 4 →
      exec (.select l u) s = .next (became s s.core
        (if last then (d.sendPlain [0x20] true).put F.RFIF_STAT_LAYER lyACTIVE
         else { d with hp := { d.hp with level := 1 } }.sendPlain [0x04] true))) ∧
    (∀ p : Byte, d.proto = 1 → d.layer = lyACTIVE → p.toNat % 16 < 15 →
      exec (.rats p) s = .next (became s s.core
        ({ d.put F.RFIF_STAT_LAYER lyPROTOCOL with hp := { d.hp with
            cid := p.toNat % 16, fsd := fsdOf (p.toNat / 16), bn := true, chain := [], fresh := true, lastBlock := [],
            wtxOpen := false, wtxCount := 0 } }.sendPlain
          [0x05, 0x78, BitVec.ofNat 8 (rateBits d.hp.maxRate), BitVec.ofNat 8 (d.hp.fwi * 16), 0x02] true))) ∧
    (∀ p : Byte, d.proto = 1 → d.layer = lyPROTOCOL → d.hp.fresh = true → p.toNat < 16 → p.toNat % 4 ≤ d.hp.maxRate →
      p.toNat / 4 ≤ d.hp.maxRate →
      exec (.pps p) s = .next (became s s.core
        (({ d with hp := { d.hp with fresh := false } }.put F.RFIF_STAT_RATE (p.toNat / 4)).sendPlain
          [BitVec.ofNat 8 (0xD0 + d.hp.cid)] true)))

/-- R332: Type B. REQB from IDLE or READY, and WUPB from HALT too, are answered with ATQB; ATTRIB of the device's PUPI, for
rates that ATQB offers, starts the block protocol and is answered with the CID. -/
def Sys2Proof.Claims.TypeBActivates : Prop :=
  ∀ s : State, s.dev.calm → s.dev.answers = true →
    let d := s.dev
    (∀ i : Instr, d.hp.typeB = true →
      ((i = .reqb ∨ i = .wupb) ∧ d.layer = lyIDLE ∨ (i = .reqb ∨ i = .wupb) ∧ d.layer = lyREADY ∧ d.proto = 2 ∨
        i = .wupb ∧ d.layer = lyHALT ∧ d.proto = 2) →
      exec i s = .next (became s s.core (((d.put F.RFIF_STAT_LAYER lyREADY).put F.RFIF_STAT_PROTO 2).sendPlain
        ([0x50] ++ d.hp.pupi ++ [0, 0, 0, 0, BitVec.ofNat 8 (rateBits d.hp.maxRate), 0x81,
          BitVec.ofNat 8 (d.hp.fwi * 16 + 1)]) true))) ∧
    (∀ (rates : Byte) (fsd : Nat) (cid : Fin 16), d.proto = 2 → d.layer = lyREADY → cid.val < 15 → 16 ≤ fsd → fsd ≤ 256 →
      rates.toNat / 64 ≤ d.hp.maxRate → rates.toNat / 16 % 4 ≤ d.hp.maxRate →
      exec (.attrib d.hp.pupi rates fsd cid) s = .next (became s s.core
        (({ d.put F.RFIF_STAT_LAYER lyPROTOCOL with hp := { d.hp with
            cid := cid.val, fsd := fsd, bn := true, chain := [], fresh := true, lastBlock := [], wtxOpen := false,
            wtxCount := 0 } }.put F.RFIF_STAT_RATE (rates.toNat / 64)).sendPlain [BitVec.ofNat 8 cid.val] true)))

/-- R333, R334: ISO/IEC 15693. INVENTORY, SELECT, RESET TO READY and the system information are answered, blocks are those
of the NDEF file, and a block beyond it is answered with error 0x10. A new APDU is taken and polled for; a poll is owed an
answer. -/
def Sys2Proof.Claims.VicinityAnswers : Prop :=
  ∀ (s : State) (mode : VMode) (b : Bool), s.dev.calm → s.dev.vMeant mode = some b →
    let d := s.dev
    let used := if d.layer = lyIDLE then (d.put F.RFIF_STAT_PROTO 3).put F.RFIF_STAT_LAYER lyREADY
      else d.put F.RFIF_STAT_PROTO 3
    let file := (d.ndefFile)
    let blocks := min 252 ((file.length + 3) / 4)
    let answers (c : Instr) (bytes : Bytes) : Prop := ∃ t, exec c s = .next t ∧
      t.core = (became s s.core t.dev).core ∧ t.pending = s.pending ∧ t.dev.owner 0x40 = ownFree ∧
      t.dev.cstArray = d.cstArray ∧ t.dev.hp.out = some ⟨.plain, bytes, true, false, false⟩ ∧ t.dev.proto = 3
    (d.layer ≠ lyQUIET →
      exec .inventory s = .next (became s s.core (used.sendPlain ([0x00, 0x00] ++ uidV) true))) ∧
    exec (.select15693 uidV) s = .next (became s s.core ((used.put F.RFIF_STAT_LAYER lySELECTED).sendPlain [0x00] true)) ∧
    exec (.resetToReady mode) s = .next (became s s.core ((used.put F.RFIF_STAT_LAYER lyREADY).sendPlain [0x00] true)) ∧
    (2 ≤ d.tier → d.alarming = false → d.hp.apdu = none → d.owner 0x40 = ownFree → CstIdle d → PortOpen used →
      answers (.getSystemInformation mode)
        ([0x00, 0x0F] ++ uidV ++ [0x00, 0x00, BitVec.ofNat 8 (blocks - 1), 0x03, 0x48]) ∧
      (∀ k : Byte, k.toNat < blocks → answers (.readSingleBlock mode k)
        (0x00 :: (List.range 4).map fun i => file.getD (4 * k.toNat + i) (Config.blockPad (4 * k.toNat + i)))) ∧
      (∀ k n : Byte, k.toNat + n.toNat + 1 ≤ blocks → answers (.readMultipleBlocks mode k n)
        (0x00 :: (List.range (4 * (n.toNat + 1))).map fun i =>
          file.getD (4 * k.toNat + i) (Config.blockPad (4 * k.toNat + i)))) ∧
      (∀ k : Byte, blocks ≤ k.toNat → answers (.readSingleBlock mode k) [0x01, 0x10])) ∧
    (∀ (bs : Bytes) (a : Apdu), 2 ≤ d.tier → d.owed = false → bs.length ≤ 261 →
      parseApdu bs = some a → a.cla ≠ 0x84 → d.implemented a = true →
      exec (.apduTransfer mode bs) s = .next (became s s.core
        ({ used with hp := { d.hp with result := none, apdu := some a, stage := 0, tries := 0 } }.send .poll [] true false
          false))) ∧
    (2 ≤ d.tier → d.hp.apdu = none → d.hp.held = none → exec (.getResult mode) s = .next (became s s.core (used.send .poll [] true false false)))

/-- Type A and Type B activate, and ISO/IEC 15693 requests are answered.
The model's choices in it: log entries 42 and 43. -/
def Obligations.Activations : Prop :=
  Claims.TypeAActivates ∧ Claims.TypeBActivates ∧ Claims.VicinityAnswers

/-- R335, R337, R338, R353: the block protocol. A chained I-block is acknowledged and its INF kept; the last one gives the
command; below the READ tier and during an alarm the block waits, and S(WTX) answers it. An R(ACK) of the other number brings
the next block of a response; of the same number, as R(NAK), the last one again: an S(WTX) that is unanswered, else the last
block, unless its successor is owed. The answer to an S(WTX) starts the waiting timer again.
The model's choices in it: log entries 41 and 42. -/
def Obligations.BlocksExchanged : Prop :=
  ∀ (s : State), s.dev.calm → s.dev.inProtocol = true →
    let d := s.dev
    let h := d.hp
    let came : Dev := { d with hp := { h with wtxAt := d.now, wtxPrev := 1 } }
    (∀ b : Block, b.crcOk = true → (b.cid.map Fin.val).getD 0 = h.cid → d.owed = false → h.rest = [] →
      b.inf.length + 3 + b2n b.cid.isSome ≤ 256 →
      let taken : Dev := { d with
        hp := { came.hp with bn := !h.bn, fresh := false, wtxCount := 0, wtxOpen := false, wtx := none, out := none,
                             granted := false, refused := false }
        well := { d.well with tx := 0 } }
      (d.tier < 2 ∨ d.alarming = true → exec (.iBlock b) s = .next (became s s.core
        { taken with hp := { taken.hp with held := some (b.chain, b.inf) } })) ∧
      (2 ≤ d.tier → d.alarming = false → b.chain = true → exec (.iBlock b) s = .next (became s s.core
        ({ taken with hp := { taken.hp with chain := h.chain ++ b.inf } }.send .block (h.pcb (0xA2 + b2n (!h.bn))) true false
          false))) ∧
      (∀ a : Apdu, 2 ≤ d.tier → d.alarming = false → b.chain = false → (h.chain ++ b.inf).length ≤ 261 →
        parseApdu (h.chain ++ b.inf) = some a → a.cla ≠ 0x84 → d.implemented a = true →
        exec (.iBlock b) s = .next (became s s.core
          { taken with hp := { taken.hp with chain := [], apdu := some a, stage := 0, tries := 0 } }))) ∧
    (∀ b : Block, b.crcOk = false → exec (.iBlock b) s = .next (became s s.core (d.put F.RFIF_ERR_CRC_ERR 1))) ∧
    (h.rest ≠ [] → h.out = none →
      ∃ t, exec (.rAck (!h.bn)) s = .next t ∧ t.dev.hp.rest = h.rest.drop h.room ∧ t.dev.hp.bn = !h.bn ∧
        t.dev.hp.out.map (·.bytes) = some (h.pcb (2 + 16 * b2n (decide (h.room < h.rest.length)) + b2n (!h.bn)) ++
          h.rest.take h.room) ∧ t.dev.hp.wtxAt = d.now ∧ t.dev = { d with hp := t.dev.hp }) ∧
    (∀ c ∈ [Instr.rAck h.bn, Instr.rNak h.bn],
      (h.wtxOpen = false → d.owed = false → h.out = none → h.lastBlock ≠ [] →
        exec c s = .next (became s s.core (came.send .block h.lastBlock true false false))) ∧
      (h.wtxOpen = false → (d.owed = true ∨ h.out ≠ none) → exec c s = .next (became s s.core came)) ∧
      (h.wtxOpen = true → h.wtxCount < d.get F.RFIF_FW_CFG_WTX_MAX → exec c s = .next (became s s.core
        { came with hp := { came.hp with wtx := some h.wtxSent, wtxOpen := false, granted := false, refused := false } }))) ∧
    exec (.rNak (!h.bn)) s = .next (became s s.core (d.sendPlain (h.pcb (0xA2 + b2n h.bn)) true)) ∧
    (∀ k : Nat, h.wtxOpen = true → exec (.sWtxResponse k) s = .next (became s s.core
      { d with hp := { h with wtxOpen := false, wtxAt := d.now, wtxPrev := k } }))

/-- R341, R342, R349: the commands that Handpump answers by itself: SELECT of an application or of the capability container,
READ BINARY of the selected file, UPDATE BINARY, GET_INFO, and the two steps that open a session. -/
def Sys2Proof.Claims.ApdusAnswered : Prop :=
  ∀ (s : State) (a : Apdu), s.dev.calm →
    let d := s.dev
    (ApduRuns d a 0xA4 → a.p1 = 4 → ∃ t, exec .selectFile s = .next t ∧ Responds s t [0x90, 0x00] ∧
      t.dev.hp.app = (if a.data = [0xD2, 0x76, 0x00, 0x00, 0x85, 0x01, 0x01] then 1 else 2) ∧ t.dev.hp.file = none ∧
      t.dev.hp.auth = none ∧ t.dev.hp.session = d.hp.session) ∧
    (ApduRuns d a 0xA4 → a.p1 = 0 → a.p2 = 0x0C → a.data = [0xE1, 0x03] →
      ∃ t, exec .selectFile s = .next t ∧ Responds s t [0x90, 0x00] ∧ t.dev.hp.file = some capability) ∧
    (∀ f, ApduRuns d a 0xB0 → a.cla = 0 → d.hp.file = some f → a.p1 * 256 + a.p2 ≤ f.length →
      ∃ t, exec .readBinary s = .next t ∧ Responds s t ((f.drop (a.p1 * 256 + a.p2)).take a.le ++ [0x90, 0x00])) ∧
    (ApduRuns d a 0xD6 → a.cla = 0 → ∃ t, exec .updateBinary s = .next t ∧ Responds s t [0x69, 0x82] ∧
      t.dev.cstArray = d.cstArray ∧ t.dev.hp.file = d.hp.file) ∧
    (ApduRuns d a 0x10 → a.p1 = 0 → a.p2 = 0 → a.data = [] → 8 ≤ a.le →
      ∃ t, exec .getInfo s = .next t ∧ Responds s t ([BitVec.ofNat 8 d.opState, BitVec.ofNat 8 d.tier,
        BitVec.ofNat 8 d.cstPhase, BitVec.ofNat 8 (b2n d.hp.session.isSome + 2 * b2n (d.flag F.RFIF_CTL_FW_READY))] ++
        beBytes 2 (d.get F.CST_ALARM_UNACKED) ++ [0x00, 0x01, 0x90, 0x00])) ∧
    (∀ key, ApduRuns d a 0x20 → a.p1 ≤ 3 → a.p2 = 0 → a.data.length = 16 → d.channelKey a.p1 = some key →
      (d.slot (byteAt d.hp.cfg5 a.p1)).chk = [] → d.evt.esn + 1 < 2 ^ 48 → 16 ≤ a.le →
      ∃ t, exec .authInit s = .next t ∧ t.dev.evt.esn = d.evt.esn + 1 ∧ t.dev.hp.session = none ∧
        Responds s t ((aesEnc key (0xB1 :: beBytes 6 d.evt.esn ++ a.data.take 9)).take 16 ++ [0x90, 0x00]) ∧
        t.dev.hp.auth = some (secKeys a.p1 key a.data
          (aesEnc key (0xB1 :: beBytes 6 d.evt.esn ++ a.data.take 9)))) ∧
    (∀ k, ApduRuns d a 0x22 → a.p1 = 0 → a.p2 = 0 → d.hp.auth = some k → a.data.length = 16 → 16 ≤ a.le →
      (a.data = (Sha.s256.hmac k.mac (0x03 :: k.rndB ++ k.rndA)).take 16 →
        ∃ t, exec .authFinish s = .next t ∧ t.dev.hp.session = some k ∧ t.dev.hp.auth = none ∧ t.dev.hp.n = 0 ∧
          t.dev.get F.RFIF_STAT_SESSION = 1 ∧
          Responds s t ((Sha.s256.hmac k.mac (0x04 :: k.rndA ++ k.rndB)).take 16 ++ [0x90, 0x00])) ∧
      (a.data ≠ (Sha.s256.hmac k.mac (0x03 :: k.rndB ++ k.rndA)).take 16 →
        ∃ t, exec .authFinish s = .next t ∧ t.dev.hp.session = none ∧ t.dev.hp.auth = none ∧
          t.dev.get F.RFIF_STAT_SESSION = 0 ∧ Responds s t [0x63, 0x00]))

/-- R342 to R346: the commands that read the Cistern claim the free port that Handpump may write, read, answer and give the port back: the data of
a parameter that the field may read, the five bytes of a counter, and the records of an open log ring or of the alarm
log. A claim that finds the port held is counted, and tried again until it succeeds. -/
def Sys2Proof.Claims.ApdusReadCistern : Prop :=
  ∀ (s : State) (a : Apdu), s.dev.calm → s.dev.owner 0x40 = ownFree → CstIdle s.dev → PortOpen s.dev →
    let d := s.dev
    let ok : Bytes := [0x90, 0x00]
    let done (c : Instr) (bytes : Bytes) : Prop := ∃ t, exec c s = .next t ∧ Responds s t bytes ∧
      t.dev.owner 0x40 = ownFree ∧ t.dev.cstArray = d.cstArray
    (∀ r b, ApduRuns d a 0x30 → a.p1 ≤ 1 → a.p2 < 256 → a.data.length = 2 →
      d.param (a.p1 * 256 + a.p2) = .one r b → r.flags % 4 = 1 → r.data.length = r.len → r.len ≤ 1004 →
      done .apduReadParam ((r.data.drop (beNat a.data)).take a.le ++ ok)) ∧
    (∀ v h, ApduRuns d a 0x32 → a.p1 = 0 → a.p2 ≤ 31 → a.data = [] → 5 ≤ a.le → d.counter a.p2 = some (v, h, false) →
      v < 2 ^ 40 → (∀ x y, d.high a.p2 ≠ .conflict x y) → done .apduReadCtr (beBytes 5 v ++ ok)) ∧
    (∀ r, ApduRuns d a 0x34 → a.p1 ≤ 7 → a.p2 = 0 → a.data.length = 4 → beNat a.data ≠ 0 → (d.cRing a.p1).count ≠ 0 →
      bitAt (byteAt d.hp.cfg5 4) a.p1 = true → (d.ringRecs a.p1).find? (fun r => r.seq == beNat a.data) = some r →
      r.seq < 2 ^ 32 → done .apduReadLog ((r.bytes.take (16 + r.len)).take a.le ++ ok)) ∧
    (∀ r, ApduRuns d a 0x36 → a.p1 = 0 → a.p2 = 0 → a.data.length = 4 → beNat a.data ≠ 0 →
      d.alarmRecs.find? (fun r => r.seq == beNat a.data) = some r → r.seq < 2 ^ 32 →
      done .apduReadAlarm ((r.bytes.take (16 + r.len)).take a.le ++ ok)) ∧
    (∀ (m : BitVec 5) (v h : Nat), m ≠ ownFree → m ≠ 12 → ApduRuns d a 0x32 → a.p1 = 0 → a.p2 ≤ 31 → a.data = [] →
      let busy : State := { s with dev := d.setOwner 0x40 m }
      ∃ t, exec .apduReadCtr busy = .next t ∧ t.dev.hp.tries = 1 ∧ t.dev.hp.apdu = some a ∧ t.dev.hp.out = d.hp.out ∧
        (5 ≤ a.le → d.counter a.p2 = some (v, h, false) → v < 2 ^ 40 → (∀ x y, d.high a.p2 ≠ .conflict x y) →
          let freed : State := { s with dev := { d with hp := { d.hp with tries := 1 } } }
          ∃ u, exec .portClaimRetry freed = .next u ∧ Responds s u (beBytes 5 v ++ ok)))

/-- Handpump answers its commands, and reads the Cistern through the claimed port.
The model's choices in it: log entries 36 and 40. -/
def Obligations.ApdusAnswered : Prop :=
  Claims.ApdusAnswered ∧ Claims.ApdusReadCistern

/-- R329, R336, R338, R347, R351, R352, R354: frames, waiting times and firmware. A frame that the gauge grants leaves and its
budget is returned; S(WTX) becomes due once a command has
been owed an answer for 0.8 FWT of the WTXM that was acknowledged; a command goes to firmware as the record of R351, its lengths little-endian, and firmware's response is sent, 9206 in its
place where it would carry a poisoned word, or 920A once the timeout has passed; a load of FW_DATA takes the record's next four bytes; and parameters 5 and 6 are loaded at power-up and by
RELOAD.
The model's choices in it: log entries 39, 41 and 43. -/
def Obligations.FramesAndFirmware : Prop :=
  ∀ s : State, s.dev.calm →
    let d := s.dev
    (∀ o, d.hp.wtx = none → d.hp.out = some o → o.kind ≠ .poll →
      (o.kind = .block → d.hp.wtxOpen = false) → d.on .isle = true → d.hp.granted = false →
      d.hp.reload = false → (d.askEnergy .response 1 (d.frameBudget (o.bytes.length + if o.crc then 2 else 0))).2 = true →
      ∃ t, exec .responseTransmit s = .next t ∧ t.dev.hp.sent = o.bytes ∧ t.dev.hp.out = none ∧ t.dev.well.tx = 0 ∧
        t.dev.hp.lastBlock = (if o.kind = .block then o.bytes else d.hp.lastBlock) ∧
        t.dev.hp.n = (if o.bump then d.hp.n + 1 else d.hp.n) ∧ t.core = (became s s.core t.dev).core ∧
        t.pending = s.pending) ∧
    (d.inProtocol = true → d.hp.fw.isSome → d.hp.out = none → d.hp.apdu = none → d.hp.wtx = none → d.hp.wtxOpen = false →
      d.hp.wtxCount < d.get F.RFIF_FW_CFG_WTX_MAX → d.hp.held = none →
      exec .wtxTimer s = .next (became s s.core
        (if 4096000 * 2 ^ d.hp.fwi * d.hp.wtxPrev * 20 < (d.now - d.hp.wtxAt) * 339 then
          { d with hp := { d.hp with wtx := some (d.get F.RFIF_FW_CFG_WTXM), granted := false, refused := false } }
         else d))) ∧
    (∀ c, d.hp.fw = some c → c.apdu.secure = false → d.hp.apdu = none → d.owner 0x40 ≠ 12 →
      (d.now ≤ c.since + d.get F.RFIF_FW_CFG_TMO_MS * 10 ^ 6 → exec .fwTimeout s = .next (became s s.core d)) ∧
      (c.since + d.get F.RFIF_FW_CFG_TMO_MS * 10 ^ 6 < d.now → ∃ t, exec .fwTimeout s = .next t ∧ Responds s t [0x92, 0x0A] ∧ t.dev.hp.fw = none ∧
        t.dev.get F.RFIF_ERR_FW_TIMEOUT = 1 ∧ t.dev.get F.RFIF_FW_CMD_VALID = 0) ∧
      (∀ (m : Master) (v : Word), Arrives d m F.RFIF_FW_RESP_SW.addr v.toNat → d.hp.fwPoison = [] →
        v.toNat % 512 ≤ 256 →
        ∃ t, exec (.fwResp m v) s = .next t ∧ t.dev.hp.fw = none ∧ t.dev.get F.RFIF_FW_CMD_VALID = 0 ∧
          Responds s t (((List.range 64).flatMap fun i => leBytes 4 (d.reg (0x400B0400 + 4 * i)).toNat).take
            (v.toNat % 512) ++ beBytes 2 (v.toNat / 2 ^ 16))) ∧
      (∀ (m : Master) (v : Word) (k : Nat), Arrives d m F.RFIF_FW_RESP_SW.addr v.toNat → k ∈ d.hp.fwPoison →
        k < v.toNat % 512 → v.toNat % 512 ≤ 256 →
        ∃ t, exec (.fwResp m v) s = .next t ∧ t.dev.hp.fw = none ∧ t.dev.get F.RFIF_ERR_POISON = 1 ∧
          Responds s t [0x92, 0x06]) ∧
      (∀ m : Master, (∀ x ∈ d.aonPend, x.addr ≠ F.RFIF_FW_DATA_DATA.addr) →
        d.reachCheck m .read F.RFIF_FW_DATA_DATA.addr = (d, true) →
        d.slaveCheck d.epoch m false .read F.RFIF_FW_DATA_DATA.addr = (d, .ok) →
        exec (.fwDataRead m) s = .next (became s s.core
          { d with hp := { d.hp with fw := some { c with pos := c.pos + 4 } } }) ∧
        d.busLoad m .read F.RFIF_FW_DATA_DATA.addr 4 =
          ({ d with hp := { d.hp with fw := some { c with pos := c.pos + 4 } } }, .ok,
            marked (leBytes 4 (leNat (slice c.record c.pos 4))) false))) ∧
    (∀ x : Apdu, (d.handOver x).hp.fw = some ⟨x, leBytes 2 x.data.length ++ [BitVec.ofNat 8 x.cla, BitVec.ofNat 8 x.ins,
        BitVec.ofNat 8 x.p1, BitVec.ofNat 8 x.p2] ++ x.data ++ leBytes 2 x.le, 0, d.now⟩ ∧ (d.handOver x).hp.apdu = none ∧
      (d.handOver x).get F.RFIF_FW_CMD_VALID = 1 ∧ (d.handOver x).get F.RFIF_FW_CMD_SECURE = b2n x.secure) ∧
    (d.on .isle = true → d.hp.loaded = false → d.cst.due = false → (∀ k, (d.slot k).chk = []) →
      ∃ t, exec .contactlessConfigLoad s = .next t ∧ t.dev.hp.loaded = true ∧
        t.dev.hp.cfg5 = ((d.ownParam 5).getD []).take 6 ++
          ([0xFF, 0xFF, 0xFF, 0xFF, 0, 0xFF] : Bytes).drop ((d.ownParam 5).getD []).length ∧
        t.dev.hp.cfg6 = ((d.ownParam 6).getD []).take 3 ++ ([0x07, 3, 4] : Bytes).drop ((d.ownParam 6).getD []).length ∧
        t.dev.get F.RFIF_STAT_CFG_DEFAULT = b2n ((d.ownParam 5).isNone || (d.ownParam 6).isNone) ∧
        t.dev = { d with regs := t.dev.regs, hp := t.dev.hp }) ∧
    (∀ m : Master, Arrives d m F.RFIF_CTL_RELOAD.addr ((d.reg F.RFIF_CTL_RELOAD.addr ||| 4).toNat) →
      (d.hp.apdu = none → d.hp.fw = none → d.hp.out = none → (∀ k, (d.slot k).chk = []) →
        ∃ t, exec (.reload m) s = .next t ∧ ProtocolEnded s t lyIDLE ∧ t.dev.hp.loaded = true ∧ t.dev.hp.reload = false ∧
          t.dev.hp.cfg5 = ((d.ownParam 5).getD []).take 6 ++
            ([0xFF, 0xFF, 0xFF, 0xFF, 0, 0xFF] : Bytes).drop ((d.ownParam 5).getD []).length) ∧
      (d.hp.out ≠ none → ∃ t, exec (.reload m) s = .next t ∧ t.dev.hp = { d.hp with reload := true }))

/-! ### Links and lanes -/

/-- R42, R43, R45: the steps of link start-up. Lock leads to PCS synchronisation, synchronisation to auto-negotiation or, with
AN_EN = 0, up; the exchange brings the port up at the speed of its mode or holds it for half duplex; a timeout that has
passed goes back or starts its step again, and one that has not changes nothing. LINKx_STAT is the one register that
changes, and its change is the port's interrupt condition; ACT falls 50 ms after the latest frame. -/
def Sys2Proof.Claims.LinkStartsUp : Prop :=
  ∀ (s : State) (p : Port), s.dev.calm → s.dev.on p.dom = true →
    let d := s.dev
    let L := d.link p
    let f (x : Fl) : Fl := portField p x
    let stat := (f F.LINK_STAT_SYNC).addr
    let goes (i : Instr) (x : LinkStep) (q : State → Prop) : Prop :=
      ∃ t, exec i s = .next t ∧ t.core = (became s s.core t.dev).core ∧ t.pending = s.pending ∧
        t.dev.link p = { L with step := x, stepAt := d.now } ∧ (∀ a, a ≠ stat → t.dev.reg a = d.reg a) ∧
        (t.dev.reg stat ≠ d.reg stat → t.dev.irq.getLsbD (portIrq p) = true) ∧ q t
    let isUp (speed : Nat) (t : State) : Prop :=
      t.dev.get (f F.LINK_STAT_LINK_UP) = 1 ∧ t.dev.get (f F.LINK_STAT_AN_DONE) = 1 ∧
        t.dev.get (f F.LINK_STAT_SPEED) = (if d.get (f F.LINK_CTRL_MODE) = 1 then speed else 2)
    let still (i : Instr) : Prop := exec i s = .next (became s s.core d)
    let timer := if d.get (f F.LINK_CTRL_MODE) = 0 then 10000000 else 1600000
    (L.step = .serdes →
      goes (.serdesLock p) .pcs (fun t => t.dev.reg stat = d.reg stat) ∧
      (d.now ≤ L.stepAt + 100000 → still (.serdesLockTimeout p)) ∧
      (L.stepAt + 100000 < d.now → ∃ t, exec (.serdesLockTimeout p) s = .next t ∧ t.pending = s.pending ∧
        t.dev.link p = L ∧ t.dev.get (f F.LINK_STAT_SYNC) = 0)) ∧
    (L.step = .pcs →
      (d.get (f F.LINK_CTRL_AN_EN) = 1 →
        goes (.pcsSync p) .autoneg fun t => t.dev.get (f F.LINK_STAT_SYNC) = 1) ∧
      (d.get (f F.LINK_CTRL_AN_EN) = 0 →
        goes (.pcsSync p) .up fun t => isUp (d.get (f F.LINK_CTRL_FORCE_SPEED)) t ∧ t.dev.get (f F.LINK_STAT_SYNC) = 1) ∧
      (d.now ≤ L.stepAt + 20000 → still (.pcsSyncTimeout p)) ∧
      (L.stepAt + 20000 < d.now →
        goes (.pcsSyncTimeout p) .serdes fun t => t.dev.get (f F.LINK_STAT_SYNC) = 0 ∧
          t.dev.get (f F.LINK_STAT_LINK_UP) = 0 ∧ t.dev.get (f F.LINK_STAT_SPEED) = 3)) ∧
    (L.step = .autoneg →
      (d.now ≤ L.stepAt + timer → still (.anLinkTimer p)) ∧
      (L.stepAt + timer < d.now →
        (d.get (f F.LINK_CTRL_AN_EN) = 1 → goes (.anLinkTimer p) .autoneg fun t => t.dev.reg stat = d.reg stat) ∧
        (d.get (f F.LINK_CTRL_AN_EN) = 0 → goes (.anLinkTimer p) .up (isUp (d.get (f F.LINK_CTRL_FORCE_SPEED))))) ∧
      ∀ w : AnWord,
        (w.halfDuplex = false →
          goes (.anDone p w) .up fun t => isUp w.speed.val t ∧
            t.dev.get (f F.LINK_STAT_REMOTE_FAULT) = b2n w.remoteFault) ∧
        (w.halfDuplex = true →
          goes (.anDone p w) .held fun t => t.dev.get (f F.LINK_STAT_REMOTE_FAULT) = b2n w.remoteFault ∧
            t.dev.get (f F.LINK_STAT_AN_DONE) = 1 ∧ t.dev.get (f F.LINK_STAT_HDX_REFUSED) = 1 ∧
            t.dev.get (f F.LINK_STAT_LINK_UP) = d.get (f F.LINK_STAT_LINK_UP))) ∧
    (d.now ≤ L.actAt + 50000000 → still (.actTimeout p)) ∧
    (L.actAt + 50000000 < d.now →
      exec (.actTimeout p) s = .next (became s s.core (d.setLink p { L with act := false })))

/-- R43, R65: loss of synchronisation and AN_RESTART take a port back to PCS synchronisation and a change of MODE to SerDes
lock; LINK_UP, AN_DONE and SYNC fall, SPEED shows no link, and nothing is left in egress. -/
def Sys2Proof.Claims.LinkRestarts : Prop :=
  ∀ (s : State) (p : Port), s.dev.calm → s.dev.on p.dom = true →
    (∀ e r, s.dev.egress p = some e → e.src ≠ .ring r) →
    let d := s.dev
    let f (x : Fl) : Fl := portField p x
    let ctrl := (f F.LINK_CTRL_MODE).addr
    let fell (t : State) (x : LinkStep) : Prop :=
      t.core = (became s s.core t.dev).core ∧ t.pending = s.pending ∧ (t.dev.link p).step = x ∧
        t.dev.get (f F.LINK_STAT_LINK_UP) = 0 ∧ t.dev.get (f F.LINK_STAT_AN_DONE) = 0 ∧
        t.dev.get (f F.LINK_STAT_SYNC) = 0 ∧ t.dev.get (f F.LINK_STAT_SPEED) = 3 ∧ t.dev.egress p = none
    (((d.link p).step = .autoneg ∨ (d.link p).step = .held ∨ (d.link p).step = .up) →
      ∃ t, exec (.syncLoss p) s = .next t ∧ fell t .pcs) ∧
    (∀ m : Master, Arrives d m ctrl ((d.reg ctrl ||| 0x10).toNat) → (d.link p).step ≠ .serdes →
      d.get (f F.LINK_CTRL_FORCE_SPEED) ≤ 2 → ∃ t, exec (.anRestart m p) s = .next t ∧ fell t .pcs) ∧
    (∀ (m : Master) (v : Word), Arrives d m ctrl v.toNat → v.toNat % 2 ≠ d.get (f F.LINK_CTRL_MODE) →
      ∃ t, exec (.linkModeChange m p v) s = .next t ∧ fell t .serdes ∧ t.dev.get (f F.LINK_CTRL_MODE) = v.toNat % 2)

/-- The steps of link start-up, and what takes a port back to them.
The model's choices in it: log entry 29. -/
def Obligations.LinksStart : Prop :=
  Claims.LinkStartsUp ∧ Claims.LinkRestarts

/-- R44, R46, R47, R78: a frame on an enabled lane that runs enters it with the next arrival number and its stamp, and is
counted; a MAC control frame and a full buffer leave no frame, and each has its count, and so does a lane whose ENABLE is 0.
A frame that FAILED or the fill of Buckets keeps out counts in LANE_OFF too: the model's choice (log entry 59). -/
def Sys2Proof.Claims.FramesEnter : Prop :=
  ∀ (s : State) (l : Lane) (x : RxFrame), s.dev.calm → s.dev.on .pump = true → s.dev.linkUp l.ingress = true →
    let d := s.dev
    let L := d.lane l
    let en := d.flag (laneField l F.LANE_CFG_ENABLE)
    let arrived (t : State) (k : Fin 31) (frames : List Frame) : Prop :=
      t.core = (became s s.core t.dev).core ∧ t.pending = s.pending ∧ (t.dev.lane l).frames = frames ∧
        ((t.dev.lane l).counters[0]).toNat = satAdd 64 (L.counters[0]).toNat 1 ∧
        ((t.dev.lane l).counters[1]).toNat = satAdd 64 (L.counters[1]).toNat x.len ∧
        (k ≠ 0 → ((t.dev.lane l).counters[k]).toNat = satAdd 64 (L.counters[k]).toNat 1) ∧
        t.dev.lane (otherLane l) = d.lane (otherLane l) ∧ (t.dev.link l.ingress).act = true ∧
        (t.dev.link l.ingress).rxUntil = d.now + (8 + x.len) * byteNs (d.linkSpeed l.ingress)
    (isMacControl x.bytes = true → ∃ t, exec (.rxFrame l x) s = .next t ∧ arrived t 19 L.frames) ∧
    (isMacControl x.bytes = false →
      (d.laneState l ≠ laneRESTART → d.laneState l ≠ laneCATCH_UP → d.laneState l ≠ laneFAILED → d.filled[1] = true →
        en = true →
        (L.bufferUsed + 1536 ≤ 4096 →
          ∃ t, exec (.rxFrame l x) s = .next t ∧ arrived t 0 (L.frames ++ [newFrame L.arrivals x (d.stampAt x.fine)]) ∧
            (t.dev.lane l).arrivals = L.arrivals + 1) ∧
        (4096 < L.bufferUsed + 1536 → ∃ t, exec (.rxFrame l x) s = .next t ∧ arrived t 22 L.frames)) ∧
      (en = false ∨ d.laneState l = laneFAILED ∨ d.filled[1] = false →
        ∃ t, exec (.rxFrame l x) s = .next t ∧ arrived t 30 L.frames))

/-- R47, R71, R78: the lane's gate and its counters. A set ENABLE opens the lane at once, a cleared one closes it at the
boundary; the end of the restart counts it, and the end of catch-up opens the lane again where ENABLE is set. A mismatch
takes the lane out of RUN and counts it. SNAP leaves the live counters, SNAP_CLR clears them. -/
def Sys2Proof.Claims.LaneGates : Prop :=
  ∀ (s : State) (l : Lane),
    let d := s.dev
    let L := d.lane l
    let en := d.flag (laneField l F.LANE_CFG_ENABLE)
    let opens (i : Instr) (b : Bool) : Prop :=
      ∃ t, exec i s = .next t ∧ t.pending = s.pending ∧ (t.dev.lane l).open_ = b ∧ (t.dev.lane l).frames = L.frames
    let counts (i : Instr) (k : Fin 31) : Prop :=
      ∃ t, exec i s = .next t ∧ t.pending = s.pending ∧ t.dev.laneState l ≠ laneRUN ∧
        ((t.dev.lane l).counters[k]).toNat = satAdd 64 (L.counters[k]).toNat 1
    (∀ (m : Master) (v : Word), Arrives d m (laneField l F.LANE_CFG_ENABLE).addr v.toNat → v.getLsbD 0 = true →
      d.laneState l ≠ laneFAILED → opens (.laneCfgWrite m l v) true) ∧
    (∀ m : Master, Arrives d m (laneField l F.CNT_CTL_OP).addr 1 →
      ∃ t, exec (.snap m l) s = .next t ∧ t.pending = s.pending ∧ (t.dev.lane l).counters = L.counters) ∧
    (∀ m : Master, Arrives d m (laneField l F.CNT_CTL_OP).addr 2 →
      ∃ t, exec (.snapClr m l) s = .next t ∧ t.pending = s.pending ∧
        (t.dev.lane l).counters = Vector.replicate 31 0) ∧
    (d.calm → d.on .pump = true →
      (opens (.laneOffApplied l) (en && L.open_)) ∧
      (d.laneState l = laneCATCH_UP → (∀ e ∈ d.reserve, e.lane ≠ l) → opens (.catchUpDone l) en) ∧
      (d.laneState l = laneRESTART → L.waitRestart = false → counts (.laneRestartDone l) 28) ∧
      (∀ (point : Fin 6) (p : Nat), d.laneState l ≠ laneFAILED → counts (.laneMismatch l point p) 27))

/-- R48, R52, R53, R55, R56, R85, R96: LOOKUP gives a frame its context and action, the better score and then the lower
index; an action that the lane does not permit acts as DROP. A frame under DELAY takes a hold slot, and one under PASS or
DROP stays where it is. A frame under TAG fails KEY without an epoch or a count to use; else it reserves a count, and fails
FORMAT where it is neither GOOSE nor SV, or is discarded where its output is too long. A frame that matches no context takes
the lane's action for that; it counts in NO_MATCH at each lookup (the model's choice, log entry 59). -/
def Sys2Proof.Claims.LookupDecides : Prop :=
  ∀ (s : State) (l : Lane) (n : Nat) (f : Frame), s.dev.calm → s.dev.on .pump = true → s.dev.frame l n = some f →
    f.looked = false → f.stage = .input → f.failed = none → s.dev.isMgmt l f.rx.body = false →
    isPtp f.rx.bytes = false → (s.dev.lane l).saf = false →
    let d := s.dev
    let looks (q : State → Frame → Prop) : Prop :=
      ∃ t g, exec (.lookup l n) s = .next t ∧ t.pending = s.pending ∧ t.dev.frame l n = some g ∧ g.looked = true ∧
        g.rx = f.rx ∧ g.ts = f.ts ∧ q t g
    (∀ i : Fin 1024, d.classify l f.rx.body = some i → (∀ k < 256, d.ctxChk (ctxWord i k) = 0) →
      d.ctxMatches l f.rx.body i = true ∧
      (∀ j ∈ d.validCtx, d.ctxMatches l f.rx.body j = true → d.ctxScore j ≤ d.ctxScore i ∧
        (d.ctxScore j = d.ctxScore i → i ≤ j)) ∧
      (d.ctx i F.CTX_ACTION = 0 ∨ d.ctx i F.CTX_ACTION = 6 ∨ actionOk l (d.ctx i F.CTX_ACTION) = false →
        looks fun _ g => g.stream = some i ∧ g.stage = .input ∧ g.failed = none ∧ g.verify = false ∧
          g.action = (if actionOk l (d.ctx i F.CTX_ACTION) then d.ctx i F.CTX_ACTION else 6)) ∧
      (∀ k, actionOk l 3 = true → d.ctx i F.CTX_ACTION = 3 → d.freeHold = some k →
        looks fun t g => g.stream = some i ∧ g.action = 3 ∧ g.verify = true ∧ g.stage = .held ∧ g.slot = some k ∧
          k ∈ t.dev.holdUsed) ∧
      (l = .tag → d.ctx i F.CTX_ACTION = 1 → f.tagSlot = none →
        let slot := d.tagChoice i (ptp62 f.ts.1 f.ts.2)
        let room (e : Bool) : Prop := d.ep i e F.CTX_EP_COUNT + d.tagAhead i e n < 0xFFFFFFFF
        (slot = none ∨ (∃ e, slot = some e ∧ ¬ room e) →
          looks fun _ g => g.failed = some .key ∧ g.tagSlot = none ∧ g.stage = .input) ∧
        (∀ e, slot = some e → room e →
          ((isGoose f.rx.bytes || isSv f.rx.bytes) = false ∨ f.rx.deep.ext.isSome = true →
            looks fun _ g => g.failed = some .format ∧ g.tagSlot = some e) ∧
          ((isGoose f.rx.bytes || isSv f.rx.bytes) = true → f.rx.deep.ext = none →
            (tagOutput f.rx (d.ep i e F.CTX_EP_ALG) ≤ 1536 →
              looks fun _ g => g.failed = none ∧ g.tagSlot = some e ∧ g.stage = .input) ∧
            (1536 < tagOutput f.rx (d.ep i e F.CTX_EP_ALG) →
              ∃ t, exec (.lookup l n) s = .next t ∧ t.pending = s.pending ∧ t.dev.frame l n = none ∧
                ((t.dev.lane l).counters[23]).toNat = satAdd 64 ((d.lane l).counters[23]).toNat 1 ∧
                ((t.dev.lane l).counters[13]).toNat = satAdd 64 ((d.lane l).counters[13]).toNat 1))))) ∧
    (d.classify l f.rx.body = none → d.get (laneField l F.LANE_CFG_NOMATCH) = 0 ∨ d.get (laneField l F.LANE_CFG_NOMATCH) = 6 →
      looks fun t g => g.stream = f.stream ∧ g.action = d.get (laneField l F.LANE_CFG_NOMATCH) ∧
        ((t.dev.lane l).counters[11]).toNat = satAdd 64 ((d.lane l).counters[11]).toNat 1)

/-- Frames enter an open lane or are counted, and the lookup gives them their context and action.
The model's choices in it: log entries 26 and 59. -/
def Obligations.FramesEnter : Prop :=
  Claims.FramesEnter ∧ Claims.LaneGates ∧ Claims.LookupDecides

/-- R57, R95, R104, R105, R106: the verdict. Format decides before the key, the key before the algorithm, the algorithm
before the value, and the value before replay and continuity; what is wrong behind the value decides only where the verdict
is not formed first. A frame that passes keeps its pending update. A frame whose counters are a replay fails as soon as
they have entered, and a fresh one goes on. Where both epochs match, slot 0 counts: the model's choice (log entry 61).
The model's choices in it: log entries 25 and 61. -/
def Obligations.VerdictsForm : Prop :=
  ∀ (s : State) (l : Lane) (n : Nat) (f : Frame) (i : Fin 1024), s.dev.calm → s.dev.on .pump = true →
    s.dev.frame l n = some f → f.looked = true → f.mgmt = false → f.verdict = false → f.failed = none →
    f.verify = true → f.stream = some i →
    let d := s.dev
    let r := d.judge l f i
    exec (.verdict l n) s = .next (became s s.core
      (if judgeable f.rx then d.putFrame l { f with verdict := true, failed := r.1, pend := r.2 } else d)) ∧
    (f.rx.deep.ext = none ∨ formatEarly f.rx = true → r = (some .format, none)) ∧
    (∀ x, formatEarly f.rx = false → f.rx.deep.ext = some x →
      let cs := (d.usable f i).filter fun e => x.alg.any fun a => a.val == d.ep i e F.CTX_EP_ALG && x.valLen == valueLen a.val
      let inTime : Prop := formatLate f.rx = false ∨ d.verdictFirst l f x = true
      (d.usable f i = [] → r = (some .key, none)) ∧
      (d.usable f i ≠ [] → cs = [] → r = (some .algorithm, none)) ∧
      (cs ≠ [] → ¬ inTime → r = (some .format, none)) ∧
      (cs ≠ [] → inTime → (∀ e ∈ cs, d.valueMatches l f i x e = false) → r = (some .value, none)) ∧
      (∀ e q, inTime → cs.find? (fun y => d.valueMatches l f i x y) = some e → seqOf f.rx = some q → f.shape = 0 →
        (d.judgeFrame l i f q = .replay → r = (some .replay, none)) ∧
        (∀ w c lost, d.judgeFrame l i f q = .fresh w c lost →
          r = (if (c + d.timeClass f) &&& bitsOf f.guard.toNat 31 24 ≠ 0 then some .continuity
              else if formatLate f.rx then some .format else none,
            some ⟨some e, if c &&& cALIGN = 0 then some q else none, c + d.timeClass f, lost⟩)))) ∧
    (∀ q, seqOf f.rx = some q → f.shape = 0 →
      exec (.replayEarly l n) s = .next (became s s.core
        (if d.judgeFrame l i f q = .replay then d.putFrame l { f with failed := some .replay } else d)))

/-- R103, R104: the replay window of GOOSE counters. A context without a window accepts and starts one; an older stNum is
not fresh and a newer one starts the window again; within a state sqNum moves the window forward, or falls into it once. -/
def Sys2Proof.Claims.GooseWindow : Prop :=
  ∀ (w : Win) (st sq : Nat) (ts : Nat × Nat),
    let started : Win := ⟨true, sq, st, 1, ts.1, ts.2⟩
    let k := dist32 sq w.top
    (w.valid = false → judgeGoose w st sq ts = .fresh started 0 0) ∧
    (w.valid = true →
      (dist32 st w.st < 0 → judgeGoose w st sq ts = .replay) ∧
      (0 < dist32 st w.st → ∃ c, judgeGoose w st sq ts = .fresh started c 0) ∧
      (dist32 st w.st = 0 →
        (0 < k → ∃ c lost, judgeGoose w st sq ts = .fresh
          { started with map := if 64 ≤ k then 1 else (w.map <<< k.toNat % 2 ^ 64) ||| 1 } c lost) ∧
        (k = 0 ∨ k ≤ -64 → judgeGoose w st sq ts = .replay) ∧
        (k < 0 → -64 < k → w.map.testBit (-k).toNat = true → judgeGoose w st sq ts = .replay) ∧
        (k < 0 → -64 < k → w.map.testBit (-k).toNat = false →
          judgeGoose w st sq ts = .fresh { w with map := w.map ||| 2 ^ (-k).toNat } cREORDER 0)))

/-- R104, R105: the window accepts no GOOSE counters twice: after a frame has been accepted and its update written, the same
counters are a replay. -/
def Sys2Proof.Claims.NoReplayTwice : Prop :=
  ∀ (w w1 : Win) (st sq classes lost : Nat) (ts ts1 : Nat × Nat), w.map < 2 ^ 64 → st < 2 ^ 32 → sq < 2 ^ 32 →
    w.st < 2 ^ 32 → w.top < 2 ^ 32 →
    judgeGoose w st sq ts = .fresh w1 classes lost → judgeGoose w1 st sq ts1 = .replay

/-- The GOOSE window moves as the rule says and accepts no counters twice. -/
def Obligations.ReplayWindow : Prop :=
  Claims.GooseWindow ∧ Claims.NoReplayTwice

/-- R54, R64, R65: the ways in which a frame that has not failed goes on: a free egress takes a cut-through frame, or a held
one at its release, and a dropped frame comes to its end. -/
def Sys2Proof.Claims.FramesPass : Prop :=
  ∀ (s : State) (l : Lane) (n : Nat) (f : Frame), s.dev.calm → s.dev.on .pump = true → s.dev.on .core = true →
    s.dev.frame l n = some f →
    let d := s.dev
    let taken (i : Instr) : Prop := ∃ t e, exec i s = .next t ∧ t.pending = s.pending ∧
      t.dev.egress l.egress = some e ∧ e.src = .lane l n ∧ e.bytes = d.outBytes l f ∧ e.stomp = none
    (d.egress l.egress = none → d.linkUp l.egress = true →
      (d.cutReady l = some f → taken (.egressStart l.egress)) ∧
      (∀ k, d.cutReady l = none → d.releasable l f = true → f.stage = .held → f.slot = some k →
        (l.egress = .a → d.stagedFrom 5 = none) →
        d.memRead 11 (slotAddr k) f.rx.body.length = (d, marked f.rx.body false) → taken (.holdRelease l n))) ∧
    (f.looked = true → f.action = 6 → f.failed = none → macFail f.rx = none →
      ∃ t, exec (.frameCommit l.egress (.discarded l n)) s = .next t ∧ t.pending = s.pending ∧ t.dev.frame l n = none ∧
        t.dev.egress l.egress = d.egress l.egress)

/-- R59 to R62, R77, R78: a frame that fails before its egress is discarded and counted; one in egress is stomped at its
position, which is inside its output and, for VALUE, no later than the value's last byte: the bytes before the position
leave, then /V/ and the complement of their FCS, each as often as the speed repeats a byte, and /T/R/. Each leaves its
record in LANE_LAST. -/
def Sys2Proof.Claims.FailuresEnd : Prop :=
  ∀ (s : State) (l : Lane) (n p : Nat) (f : Frame) (why : FailKind), s.dev.calm → s.dev.on .pump = true →
    s.dev.frame l n = some f → s.dev.failureIs f why = true → f.reported = false →
    let d := s.dev
    let count (t : State) (k : Fin 31) : Prop :=
      ((t.dev.lane l).counters[k]).toNat = satAdd 64 ((d.lane l).counters[k]).toNat 1
    let gone (t : State) : Prop := t.core = (became s s.core t.dev).core ∧ t.pending = s.pending ∧
      t.dev.frame l n = none ∧ t.dev.get (laneField l F.LANE_LAST_REASON) = failCode why ∧
      t.dev.lane (otherLane l) = d.lane (otherLane l)
    (f.stage = .input ∨ f.stage = .held ∨ f.stage = .reserve ∧ d.laneState l = laneCATCH_UP →
      ∃ t, exec (.frameFailure l n why p) s = .next t ∧ gone t ∧ count t 13 ∧
        t.dev.get (laneField l F.LANE_LAST_STOMPED) = 0 ∧ ∀ q, t.dev.egress q = d.egress q) ∧
    (f.stage = .divert → ∃ t, exec (.frameFailure l n why p) s = .next t ∧ t.pending = s.pending ∧
      t.dev.frame l n = some { f with failed := some why, reported := true }) ∧
    (∀ e, f.stage = .egress → d.egress l.egress = some e → e.src = .lane l n → e.stomp = none →
      let q := min (d.stompAt f why p) (e.bytes.length - 1)
      let fcs := leBytes 4 (0xFFFFFFFF - crc32 (e.bytes.take q ++ [0]))
      let reps := byteReps (d.linkSpeed l.egress)
      ∃ t tail, exec (.frameFailure l n why p) s = .next t ∧ gone t ∧ count t 12 ∧
        t.dev.get (laneField l F.LANE_LAST_STOMPED) = 1 ∧
        t.dev.egress l.egress = some { e with src := .orphan, bytes := e.bytes.take q ++ [0] ++ fcs, stomp := some q, tail } ∧
        tail.take reps = List.replicate reps .v ∧
        tail.drop (5 * reps) = [.t, .r] ++ (if reps * (q + 13) % 2 = 1 then [.r] else []) ∧
        (∀ k b, fcs[k]? = some b → (tail.drop ((k + 1) * reps)).take reps = List.replicate reps (.data b)) ∧
        (why = .value → ∀ x, f.rx.deep.ext = some x → q ≤ x.valEnd - 1))

/-- A frame goes on to its egress or its end; one that fails is discarded before its egress, or stomped in it inside its output.
The model's choices in it: log entry 26. -/
def Obligations.FailuresEnd : Prop :=
  Claims.FramesPass ∧ Claims.FailuresEnd

/-- R53, R54, R64 to R66, R78, R115: a free egress takes the lane's first ready frame: a cut-through frame, or a held one at
its release, starts, or is discarded where the port is down; a held frame that reads back poisoned is discarded. The frame
whose last byte has been handed is counted, and the lane and the egress are free of it; a dropped frame ends counted. -/
def Sys2Proof.Claims.FramesLeave : Prop :=
  ∀ (s : State) (l : Lane) (n : Nat) (f : Frame), s.dev.calm → s.dev.on .pump = true → s.dev.on .core = true →
    s.dev.frame l n = some f →
    let d := s.dev
    let count (t : State) (k : Fin 31) : Prop :=
      ((t.dev.lane l).counters[k]).toNat = satAdd 64 ((d.lane l).counters[k]).toNat 1
    let starts (i : Instr) : Prop :=
      ∃ t, exec i s = .next t ∧ t.pending = s.pending ∧
        t.dev.egress l.egress = some ⟨.lane l n, d.outBytes l f, none, [], false, d.stamp⟩ ∧
        t.dev.frame l n = some { f with stage := .egress } ∧ (t.dev.link l.egress).act = true
    let lost (i : Instr) (k : Fin 31) : Prop :=
      ∃ t, exec i s = .next t ∧ t.pending = s.pending ∧ t.dev.egress l.egress = none ∧ t.dev.frame l n = none ∧
        count t k ∧ count t 13
    (d.egress l.egress = none → d.cutReady l = some f →
      (d.linkUp l.egress = true → starts (.egressStart l.egress)) ∧
      (d.linkUp l.egress = false → ∃ t, exec (.egressStart l.egress) s = .next t ∧ t.pending = s.pending ∧
        t.dev.egress l.egress = none ∧ t.dev.frame l n = none ∧ count t 25)) ∧
    (∀ k, d.egress l.egress = none → d.releasable l f = true → f.stage = .held → d.cutReady l = none →
      (l.egress = .a → d.stagedFrom 5 = none) → f.slot = some k →
      let read := d.memRead 11 (slotAddr k) f.rx.body.length
      (read.1 = d → anyPoison read.2 = false → read.2.map Prod.fst = f.rx.body → d.linkUp l.egress = true →
        starts (.holdRelease l n)) ∧
      (anyPoison read.2 = true → lost (.holdRelease l n) 26)) ∧
    (∀ e, d.egress l.egress = some e → e.src = .lane l n → f.failed = none → macFail f.rx = none →
      (f.verify = true → f.verdict = true) → d.poisonAt f = none →
      ∃ t, exec (.frameCommit l.egress .inEgress) s = .next t ∧ t.pending = s.pending ∧ t.dev.egress l.egress = none ∧
        t.dev.frame l n = none ∧ count t 2 ∧
        ((t.dev.lane l).counters[3]).toNat = satAdd 64 ((d.lane l).counters[3]).toNat e.bytes.length ∧
        (f.action = 0 → count t 4) ∧ (f.action = 1 → count t 5) ∧ (f.action = 4 → count t 8)) ∧
    (f.looked = true → f.action = 6 → f.failed = none → macFail f.rx = none →
      ∃ t, exec (.frameCommit l.egress (.discarded l n)) s = .next t ∧ t.pending = s.pending ∧ t.dev.frame l n = none ∧
        count t 10 ∧ count t 13)

/-- R91, R92: what TAG and STRIP send. Both regenerate the FCS and correct the header's Length by the extension's bytes, and
leave the bytes before it; TAG sends behind its front part the value computed over what it sends; STRIP sends no frame
shorter than 64 bytes. -/
def Sys2Proof.Claims.FramesRewritten : Prop :=
  ∀ (f : RxFrame) (x : Ext) (alg keyId : Nat) (key : Bytes),
    let tagged := tagFrame f alg keyId key
    let bare := stripFrame f x
    let front := tagFront f alg keyId
    let span := Config.tagSpan front
    let value := authValue alg key (Config.tagIv front) (slice front span.1 (span.2 - span.1))
    let e := etypeAt f.body
    fcsGood tagged = true ∧ fcsGood bare = true ∧ 64 ≤ bare.length ∧
    (tagged.drop front.length).take value.length = value ∧
    (e + 10 ≤ f.deep.apduEnd → f.deep.apduEnd ≤ f.body.length →
      (∀ q, q < e + 4 ∨ (e + 10 ≤ q ∧ q < f.deep.apduEnd) →
        byteAt tagged q = byteAt f.body q ∧ byteAt bare q = byteAt f.body q) ∧
      be16 tagged (e + 4) = (lengthOf f.body + tagLength alg) % 65536 ∧
      be16 bare (e + 4) = (lengthOf f.body - (x.valEnd - f.deep.apduEnd)) % 65536)

/-- A free egress takes the lane's first ready frame and ends it counted; TAG and STRIP correct the Length and the FCS of what they send.
The model's choices in it: log entries 9 and 59. -/
def Obligations.FramesLeave : Prop :=
  Claims.FramesLeave ∧ Claims.FramesRewritten

/-- R47, R70, R71, R74, R75: lane states. ENABLE takes effect at once, and its clearing at a frame boundary; a mismatch is
counted and recorded and takes the lane to RESTART, the third within 60 s to FAILED with a device reset asked for unless one is; the end
of the restart leads to CATCH_UP, and the empty reserve to RUN or OFF. -/
def Sys2Proof.Claims.LaneStates : Prop :=
  ∀ (s : State) (l : Lane), s.dev.calm → s.dev.on .pump = true →
    let d := s.dev
    let en := d.flag (laneField l F.LANE_CFG_ENABLE)
    (∀ (m : Master) (v : Word), Arrives d m (laneField l F.LANE_CFG_ENABLE).addr v.toNat → v.getLsbD 0 = true →
      d.laneState l = laneOFF →
      ∃ t, exec (.laneCfgWrite m l v) s = .next t ∧ t.dev.laneState l = laneRUN ∧ (t.dev.lane l).open_ = true ∧
        t.dev.get (laneField l F.LANE_CFG_ENABLE) = 1 ∧ t.pending = s.pending) ∧
    (en = false → (d.lane l).open_ = true → d.laneState l = laneRUN →
      ∃ t, exec (.laneOffApplied l) s = .next t ∧ t.dev.laneState l = laneOFF ∧ (t.dev.lane l).open_ = false ∧
        (t.dev.lane l).frames = (d.lane l).frames) ∧
    (∀ (point : Fin 6) (p : Nat), d.laneState l ≠ laneFAILED →
      ∃ t, exec (.laneMismatch l point p) s = .next t ∧
        t.dev.laneState l = (if 2 ≤ (d.recentMismatches l).length then laneFAILED else laneRESTART) ∧
        t.dev.resetReq = (if 2 ≤ (d.recentMismatches l).length then some (d.resetReq.getD 3) else d.resetReq) ∧
        ((t.dev.lane l).counters[27]).toNat = satAdd 64 ((d.lane l).counters[27]).toNat 1 ∧
        t.dev.get (laneField l F.LANE_FAULT_POINT) = point.val ∧ bitAt (t.dev.get F.EVT_TRBL_TRBL) tLANE = true ∧
        ∀ f ∈ (t.dev.lane l).frames, f.stage = .divert ∨ f.stage = .reserve) ∧
    (d.laneState l = laneRESTART → (d.lane l).waitRestart = false →
      ∃ t, exec (.laneRestartDone l) s = .next t ∧ t.dev.laneState l = laneCATCH_UP ∧
        ((t.dev.lane l).counters[28]).toNat = satAdd 64 ((d.lane l).counters[28]).toNat 1 ∧
        (t.dev.lane (otherLane l)).waitRestart = false) ∧
    (d.laneState l = laneCATCH_UP → (∀ e ∈ d.reserve, e.lane ≠ l) →
      ∃ t, exec (.catchUpDone l) s = .next t ∧ t.dev.laneState l = (if en then laneRUN else laneOFF) ∧
        (t.dev.lane l).open_ = en)

/-- R78: SNAP copies a lane's live counters into its snapshot bank, low word first, and SNAP_CLR clears them behind the
copy; nothing else of the lane changes. -/
def Sys2Proof.Claims.SnapshotsTaken : Prop :=
  ∀ (s : State) (m : Master) (l : Lane) (k : Fin 31),
    let a := (laneField l F.CNT_CTL_OP).addr
    let copied (t : State) : Prop := t.core = (became s s.core t.dev).core ∧ t.pending = s.pending ∧
      (t.dev.reg (snapBase l + 8 * k.val)).toNat + 2 ^ 32 * (t.dev.reg (snapBase l + 8 * k.val + 4)).toNat =
        ((s.dev.lane l).counters[k]).toNat
    (Arrives s.dev m a 1 → ∃ t, exec (.snap m l) s = .next t ∧ copied t ∧ t.dev.lane l = s.dev.lane l) ∧
    (Arrives s.dev m a 2 → ∃ t, exec (.snapClr m l) s = .next t ∧ copied t ∧
      t.dev.lane l = { s.dev.lane l with counters := Vector.replicate 31 0 })

/-- The states that enables, mismatches and restarts give a lane, and the snapshots of its counters.
The model's choices in it: log entry 27. -/
def Obligations.LaneStates : Prop :=
  Claims.LaneStates ∧ Claims.SnapshotsTaken

/-- R88: the context commands. ENABLE of a context that no other one duplicates zeroes its replay and statistics words and
makes it valid; DISABLE, RESET_GUARD and CLEAR_STATS do what they name. Each leaves the context and its status in
CTX_RESULT. -/
def Obligations.ContextCommands : Prop :=
  ∀ (s : State) (m : Master) (i : Fin 1024),
    let d := s.dev
    let A := F.CTX_CMD_OP.addr
    let done (t : State) (st : Nat) : Prop := t.core = (became s s.core t.dev).core ∧ t.pending = s.pending ∧
      t.dev.get F.CTX_RESULT_STATUS = st ∧ t.dev.get F.CTX_RESULT_STREAM = i.val
    let zero (t : State) (off k : Nat) : Prop := ∀ j, j < k → t.dev.reg (ctxWord i (off + 4 * j)) = 0
    (Arrives d m A (1 * 2 ^ 16 + i.val) →
      ((∃ j ∈ d.validCtx, j ≠ i ∧ d.ctxSame i j = true) →
        ∃ t, exec (.ctxEnable m i) s = .next t ∧ done t 1 ∧ t.dev.ctx i F.CTX_VALID = d.ctx i F.CTX_VALID) ∧
      ((∀ j ∈ d.validCtx, j ≠ i → d.ctxSame i j = false) → d.inFlight i = true →
        ∃ t, exec (.ctxEnable m i) s = .next t ∧ done t 2 ∧ t.dev.ctx i F.CTX_VALID = d.ctx i F.CTX_VALID) ∧
      ((∀ j ∈ d.validCtx, j ≠ i → d.ctxSame i j = false) → d.inFlight i = false →
        ∃ t, exec (.ctxEnable m i) s = .next t ∧ done t 0 ∧ t.dev.ctx i F.CTX_VALID = 1 ∧ zero t 0x50 7 ∧
          zero t 0x80 19)) ∧
    (Arrives d m A (2 * 2 ^ 16 + i.val) →
      ∃ t, exec (.ctxDisable m i) s = .next t ∧ done t 0 ∧ t.dev.ctx i F.CTX_VALID = 0) ∧
    (Arrives d m A (3 * 2 ^ 16 + i.val) →
      ∃ t, exec (.resetGuard m i) s = .next t ∧ done t 0 ∧ zero t 0x50 7 ∧
        ∀ l, ∀ f ∈ (t.dev.lane l).frames, f.looked = true → f.stream = some i → f.statsOnly = true) ∧
    (Arrives d m A (4 * 2 ^ 16 + i.val) →
      ∃ t, exec (.clearStats m i) s = .next t ∧ done t 0 ∧ zero t 0x80 19)

/-- R97, R98: each key command takes its inputs and is BUSY; it completes with the status of the first check that fails and
no effect, or with its effect: the current epoch installed, the next one armed for its switch time, the armed one
cancelled, both gone. -/
def Sys2Proof.Claims.KeyCommands : Prop :=
  ∀ (s : State) (m : Master) (slot : Fin 64) (alg : Fin 8) (i : Fin 1024),
    let d := s.dev
    let A := F.PK_KEY_CMD_OP.addr
    let taken (op : Nat) (sl al : Nat) (t : State) : Prop := t.core = (became s s.core t.dev).core ∧ t.pending = s.pending ∧
      t.dev.keyCmd = some ⟨op, al, slotIdx sl, i, d.reg F.PK_KEY_ID_KEYID.addr, d.get F.PK_KEY_SW_SEC_SEC,
        d.get F.PK_KEY_SW_NS_NS⟩ ∧
      t.dev.get F.PK_KEY_RESULT_BUSY = 1 ∧ t.dev.get F.PK_KEY_RESULT_STREAM = i.val
    (d.keyCmd = none →
      (Arrives d m A (slot.val * 2 ^ 24 + alg.val * 2 ^ 20 + 1 * 2 ^ 16 + i.val) →
        ∃ t, exec (.installCurrent m slot alg i) s = .next t ∧ taken 1 slot.val alg.val t) ∧
      (Arrives d m A (slot.val * 2 ^ 24 + alg.val * 2 ^ 20 + 2 * 2 ^ 16 + i.val) →
        ∃ t, exec (.installNext m slot alg i) s = .next t ∧ taken 2 slot.val alg.val t) ∧
      (Arrives d m A (3 * 2 ^ 16 + i.val) → ∃ t, exec (.cancelNext m i) s = .next t ∧ taken 3 0 0 t) ∧
      (Arrives d m A (4 * 2 ^ 16 + i.val) → ∃ t, exec (.revoke m i) s = .next t ∧ taken 4 0 0 t)) ∧
    (∀ c : KeyCmd, d.keyCmd = some c → d.calm → d.on .pump = true → (d.slot c.slot.val).chk = [] →
      let cur := d.ctx c.stream F.CTX_SW_CUR == 1
      let st (b : Bool) := d.epState c.stream b
      let badAlg := c.alg = 0 ∨ 6 ≤ c.alg
      let sw := c.swSec % 2 ^ 32 * 10 ^ 9 + c.swNs
      let ends (t : State) (status : Nat) : Prop := t.pending = s.pending ∧
        t.dev.keyCmd = none ∧ t.dev.get F.PK_KEY_RESULT_BUSY = 0 ∧ t.dev.get F.PK_KEY_RESULT_STATUS = status
      (c.op = 1 → ∃ t, exec .keyCmdDone s = .next t ∧ ends t (if badAlg then 1 else if st false ≠ epVACANT ∨ st true ≠ epVACANT then 2
          else if d.keyRefused c then 4 else 0) ∧
        (¬ badAlg → st false = epVACANT → st true = epVACANT → d.keyRefused c = false →
          t.dev.epState c.stream cur = epCURRENT ∧ t.dev.ep c.stream cur F.CTX_EP_KEYID = c.keyId.toNat ∧
          t.dev.ep c.stream cur F.CTX_EP_ALG = c.alg ∧ t.dev.ep c.stream cur F.CTX_EP_CE_SLOT = c.slot.val ∧
          t.dev.ep c.stream cur F.CTX_EP_COUNT = 0)) ∧
      (c.op = 2 → ∃ t, exec .keyCmdDone s = .next t ∧ ends t (if badAlg then 1 else if st (!cur) = epARMED ∨ st (!cur) = epRETIRING then 2
          else if st cur ≠ epCURRENT then 3 else if d.keyRefused c then 4
          else if sw < d.time62 + 100000 + d.wPre c.stream then 5 else 0) ∧
        (¬ badAlg → st (!cur) ≠ epARMED → st (!cur) ≠ epRETIRING → st cur = epCURRENT → d.keyRefused c = false →
          d.time62 + 100000 + d.wPre c.stream ≤ sw →
          t.dev.epState c.stream (!cur) = epARMED ∧ t.dev.epState c.stream cur = epCURRENT ∧
          t.dev.ep c.stream (!cur) F.CTX_EP_KEYID = c.keyId.toNat)) ∧
      (c.op = 3 → ∃ t, exec .keyCmdDone s = .next t ∧ ends t (if st (!cur) ≠ epARMED then 6 else if d.tSw c.stream ≤ d.time62 + d.wPre c.stream then 7
          else 0) ∧
        (st (!cur) = epARMED → d.time62 + d.wPre c.stream < d.tSw c.stream → t.dev.epState c.stream (!cur) = epVACANT)) ∧
      (c.op = 4 → d.epInUse c.stream false = false → d.epInUse c.stream true = false → ∃ t, exec .keyCmdDone s = .next t ∧ ends t 0 ∧
        t.dev.epState c.stream false = epVACANT ∧ t.dev.epState c.stream true = epVACANT))

/-- R93, R100, R101: the sweep makes the armed epoch current when its switch time has come, the current one retiring; and a
retiring one vacant when its acceptance window has passed and no frame in flight uses it. -/
def Sys2Proof.Claims.SweepSwitches : Prop :=
  ∀ (s : State) (i : Fin 1024) (a : Bool), s.dev.calm → s.dev.on .pump = true →
    let d := s.dev
    (d.epState i a = epARMED → d.epState i (!a) = epCURRENT → d.tSw i ≤ d.time62 → d.sweepVisits i = true →
      ∃ t, exec (.epochSweep i) s = .next t ∧ t.dev.epState i a = epCURRENT ∧ t.dev.epState i (!a) = epRETIRING ∧
        t.dev.ctx i F.CTX_SW_CUR = b2n a ∧ t.pending = s.pending) ∧
    (d.epState i a = epRETIRING → d.epState i (!a) = epCURRENT → d.tSw i + d.wPost i ≤ d.time62 → d.epInUse i a = false →
      d.sweepVisits i = true →
      d.laneState (d.ctxLane i) ≠ laneRESTART → d.laneState (d.ctxLane i) ≠ laneCATCH_UP →
      ∃ t, exec (.epochSweep i) s = .next t ∧ t.dev.epState i a = epVACANT ∧ t.dev.epState i (!a) = epCURRENT ∧
        t.dev.ep i a F.CTX_EP_KEYID = 0) ∧
    (d.epState i a = epARMED → d.epState i (!a) = epCURRENT → d.time62 < d.tSw i →
      exec (.epochSweep i) s = .next (became s s.core d)) ∧
    (d.tu.edges % 2 ^ 18 ≠ 256 * i.val → exec (.epochSweep i) s = .next (became s s.core d))

/-- The key commands of a stream, and the sweep that switches its epochs.
The model's choices in it: log entry 61. -/
def Obligations.KeyEpochs : Prop :=
  Claims.KeyCommands ∧ Claims.SweepSwitches

/-! ### Rings and Windlass -/

/-- R113, R120, R121, R124, R125, R128, R136, R141: writes to the registers of the Buckets partition, of a ring and of a
channel. HOLD_SLOTS is brought within 8 and 152; a ring that ENABLE starts is empty and runs, and one that it stops with
nothing in progress is OFF; the software's index takes a legal value as it is and the nearest end for any other; RESUME
clears a stop; a channel's state follows ENABLE. That ERR is cleared with the start is the model's choice (log entry 62).
The model's choices in it: log entry 62. -/
def Obligations.RingRegisters : Prop :=
  ∀ (s : State) (m : Master) (n : Fin 256) (v : Word),
    let d := s.dev
    let f (x : Fl) : Fl := ringField n.val x
    let kept (t : State) : Prop := t.core = (became s s.core t.dev).core ∧ t.pending = s.pending ∧ t.dev.flash = d.flash ∧
      t.dev.slots = d.slots ∧ t.dev.laneV = d.laneV ∧ t.dev.laneT = d.laneT
    (Arrives d m F.BKT_PART_HOLD_SLOTS.addr v.toNat →
      ∃ t, exec (.bktPartWrite m v) s = .next t ∧ kept t ∧
        t.dev.get F.BKT_PART_HOLD_SLOTS = max 8 (min 152 (v.toNat % 2 ^ 8))) ∧
    (Arrives d m (f F.RING_CFG_ENABLE).addr v.toNat →
      (d.ringEnabled n = false → v.getLsbD 31 = true → n.val < 7 ∨ 16 ≤ n.val →
        ∃ t, exec (.ringCfgWrite m n v) s = .next t ∧ kept t ∧ t.dev.ringEnabled n = true ∧ t.dev.ringProd n = 0 ∧
          t.dev.ringCons n = 0 ∧ t.dev.ringState n = ringRUN ∧ t.dev.get (f F.RING_LOST_PENDING) = 0 ∧
          t.dev.get (f F.RING_DROPS_COUNT) = 0 ∧ t.dev.get (f F.RING_STAT_ERR) = 0 ∧
          ∀ b ∈ (d.ring n).buckets, b ∉ t.dev.divertUsed) ∧
      (d.ringEnabled n = true → v.getLsbD 31 = false → d.ringBusy n = false →
        ∃ t, exec (.ringCfgWrite m n v) s = .next t ∧ kept t ∧ t.dev.ringEnabled n = false ∧
          t.dev.ringState n = ringOFF ∧ t.dev.ringSize n = d.ringSize n ∧
          t.dev.get (f F.RING_CFG_CHAN) = d.get (f F.RING_CFG_CHAN))) ∧
    (Arrives d m (f F.RING_PROD_INDEX).addr v.toNat → d.ringFrom n = false →
      ∃ t, exec (.ringDoorbell m n v) s = .next t ∧ kept t ∧ t.dev.ringCons n = d.ringCons n ∧
        t.dev.ringProd n = (indexClamp (d.ringProd n) ((d.ringCons n + d.ringSize n) % 8192) (v.toNat % 8192)) % 8192 ∧
        ((v.toNat + 8192 - d.ringProd n) % 8192 ≤ ((d.ringCons n + d.ringSize n) % 8192 + 8192 - d.ringProd n) % 8192 →
          t.dev.ringProd n = v.toNat % 8192)) ∧
    (Arrives d m (f F.RING_CONS_INDEX).addr v.toNat → d.ringFrom n = true →
      ∃ t, exec (.ringConsWrite m n v) s = .next t ∧ kept t ∧ t.dev.ringProd n = d.ringProd n ∧
        ((v.toNat + 8192 - d.ringCons n) % 8192 ≤ (d.ringProd n + 8192 - d.ringCons n) % 8192 →
          t.dev.ringCons n = v.toNat % 8192)) ∧
    (Arrives d m (f F.RING_STAT_RESUME).addr 1 → d.ringState n = ringSTOPPED → d.ringEnabled n = true →
      ∃ t, exec (.resume m n) s = .next t ∧ kept t ∧ t.dev.ringState n = ringRUN ∧ t.dev.get (f F.RING_STAT_ERR) = 0 ∧
        t.dev.ringProd n = d.ringProd n ∧ t.dev.ringCons n = d.ringCons n) ∧
    ∀ c : Fin 8, Arrives d m (chField c F.CH_CTRL_ENABLE).addr v.toNat → (d.chans[c]).job = none →
      ∃ t, exec (.chCtrlWrite m c v) s = .next t ∧ kept t ∧ t.dev.chans = d.chans ∧
        t.dev.flag (chField c F.CH_CTRL_ENABLE) = v.getLsbD 0 ∧
        t.dev.get (chField c F.CH_STAT_STATE) = (if v.getLsbD 0 then 0 else 3)

/-- R123, R124, R128, R132, R140: a channel that is free takes the descriptor at CONS of the ring that is next. A good one
is its job, moved once the gauge grants it; a bad one completes at once; a slot that cannot be used stops its ring. -/
def Sys2Proof.Claims.ChannelsTake : Prop :=
  ∀ (s : State) (c : Fin 8) (n : Nat) (row : Instr) (w : Work), s.dev.calm → s.dev.on .core = true → n < 256 →
    (row, w) ∈ [(Instr.frameTx c, Work.tx), (.copy c, .copy), (.fill c, .fill), (.check c, .check)] →
    s.dev.flag (chField c F.CH_CTRL_ENABLE) = true → (s.dev.chans[c]).job = none → s.dev.nextRing c = some n →
    let d := s.dev
    let j := d.ringCons n
    let read := d.descRead (chanMaster c) n j
    (∀ d1 ws, read = (d1, .ok ws) → workOf n ws = some w →
      ∃ t g, exec row s = .next t ∧ (t.dev.chans[c]).job = some ⟨n, j, ws, g, d.now, 0, 0xFFFFFFFF, false, []⟩ ∧
        (t.dev.chans[c]).lastRing = n ∧ (d1.opState = stHost → g = true) ∧
        t.dev.get (chField c F.CH_STAT_STATE) = (if g then 1 else 2) ∧ t.dev.get (chField c F.CH_STAT_RING) = n ∧
        t.dev.get (chField c F.CH_STAT_INDEX) = j ∧ t.dev.get (chField c F.CH_PROG_DONE) = 0 ∧
        t.dev.ram = d1.ram ∧ t.dev.ringCons n = d1.ringCons n ∧ t.pending = s.pending) ∧
    (∀ d1 ws, read = (d1, .ok ws) → workOf n ws = none → inRam (d.descAddr n j) = true →
      ∃ t, exec row s = .next t ∧ (t.dev.chans[c]).job = none ∧ (t.dev.chans[c]).lastRing = n ∧ t.pending = s.pending ∧
        (t.dev.ringCons n = (j + 1) % 8192 ∨ t.dev.ringState n = ringSTOPPED)) ∧
    (∀ d1 err, read = (d1, .error err) →
      ∃ t, exec row s = .next t ∧ t.dev.ringState n = ringSTOPPED ∧ t.dev.get (ringField n F.RING_STAT_ERR) = err ∧
        bitAt (t.dev.get F.EVT_TRBL_TRBL) tRING = true ∧ (t.dev.chans[c]).job = none ∧ t.dev.ram = d1.ram)

/-- R133: a burst is of at most 64 bytes, within what is left of the descriptor, and crosses no 64-byte boundary of the
addresses it reads and writes. -/
def Sys2Proof.Claims.BurstsBounded : Prop :=
  ∀ (j : DescJob) (w : Work), j.moved < descLen j.words →
    let b := j.burst w
    0 < b.2.2 ∧ b.2.2 ≤ 64 ∧ j.moved + b.2.2 ≤ descLen j.words ∧
      (w ≠ .fill → b.1 % 64 + b.2.2 ≤ 64) ∧ (w = .copy ∨ w = .fill → b.2.1 % 64 + b.2.2 ≤ 64)

/-- R124, R126, R133 to R135, R138 to R140: a burst whose turn has come moves its bytes and leaves the job to go on, or ends
it; one whose turn has not come waits. A failed part, a FILL that has moved its last byte and a descriptor that was denied
its energy for longer than EWAIT complete their descriptor, which frees the channel and advances CONS. -/
def Sys2Proof.Claims.DescriptorsEnd : Prop :=
  ∀ (s : State) (c : Fin 8) (j : DescJob) (w : Work), s.dev.calm → (s.dev.chans[c]).job = some j →
    workOf j.ring j.words = some w → j.ring < 256 →
    let d := s.dev
    let x := { d with chanLast := c.val }.chanMove c j w
    let takes (y : Dev) (k : Completion) : Prop := SlotTakes (y.chanFree c) (chanMaster c) j k
    let ended (t : State) : Prop := t.core = (became s s.core t.dev).core ∧ t.pending = s.pending ∧
      (t.dev.chans[c]).job = none ∧ t.dev.ringCons j.ring = (j.index + 1) % 8192
    (j.granted = true → d.burstTurn c = false → exec (.windlassBurst c) s = .next (became s s.core d)) ∧
    (j.granted = true → d.burstTurn c = true → noAbort x.1 → x.1.calm →
      (x.2.1 = .ok → x.2.2.moved < descLen j.words →
        ∃ t, exec (.windlassBurst c) s = .next t ∧ (t.dev.chans[c]).job = some x.2.2 ∧ t.dev.ram = x.1.ram ∧
          t.dev.get (chField c F.CH_PROG_DONE) = x.2.2.moved % 2 ^ 16 ∧ t.pending = s.pending) ∧
      (x.2.1 = .ok → w = .fill → descLen j.words ≤ x.2.2.moved →
        takes (x.1.put (chField c F.CH_PROG_DONE) x.2.2.moved) ⟨dsOK, descLen j.words, none, false, none⟩ →
        ∃ t, exec (.windlassBurst c) s = .next t ∧ ended t) ∧
      (x.2.1 ≠ .ok →
        takes (x.1.put (chField c F.CH_PROG_DONE) x.2.2.moved) ⟨partStatus x.2.1, x.2.2.moved, none, x.2.2.poison, none⟩ →
        ∃ t, exec (.windlassBurst c) s = .next t ∧ ended t)) ∧
    (d.now ≤ j.since + d.get (chField c F.CH_CTRL_EWAIT) * 10 ^ 6 →
      exec (.windlassEnergyShort c) s = .next (became s s.core d)) ∧
    (j.granted = false → d.get (chField c F.CH_CTRL_EWAIT) ≠ 0 →
      j.since + d.get (chField c F.CH_CTRL_EWAIT) * 10 ^ 6 < d.now →
      takes d ⟨dsENERGY_SHORT, 0, none, false, none⟩ →
      ∃ t, exec (.windlassEnergyShort c) s = .next t ∧ ended t)

/-- Channels take descriptors, move them in bounded bursts, and complete them.
The model's choices in it: log entries 30 and 62. -/
def Obligations.ChannelsMove : Prop :=
  Claims.ChannelsTake ∧ Claims.BurstsBounded ∧ Claims.DescriptorsEnd

/-- R125 to R129: the first complete entry of a running ring is written to its own slot, whatever waits before it: the words
with OWN cleared, word 0 last. PROD then advances over the slots that are written, up to the first that is not; their
entries are reserved no more, their Buckets slots stay recorded, and a frame behind one has left its lane. A slot that
cannot be used stops the ring, and the entry waits.
The model's choices in it: log entries 30 and 62. -/
def Obligations.EntriesPosted : Prop :=
  ∀ (s : State) (n : Fin 256) (e : RingEntry) (k : Nat) (ws : List Word), s.dev.calm →
    s.dev.on .core = true → s.dev.ringState n = ringRUN → (s.dev.ring n).complete = some (e, k) → e.words = some ws →
    let d := s.dev
    let j := d.ringProd n + k
    let all := ((d.ring n).mark k).reserved
    let passed := all.takeWhile RingEntry.written
    let read := d.descRead 11 n j
    (∀ d1 old, read = (d1, .ok old) →
      let irq := d1.flag (ringField n F.RING_CFG_IRQ_EN)
      let out : List (Nat × Word) := ((List.range 7).map fun i => (i + 1, ws.getD (i + 1) 0)) ++
        [(0, BitVec.ofNat 32 (withBits (withBits (wordN ws 0) 31 31 0) 25 25 (b2n irq)))]
      let z := Dev.descWrite 11 (d1.descAddr n j) d1 out
      z.2 = none → z.1.calm → z.1.ring n = d.ring n → z.1.ringProd n = d.ringProd n → z.1.ringEnabled n = true →
      z.1.flag (ringField n F.RING_CFG_IRQ_EN) = irq →
      ∃ t, exec (.descPost n) s = .next t ∧ t.pending = s.pending ∧ t.dev.ram = z.1.ram ∧
        t.dev.ringProd n = (d.ringProd n + passed.length) % 8192 ∧
        (irq = true → passed ≠ [] → bitAt (t.dev.get (F.RING_PEND_PEND.plus (4 * (n.val / 32)))) (n.val % 32) = true) ∧
        (∀ y ∈ passed, ∀ l m, y.kind = .frame l m → t.dev.frame l m = none) ∧
        ((∀ y ∈ passed, ∀ l m, y.kind ≠ .frame l m) → (t.dev.ring n).reserved = all.drop passed.length ∧
          (t.dev.ring n).held.map Prod.snd = (d.ring n).held.map Prod.snd ++ passed.filterMap RingEntry.bucket)) ∧
    (∀ d1 err, read = (d1, .error err) →
      ∃ t, exec (.descPost n) s = .next t ∧ t.dev.ringState n = ringSTOPPED ∧ t.dev.ringProd n = d.ringProd n ∧
        t.dev.get (ringField n F.RING_STAT_ERR) = err ∧ (t.dev.ring n).reserved = (d.ring n).reserved ∧ t.dev.ram = d1.ram)

/-! ### Wellhead, time and access -/

/-- R356, R359, R360, R366 to R368: VHOLD and its marks, with their hysteresis, as the powered WELL domain measures them; the PV window and the VBAT measurement; the
AON domain runs from the first source that is there. A charge for an alarm ends at MARK_WRITE or with its time. -/
def Sys2Proof.Claims.SuppliesMeasured : Prop :=
  ∀ (s : State), s.dev.calm →
    let d := s.dev
    let kept (t : State) : Prop := t.core = (became s s.core t.dev).core ∧ t.pending = s.pending ∧ t.dev.ram = d.ram ∧
      t.dev.opState = d.opState ∧ t.dev.well = d.well
    let source (x : Dev) : Nat := if x.flag F.WH_STAT_HOST_GOOD then 3 else if 1 ≤ x.mark then 2
      else if x.flag F.WH_STAT_PV_OK then 1 else 0
    (∀ mv : Nat, d.on .well = false → exec (.markChange mv) s = .next (became s s.core
      ({ d with env := { d.env with vhold := mv } }.alarmCharged))) ∧
    (∀ mv : Nat, d.on .well = true → ∃ t, exec (.markChange mv) s = .next t ∧ kept t ∧ t.dev.env.vhold = mv ∧
      (∀ k ∈ [1, 2, 3, 4, 5], (k ≤ t.dev.mark ↔
        ∃ i ∈ [1, 2, 3, 4, 5], k ≤ i ∧ (markRise i ≤ mv ∨ (i ≤ d.mark ∧ markFall i ≤ mv)))) ∧
      (t.dev.mark ≠ d.mark → t.dev.get F.WH_STAT_AON_SRC = source t.dev ∧ t.dev.get F.WH_EVT_MARK_CHG = 1) ∧
      (t.dev.mark = d.mark → ∀ a, a ≠ F.SYS_RUNLOW.addr → t.dev.reg a = d.reg a) ∧
      t.dev.get F.SYS_RUNLOW = (if 2900 ≤ mv then 0 else d.get F.SYS_RUNLOW) ∧
      t.dev.wellcap.charging = (d.wellcap.charging && decide (t.dev.mark < 3))) ∧
    (∀ (voc vbat : Nat) (covers : Bool), d.wellcap.charging = false → d.on .well = true →
      ∃ t, exec (.pvSample voc covers vbat) s = .next t ∧ kept t ∧ t.dev.get F.WH_PV_VOC = voc % 2 ^ 16 ∧
        t.dev.get F.WH_PV_VMPP = voc * 76 / 100 % 2 ^ 16 ∧ t.dev.get F.WH_VBAT_MV = vbat % 2 ^ 12 ∧
        t.dev.flag F.WH_STAT_PV_OK = (decide (1500 ≤ voc) && covers) ∧
        (t.dev.flag F.WH_STAT_PV_OK ≠ d.flag F.WH_STAT_PV_OK → t.dev.get F.WH_STAT_AON_SRC = source t.dev) ∧
        t.dev.flag F.WH_STAT_VBAT_OK = decide (2500 ≤ vbat) ∧
        (vbat < 2500 → d.flag F.WH_STAT_VBAT_OK = true → bitAt (t.dev.get F.EVT_TRBL_TRBL) tVBAT = true)) ∧
    (d.on .well = true → ∃ t, exec .pvAonRailLoss s = .next t ∧ kept t ∧ t.dev.flag F.WH_STAT_PV_OK = false ∧
      (d.flag F.WH_STAT_PV_OK = true → t.dev.get F.WH_STAT_AON_SRC = source t.dev ∧ t.dev.get F.WH_EVT_PV_CHG = 1)) ∧
    (d.wellcap.charging = true → d.mark < 3 → exec .alarmChargeTimeout s = .next (became s s.core
      (if d.wellcap.alarmAt + 100000000 < d.now then
        { d with wellcap := { d.wellcap with charging := false, short := true } } else d)))

/-- R371 to R373: while the voltage loop runs, a late canary raises VSET by 10 mV up to 0.90 V and then reports the limit, and
a quiet canary lowers it by 5 mV down to 0.72 V; a failed regulator link is reported. Each set point goes to the regulator
as VOUT_COMMAND, the first behind a read of VOUT_MODE. The form of its value and its exponent are the model's choice (log
entry 64). -/
def Sys2Proof.Claims.VoltageLoop : Prop :=
  ∀ s : State, s.dev.calm →
    let d := s.dev
    let v := d.get F.WH_AVS_STAT_VSET
    let same (t : State) : Prop := t.core = (became s s.core t.dev).core ∧ t.pending = s.pending ∧ t.dev.ram = d.ram ∧
      t.dev.well = d.well ∧ t.dev.opState = d.opState
    let set (mv : Nat) : Host.Outcome State Fault Refusal := .next (became s s.core
      { d.put F.WH_AVS_STAT_VSET mv with
        well := { d.well with
          pmRead := true
          pm := (if d.well.pmRead then [] else [⟨d.get F.WH_AVS_CFG_ADDR, 0x20, none⟩]) ++
            [⟨d.get F.WH_AVS_CFG_ADDR, 0x21, some (linear16 Config.voutExponent mv)⟩] } })
    (d.loopRuns = true →
      (v < 900 → exec .canaryLate s = set (min 900 (v + 10))) ∧
      (900 ≤ v → ∃ t, exec .canaryLate s = .next t ∧ same t ∧ t.dev.get F.WH_AVS_STAT_VSET = v ∧
        t.dev.get F.WH_AVS_STAT_LIMIT = 1 ∧ t.dev.get F.WH_EVT_AVS_LIMIT = 1 ∧
        bitAt (t.dev.get F.EVT_TRBL_TRBL) tAVS = true) ∧
      exec .avsLower s = set (max 720 (v - 5))) ∧
    (d.opState = stHost → d.flag F.WH_AVS_STAT_LINK_FAIL = false →
      ∃ t, exec .avsLinkFail s = .next t ∧ same t ∧ t.dev.get F.WH_AVS_STAT_LINK_FAIL = 1 ∧
        t.dev.get F.WH_EVT_AVS_LINK = 1 ∧ t.dev.get F.WH_AVS_STAT_VSET = v ∧ t.dev.loopRuns = false ∧
        bitAt (t.dev.get F.EVT_TRBL_TRBL) tAVS = true)

/-- R375: a mode written in HOST begins a change that BUSY shows until it is done; outside HOST it is stored for later. The
end of a change applies a mode written meanwhile. -/
def Sys2Proof.Claims.PowerModes : Prop :=
  ∀ s : State,
    let d := s.dev
    (∀ (m : Master) (v : Word), Arrives d m F.WH_PMODE_MODE.addr v.toNat → d.flag F.WH_PMODE_BUSY = false →
      let w := min 2 (v.toNat % 4)
      ∃ t, exec (.pmodeWrite m v) s = .next t ∧ t.pending = s.pending ∧ t.dev.get F.WH_PMODE_MODE = w ∧
        (w = d.well.pmode → t.dev.well = d.well) ∧
        (w ≠ d.well.pmode → d.opState = stHost → t.dev.well.pmodeTo = some w ∧
          t.dev.well.pmode = (if w = 2 then 2 else d.well.pmode) ∧
          t.dev.flag F.WH_PMODE_BUSY = true ∧
          (w = 0 ∨ d.well.pmode = 2 → d.flag F.WH_AVS_STAT_LINK_FAIL = false → t.dev.get F.WH_AVS_STAT_VSET = 900)) ∧
        (w ≠ d.well.pmode → d.opState ≠ stHost → t.dev.well = { d.well with pmode := w })) ∧
    (∀ k, d.calm → d.well.pmodeTo = some k →
      ∃ t, exec .pmodeDone s = .next t ∧ t.pending = s.pending ∧ t.dev.well.pmode = k ∧
        t.dev.well.pmodeTo = (if d.get F.WH_PMODE_MODE = k then none else some (d.get F.WH_PMODE_MODE)) ∧
        t.dev.flag F.WH_PMODE_BUSY = decide (d.get F.WH_PMODE_MODE ≠ k))

/-- Marks and sources follow the measurements, and VSET the canaries and the modes.
The model's choices in it: log entries 13, 53 and 64. -/
def Obligations.SuppliesMeasured : Prop :=
  Claims.SuppliesMeasured ∧ Claims.VoltageLoop ∧ Claims.PowerModes

/-- R361 to R365: the gauge grants every request in HOST, none of the CE and Windlass outside PASSIVE_RUN or while Cistern
has precedence, and otherwise one whose mark is reached and whose budget the energy above the requester's floor covers. A
grant holds the budget, a refusal waits and is counted. ENERGY_GRANT has a request that waits judged again, against the
energy that the requests ahead of it left: Cistern bursts, transmissions, CE pages and Windlass channels in ascending order.
At the marks the energy above the ISLE floor is what R364 lists, in units of 0.01 uJ.
The model's choices in it: log entry 53. -/
def Obligations.EnergyJudged : Prop :=
  (∀ (d : Dev) (x : Nat × Bool × Int), x ∈ [(1800, false, 105), (2100, false, 1150), (2550, false, 3021),
    (2800, false, 4218), (3000, true, 4293)] → d.env.vhold = x.1 → d.on .core = x.2.1 → d.well.cst = 0 → d.well.tx = 0 →
    (d.eIsle + 5000) / 10000 = x.2.2) ∧
  (∀ (d : Dev) (who : Requester) (m b : Nat),
    ((d.askEnergy who m b).2 = true ↔ d.opState = stHost ∨
      (((who = .cistern ∨ who = .response) ∨ (d.opState = stPassiveRun ∧ d.flag F.WH_GAUGE_CST_FIRST = false)) ∧
        m ≤ d.mark ∧
        (b : Int) ≤ (if who = .cistern ∨ who = .response then d.eIsle else d.eCore))) ∧
    ((d.askEnergy who m b).2 = false → (d.askEnergy who m b).1.get F.WH_REFUSED_COUNT = satAdd 32 (d.get F.WH_REFUSED_COUNT) 1 ∧
      ((d.askEnergy who m b).1.get F.WH_GAUGE_WAITING).testBit (askBit who) = true) ∧
    ((d.askEnergy who m b).2 = true → (d.askEnergy who m b).1.ram = d.ram ∧
      ((d.askEnergy who m b).1.get F.WH_GAUGE_WAITING).testBit (askBit who) = false)) ∧
  ∀ s : State, s.dev.calm →
    let d := s.dev
    let said (t : State) : Prop := t.core = (became s s.core t.dev).core ∧ t.pending = s.pending
    (d.cst.job = none → d.hp.apdu = none →
      (∀ bs crc, d.nextFrame = some (bs, crc) → d.hp.granted = false → d.on .isle = true →
        ∃ t, exec (.energyGrant .response) s = .next t ∧ said t ∧
          t.dev.hp.granted = (d.askEnergy .response 1 (d.frameBudget (bs.length + if crc then 2 else 0))).2) ∧
      (∀ (r : Fin 16) (j : CeJob), (d.page r).job = some j → j.granted = false → j.ended = none → j.begun = true →
        j.short.isSome = true → (∀ q : Fin 16, q < r → d.ceWait q ≠ 2) →
        let ok := (d.askFrame.askEnergy (.ce r) 5 (j.stepBudget (d.slot j.slot).key.length)).2
        ∃ t, exec (.energyGrant (.ce r)) s = .next t ∧ said t ∧
          (t.dev.page r).job = some (if ok then { j with granted := true, short := none } else j)) ∧
      (∀ (c : Fin 8) (j : DescJob), (d.chans[c]).job = some j → j.granted = false → (∀ q : Fin 16, d.ceWait q ≠ 2) →
        (∀ b : Fin 8, b < c → (d.chans[b]).job = none) →
        ∃ t, exec (.energyGrant (.windlass c)) s = .next t ∧ said t ∧
          (t.dev.chans[c]).job =
            some { j with granted := (d.askFrame.askEnergy (.windlass c) 5 (dmaBudget j.words)).2 })) ∧
    (∀ (j : CstJob) (b : CstBurst) (rest : List CstBurst), d.cst.job = some j → j.running = none → j.bursts = b :: rest →
      d.on .isle = true → d.cst.waiting = none → d.cst.queue = [] → d.cstBlocked j b = false → d.hp.apdu = none →
      let ok := (d.askEnergy .cistern b.need.1 b.need.2).2
      ∃ t, exec (.energyGrant .cistern) s = .next t ∧ said t ∧
        (ok = false → t.dev.cst.job = some { j with refused := true, since := if j.refused then j.since else d.now }) ∧
        (ok = true → (∃ p, b = .erase p) ∨ (∃ w ws, b = .program w ws) →
          t.dev.cst.job = some { j with running := some b, bursts := rest, refused := false, since := d.now }))

/-- R142 to R145, R153, R158: the commands of the time unit. STEP sets the time to TIME_SET and unlocks; ADD moves it by
TIME_ADD, and is refused where the result would lie before time zero; FREQ is kept within its bounds; a load of
TIME_NOW_NS latches the seconds that belong to it. -/
def Sys2Proof.Claims.TimeSet : Prop :=
  ∀ (s : State) (m : Master),
    let d := s.dev
    let cmd (op : Nat) : Prop := Arrives d m F.TIME_CMD_OP.addr op
    let at_ (x : Dev) : Nat := x.tu.sec * 10 ^ 9 + x.tu.ns
    let sum : Int := (at_ d.tick : Nat) + sgn 32 (d.get F.TIME_ADD_NS)
    (cmd 1 → ∃ t, exec (.step m) s = .next t ∧ t.pending = s.pending ∧
      t.dev.tu.sec = d.get F.TIME_SET_SEC_LO_SEC + 2 ^ 32 * d.get F.TIME_SET_SEC_HI_SEC ∧
      t.dev.tu.ns = d.get F.TIME_SET_NS_NS ∧ t.dev.tu.frac = 0 ∧ t.dev.get F.TIME_STAT_STEPPED = 1 ∧
      t.dev.get F.TIME_STAT_LOCK = lockUNLOCKED) ∧
    (cmd 2 → sum < 0 → exec (.timeAdd m) s = .next (became s s.core (d.tick.put F.TIME_STAT_CMD_REFUSED 1))) ∧
    (cmd 2 → 0 ≤ sum → ∃ t, exec (.timeAdd m) s = .next t ∧ t.pending = s.pending ∧
      (at_ t.dev : Int) = sum % (2 ^ 48 * 10 ^ 9 : Nat) ∧ t.dev.tu.ns < 10 ^ 9 ∧ t.dev.tu.frac = d.tick.tu.frac ∧
      t.dev.tu.servoAt = t.dev.now ∧ t.dev.get F.TIME_STAT_STEPPED = 1 ∧ t.dev.get F.TIME_STAT_LOCK = d.get F.TIME_STAT_LOCK) ∧
    (∀ v : Word, Arrives d m F.TIME_FREQ_FREQ.addr v.toNat →
      ∃ t, exec (.timeFreqWrite m v) s = .next t ∧ t.pending = s.pending ∧ t.dev.tu = { d.tu with servoAt := d.now } ∧
        sgn 32 (t.dev.get F.TIME_FREQ_FREQ) = max (-128000000) (min 128000000 v.toInt)) ∧
    (d.calm → d.reachCheck m .read F.TIME_NOW_NS_NS.addr = (d, true) →
      d.slaveCheck d.epoch m false .read F.TIME_NOW_NS_NS.addr = (d, .ok) →
      ∃ t, exec (.timeNowRead m) s = .next t ∧ t.pending = s.pending ∧ t.dev.tu = d.tu ∧ t.dev.regs = d.regs ∧
        t.dev.highOf m F.TIME_NOW_SEC_LO_SEC.addr = some (BitVec.ofNat 32 d.tu.sec) ∧
        t.dev.highOf m F.TIME_NOW_SEC_HI_SEC.addr = some (BitVec.ofNat 32 (d.tu.sec / 2 ^ 32)))

/-- R39, R152, R153: the lock states. Software declares lock and holdover, which FREE refuses; more than SERVO_TO without an
update of the servo lead from LOCKED to HOLDOVER, and more than HOLD_MAX of holdover to UNLOCKED with its trouble bit; until
then nothing changes. -/
def Sys2Proof.Claims.LockStates : Prop :=
  ∀ (s : State) (m : Master),
    let d := s.dev
    let l := d.get F.TIME_STAT_LOCK
    let cmd (op : Nat) : Prop := Arrives d m F.TIME_CMD_OP.addr op
    let still (i : Instr) : Prop := exec i s = .next (became s s.core d)
    let reached (i : Instr) (st : Nat) (q : State → Prop) : Prop :=
      ∃ t, exec i s = .next t ∧ t.core = (became s s.core t.dev).core ∧ t.pending = s.pending ∧
        t.dev.get F.TIME_STAT_LOCK = st ∧ t.dev.irq.getLsbD 13 = true ∧ q t
    (cmd 3 →
      (l = lockFREE → exec (.declareLock m) s = .next (became s s.core (d.put F.TIME_STAT_CMD_REFUSED 1))) ∧
      (l = lockLOCKED → still (.declareLock m)) ∧
      (l = lockHOLDOVER ∨ l = lockUNLOCKED →
        reached (.declareLock m) lockLOCKED fun t => t.dev.tu = { d.tu with servoAt := d.now })) ∧
    (cmd 4 →
      (l = lockHOLDOVER → still (.declareHoldover m)) ∧
      (l = lockLOCKED → reached (.declareHoldover m) lockHOLDOVER fun t => t.dev.tu = { d.tu with holdAt := d.now }) ∧
      (l = lockFREE ∨ l = lockUNLOCKED →
        exec (.declareHoldover m) s = .next (became s s.core (d.put F.TIME_STAT_CMD_REFUSED 1)))) ∧
    (d.calm → d.on .pump = true →
      let silent := d.tu.servoAt + d.get F.TIME_SERVO_SERVO_TO * 10 ^ 6
      let held := d.tu.holdAt + d.get F.TIME_SERVO_HOLD_MAX * 10 ^ 9
      (l = lockLOCKED → d.get F.TIME_SERVO_SERVO_TO ≠ 0 → silent < d.now →
        reached .servoTimeout lockHOLDOVER fun t => t.dev.tu = { d.tu with holdAt := d.now }) ∧
      (l ≠ lockLOCKED ∨ d.get F.TIME_SERVO_SERVO_TO = 0 ∨ d.now ≤ silent → still .servoTimeout) ∧
      (l = lockHOLDOVER → held < d.now →
        reached .holdoverExpiry lockUNLOCKED fun t => t.dev.tu = d.tu ∧ bitAt (t.dev.get F.EVT_TRBL_TRBL) tTIME = true) ∧
      (l ≠ lockHOLDOVER ∨ d.now ≤ held → still .holdoverExpiry))

/-- R145: a load of TIME_NOW_NS, at the register's slave, latches the seconds for the loading master beside it and changes
nothing else; each seconds register then reads its latched value. -/
def Sys2Proof.Claims.TimeRead : Prop :=
  ∀ (s : State) (m : Master) (a : Word), a.toNat = F.TIME_NOW_NS_NS.addr → s.dev.calm → s.dev.aonPend = [] →
    s.dev.reachCheck m .read a.toNat = (s.dev, true) → s.dev.slaveCheck s.dev.epoch m false .read a.toNat = (s.dev, .ok) →
    ∃ t, exec (.counterLatchRead m a) s = .next t ∧ t.core = (became s s.core t.dev).core ∧ t.pending = s.pending ∧
      t.dev = { s.dev with latches := t.dev.latches } ∧
      ∀ f ∈ [F.TIME_NOW_SEC_LO_SEC, F.TIME_NOW_SEC_HI_SEC], ∀ d : Dev, d.latches = t.dev.latches →
        (d.regRead m f.addr).2 = s.dev.regView m f.addr

/-- R144, R155 to R157: PPS. An enable takes effect only for the ball's owner. The output goes active on the edge on which
the nanoseconds pass 999,999,999, for OUT_WIDTH microseconds of 250 edges; without its edge nothing happens. The first edge
of the chosen sense is captured with its stamp, one that finds a capture waiting is counted as missed, and one less than
100 ns behind the edge before is the same edge. -/
def Sys2Proof.Claims.PulsesPerSecond : Prop :=
  ∀ s : State,
    let d := s.dev
    let u := d.tu
    let n := u.ns + (u.frac + d.timeInc) / 2 ^ 32
    let still (i : Instr) : Prop := exec i s = .next (became s s.core d)
    let edge (i : Instr) (q : TimeUnit → Prop) : Prop :=
      ∃ t, exec i s = .next t ∧ t.core = (became s s.core t.dev).core ∧ t.pending = s.pending ∧ t.dev.regs = d.regs ∧
        t.dev.now = d.now + 4 ∧ t.dev.tu.edges = u.edges + 1 ∧ t.dev.tu.frac = (u.frac + d.timeInc) % 2 ^ 32 ∧ q t.dev.tu
    (d.calm → d.on .pump = true → d.pll = true →
      (d.flag F.TIME_PPS_CFG_OUT_EN = true → 10 ^ 9 ≤ n →
        edge .ppsOutPulse fun v => v.ppsOut = true ∧ v.ns = n - 10 ^ 9 ∧ v.sec = (u.sec + 1) % 2 ^ 48 ∧
          v.ppsEnd = u.edges + 1 + 250 * d.get F.TIME_PPS_CFG_OUT_WIDTH) ∧
      (d.flag F.TIME_PPS_CFG_OUT_EN = false ∨ n < 10 ^ 9 → still .ppsOutPulse) ∧
      (u.ppsOut = true → u.ppsEnd = u.edges + 1 → n < 10 ^ 9 →
        edge .ppsOutEnd fun v => v.ppsOut = false ∧ v.ns = n ∧ v.sec = u.sec) ∧
      (u.ppsOut = false ∨ u.ppsEnd ≠ u.edges + 1 → still .ppsOutEnd)) ∧
    (d.calm → d.on .pump = true → ∀ (e fine : Bool),
      d.flag F.TIME_PPS_CFG_IN_EN = true → e = !d.flag F.TIME_PPS_CFG_IN_EDGE →
      let at_ := d.now + 2 * b2n fine
      let taken (q : State → Prop) : Prop := ∃ t, exec (.ppsInEdge ⟨e, fine⟩) s = .next t ∧ t.pending = s.pending ∧
        t.dev.tu = { u with ppsInAt := some at_ } ∧ q t
      (∀ t0, u.ppsInAt = some t0 → at_ < t0 + 100 → still (.ppsInEdge ⟨e, fine⟩)) ∧
      ((∀ t0, u.ppsInAt = some t0 → t0 + 100 ≤ at_) →
        (d.flag F.TIME_PPSIN_STAT_VALID = false →
          taken fun t => t.dev.get F.TIME_PPSIN_NS_NS = (d.stampAt fine).2 % 2 ^ 30 ∧
            t.dev.get F.TIME_PPSIN_SEC_SEC = (d.stampAt fine).1 % 2 ^ 32 ∧ t.dev.flag F.TIME_PPSIN_STAT_VALID = true) ∧
        (d.flag F.TIME_PPSIN_STAT_VALID = true →
          taken fun t => t.dev.get F.TIME_PPSIN_NS_NS = d.get F.TIME_PPSIN_NS_NS ∧
            t.dev.get F.TIME_PPSIN_STAT_MISSED = satAdd 8 (d.get F.TIME_PPSIN_STAT_MISSED) 1))) ∧
    (∀ (m : Master) (v : Word), Arrives d m F.TIME_PPS_CFG_OUT_EN.addr v.toNat →
      ∃ t, exec (.ppsCfgWrite m v) s = .next t ∧ t.pending = s.pending ∧
        t.dev.flag F.TIME_PPS_CFG_IN_EN = (v.getLsbD 2 &&
          (d.flag F.TIME_PPS_CFG_IN_EN || d.owner 6 == BitVec.ofNat 5 m.val)) ∧
        t.dev.flag F.TIME_PPS_CFG_OUT_EN = (v.getLsbD 0 &&
          (d.flag F.TIME_PPS_CFG_OUT_EN || d.owner 7 == BitVec.ofNat 5 m.val)) ∧
        t.dev.get F.TIME_PPS_CFG_OUT_WIDTH = max 1 (min 500000 (v.toNat / 16 % 2 ^ 20)))

/-- Time commands, lock states, the latched read and PPS.
The model's choices in it: log entries 13 and 31. -/
def Obligations.TimeUnit : Prop :=
  Claims.TimeSet ∧ Claims.LockStates ∧ Claims.TimeRead ∧ Claims.PulsesPerSecond

/-- R237 to R240: the commits of the staged firewall rules. NOW makes them active and advances the epoch, and is refused while
transactions of the previous epoch live; WITH_SWAP arms a commit for the next exchange and CANCEL disarms it; the last
transaction of the previous epoch ends PREV_LIVE.
The model's choices in it: log entry 21. -/
def Obligations.RuleCommits : Prop :=
  ∀ (s : State) (m : Master),
    let d := s.dev
    let cmd (op : Nat) : Prop := Arrives d m F.ACCESS_FW_COMMIT_OP.addr op
    let said (t : State) (st : Nat) : Prop := t.core = (became s s.core t.dev).core ∧ t.pending = s.pending ∧
      t.dev.get F.ACCESS_FW_RESULT_STATUS = st
    let staged (f r k : Nat) : Word := d.reg (fwActive f r - 0x100 + 4 * k)
    (cmd 1 →
      (d.flag F.ACCESS_EPOCH_PREV_LIVE = true →
        exec (.now m) s = .next (became s s.core (d.put F.ACCESS_FW_RESULT_STATUS 1))) ∧
      (d.flag F.ACCESS_EPOCH_PREV_LIVE = false →
        ∃ t, exec (.now m) s = .next t ∧ said t 0 ∧
          t.dev.get F.ACCESS_EPOCH_CUR = (d.get F.ACCESS_EPOCH_CUR + 1) % 16 ∧
          t.dev.get F.ACCESS_EPOCH_PREV = d.get F.ACCESS_EPOCH_CUR ∧ t.dev.flag F.ACCESS_EPOCH_PEND_FW = false ∧
          t.dev.flag F.ACCESS_EPOCH_PREV_LIVE = d.transactionsLive ∧
          ∀ f, f < 19 → ∀ r, r < 16 → ∀ k, k < 3 → t.dev.reg (fwActive f r + 4 * k) = staged f r k)) ∧
    (cmd 2 → ∃ t, exec (.withSwap m) s = .next t ∧ said t 0 ∧ t.dev.flag F.ACCESS_EPOCH_PEND_FW = true ∧
      t.dev.epoch = d.epoch) ∧
    (cmd 3 → ∃ t, exec (.cancel m) s = .next t ∧ said t (if d.flag F.ACCESS_EPOCH_PEND_FW then 0 else 2) ∧
      t.dev.flag F.ACCESS_EPOCH_PEND_FW = false ∧ t.dev.epoch = d.epoch) ∧
    (d.calm → (∀ x ∈ d.sbuf, x.epoch.toNat ≠ d.get F.ACCESS_EPOCH_PREV) →
      (∀ x ∈ d.aonPend, x.epoch.toNat ≠ d.get F.ACCESS_EPOCH_PREV) →
      (∀ x, d.woh.job = some x → x.epoch.toNat ≠ d.get F.ACCESS_EPOCH_PREV) →
      exec .epochDrained s = .next (became s s.core (d.put F.ACCESS_EPOCH_PREV_LIVE 0)))

/-! ### Crypto engine -/

/-- R245, R247, R250, R251, R255: START of each operation. With every check passed the page is busy with the job that its
registers describe, and one that needs no random numbers and has its energy begins at once: it takes its invocation value
and its COUNTER IV. The first check that fails completes at once with its status and zeroed results; a busy page loses the
command. ABORT marks the job, unless it is a public-key job that is not QUEUED; EN = 0 resets the page, once its job has
ended.
The model's choices in it: log entry 44. -/
def Obligations.JobsStart : Prop :=
  ∀ (s : State) (m : Master) (r : Fin 16) (row : Instr) (op : Nat),
    (row, op) ∈ [(Instr.aesEcb m r, 1), (.aesCbc m r, 2), (.aesCtr m r, 3), (.aesGcm m r, 4), (.aesGmac m r, 5),
      (.sha256 m r, 0x10), (.sha384 m r, 0x11), (.sha512 m r, 0x12), (.hmacSha256 m r, 0x18), (.hmacSha384 m r, 0x19),
      (.hmacSha512 m r, 0x1A), (.ecdsaP256 m r, 0x20), (.ecdsaP384 m r, 0x21), (.rsa m r, 0x24), (.random m r, 0x30)] →
    let d := s.dev
    let f (x : Fl) : Fl := pageField r x
    let ctl := (F.CE_PAGE_CTL_EN.plus (0x20 * r.val)).addr
    let said (t : State) : Prop := t.core = (became s s.core t.dev).core ∧ t.pending = s.pending ∧ t.dev.ram = d.ram ∧
      ∀ q : Fin 16, q ≠ r → (t.dev.page q).run = (d.page q).run
    let j := d.jobOf r
    let k := d.slot j.slot
    let takes := takesIv j.op j.dir j.part
    (Arrives d m (f F.CE_CMD_OP).addr 1 → d.get (f F.CE_CFG_OP) = op →
      (d.flag (f F.CE_STAT_BUSY) = true → exec row s = .next (became s s.core (d.put (f F.CE_STAT_CMD_LOST) 1))) ∧
      (d.flag (f F.CE_STAT_BUSY) = false →
        (∀ st, d.startFails r j = some st →
          ∃ t, exec row s = .next t ∧ said t ∧ t.dev.get (f F.CE_STAT_DONE) = 1 ∧ t.dev.get (f F.CE_STAT_BUSY) = 0 ∧
            t.dev.get (f F.CE_STAT_STATUS) = st ∧ t.dev.slots = d.slots ∧
            ∀ i, i < 16 → t.dev.reg (pageDigest r + 4 * i) = 0) ∧
        (d.flag (pageCtl r F.CE_PAGE_CTL_EN) = false → d.startFails r j = some jsPAGE_OFF) ∧
        (d.flag (pageCtl r F.CE_PAGE_CTL_EN) = true → d.cfgLegal r j = true → usesSlot op j.dir = true →
          bitAt (d.get (pageCtl r (F.CE_PAGE_GRANT_LO_GRANT.plus (4 * (j.slot / 32))))) (j.slot % 32) = false →
          d.startFails r j = some jsKEY_DENIED) ∧
        (d.startFails r j = none →
          ∃ t x, exec row s = .next t ∧ said t ∧ t.dev.get (f F.CE_STAT_BUSY) = 1 ∧ t.dev.get (f F.CE_PROG_DONE) = 0 ∧
            (t.dev.page r).job = some x ∧
            x = { j with
              iv := x.iv, want := x.want, rnd := x.rnd, begun := x.begun, granted := x.granted, short := x.short
              run := x.run, ended := x.ended } ∧
            (d.opState = stHost → j.wants = 0 → k.chk = [] →
              x.begun = true ∧ x.granted = true ∧ x.ended = none ∧
              (takes = false → t.dev.slots = d.slots ∧ x.iv = j.iv) ∧
              (takes = true → t.dev.slot j.slot = { k with inv := k.inv + 1 } ∧
                x.iv = beBytes 4 k.fixed.toNat ++ beBytes 8 k.inv ++ (if j.op = 3 then [0, 0, 0, 1] else [])))))) ∧
    (Arrives d m (f F.CE_CMD_OP).addr 2 → ∀ x, (d.page r).job = some x → x.ended = none →
      exec (.ceAbort m r) s = .next (became s s.core
        (if isPk x.op = true ∧ d.ceWait r ≠ 1 then d else d.setJobCe r (some { x with abort := true })))) ∧
    (Arrives d m ctl ((d.reg ctl &&& 0x7FFFFFFF).toNat) → d.flag (pageCtl r F.CE_PAGE_CTL_EN) = true →
      ((d.page r).job = none →
        ∃ t, exec (.pageDisable m r) s = .next t ∧ said t ∧ t.dev.flag (pageCtl r F.CE_PAGE_CTL_EN) = false ∧
          t.dev.page r = ⟨none, none⟩ ∧ t.dev.get (f F.CE_STAT_DONE) = 0 ∧ t.dev.get (f F.CE_LEN_LEN) = 0) ∧
      (∀ x, (d.page r).job = some x → x.ended = none → isPk x.op = false →
        ∃ t, exec (.pageDisable m r) s = .next t ∧ said t ∧ t.dev.flag (pageCtl r F.CE_PAGE_CTL_EN) = false ∧
          (t.dev.page r).job = some { x with abort := true, closing := true }))

/-- R246, R248, R249, R252 to R255, R268: a job at work. A step waits for its engine's turn and its energy. A chunk is at most
64 bytes: it is read within the page's window, enters the running state, and for a cipher its output is written; with the
last byte the job has ended. A job that was aborted, or denied its energy for longer than EWAIT, has ended too. Its end
frees the page, keeps the running state of a FIRST or MIDDLE, and leaves the status; a GCM decryption that failed zeroes
what it wrote, also where the page is switched off.
The model's choices in it: log entries 12 and 44. -/
def Obligations.JobsRun : Prop :=
  ∀ (s : State) (r : Fin 16) (j : CeJob), s.dev.calm → (s.dev.page r).job = some j →
    let d := s.dev
    let f (x : Fl) : Fl := pageField r x
    let said (t : State) : Prop := t.core = (became s s.core t.dev).core ∧ t.pending = s.pending
    let d1 := (d.ceAsk r j).1
    let ok := (d.ceAsk r j).2
    let w := some (d1.pageWindow r)
    let still (i : Instr) : Prop := exec i s = .next (became s s.core d)
    let key := (d.slot j.slot).key
    let k := min 64 (j.len - j.pos)
    let moved (t : State) (run : CeRun) (n : Nat) : Prop := said t ∧
      (t.dev.page r).job = some { j with
        granted := false
        pos := j.pos + k
        run := run
        written := j.written + n
        ended := if j.len ≤ j.pos + k then
          some (({ j with pos := j.pos + k, run := run, written := j.written + n } : CeJob).verdict key, none) else none } ∧
      t.dev.get (f F.CE_PROG_DONE) = (j.pos + k) % 2 ^ 32
    (j.ended = none → d.on .core = true →
      (j.abort = true → exec (.ceChunk r) s = .next (became s s.core
        (d.setJobCe r (some { j with short := none, ended := some (jsABORTED, none) })))) ∧
      (j.abort = false → j.begun = false ∨ j.short.isSome = true ∨ d.ceTurn r = false → still (.ceChunk r)) ∧
      (j.abort = false → j.begun = true → j.short = none → d.ceTurn r = true →
        (ok = false → ∃ t, exec (.ceChunk r) s = .next t ∧ said t ∧
          (t.dev.page r).job = some { j with short := some d.now }) ∧
        (∀ d2 j2, ok = true → d1.ceStep r j = (d2, j2) → d2.calm →
          ∃ t, exec (.ceChunk r) s = .next t ∧ said t ∧ (t.dev.page r).job = some { j2 with granted := false } ∧
            t.dev.ram = d2.ram ∧ t.dev.slots = d2.slots) ∧
        (∀ d2 data, ok = true → (d.slot j.slot).chk = [] → (d.slot j.slot).damaged = false →
          d1.ceRead w (j.src + j.pos) k = (d2, .ok data) → d2.calm →
          (isSha j.op = true ∨ isHmac j.op = true ∨ j.op = 5 →
            ∃ t, exec (.ceChunk r) s = .next t ∧ moved t (j.crunch key j.pos data).1 0) ∧
          (∀ d3 n, isAesRun j.op = true → d2.ceWrite w (j.dst + j.pos) (j.crunch key j.pos data).2 = (d3, n, none) →
            d3.calm → ∃ t, exec (.ceChunk r) s = .next t ∧ moved t (j.crunch key j.pos data).1 n ∧ t.dev.ram = d3.ram))) ∧
      (∀ t0, j.short = some t0 → d.get F.CE_CTRL_EWAIT ≠ 0 →
        (d.now ≤ t0 + 1000000 * d.get F.CE_CTRL_EWAIT → still (.ceEnergyShort r)) ∧
        (t0 + 1000000 * d.get F.CE_CTRL_EWAIT < d.now →
          ∃ t, exec (.ceEnergyShort r) s = .next t ∧ said t ∧
            (t.dev.page r).job = some { j with short := none, ended := some (jsENERGY, none) }))) ∧
    (∀ st fa d2 left, j.ended = some (st, fa) → j.closing = true → st < 16 →
      (if j.op = 4 ∧ j.dir = 1 ∧ st ≠ jsOK then Dev.ceZero (some (d.pageWindow r)) (j.written + 1) d j.dst j.written
        else (d, none)) = (d2, left) → d2.calm →
      ∃ t, exec (.ceJobDone r) s = .next t ∧ said t ∧ t.dev.ram = d2.ram ∧ t.dev.page r = ⟨none, none⟩ ∧
        t.dev.get (f F.CE_STAT_DONE) = 0 ∧ (left.isSome → bitAt (t.dev.get F.EVT_TRBL_TRBL) tCRYPTO = true)) ∧
    (∀ st fa, j.ended = some (st, fa) → j.closing = false →
      (st = jsOK →
        ∃ t, exec (.ceJobDone r) s = .next t ∧ said t ∧ t.dev.ram = d.ram ∧ t.dev.get (f F.CE_STAT_DONE) = 1 ∧
          t.dev.get (f F.CE_STAT_BUSY) = 0 ∧ t.dev.get (f F.CE_STAT_STATUS) = jsOK ∧
          t.dev.page r = ⟨none, if j.part = 1 ∨ j.part = 2 then some j.run else none⟩) ∧
      (st ≠ jsOK → st < 16 → j.op ≠ 4 ∨ j.dir ≠ 1 →
        ∃ t, exec (.ceJobDone r) s = .next t ∧ said t ∧ t.dev.ram = d.ram ∧ t.dev.get (f F.CE_STAT_DONE) = 1 ∧
          t.dev.get (f F.CE_STAT_STATUS) = st ∧ t.dev.page r = ⟨none, none⟩ ∧
          ∀ i, i < 16 → t.dev.reg (pageDigest r + 4 * i) = 0) ∧
      (st ≠ jsOK → st < 16 → j.op = 4 → j.dir = 1 → ∀ d2 left,
        Dev.ceZero (some (d.pageWindow r)) (j.written + 1) d j.dst j.written = (d2, left) → d2.calm →
        ∃ t, exec (.ceJobDone r) s = .next t ∧ said t ∧ t.dev.ram = d2.ram ∧ t.dev.get (f F.CE_STAT_DONE) = 1 ∧
          t.dev.get (f F.CE_STAT_STATUS) = (if left.isSome then jsUNCLEARED else st) ∧
          (left.isSome → bitAt (t.dev.get F.EVT_TRBL_TRBL) tCRYPTO = true)))

/-- R258 to R260: the random-number source. 4,096 raw bits that pass the health tests and 1,024 more make it ready and seed
its DRBG; 1,024 more reseed it on a request; a failed test fails it for good, zeroes the DRBG and ends every job that waits
for random numbers or writes them. 41 equal bits in a row fail, wherever they begin. The DRBG's steps are those of SP 800-90A
(PRESUMED, log entry 58). -/
def Sys2Proof.Claims.RandomSource : Prop :=
  (∀ (h : Health) (b : Bool), ∃ rct, (h.bits (List.replicate 41 b)).2 = some rct) ∧
  ∀ (s : State) (m : Master),
    let d := s.dev
    let ctl := F.CE_RNG_CTL_PR.addr
    let said (t : State) : Prop := t.core = (became s s.core t.dev).core ∧ t.pending = s.pending ∧ t.dev.slots = d.slots
    let quiet := d.nextWanting = none ∧ (∀ k, d.ce.key = some k → k.want = 0)
    let failed (i : Instr) (rct : Bool) : Prop :=
      ∃ t, exec i s = .next t ∧ said t ∧ t.dev.rngState = rngFAILED ∧ t.dev.ce.drbg = Drbg.zero ∧
        t.dev.get (if rct then F.CE_RNG_STAT_RCT_FAIL else F.CE_RNG_STAT_APT_FAIL) = 1 ∧
        bitAt (t.dev.get F.EVT_TRBL_TRBL) tCRYPTO = true ∧
        ∀ (r : Fin 16) (j : CeJob), (d.page r).job = some j → j.want ≠ 0 ∨ j.op = 0x30 → j.ended = none →
          (t.dev.page r).job = some { j with ended := some (jsRNG_FAIL, none) }
    (Arrives d m ctl (((d.reg ctl &&& 4) ||| 2).toNat) → d.rngState = rngREADY →
      ∃ t, exec (.reseed m) s = .next t ∧ said t ∧ t.dev.ce = { d.ce with reseeding := true } ∧ t.dev.rngState = rngREADY) ∧
    (Arrives d m ctl (((d.reg ctl &&& 4) ||| 1).toNat) →
      ∃ t, exec (.restart m) s = .next t ∧ said t ∧ t.dev.rngState = rngSTARTUP ∧
        t.dev.ce = { d.ce with reseeding := false, health := Health.start }) ∧
    (d.calm → d.on .core = true →
      (d.ce.reseeding = true → d.rngState = rngREADY →
        let raw := d.rawNext 128
        let x := d.ce.health.feed raw
        (∀ rct, x.2 = some rct → failed .reseedDone rct) ∧
        (x.2 = none → quiet → ∃ t, exec .reseedDone s = .next t ∧ said t ∧ t.dev.env = { d.env with noise := d.env.noise.drop 128 } ∧
          t.dev.ce = { d.ce with
            health := x.1, reseeding := false, requests := 0, fresh := false, drbg := d.ce.drbg.seed raw } ∧
          t.dev.get F.CE_RNG_STAT_RESEEDS = satAdd 16 (d.get F.CE_RNG_STAT_RESEEDS) 1)) ∧
      (d.rngState = rngSTARTUP →
        let raw := d.rawNext 640
        let x := d.ce.health.feed raw
        (∀ rct, x.2 = some rct → failed .rngReady rct) ∧
        (x.2 = none → quiet → ∃ t, exec .rngReady s = .next t ∧ said t ∧ t.dev.rngState = rngREADY ∧
          t.dev.env = { d.env with noise := d.env.noise.drop 640 } ∧
          t.dev.ce = { d.ce with
            health := x.1, reseeding := false, requests := 0, fresh := false, drbg := Drbg.zero.seed (raw.drop 512) })) ∧
      (∀ rct : Bool, d.rngState ≠ rngFAILED → failed (.healthFail rct) rct))

/-- R261 to R264, R268: the key commands. Each takes its inputs and is BUSY, or is lost while one executes; the first condition
that fails is its status and leaves every slot as it was; else it has its effect, on its slot alone (and the count of
the key-encrypting key of an export). -/
def Sys2Proof.Claims.KeySlotsManaged : Prop :=
  ∀ (s : State) (m : Master) (kek slot : Fin 64) (row : Instr) (op : Nat),
    (row, op) ∈ [(Instr.importWrapped m kek slot, 1), (.importPlain m slot, 2), (.generate m slot, 3),
      (.exportWrapped m kek slot, 4), (.erase m slot, 5), (.publicPoint m slot, 6)] →
    let d := s.dev
    let f0 := if op = 1 ∨ op = 4 then kek.val else 0
    let said (t : State) : Prop := t.core = (became s s.core t.dev).core ∧ t.pending = s.pending
    (Arrives d m F.CE_KEY_CMD_OP.addr (f0 * 2 ^ 16 + slot.val * 2 ^ 8 + op) →
      (d.flag F.CE_KEY_RESULT_BUSY = true → exec row s = .next (became s s.core (d.put F.CE_KEY_RESULT_CMD_LOST 1))) ∧
      (d.flag F.CE_KEY_RESULT_BUSY = false →
        ∃ t, exec row s = .next t ∧ said t ∧ (d.nextWanting = none → t.dev.slots = d.slots) ∧ t.dev.ram = d.ram ∧
          t.dev.flag F.CE_KEY_RESULT_BUSY = true ∧ t.dev.get F.CE_KEY_RESULT_SLOT = slot.val ∧
          t.dev.ce.key.map (fun x => { x with want := 0, rnd := [] }) =
            some ⟨op, f0, slot.val, d.get F.CE_KEY_ADDR_ADDR, d.get F.CE_KEY_HDR0_PLEN, d.get F.CE_KEY_HDR0_TYPE,
              d.get F.CE_KEY_HDR1_USAGE, d.reg F.CE_KEY_HDR2_FIXED.addr, d.ce.order, 0, [], 0⟩)) ∧
    (∀ k : CeKeyCmd, d.ce.key = some k → d.calm → d.on .core = true → d.opState = stHost → k.want = 0 → k.slot < 64 →
      (d.slot k.kek).chk = [] → (d.slot k.slot).chk = [] →
      let ended (t : State) (st : Nat) : Prop := said t ∧ t.dev.ce.key = none ∧
        t.dev.flag F.CE_KEY_RESULT_BUSY = false ∧ t.dev.get F.CE_KEY_RESULT_STATUS = st
      let filled (t : State) (typ usage : Nat) (fixed : Word) (key : Bytes) : Prop :=
        t.dev.slot k.slot = ⟨typ, key, usage, decide (k.op = 3), fixed, 0, false, []⟩ ∧
          ∀ q : Fin 64, q.val ≠ k.slot → t.dev.slot q = d.slot q
      let d1 := (d.askEnergy .key 5 (keyBudget k)).1
      (∀ st, d1.keyCmdFails k = some st → (∀ y, d1.exportRefused k = some y → y.calm) →
        ∃ t, exec .ceKeyCmdDone s = .next t ∧ ended t st ∧ t.dev.slots = d.slots ∧ t.dev.ram = d.ram) ∧
      (d1.keyCmdFails k = none →
        (∀ d2 key, k.op = 2 → d1.ceRead none k.addr k.plen = (d2, .ok key) → d2.calm →
          ∃ t, exec .ceKeyCmdDone s = .next t ∧ ended t ksOK ∧ filled t k.typ k.usage k.fixed key) ∧
        (∀ d2 st a, k.op = 2 → d1.ceRead none k.addr k.plen = (d2, .error (st, a)) → d2.calm →
          ∃ t, exec .ceKeyCmdDone s = .next t ∧ ended t (keyAccess st) ∧ t.dev.slots = d2.slots) ∧
        (∀ d2 d3 head rest typ plen usage fixed key, k.op = 1 → d1.ceRead none k.addr 16 = (d2, .ok head) →
          blobHeader head = some (typ, plen, usage, fixed) → plenOk typ plen = true →
          d2.ceRead none (k.addr + 16) (28 + plen) = (d3, .ok rest) → d3.calm →
          unwrapKey (d.slot k.kek).key (head ++ rest) plen = some key →
          ∃ t, exec .ceKeyCmdDone s = .next t ∧ ended t ksOK ∧ filled t typ usage fixed key) ∧
        (∀ d2 n e, k.op = 4 →
          (d1.setSlot k.kek { d.slot k.kek with inv := (d.slot k.kek).inv + 1 }).ceWrite none k.addr
            (wrapKey (d.slot k.kek).key k.rnd (d.slot k.slot)) = (d2, n, e) → d2.calm →
          ∃ t, exec .ceKeyCmdDone s = .next t ∧ said t ∧ t.dev.ce.key = none ∧
            t.dev.slot k.kek = { d.slot k.kek with inv := (d.slot k.kek).inv + 1 } ∧
            ∀ q : Fin 64, q.val ≠ k.kek → t.dev.slot q = d.slot q) ∧
        (k.op = 3 → ∃ t, exec .ceKeyCmdDone s = .next t ∧ ended t ksOK ∧ (t.dev.slot k.slot).key.length = k.plen ∧
          filled t k.typ k.usage k.fixed (t.dev.slot k.slot).key) ∧
        (k.op = 5 → ∃ t, exec .ceKeyCmdDone s = .next t ∧ ended t ksOK ∧ t.dev.slot k.slot = KeySlot.empty ∧
          ∀ q : Fin 64, q.val ≠ k.slot → t.dev.slot q = d.slot q) ∧
        (∀ d2 n, k.op = 6 → d1.ceWrite none k.addr ((if (d.slot k.slot).typ = 4 then p256 else p384).public
            (beNat (d.slot k.slot).key)) = (d2, n, none) → d2.calm →
          ∃ t, exec .ceKeyCmdDone s = .next t ∧ ended t ksOK ∧ t.dev.slots = d2.slots ∧ t.dev.ram = d2.ram)))

/-- The random-number source, and the key commands and their statuses.
The model's choices in it: log entries 3, 44 and 58. -/
def Obligations.RandomAndKeys : Prop :=
  Claims.RandomSource ∧ Claims.KeySlotsManaged

/-! ### Memory integrity, events and tamper -/

/-- R276, R285 to R289: the oldest correction that waits is written back, alone. While TRK_EN is set the oldest offer enters
the tracker or raises its entry's COUNT, the fifth of a RAM word starts the copy of its row, and a page whose second offer
it is goes to the refresh queue and leaves the tracker. A copy that has ended leaves each byte as it reads, serves the row
from a spare, clears the entry that asked for it, and is recorded. -/
def Sys2Proof.Claims.MemoryRepaired : Prop :=
  ∀ s : State, s.dev.calm →
    let d := s.dev
    let said (t : State) : Prop := t.core = (became s s.core t.dev).core ∧ t.pending = s.pending
    let count (k : Nat) : Fl := trkField k F.INTEG_TRK_INFO_COUNT
    (∀ w rest, d.integ.writeBack = w :: rest →
      ∃ t, exec .writeBack s = .next t ∧ said t ∧ t.dev.integ = { d.integ with writeBack := rest } ∧ t.dev.regs = d.regs ∧
        t.dev.ramByte w.addr = w.data ∧ t.dev.ramChk w.addr = (if w.poison then poisonPattern else 0) ∧
        ∀ a, a ≠ w.addr → t.dev.ramByte a = d.ramByte a ∧ t.dev.ramChk a = d.ramChk a) ∧
    (∀ o rest, d.integ.offers = o :: rest → d.on .core = false ∨ d.flag F.INTEG_CTL_TRK_EN = false →
      exec .trackerOffer s = .next (became s s.core d)) ∧
    (∀ o rest, d.integ.offers = o :: rest → d.on .core = true → d.flag F.INTEG_CTL_TRK_EN = true →
      ∃ t, exec .trackerOffer s = .next t ∧ said t ∧ t.dev.integ.offers = rest ∧ t.dev.ram = d.ram ∧ t.dev.chk = d.chk ∧
        (∀ k, d.trkFind o = some k → o.nvm = false →
          t.dev.get (count k) = min 7 (d.get (count k) + 1) ∧
          (d.get (count k) < 4 → t.dev.integ.copying = d.integ.copying) ∧
          (4 ≤ d.get (count k) → d.rowCopying (ramSource o.addr) (ramRow o.addr) = false →
            d.sparesTaken (ramSource o.addr) < 16 → ramSource o.addr ≠ 12 ∨ d.rowOccupied (ramRow o.addr) = false →
            t.dev.integ.copying = d.integ.copying ++ [⟨ramSource o.addr, ramRow o.addr, some k⟩])) ∧
        (∀ k, d.trkFind o = none → d.trkVictim = some k → o.nvm = false → o.src < 32 → o.addr < 2 ^ 32 →
          t.dev.get (trkField k F.INTEG_TRK_INFO_VALID) = 1 ∧ t.dev.get (count k) = 1 ∧
          t.dev.get (trkField k F.INTEG_TRK_ADDR_ADDR) = o.addr ∧ t.dev.get (trkField k F.INTEG_TRK_INFO_SOURCE) = o.src) ∧
        (d.trkFind o = none → d.trkVictim = none → t.dev.get F.INTEG_STAT_TRK_LOST = 1) ∧
        (∀ k, d.trkFind o = some k → o.nvm = true → o.src = 18 ∨ o.src = 19 → 1 ≤ d.get (count k) →
          (o.addr - (if o.src = 19 then cstWinBase else flashBase)) / 1024 < 2 ^ 12 →
          t.dev.flag (trkField k F.INTEG_TRK_INFO_VALID) = false ∧
          ((t.dev.refqFind (o.src == 19) ((o.addr - if o.src = 19 then cstWinBase else flashBase) / 1024)).isSome ∨
            t.dev.get F.INTEG_STAT_REFQ_LOST = 1))) ∧
    (∀ c rest, d.integ.copying = c :: rest → c.bank ≤ 12 → c.row < rowsOf c.bank →
      ∃ t, exec .rowRemapDone s = .next t ∧ said t ∧ t.dev.integ.copying = rest ∧
        t.dev.integ.remapped = d.integ.remapped ++ [(c.bank, c.row)] ∧
        t.dev.get (remapField c.bank F.INTEG_REMAP_STAT_LAST_ROW) = c.row ∧
        (∀ k, c.entry = some k → k < 16 → t.dev.flag (trkField k F.INTEG_TRK_INFO_VALID) = false) ∧
        bitAt (t.dev.get F.EVT_TRBL_TRBL) tREMAP = true ∧
        (∀ i, i < 256 → t.dev.ramView (rowBase c.bank c.row + i) = d.ramView (rowBase c.bank c.row + i)) ∧
        ∀ a, a < rowBase c.bank c.row ∨ rowBase c.bank c.row + 256 ≤ a → t.dev.ramByte a = d.ramByte a ∧
          t.dev.ramChk a = d.ramChk a)

/-- R288, R290: software's commands. INTEG_REMAP_CMD starts the copy of a row, or notes a Buckets row that is occupied, unless
it is served from a spare already, has no spare left or does not exist; REMOVE takes a program flash page out of the refresh queue, and leaves a Cistern page. -/
def Sys2Proof.Claims.RepairCommands : Prop :=
  ∀ (s : State) (m : Master),
    let d := s.dev
    let said (t : State) : Prop := t.core = (became s s.core t.dev).core ∧ t.pending = s.pending ∧ t.dev.ram = d.ram
    (∀ (bank : Fin 16) (row : Fin 2048),
      Arrives d m F.INTEG_REMAP_CMD_GO.addr (2 ^ 16 + bank.val * 2 ^ 12 + row.val) →
      ∃ t, exec (.integRemapCmd m bank row) s = .next t ∧ said t ∧
        t.dev.get F.INTEG_REMAP_RESULT_STATUS = (if 12 < bank.val ∨ rowsOf bank ≤ row.val then 3
          else if d.rowGone bank row then 1 else if 16 ≤ d.sparesTaken bank then 2 else 0) ∧
        (let waits : Prop := bank.val = 12 ∧ d.rowOccupied row = true
        t.dev.integ.copying = d.integ.copying ++
          (if t.dev.get F.INTEG_REMAP_RESULT_STATUS = 0 ∧ ¬ waits then [⟨bank.val, row.val, none⟩] else []) ∧
        t.dev.integ.deferred = d.integ.deferred ++
          (if t.dev.get F.INTEG_REMAP_RESULT_STATUS = 0 ∧ waits then [row.val] else []))) ∧
    (∀ k : Fin 8, Arrives d m F.INTEG_REFQ_CMD_REMOVE.addr (8 + k.val) →
      d.flag (refqField k F.INTEG_REFQ_VALID) = true →
      ∃ t, exec (.remove m k) s = .next t ∧ said t ∧
        t.dev.flag (refqField k F.INTEG_REFQ_VALID) = d.flag (refqField k F.INTEG_REFQ_MEM) ∧
        ∀ q : Fin 8, q ≠ k → t.dev.reg (refqField q F.INTEG_REFQ_VALID).addr = d.reg (refqField q F.INTEG_REFQ_VALID).addr)

/-- Write-backs, tracker offers and row copies repair memory, alone or on command.
The model's choices in it: log entry 33. -/
def Obligations.MemoryRepaired : Prop :=
  Claims.MemoryRepaired ∧ Claims.RepairCommands

/-- R292, R293, R295: a Dredge pass starts in HOST over BASE to LIMIT, with zeroed counts; each burst reads one block, which is
counted as read or as not, and goes on to the next or ends the pass; ABORT ends it at the next block.
The model's choices in it: log entry 32. -/
def Obligations.DredgePasses : Prop :=
  ∀ (s : State) (m : Master),
    let d := s.dev
    let a := F.DRG_CTL_OP.addr
    let said (t : State) : Prop := t.core = (became s s.core t.dev).core ∧ t.pending = s.pending
    let sum (x : Dev) (k : Nat) : Nat := x.get (F.DRG_SUM_COUNT.plus (4 * k))
    let refused := if d.flag F.DRG_STAT_RUN then 4 else if d.opState ≠ stHost then 2 else 3
    (Arrives d m a (((d.reg a &&& 0xF00) ||| 1).toNat) →
      (d.flag F.DRG_STAT_RUN = true ∨ d.opState ≠ stHost ∨ d.get (F.DRG_BASE_ADDR.plus 4) < d.get F.DRG_BASE_ADDR →
        exec (.dredgeStart m) s = .next (became s s.core (d.put F.DRG_STAT_STATUS refused))) ∧
      (d.flag F.DRG_STAT_RUN = false → d.opState = stHost → d.get F.DRG_BASE_ADDR ≤ d.get (F.DRG_BASE_ADDR.plus 4) →
        ∃ t, exec (.dredgeStart m) s = .next t ∧ said t ∧ t.dev.flag F.DRG_STAT_RUN = true ∧
          t.dev.integ.drgNext = 64 * d.get F.DRG_BASE_ADDR ∧ t.dev.integ.drgAbort = false ∧ ∀ k, k < 8 → sum t.dev k = 0)) ∧
    (Arrives d m a (((d.reg a &&& 0xF00) ||| 2).toNat) → d.flag F.DRG_STAT_RUN = true →
      exec (.dredgeAbort m) s = .next (became s s.core { d with integ := { d.integ with drgAbort := true } })) ∧
    (d.calm → d.on .core = true → d.flag F.DRG_STAT_RUN = true →
      (d.integ.drgAbort = true →
        ∃ t, exec .dredgeBurst s = .next t ∧ said t ∧ t.dev.flag F.DRG_STAT_RUN = false ∧ t.dev.flag F.DRG_STAT_DONE = true ∧
          t.dev.get F.DRG_STAT_STATUS = 1 ∧ sum t.dev 0 = sum d 0) ∧
      (d.integ.drgAbort = false → inRam d.integ.drgNext = true → d.integ.drgNext % 64 = 0 → d.integ.copying = [] →
        ∃ t, exec .dredgeBurst s = .next t ∧ said t ∧ t.dev.ram = d.ram ∧ t.dev.chk = d.chk ∧
          ((sum t.dev 0 = satAdd 32 (sum d 0) 1 ∧ sum t.dev 6 = sum d 6) ∨
            (sum t.dev 6 = satAdd 32 (sum d 6) 1 ∧ sum t.dev 0 = sum d 0)) ∧
          (d.integ.drgNext = 64 * d.get (F.DRG_BASE_ADDR.plus 4) →
            t.dev.flag F.DRG_STAT_RUN = false ∧ t.dev.flag F.DRG_STAT_DONE = true ∧ t.dev.get F.DRG_STAT_STATUS = 0) ∧
          (d.integ.drgNext ≠ 64 * d.get (F.DRG_BASE_ADDR.plus 4) →
            t.dev.flag F.DRG_STAT_RUN = true ∧ t.dev.integ.drgNext = d.integ.drgNext + 64)))

/-- R377 to R385, R397: the oldest request of a source is issued. It joins the source's open record, which counts it, or takes
the next ESN; ring 6 keeps it where it may take a slot, and it is counted as dropped where not; the open record closes
once its window, the end included, is over, and not before. A write of EVT_SW requests an event of firmware's own. -/
def Sys2Proof.Claims.EventsIssued : Prop :=
  ∀ (s : State) (src : Fin 32), s.dev.calm → s.dev.on .aon = true →
    let d := s.dev
    let said (t : State) : Prop := t.core = (became s s.core t.dev).core ∧ t.pending = s.pending ∧ t.dev.ram = d.ram
    let next := min (d.evt.esn + 1) (2 ^ 48 - 1)
    (∀ pre q post, d.evt.queue = pre ++ q :: post → q.src = src.val → (∀ x ∈ pre, x.src ≠ src.val) →
      (∀ r, d.joins q = some r →
        ∃ t, exec (.eventIssue src) s = .next t ∧ said t ∧ t.dev.evt.queue = pre ++ post ∧ t.dev.evt.esn = d.evt.esn ∧
          t.dev.openOf src = some { r with len := min 65535 (r.len + 1) }) ∧
      (d.joins q = none → q.isLost = false →
        (d.ringTakes 6 = true → d.get (ringField 6 F.RING_LOST_PENDING) = 0 → d.eventNeed q.cls < d.ringSpace 6 →
          ∃ t, exec (.eventIssue src) s = .next t ∧ said t ∧ t.dev.evt.queue = pre ++ post ∧ t.dev.evt.esn = next ∧
            (t.dev.ring 6).reserved.getLast?.map (fun e => (e.kind, e.esn)) = some (.event src, d.evt.esn) ∧
            (d.get F.EVT_CFG_COAL ≠ 0 → t.dev.openOf src =
              some ⟨src, q.code, q.cls, q.arg0, q.arg1, d.evt.esn, 1, some 6, q.since, q.time⟩)) ∧
        (d.on .core = true → d.ringTakes 6 = false ∨ d.ringSpace 6 ≤ d.eventNeed q.cls →
          ∃ t, exec (.eventIssue src) s = .next t ∧ said t ∧ t.dev.evt.queue = pre ++ post ∧ t.dev.evt.esn = next ∧
            t.dev.get (ringField 6 F.RING_DROPS_COUNT) = satAdd 32 (d.get (ringField 6 F.RING_DROPS_COUNT)) 1 ∧
            t.dev.openOf src = none))) ∧
    (d.openOf src = none ∨ (∃ r, d.openOf src = some r ∧ d.now ≤ r.opened + 64000 * d.get F.EVT_CFG_COAL) →
      exec (.coalWindowClose src) s = .next (became s s.core d)) ∧
    (∀ r, d.openOf src = some r → r.slot.isSome → r.opened + 64000 * d.get F.EVT_CFG_COAL < d.now →
      ∃ t, exec (.coalWindowClose src) s = .next t ∧ said t ∧ t.dev.openOf src = none ∧ t.dev.evt.esn = d.evt.esn ∧
        ∀ e ∈ (t.dev.ring 6).reserved, e.kind = .event src → e.esn = r.esn → e.words.isSome) ∧
    (∀ (m : Master) (v : Word), Arrives d m F.EVT_SW_CODE.addr v.toNat → d.aonPend = [] →
      let c := v.toNat / 2 ^ 29
      let cls := if c = 0 then 1 else if 5 < c then 5 else c
      ∃ t, exec (.evtSw m v) s = .next t ∧ said t ∧ t.dev.evt.esn = d.evt.esn ∧ t.dev.aonPend = [] ∧
        (bitAt (d.get F.EVT_CFG_CLASS_EN) cls = true →
          t.dev.evt.queue.map (fun e => (e.src, e.code, e.cls, e.arg0, e.arg1)) =
            d.evt.queue.map (fun e => (e.src, e.code, e.cls, e.arg0, e.arg1)) ++
              [(31, v.toNat % 2 ^ 16, cls, d.reg F.EVT_SW_ARG0_ARG.addr, d.reg (F.EVT_SW_ARG0_ARG.addr + 4))]))

/-- R388, R389: the watchdog. Setting EN starts its count, which EN = 1 then locks; a kick with the key starts it afresh before
it has run out and clears ESCALATE; its expiry, never early, resets the core, and a second one the device. -/
def Sys2Proof.Claims.WatchdogCounts : Prop :=
  ∀ s : State,
    let d := s.dev
    let said (t : State) : Prop := t.pending = s.pending ∧ t.dev.ram = d.ram
    let fresh : Wdog := ⟨0, if wdogCounts d.opState then some d.now else none⟩
    (∀ (m : Master) (v : Word), d.aonPend = [] →
      (Arrives d m F.WDOG_KICK_KEY.addr v.toNat → d.flag F.WDOG_CTL_EN = true →
        (v.toNat % 2 ^ 16 = 0x6B17 → d.wdogExpired = false →
          ∃ t, exec (.wdogKick m v) s = .next t ∧ said t ∧ t.dev.wdog = fresh ∧ t.dev.flag F.WDOG_STAT_ESCALATE = false) ∧
        (v.toNat % 2 ^ 16 ≠ 0x6B17 ∨ d.wdogExpired = true →
          ∃ t, exec (.wdogKick m v) s = .next t ∧ said t ∧ t.dev.wdog = d.wdog ∧
            t.dev.flag F.WDOG_STAT_ESCALATE = d.flag F.WDOG_STAT_ESCALATE)) ∧
      (Arrives d m F.WDOG_CTL_EN.addr v.toNat → d.flag F.WDOG_CTL_EN = false →
        ∃ t, exec (.wdogStart m v) s = .next t ∧ said t ∧ t.dev.flag F.WDOG_CTL_EN = v.getLsbD 31 ∧
          t.dev.get F.WDOG_CTL_TIMEOUT = max 1 (v.toNat % 2 ^ 16) ∧ (v.getLsbD 31 = true → t.dev.wdog = fresh))) ∧
    (d.wdogExpired = false → exec .wdogExpiry s = .next (became s s.core d)) ∧
    (d.calm → d.wdogExpired = true → wdogCounts d.opState = true →
      (d.flag F.WDOG_STAT_ESCALATE = true →
        ∃ t, exec .wdogExpiry s = .next t ∧ said t ∧ t.dev.resetReq = some (d.resetReq.getD 4) ∧ t.dev.wdog = fresh ∧
          bitAt (t.dev.get F.EVT_TRBL_TRBL) tWDOG = true) ∧
      (d.flag F.WDOG_STAT_ESCALATE = false → d.filled[0] = true →
        ∃ t, exec .wdogExpiry s = .next t ∧ said t ∧ t.dev.resetReq = d.resetReq ∧ t.dev.wdog = fresh ∧
          t.dev.flag F.WDOG_STAT_ESCALATE = true ∧ t.core.pc = Core.reset.pc ∧ t.core.cst.toNat % 4 = 2))

/-- R13, R20, R416, R417: what follows the watchdog and its like. A device reset that has been asked for is applied; a core
reset takes place at once; a software request for a device reset waits to be applied; and a store on its way to AON
completes: here, of an argument of firmware's events. -/
def Sys2Proof.Claims.ResetsFollow : Prop :=
  ∀ (s : State) (m : Master),
    let fresh (t : State) : Prop := t.core = { Core.reset with released := t.dev.filled[0] } ∧ t.pending = s.pending
    (∀ c, s.dev.resetReq = some c → s.dev.alarming = false →
      ∃ t, exec .deviceReset s = .next t ∧ fresh t ∧ t.dev.resetReq = none ∧ t.dev.wdog = ⟨0, none⟩ ∧
        t.dev.evt.esn = s.dev.evt.esn ∧ t.dev.evt.open_ = []) ∧
    (Arrives s.dev m F.SYS_CORE_RESET_KEY.addr 0xA55A → s.dev.sbuf = [] →
      ∃ t, exec (.coreReset m 0xA55A) s = .next t ∧ fresh t ∧ t.dev.resetReq = s.dev.resetReq ∧ t.dev.ram = s.dev.ram) ∧
    (Arrives s.dev m F.SYS_DEV_RESET_KEY.addr 0x5AA5 →
      ∃ t, exec (.devReset m 0x5AA5) s = .next t ∧ t.core = (became s s.core t.dev).core ∧ t.pending = s.pending ∧
        t.dev.resetReq = some (s.dev.resetReq.getD 5) ∧ t.dev.regs = s.dev.regs) ∧
    (∀ (k : Fin 2) (v : Word) (e : BitVec 4), s.dev.calm →
      s.dev.aonPend = [⟨F.EVT_SW_ARG0_ARG.addr + 4 * k.val, v, m, e⟩] →
      ∃ t, exec .aonStoreComplete s = .next t ∧ t.core = (became s s.core t.dev).core ∧ t.pending = s.pending ∧
        t.dev.aonPend = [] ∧ t.dev.reg (F.EVT_SW_ARG0_ARG.addr + 4 * k.val) = v)

/-- Events join their record or take the next ESN, and the watchdog and the reset commands reset core and device.
The model's choices in it: log entries 13 and 63. -/
def Obligations.EventsAndWatchdog : Prop :=
  Claims.EventsIssued ∧ Claims.WatchdogCounts ∧ Claims.ResetsFollow

/-- R390 to R394: the alarm edge. A condition that is recognised shows in PRESENT; its first edge is latched, counted, recorded
with the state before it, and asks the state controller for the alarm: the keys, the session, the rings and every job are
gone at once. A condition that is latched already makes no second edge, but a core fault then asks for a device reset. One
that is still present when Vault clears its latch alarms again. -/
def Sys2Proof.Claims.AlarmEdges : Prop :=
  ∀ (s : State) (cause : Fin 9) (detail : Byte), s.dev.calm → s.dev.on .aon = true →
    let d := s.dev
    let bitOf (x : Dev) : Bool := bitAt (x.get F.WC_STAT_PRESENT) cause
    (d.latched cause = false →
      ∃ t, exec (.alarmEdge cause detail) s = .next t ∧ t.pending = s.pending ∧ bitOf t.dev = true ∧
        t.dev.get F.WC_LATCH_LATCH = d.get F.WC_LATCH_LATCH ||| 2 ^ cause.val ∧ t.dev.get F.WC_LAST_CAUSE = cause.val ∧
        t.dev.get F.WC_LAST_DETAIL = detail.toNat ∧
        t.dev.get F.WC_LAST_ALARM_COUNT = satAdd 16 (d.get F.WC_LAST_ALARM_COUNT) 1 ∧
        bitAt (t.dev.get F.EVT_TRBL_TRBL) tALARM = true ∧
        t.dev.wellcap.recs.map (fun r => (r.cause, r.detail)) =
          d.wellcap.recs.map (fun r => (r.cause, r.detail)) ++ [(cause.val, detail.toNat)] ∧
        t.dev.alarming = true ∧ t.dev.slots = [] ∧ t.dev.rings = [] ∧ t.dev.keyCmd = none ∧ t.dev.ce = Ce.reset ∧
        t.dev.hp.session = none ∧ t.dev.flashJob = none ∧ t.dev.woh.job = none ∧
        (∀ c : Fin 8, (t.dev.chans[c]).job = none)) ∧
    (d.latched cause = true → cause.val < 7 →
      exec (.alarmEdge cause detail) s = .next (became s s.core
        ({ d with wellcap := { d.wellcap with detail := d.wellcap.detail.set cause detail.toNat } }.put F.WC_STAT_PRESENT
          (d.get F.WC_STAT_PRESENT ||| 2 ^ cause.val)))) ∧
    (d.latched cause = true → 7 ≤ cause.val →
      ∃ t, exec (.alarmEdge cause detail) s = .next t ∧ t.pending = s.pending ∧ bitOf t.dev = true ∧
        t.dev.resetReq = some (d.resetReq.getD 6) ∧ t.dev.wellcap.recs = d.wellcap.recs ∧ t.core.stopped = true) ∧
    (cause.val < 7 → bitAt (d.get F.WC_STAT_PRESENT) cause = true → d.latched cause = false →
      (cause.val = 1 → d.flag F.WC_CTL_LIGHT_EN = true) →
      (∀ k, k < 7 → k ≠ cause.val → bitAt (d.get F.WC_STAT_PRESENT) k = false ∨ d.latched k = true) →
      d.alarmPersisting = d.alarmEdge cause (d.wellcap.detail[cause]))

/-- R390, R433, R443: what each sensor makes of its sample: when a condition is present and alarms, with which detail, when it
only warns or sets a trouble bit, and when it is gone. A mesh mismatch alarms only when the resample confirms it, and a dip
alarms though it is over. -/
def Sys2Proof.Claims.SensorsJudge : Prop :=
  ∀ s : State, s.dev.calm → s.dev.on .aon = true →
    let d := s.dev
    let on (x : Dev) : State := { s with dev := x }
    let alarms (i : Instr) (cause : Fin 9) (detail : Nat) (x : Dev) : Prop :=
      ∃ t, exec i s = .next t ∧ exec (.alarmEdge cause (BitVec.ofNat 8 detail)) (on x) = .next t
    let clear (i : Instr) (cause : Nat) (P : State → Prop) : Prop :=
      ∃ t, exec i s = .next t ∧ t.core = (became s s.core t.dev).core ∧ t.pending = s.pending ∧
        bitAt (t.dev.get F.WC_STAT_PRESENT) cause = false ∧ t.dev.wellcap.recs = d.wellcap.recs ∧ P t
    let vbat (mv : Nat) : Dev := { d with env := { d.env with vbat := mv } }
    let warned (t : State) (k : Nat) (b : Prop) : Prop :=
      bitAt (t.dev.get F.WC_WARN_WARN) k = true ↔ bitAt (d.get F.WC_WARN_WARN) k = true ∨ b
    (∀ p : Fin 8,
      exec (.meshSample (some p)) s = .next (became s s.core { d with wellcap := { d.wellcap with resample := true } }) ∧
      (d.wellcap.resample = true →
        alarms (.meshResample (some p)) 0 p { d with wellcap := { d.wellcap with resample := false } })) ∧
    clear (.meshSample none) 0 (fun t => t.dev.wellcap = d.wellcap) ∧
    (d.wellcap.resample = true → clear (.meshResample none) 0 fun t => t.dev.wellcap.resample = false) ∧
    (∀ k : Fin 4, d.flag F.WC_CTL_LIGHT_EN = true → alarms (.light (some k)) 1 k d) ∧
    (∀ k : Fin 4, d.flag F.WC_CTL_LIGHT_EN = false →
      exec (.light (some k)) s = .next (became s s.core
        ({ d with wellcap := { d.wellcap with detail := d.wellcap.detail.set 1 k.val } }.put F.WC_STAT_PRESENT
          (d.get F.WC_STAT_PRESENT ||| 2)))) ∧
    clear (.light none) 1 (fun t => t.dev.wellcap = d.wellcap) ∧
    (∀ k : Fin 4, alarms (.vglitch (.over k)) 2 k d) ∧
    alarms (.vglitch .test0) 2 4 { d with env := { d.env with test0Bad := true } } ∧
    (∀ k : Fin 3, d.latched 2 = false →
      ∃ t, exec (.vglitch (.dip k)) s = .next t ∧ t.pending = s.pending ∧ t.dev.alarming = true ∧
        t.dev.get F.WC_LAST_CAUSE = 2 ∧ t.dev.get F.WC_LAST_DETAIL = k.val ∧
        bitAt (t.dev.get F.WC_STAT_PRESENT) 2 = bitAt (d.get F.WC_STAT_PRESENT) 2) ∧
    clear (.vglitch .gone) 2 (fun t => t.dev.env.test0Bad = false) ∧
    (∀ mv : Nat,
      (mv < 2000 → d.get F.WH_STAT_AON_SRC = 0 → alarms (.vbatUv mv) 3 0 (vbat mv)) ∧
      (mv < 2000 → d.get F.WH_STAT_AON_SRC ≠ 0 →
        clear (.vbatUv mv) 3 fun t => bitAt (t.dev.get F.EVT_TRBL_TRBL) tVBAT = true) ∧
      (2000 ≤ mv → mv ≤ 3800 → clear (.vbatUv mv) 3 fun t => t.dev.env.vbat = mv) ∧
      (3800 < mv → alarms (.vbatUv mv) 3 1 (vbat mv))) ∧
    (d.on .pump = true →
      alarms (.clock .stopped) 4 2 d ∧
      ∀ ppm : Int,
        (50000 < ppm → alarms (.clock (.deviation ppm)) 4 0 d) ∧
        (ppm < -50000 → alarms (.clock (.deviation ppm)) 4 1 d) ∧
        (-50000 ≤ ppm → ppm ≤ 50000 →
          clear (.clock (.deviation ppm)) 4 fun t => d.on .core = true → warned t 0 (500 < ppm ∨ ppm < -500))) ∧
    (d.xtal = true → alarms .aonClock 5 0 d) ∧
    (d.on .core = true → alarms .lockstep 7 0 d) ∧
    ∀ tj : Int,
      (-100 ≤ tj → tj ≤ 250 → clear (.temp tj) 6 fun t => t.dev.env.tj = tj ∧ sgn 10 (t.dev.get F.WC_TEMP_TJ) = tj ∧
        (d.on .core = true → warned t 1 (tj < -84) ∧ warned t 2 (226 < tj))) ∧
      (tj < -100 ∨ 250 < tj → d.latched 6 = false →
        ∃ t, exec (.temp tj) s = .next t ∧ t.pending = s.pending ∧ bitAt (t.dev.get F.WC_STAT_PRESENT) 6 = true ∧
          t.dev.get F.WC_LAST_CAUSE = 6 ∧ t.dev.get F.WC_LAST_DETAIL = (if tj < -100 then 0 else 1) ∧
          t.dev.alarming = true)

/-- Each sensor's sample makes or ends its condition, and a first edge starts the alarm.
The model's choices in it: log entry 45. -/
def Obligations.AlarmConditions : Prop :=
  Claims.AlarmEdges ∧ Claims.SensorsJudge

/-! ### Host link, boot, flash and balls -/

/-- R400, R401, R402, R405: what a transaction answers and records when it ends at its check: IDENT's eight bytes, CRC_ERR,
BAD_CMD, BAD_ALIGN, and a chip select that rises early. -/
def Sys2Proof.Claims.TransactionsEnd : Prop :=
  ∀ s : State, s.dev.calm →
    let d := s.dev
    let link := d.opState = stHost ∧ d.on .core = true ∧ d.alarming = false
    let frame (status count : Nat) (data : Bytes) : Bytes :=
      let body := BitVec.ofNat 8 status :: BitVec.ofNat 8 count :: BitVec.ofNat 8 (count / 256) :: data
      0x5A :: body ++ leBytes 4 (crc32c body)
    let host (cmd len : Byte) (addr : Word) : Bytes := cmd :: len :: leBytes 4 addr.toNat
    let kept (t : State) : Prop := t.core = (became s s.core t.dev).core ∧ t.pending = s.pending ∧ t.dev.ram = d.ram ∧
      t.dev.get F.WOHIAL_COUNT_TXNS = satAdd 16 (d.get F.WOHIAL_COUNT_TXNS) 1
    let good (t : State) (cmd : Nat) : Prop := kept t ∧ t.dev.get F.WOHIAL_STAT_LAST_CMD = cmd ∧
      t.dev.get F.WOHIAL_STAT_LAST_STATUS = 0 ∧ t.dev.flag F.WOHIAL_STAT_ERR = d.flag F.WOHIAL_STAT_ERR ∧
      t.dev.get F.WOHIAL_COUNT_ERRORS = d.get F.WOHIAL_COUNT_ERRORS
    let bad (t : State) (cmd status : Nat) : Prop := kept t ∧ t.dev.get F.WOHIAL_STAT_LAST_CMD = cmd ∧
      t.dev.get F.WOHIAL_STAT_LAST_STATUS = status ∧ t.dev.flag F.WOHIAL_STAT_ERR = true ∧
      t.dev.get F.WOHIAL_COUNT_ERRORS = satAdd 16 (d.get F.WOHIAL_COUNT_ERRORS) 1
    let said (t : State) (cmd status : Nat) (addr : Word) : Prop :=
      bad t cmd status ∧ t.dev.woh.answer = frame status 0 [] ∧ t.dev.get F.WOHIAL_ERR_ADDR_ADDR = addr.toNat
    link → ∀ (len : Byte) (addr chk : Word),
      (chk.toNat = crc32c (host 0x9F len addr) →
        ∃ t, exec (.ident len addr chk) s = .next t ∧ good t 0x9F ∧ t.dev.woh.answer = frame 0 8
          [0x20, 0x48, 0x01, 0x03, BitVec.ofNat 8 (d.get F.WOHIAL_CTL_GEN),
            if d.boot = .recovery then 1 else if d.boot = .halted then 2 else 0, 0, 0]) ∧
      (chk.toNat ≠ crc32c (host 0x9F len addr) →
        ∃ t, exec (.ident len addr chk) s = .next t ∧ said t 0x9F 1 addr) ∧
      (∀ cmd : Byte, cmd ≠ 0x9F → cmd ≠ 2 →
        (chk.toNat ≠ crc32c (host cmd len addr) →
          ∃ t, exec (.read cmd len addr chk) s = .next t ∧ said t cmd.toNat 1 addr) ∧
        (chk.toNat = crc32c (host cmd len addr) → cmd ≠ 3 →
          ∃ t, exec (.read cmd len addr chk) s = .next t ∧ said t cmd.toNat 2 addr) ∧
        (chk.toNat = crc32c (host cmd len addr) → cmd = 3 → d.woh.job = none → 0x40000000 ≤ addr.toNat →
          addr.toNat % 4 ≠ 0 ∨ (len.toNat + 1) % 4 ≠ 0 →
          ∃ t, exec (.read cmd len addr chk) s = .next t ∧ said t 3 3 addr)) ∧
      (∀ data : Bytes, data.length = len.toNat + 1 →
        (chk.toNat ≠ crc32c (host 2 len addr ++ data) →
          ∃ t, exec (.write len addr data chk) s = .next t ∧ said t 2 1 addr) ∧
        (chk.toNat = crc32c (host 2 len addr ++ data) → d.woh.job = none → 0x40000000 ≤ addr.toNat →
          addr.toNat % 4 ≠ 0 ∨ (len.toNat + 1) % 4 ≠ 0 →
          ∃ t, exec (.write len addr data chk) s = .next t ∧ said t 2 3 addr)) ∧
      ∀ cmd : Byte, ∃ t, exec (.csRiseEarly cmd) s = .next t ∧ bad t cmd.toNat 8 ∧ t.dev.woh.answer = d.woh.answer ∧
        t.dev.get F.WOHIAL_ERR_ADDR_ADDR = d.get F.WOHIAL_ERR_ADDR_ADDR

/-- R403, R404: a READ answers the bytes that its access as master 13 gives, up to a poisoned word; a WRITE performs its
access; one that an array keeps waiting answers when it ends, or, once TMO × 256 CORE cycles have passed, answers TIMEOUT
and then replaces LAST_STATUS alone; it carries the rule epoch in which its host check passed. The
accesses here stay in one word of the register space or in one 64-byte block. -/
def Sys2Proof.Claims.TransactionsAccess : Prop :=
  ∀ (s : State) (len : Byte) (addr chk : Word), s.dev.calm → s.dev.opState = stHost → s.dev.on .core = true →
    s.dev.alarming = false →
    let d := s.dev
    let a := addr.toNat
    let n := len.toNat + 1
    let onePart := if isRegAddr a then n = 4 ∧ a % 4 = 0 else n ≤ 64 - a % 64 ∧ a < 0x40000000
    let frame (status : Nat) (bs : Bytes) : Bytes :=
      let body := BitVec.ofNat 8 status :: leBytes 2 n ++ bs
      0x5A :: body ++ leBytes 4 (crc32c body)
    let fresh : WohJob := ⟨3, len.toNat, a, [], false, d.epoch, d.now⟩
    let kept (t : State) : Prop := t.core.regs = s.core.regs ∧ t.core.pc = s.core.pc ∧ t.pending = s.pending
    let ok (t : State) (cmd : Nat) : Prop := t.dev.get F.WOHIAL_STAT_LAST_CMD = cmd ∧
      t.dev.get F.WOHIAL_STAT_LAST_STATUS = 0 ∧ t.dev.woh.job = none
    (onePart → d.woh.job = none → chk.toNat = crc32c (3 :: len :: leBytes 4 a) → d.wohStalled fresh = false →
      (d.busLoad 13 .read a n).1.calm → (d.busLoad 13 .read a n).2.1 = .ok →
      anyPoison (d.busLoad 13 .read a n).2.2 = false →
      ∃ t, exec (.read 3 len addr chk) s = .next t ∧ kept t ∧ ok t 3 ∧
        t.dev.woh.answer = frame 0 ((d.busLoad 13 .read a n).2.2.map Prod.fst)) ∧
    (onePart → d.woh.job = none → inRam a = true → ∀ data : Bytes, data.length = n →
      chk.toNat = crc32c (2 :: len :: leBytes 4 a ++ data) →
      d.reachCheck 13 .write a = (d, true) → d.slaveCheck d.epoch 13 false .write a = (d, .ok) → noAbort d →
      ∃ t, exec (.write len addr data chk) s = .next t ∧ kept t ∧ ok t 2 ∧
        t.dev.woh.answer = 0x5A :: (0 :: leBytes 2 n) ++ leBytes 4 (crc32c (0 :: leBytes 2 n)) ∧
        (∀ i, i < n → t.dev.ramByte (a + i) = data.getD i 0) ∧
        ∀ x, x < a ∨ a + n ≤ x → t.dev.ramByte x = d.ramByte x) ∧
    (d.woh.job = none → a < 0x40000000 → chk.toNat = crc32c (3 :: len :: leBytes 4 a) → d.wohStalled fresh = true →
      exec (.read 3 len addr chk) s = .next (became s s.core { d with woh := { d.woh with job := some fresh } })) ∧
    ∀ (e : BitVec 4) (start : Nat),
      let job : WohJob := ⟨3, len.toNat, a, [], false, e, start⟩
      let x := { d with woh := { d.woh with job := none } }.busLoadAt e 13 .read a n
      let expired : Prop := d.get F.WOHIAL_CTL_TMO * 256000 < (d.now - start) * d.coreMhz
      (d.woh.job = some job →
        (¬expired → exec .wohialTimeout s = .next (became s s.core d)) ∧
        (expired → ∃ t, exec .wohialTimeout s = .next t ∧ kept t ∧ t.dev.woh.job = some { job with timedOut := true } ∧
          t.dev.flag F.WOHIAL_STAT_PEND = true ∧ t.dev.get F.WOHIAL_STAT_LAST_STATUS = 7 ∧
          t.dev.get F.WOHIAL_ERR_ADDR_ADDR = a ∧ t.dev.woh.answer.take 4 = [0x5A, 7, 0, 0] ∧ t.dev.ram = d.ram) ∧
        (onePart → x.1.calm → x.2.1 = .ok → anyPoison x.2.2 = false →
          ∃ t, exec .wohialOpDone s = .next t ∧ kept t ∧ ok t 3 ∧ t.dev.woh.answer = frame 0 (x.2.2.map Prod.fst))) ∧
      (d.woh.job = some { job with timedOut := true } →
        exec .wohialTimeout s = .next (became s s.core d) ∧
        (onePart → x.1.calm → x.2.1 = .ok → anyPoison x.2.2 = false →
          ∃ t, exec .wohialOpDone s = .next t ∧ kept t ∧ t.dev.woh.job = none ∧ t.dev.woh.answer = d.woh.answer ∧
            t.dev.flag F.WOHIAL_STAT_PEND = false ∧ t.dev.get F.WOHIAL_STAT_LAST_STATUS = 0))

/-- Wohial transactions are answered and recorded, wait for an array, and time out.
The model's choices in it: log entry 34. -/
def Obligations.Transactions : Prop :=
  Claims.TransactionsEnd ∧ Claims.TransactionsAccess

/-- R406: each 1 bit written to WOHIAL_HOST_DB sets the same bit of WOHIAL_DB; source 56 is raised while ERR is 1 or an enabled
bit of WOHIAL_DB is set; ASSERT drives GPIO0 low while it carries HOST_IRQ_N; WOHIAL_MSG holds the word written. -/
def Obligations.DoorbellsRing : Prop :=
  ∀ (s : State) (m : Master) (v : Word),
    let d := s.dev
    (Arrives d m F.WOHIAL_HOST_DB_SET.addr v.toNat →
      ∃ t, exec (.hostDb m v) s = .next t ∧ t.core = (became s s.core t.dev).core ∧ t.pending = s.pending ∧
        (∀ k : Fin 32, bitAt (t.dev.get F.WOHIAL_DB_DB) k = (bitAt (d.get F.WOHIAL_DB_DB) k || v.getLsbD k)) ∧
        ∀ a, a ≠ F.WOHIAL_DB_DB.addr → t.dev.reg a = d.reg a) ∧
    (d.source 56 = true ↔ d.flag F.WOHIAL_STAT_ERR = true ∨
      ∃ k : Fin 32, bitAt (d.get F.WOHIAL_DB_DB) k = true ∧ bitAt (d.get F.WOHIAL_DB_EN_EN) k = true) ∧
    (d.get F.GPIO_FUNC = 1 → d.driven 0 = some (!d.flag F.WOHIAL_IRQ_OUT_ASSERT)) ∧
    (Arrives d m F.WOHIAL_MSG_MSG.addr v.toNat →
      ∃ t, exec (.registerWrite m (BitVec.ofNat 32 F.WOHIAL_MSG_MSG.addr) v false) s = .next t ∧
        t.dev.reg F.WOHIAL_MSG_MSG.addr = v)

/-- R413, R414: after a reset the boot ROM tries the banks in the order that counters 26 and 27 ask for. The first whose check
gives 0 is handed over: the pc, the general registers, CST, the protection of its bank and the boot registers are as R414
says; when both fail, the core waits in recovery or halted. A trial first asks for its INC_CTR. -/
def Sys2Proof.Claims.BootDecides : Prop :=
  ∀ s : State, s.dev.calm → s.dev.on .core = true → s.core.released = true → s.core.stopped = false →
    s.dev.filled[0] = true →
    let d := s.dev
    let handed (t : State) (b trial : Bool) : Prop :=
      let h := (t.dev.flashBytes (0x200000 * b2n b) 0x200).map Prod.fst
      let base := 0x08000000 + 0x200000 * b2n b
      t.dev.boot = .firmware ∧ t.core.pc = BitVec.ofNat 32 (base + 0x200) + BitVec.ofNat 32 (hdrField h 0x14 4) ∧
        t.core.rd 4 = BitVec.ofNat 32 base ∧ t.core.rd 5 = t.dev.reg F.SYS_BOOT_STAT_UNPROV.addr ∧
        t.core.rd 31 = BitVec.ofNat 32 (hdrField h 0x18 4) ∧ t.core.poison = 0 ∧ t.core.mode = 0 ∧
        t.core.cst.toNat % 16 = 2 ∧ t.core.slot = none ∧
        t.dev.flag F.FLASH_PROT_PROT_A = (!b) ∧ t.dev.flag F.FLASH_PROT_PROT_B = b ∧
        t.dev.flag F.SYS_BOOT_STAT_TRIAL_BOOTED = trial ∧ t.dev.get F.SYS_BOOT_STAT_KEYIDX = hdrField h 6 1 ∧
        t.dev.flag F.SYS_BOOT_STAT_BANK = b ∧ t.dev.get F.SYS_BOOT_SVN_SVN = hdrField h 8 4 ∧
        t.dev.flag F.SYS_BOOT_STAT_RULES_KEPT = d.flag F.ACCESS_CTRL_LOCK ∧ t.dev.owner 0x40 = ownFree
    let tried (x : Dev) (p trial : Bool) (t : State) : Prop :=
      let y := x.checkBank p
      let z := (y.1.put (codeField p) y.2).checkBank (!p)
      t.pending = s.pending ∧ t.dev.get (codeField p) = y.2 ∧
        if y.2 = 0 then handed t p trial
        else t.dev.get (codeField (!p)) = z.2 ∧
          if z.2 = 0 then handed t (!p) false
          else t.core.waiting = true ∧ t.core.cst.toNat % 16 = 2 ∧ t.core.regs = s.core.regs ∧
            t.dev.boot = if d.opState = stHost ∧ z.1.noRecovery = false then .recovery else .halted
    (d.boot = .fresh → d.on .isle = true → d.cst.due = false → d.cst.job = none →
      d.owner 0x40 = ownFree ∨ d.owner 0x40 = 2 → d.flag F.ACCESS_EPOCH_PREV_LIVE = false →
      let x := d.bootReads.bootStatStart
      let bit (c : Nat) : Bool := ((d.bootReads.counter c).map Prod.fst).getD 0 % 2 == 1
      ∃ t, exec .boot s = .next t ∧
        if d.opState = stHost ∧ bit 27 = true then t.dev.boot = .trial ∧ t.core = s.core ∧ t.pending = s.pending ∧
          t.dev.owner 0x40 = 2 else tried x (bit 26) false t) ∧
    (d.boot = .trial → d.flag F.CST_STAT_BUSY = false →
      let bit (c : Nat) : Bool := ((d.counter c).map Prod.fst).getD 0 % 2 == 1
      ∃ t, exec .boot s = .next t ∧
        if d.get F.CST_STAT_STATUS = 0 then tried d (!bit 26) true t else tried d (bit 26) false t)

/-- R412, R413: in recovery the ring of doorbell 0 has the image at 0x1004_0000 checked. One that passes is programmed into
bank P and a device reset is asked for; for any other its code stands in WOHIAL_MSG. -/
def Sys2Proof.Claims.RecoveryChecks : Prop :=
  ∀ s : State, s.dev.calm → s.dev.boot = .recovery → (s.dev.get F.WOHIAL_DB_DB) % 2 = 1 →
    let d := s.dev
    let x := (d.put F.WOHIAL_DB_DB (d.get F.WOHIAL_DB_DB - 1)).ramBytes 0x10040000 0x200
    let h := x.2.map Prod.fst
    let len := hdrField h 0x10 4
    let fits := headerOk h = true ∧ 0x200 + len ≤ 0x100000
    let y := if fits then x.1.ramBytes 0x10040200 len else (x.1, [])
    let code := imageCode y.1.bootRefs false x.2 0x100000 fun _ => y.2
    ∃ t, exec .recoveryImage s = .next t ∧ t.core = (became s s.core t.dev).core ∧ t.pending = s.pending ∧
      t.dev.get F.WOHIAL_DB_DB = d.get F.WOHIAL_DB_DB - 1 ∧
      (¬fits → code ≠ 0) ∧
      (code ≠ 0 → t.dev.get F.WOHIAL_MSG_MSG = code ∧ t.dev.boot = .recovery ∧ t.dev.resetReq = d.resetReq ∧
        t.dev.flash = d.flash) ∧
      (code = 0 → t.dev.resetReq = some (d.resetReq.getD 5) ∧
        ∀ i, i < 0x200 + len → t.dev.nvmByte false (0x200000 * b2n y.1.preferred + i) = (x.2 ++ y.2).getD i (0, false))

/-- The boot ROM hands over to the first good bank, and recovery programs a good image.
The model's choices in it: log entries 4 and 35. -/
def Obligations.BootDecides : Prop :=
  Claims.BootDecides ∧ Claims.RecoveryChecks

/-- R418, R421: FLASHCTL. A command is lost while one runs, refused in the order of R418, or starts; when it ends, a sector
reads ERASED, or a page holds the bytes of the buffer, and no other page has changed. CLEAR empties the clamp log. -/
def Sys2Proof.Claims.FlashChanges : Prop :=
  ∀ s : State,
    let d := s.dev
    (∀ (m : Master) (page : BitVec 12) (erase : Bool),
      let i : Instr := if erase then .eraseSector m page else .programPage m page
      let refused (st : Nat) : Prop := ∃ t, exec i s = .next t ∧ t.core = (became s s.core t.dev).core ∧
        t.pending = s.pending ∧ t.dev.get F.FLASH_STAT_STATUS = st ∧ t.dev.flag F.FLASH_STAT_DONE = true ∧
        t.dev.flag F.FLASH_STAT_BUSY = false ∧ t.dev.flag F.FLASH_STAT_BUF_POISON = false ∧ t.dev.flashJob = d.flashJob ∧
        t.dev.flash = d.flash
      Arrives d m F.FLASH_CMD_OP.addr ((if erase then 0x10000 else 0x20000) + page.toNat) →
      let prot := d.flag (if page.toNat < 2048 then F.FLASH_PROT_PROT_A else F.FLASH_PROT_PROT_B)
      let full := erase = false ∧ d.nvmErased false (1024 * page.toNat) 1024 = false
      let poison := d.flag F.FLASH_STAT_BUF_POISON = true
      (d.flag F.FLASH_STAT_BUSY = true →
        exec i s = .next (became s s.core (d.put F.FLASH_STAT_CMD_LOST 1))) ∧
      (d.flag F.FLASH_STAT_BUSY = false →
        (d.opState ≠ stHost → refused 4) ∧
        (d.opState = stHost → prot = true → refused 1) ∧
        (d.opState = stHost → prot = false → full → refused 2) ∧
        (d.opState = stHost → prot = false → ¬full → poison → refused 3) ∧
        (d.opState = stHost → prot = false → ¬full → ¬poison →
          ∃ t, exec i s = .next t ∧ t.core = (became s s.core t.dev).core ∧ t.pending = s.pending ∧
            t.dev.flag F.FLASH_STAT_BUSY = true ∧ t.dev.flash = d.flash ∧
            t.dev.flashJob = some ⟨erase, page.toNat, d.flashBuf⟩))) ∧
    (∀ j, d.calm → d.flashJob = some j → j.page < 4096 → j.data.length = 1024 →
      ∃ t, exec .flashOpDone s = .next t ∧ t.core = (became s s.core t.dev).core ∧ t.pending = s.pending ∧
        t.dev.flashJob = none ∧ t.dev.flag F.FLASH_STAT_BUSY = false ∧ t.dev.flag F.FLASH_STAT_DONE = true ∧
        t.dev.get F.FLASH_STAT_STATUS = 0 ∧
        let first := if j.erase then j.page / 4 * 4096 else j.page * 1024
        let len := if j.erase then 4096 else 1024
        (∀ i, i < len → t.dev.nvmByte false (first + i) = (if j.erase then 0xFF else j.data.getD i 0, false)) ∧
        ∀ i, i < first ∨ first + len ≤ i → t.dev.nvmByte false i = d.nvmByte false i) ∧
    ∀ m : Master, Arrives d m F.CLAMP_CTL_CLEAR.addr 1 →
      ∃ t, exec (.clear m) s = .next t ∧ t.core = (became s s.core t.dev).core ∧ t.pending = s.pending ∧
        t.dev.get F.CLAMP_STAT_COUNT = 0 ∧ t.dev.get F.CLAMP_STAT_DROPPED = 0 ∧ t.dev.ram = d.ram ∧ t.dev.flash = d.flash ∧
        ∀ k : Fin 16, ∀ w : Fin 4, t.dev.reg (F.CLAMP_ADDR_ADDR.addr + 16 * k.val + 4 * w.val) = 0

/-- R37, R423, R424: an edge at a ball whose bank has its supply shows in IN and sets IRQ_PEND where IRQ_MODE selects it; an AON
timer's expiry raises its interrupt, and moves its ball only where the ball carries the channel. -/
def Sys2Proof.Claims.BallsMove : Prop :=
  ∀ s : State, s.dev.calm →
    let d := s.dev
    let f (k : Nat) (x : Fl) : Fl := x.plus (4 * k)
    let powered (k : Nat) : Bool :=
      if k < 8 then d.flag F.WH_STAT_HOST_GOOD else if k < 16 then d.env.vddIo1 != 0 else d.env.vddIo2 != 0
    (∀ (k : Fin 24) (up : Bool), d.on .core = true → powered k = true →
      ∃ t, exec (.gpioEdge k up) s = .next t ∧ t.core = (became s s.core t.dev).core ∧ t.pending = s.pending ∧
        t.dev.flag (f k F.GPIO_IN) = up ∧ t.dev.get (f k F.GPIO_FUNC) = d.get (f k F.GPIO_FUNC) ∧
        t.dev.get (f k F.GPIO_OUT) = d.get (f k F.GPIO_OUT) ∧ t.dev.get (f k F.GPIO_IRQ_MODE) = d.get (f k F.GPIO_IRQ_MODE) ∧
        t.dev.flag (f k F.GPIO_IRQ_PEND) =
          (d.flag (f k F.GPIO_IRQ_PEND) || bitAt (d.get (f k F.GPIO_IRQ_MODE)) (if up then 0 else 1)) ∧
        t.dev.ram = d.ram ∧ ∀ a, a ≠ F.GPIO_IN.addr + 4 * k.val → t.dev.reg a = d.reg a) ∧
    (∀ ch : Fin 8, d.on .aon = true →
      ∃ t, exec (.aonTimerExpiry ch) s = .next t ∧ t.core = (became s s.core t.dev).core ∧ t.pending = s.pending ∧
        t.dev.irq = d.irq ||| BitVec.ofNat 192 (2 ^ (88 + ch.val)) ∧ t.dev.ram = d.ram ∧
        (∀ a, a ≠ F.GPIO_IN.addr + 4 * (8 + ch.val) → t.dev.reg a = d.reg a) ∧
        (d.on .core = false ∨ d.get (f (8 + ch.val) F.GPIO_FUNC) ≠ 2 ∨ d.owner (0x20 + ch.val) ≠ d.owner (8 + ch.val) →
          t.dev.regs = d.regs))

/-- FLASHCTL erases and programs, and the balls report their edges.
The model's choices in it: log entries 7 and 46. -/
def Obligations.FlashAndBalls : Prop :=
  Claims.FlashChanges ∧ Claims.BallsMove

/-! ### The Cistern -/

/-- R301, R303 to R305, R310, R312: what the idle port answers at once. READ_PARAM decides by the twins, READ_CTR delivers the
value, READ_LOG and READ_ALARM deliver the record of a SEQ or tell why there is none, and ALARM_ACK is Vault's. -/
def Sys2Proof.Claims.CisternReads : Prop :=
  ∀ (s : State) (m : Master),
    let d := s.dev
    let go (op target : Nat) : Prop := CstIdle d ∧ d.cst.clearDue = false ∧
      Arrives d m F.CST_CMD_OP.addr (op * 2 ^ 28 + target)
    let done (t : State) (st : Nat) : Prop := t.core = (became s s.core t.dev).core ∧ t.pending = s.pending ∧
      t.dev.flag F.CST_STAT_BUSY = false ∧ t.dev.flag F.CST_STAT_DONE = true ∧ t.dev.get F.CST_STAT_STATUS = st ∧
      t.dev.cstArray = d.cstArray
    let buffer (t : State) (base : Nat) (bs : Bytes) : Prop :=
      ∀ i : Fin 256, t.dev.reg (base + 4 * i.val) = BitVec.ofNat 32 (leNat (slice bs (4 * i.val) 4))
    let nothing (t : State) : Prop := t.dev.get F.CST_STAT_LEN = 0 ∧ buffer t F.CST_BUF_A_DATA.addr []
    let record (t : State) (r : CRec) : Prop := buffer t F.CST_BUF_A_DATA.addr r.data ∧
      t.dev.get F.CST_STAT_LEN = r.len % 2 ^ 11 ∧ t.dev.get F.CST_SEQ_SEQ = r.seq % 2 ^ 32 ∧
      t.dev.get F.CST_ESN_LO_ESN = r.esn % 2 ^ 32 ∧ t.dev.get F.CST_ESN_HI_ESN = r.esn / 2 ^ 32 % 2 ^ 16
    let may (r : CRec) : Prop := m.val ≠ 12 ∨ r.flags % 2 = 1
    let answer (i : Instr) (P : State → Prop) : Prop := ∃ t, exec i s = .next t ∧ P t
    (∀ p : Fin 2048, go 1 p.val →
      let twins := twinsOf (d.sealedCopy 1 (1024 + 2 * p.val)) (d.sealedCopy 1 (1025 + 2 * p.val))
      answer (.readParam m p) fun t =>
        if 511 < p.val then done t 7
        else
          (twins = .empty → done t 1 ∧ nothing t) ∧
          (twins = .invalid → done t 3 ∧ bitAt (t.dev.get F.EVT_TRBL_TRBL) tCISTERN = true) ∧
          (∀ r b, twins = .one r b → if may r then done t 0 ∧ record t r else done t 6) ∧
          (∀ r, twins = .same r → bitAt (t.dev.get F.EVT_TRBL_TRBL) tTWIN_SAME = true ∧
            if may r then done t 0 ∧ record t r else done t 6) ∧
          (∀ a b, twins = .conflict a b →
            if may a ∧ may b then done t 2 ∧ record t a ∧ buffer t F.CST_BUF_B_DATA.addr b.data ∧
              t.dev.get (F.CST_SEQ_SEQ.plus 4) = b.seq % 2 ^ 32
            else done t 6)) ∧
    (∀ c : Fin 2048, go 4 c.val →
      let differ := match d.high c with | .conflict _ _ => true | _ => false
      answer (.readCtr m c) fun t =>
        if 31 < c.val then done t 7
        else
          (∀ r, d.high c = .same r → bitAt (t.dev.get F.EVT_TRBL_TRBL) tTWIN_SAME = true) ∧
          (d.high c = .invalid → bitAt (t.dev.get F.EVT_TRBL_TRBL) tCISTERN = true) ∧
          (d.counter c = none → done t 3) ∧
          (∀ x, d.counter c = some x → done t (if differ then 2 else 0) ∧
            t.dev.get F.CST_VAL_LO_VAL = x.1 % 2 ^ 32 ∧ t.dev.get F.CST_VAL_HI_VAL = x.1 / 2 ^ 32 % 64 ∧
            (x.2.2 = true → bitAt (t.dev.get F.EVT_TRBL_TRBL) tCISTERN = true))) ∧
    (∀ (log : Bool) (r : Fin 2048), go (if log then 8 else 9) (if log then r.val else 0) →
      let q := d.get F.CST_ARG_ARG
      let i : Instr := if log then .readLog m r else .readAlarm m
      let recs := if log then d.ringRecs r else d.alarmRecs
      let newest := if log then (d.cRing r).seq else d.cst.aSeq
      let absent := log = true ∧ (7 < r.val ∨ (d.cRing r).count = 0)
      (absent → answer i fun t => done t 7) ∧
      (¬absent → ∀ e, recs.find? (fun x => x.seq == q) = some e → answer i fun t => done t 0 ∧ record t e) ∧
      (¬absent → (∀ e ∈ recs, e.seq ≠ q) →
        answer i fun t =>
          (∀ e ∈ recs, q < e.seq → t.dev.get F.CST_SEQ_SEQ ≤ e.seq) ∧
          ((∀ e ∈ recs, e.seq < q) → t.dev.get F.CST_SEQ_SEQ = 0) ∧
          ((∀ e ∈ recs, q < e.seq) → q ≤ newest → newest ≠ 0 → done t 4) ∧
          (newest + 1024 < q → done t 1 ∧ nothing t) ∧
          ((∃ e ∈ recs, e.seq < q) → q ≤ newest → done t 3) ∧
          (newest < q → q ≤ newest + 1024 → done t 1 ∨ done t 3))) ∧
    (go 10 0 →
      answer (.alarmAck m) fun t =>
        if m.val ≠ 2 then done t 6
        else done t 0 ∧ t.dev.cst.aAck = max d.cst.aAck (d.get F.CST_ARG_ARG) ∧
          t.dev.get F.CST_ALARM_UNACKED =
            (d.alarmRecs.filter fun r => r.typ == 4 && decide (max d.cst.aAck (d.get F.CST_ARG_ARG) < r.seq)).length % 2 ^ 11)

/-- R298, R302, R304 to R306, R309, R313, R322: how the writing commands begin in HOST. Each is turned away with its status, or
its first burst runs: a parameter's write or erase and a counter's carry behind their intent, an increment in one cell, an
append in the next slot of its ring. A slot or cell that is not ERASED is refused with INVALID. Where the twelve bytes of
an intent keep its parts is the model's (log entry 10). -/
def Sys2Proof.Claims.CisternWrites : Prop :=
  ∀ (s : State) (m : Master),
    let d := s.dev
    let arg := d.get F.CST_ARG_ARG
    let len := arg % 2 ^ 16
    let go (op target : Nat) : Prop := CstIdle d ∧ d.cst.clearDue = false ∧ d.opState = stHost ∧
      Arrives d m F.CST_CMD_OP.addr (op * 2 ^ 28 + target)
    let said (t : State) : Prop := t.core = (became s s.core t.dev).core ∧ t.pending = s.pending ∧
      t.dev.cstArray = d.cstArray
    let ends (i : Instr) (st : Nat) : Prop := ∃ t, exec i s = .next t ∧ said t ∧ t.dev.flag F.CST_STAT_BUSY = false ∧
      t.dev.flag F.CST_STAT_DONE = true ∧ t.dev.get F.CST_STAT_STATUS = st ∧ t.dev.cst.job = none
    let runs (i : Instr) (P : CstJob → Prop) : Prop := ∃ t j, exec i s = .next t ∧ said t ∧
      t.dev.flag F.CST_STAT_BUSY = true ∧ t.dev.cst.job = some j ∧ j.kind = .command ∧ j.begun = false ∧ P j
    let shut (page : Nat) : Prop :=
      let bp := d.get F.CST_PROT_BP
      if bp = 0 then False else if bp = 1 then 1536 ≤ page else if bp = 2 then 1024 ≤ page else 80 ≤ page
    let jSlot := d.cst.jSlot % 256
    let free (word n : Nat) : Prop := d.nvmErased true (8 * word) (8 * n) = true
    let journal : Prop := jSlot % 32 ≠ 0 ∧ free (4 * jSlot) 4
    let jammed : Prop := jSlot % 32 ≠ 0 ∧ ¬free (4 * jSlot) 4
    let intent (op low page other word : Nat) : CstBurst := .program (4 * jSlot) (CRec.words ⟨5, 0, 12, d.cst.jSeq + 1,
      d.evt.esn, 0, leBytes 1 op ++ leBytes 1 low ++ leBytes 2 page ++ leBytes 2 other ++ [0, 0] ++ leBytes 4 word⟩)
    let clear (page : Nat) : List CstBurst := if d.pageErased page then [] else [.erase page]
    (∀ (p : Fin 2048) (write : Bool), go (if write then 2 else 3) p.val →
      let i : Instr := if write then .writeParam m p else .eraseParam m p
      let t := d.param p.val
      let bad := 511 < p.val ∨ (write = true ∧ 1004 < len)
      let denied := m.val = 12 ∨ (p.val < 16 ∧ m.val ≠ 2)
      let page := if write then 1024 + 2 * p.val + b2n t.target else 1024 + 2 * p.val
      (bad → ends i 7) ∧
      (¬bad → denied → ends i 6) ∧
      (¬bad → ¬denied → shut (1024 + 2 * p.val) → ends i 5) ∧
      (¬bad → ¬denied → ¬shut (1024 + 2 * p.val) →
        (write = false → jammed → ends i 3) ∧
        (write = false → journal → runs i fun j => j.running = some (intent 2 0 page (page + 1) 0) ∧
          j.bursts = [.erase page, .erase (page + 1)]) ∧
        (write = true → d.cst.poison = true → ends i 9) ∧
        (write = true → d.cst.poison = false → p.val = 0 → layoutOf ((d.bufABytes 1004).take len) = none → ends i 7) ∧
        (write = true → d.cst.poison = false → p.val ≠ 0 → journal → t.newest < 200000 →
          runs i fun j => j.running = some (intent 1 0 page 0 t.nextSeq) ∧
            j.bursts = clear page ++ [.program (128 * page) (CRec.sealed
              ⟨1, arg / 2 ^ 16 % 4, len, t.nextSeq, 0, p.val, (d.bufABytes 1004).take len⟩)] ∧
            j.seq = some t.nextSeq))) ∧
    (∀ (c : Fin 2048) (inc : Bool), go (if inc then 5 else 6) c.val →
      let i : Instr := if inc then .incCtr m c else .advanceCtr m c
      let page := 82 + 3 * c.val
      (31 < c.val → ends i 7) ∧
      (c.val < 32 → m.val = 12 ∨ (24 ≤ c.val ∧ m.val ≠ 2) → ends i 6) ∧
      (c.val < 32 → m.val ≠ 12 → c.val < 24 ∨ m.val = 2 →
        (shut page → ends i 5) ∧
        (¬shut page → d.counter c.val = none → ends i 3) ∧
        (¬shut page → ∀ v h lost, d.counter c.val = some (v, h, lost) →
          let goal := if inc then v + 1 else d.get F.CST_VAL_LO_VAL + 2 ^ 32 * d.get F.CST_VAL_HI_VAL
          (goal ≤ v → ∃ t, exec i s = .next t ∧ said t ∧ t.dev.get F.CST_STAT_STATUS = 0 ∧ t.dev.cst.job = none ∧
            t.dev.get F.CST_VAL_LO_VAL = v % 2 ^ 32) ∧
          (v < goal → 2 ^ 38 ≤ goal → ends i 7) ∧
          (v < goal → goal < 2 ^ 38 → d.gen c.val = some h → goal ≤ 64 * h + 64 →
            ¬free (128 * page + 1 + (v - 64 * h)) (goal - v) → ends i 3) ∧
          (v < goal → goal < 2 ^ 38 → d.gen c.val = some h → goal ≤ 64 * h + 64 →
            free (128 * page + 1 + (v - 64 * h)) (goal - v) →
            runs i fun j => j.running = some (.program (128 * page + 1 + (v - 64 * h)) (List.replicate (goal - v) 0)) ∧
              j.bursts = [] ∧ j.val = some goal) ∧
          (v < goal → goal < 2 ^ 38 → d.gen c.val ≠ some h ∨ 64 * h + 64 < goal → journal → (d.high c.val).newest < 100000 →
            let h' := if inc then h + 1 else goal / 64
            let k := if inc then 1 else goal % 64
            let high := 80 + 3 * c.val + b2n (d.high c.val).target
            runs i fun j => j.running = some (intent (if inc then 3 else 4) k high page h') ∧
              j.bursts = clear high ++ [.program (128 * high) (CRec.sealed
                ⟨2, 0, 4, (d.high c.val).nextSeq, 0, c.val, leBytes 4 h'⟩)] ++ clear page ++
                [.program (128 * page) (thermoHeader h' c.val :: List.replicate k 0)] ∧
              j.val = some (64 * h' + k))))) ∧
    (∀ (typ : Byte) (r : Fin 2048), go 7 (typ.toNat * 2 ^ 20 + r.val) →
      let i : Instr := .appendLog m typ r
      let x := d.cRing r.val
      let bad := 7 < r.val ∨ x.count = 0 ∨ typ.toNat < 0x10 ∨ typ.toNat = 0xFF ∨ 44 < len
      (bad → ends i 7) ∧
      (¬bad → m.val = 12 → ends i 6) ∧
      (¬bad → m.val ≠ 12 → shut x.first → ends i 5) ∧
      (¬bad → m.val ≠ 12 → ¬shut x.first → d.cst.poison = true → ends i 9) ∧
      (¬bad → m.val ≠ 12 → ¬shut x.first → d.cst.poison = false → x.lost = 0 → x.slot < (if r.val = 0 then 15 else 16) →
        let word := 128 * (x.first + x.head) + 8 * x.slot
        (¬free word 8 → ends i 3) ∧
        (free word 8 → runs i fun j => j.bursts = [] ∧ j.seq = some (x.seq + 1) ∧ j.esn = some d.evt.esn ∧
          j.running = some (.program word (CRec.words
            ⟨typ.toNat, 0, ((d.bufABytes 1004).take len).length, x.seq + 1, d.evt.esn, r.val, (d.bufABytes 1004).take len⟩)))))

/-- The Cistern port answers reads at once and starts writes with their first burst.
The model's choices in it: log entries 10, 36 and 37. -/
def Obligations.CisternCommands : Prop :=
  Claims.CisternReads ∧ Claims.CisternWrites

/-- R312, R317 to R319, R323, R324: a burst that ends has changed its words or its page and no other; the job goes on, or it
completes with its status and results; a command whose energy has not come for longer than EWAIT ends with ENERGY_SHORT; a change of the port's owner clears the buffers. -/
def Sys2Proof.Claims.CisternBursts : Prop :=
  ∀ s : State, s.dev.calm → s.dev.hp.apdu = none →
    let d := s.dev
    let said (t : State) : Prop := t.core = (became s s.core t.dev).core ∧ t.pending = s.pending ∧ t.dev.flash = d.flash
    (∀ j b, d.cst.job = some j → j.running = some b → d.cst.waiting = none → d.cst.queue = [] →
      let moved (t : State) : Prop := match b with
        | .erase p => ∀ k, t.dev.nvmWord true k = if k / 128 = p then .erased else d.nvmWord true k
        | .program w ws =>
          (∀ k, w ≤ k → k < w + ws.length → t.dev.nvmWord true k = .data (ws.getD (k - w) 0) none) ∧
          ∀ k, k < w ∨ w + ws.length ≤ k →
            nvmSealed true (k / 128) = false ∨ (∀ j, w ≤ j → j < w + ws.length → j / 128 ≠ k / 128) →
            t.dev.nvmWord true k = d.nvmWord true k
        | _ => True
      let clean (k : Nat) : Prop := match b with
        | .erase p => k / 128 = p ∨ d.nvmWord true k = .erased
        | .program w ws => d.nvmWord true k = .erased ∧ (k < w ∨ w + ws.length ≤ k)
        | _ => d.nvmWord true k = .erased
      j.refused = false →
      (j.kind = .command → j.bursts = [] → j.val.all (· < 2 ^ 38) = true →
        ∃ t, exec .cisternBurstDone s = .next t ∧ said t ∧ moved t ∧ t.dev.flag F.CST_STAT_BUSY = false ∧
          t.dev.flag F.CST_STAT_DONE = true ∧ t.dev.get F.CST_STAT_STATUS = 0 ∧
          (∀ v, j.val = some v → t.dev.get F.CST_VAL_LO_VAL + 2 ^ 32 * t.dev.get F.CST_VAL_HI_VAL = v) ∧
          (∀ q, j.seq = some q → t.dev.get F.CST_SEQ_SEQ = q % 2 ^ 32)) ∧
      (∀ p rest, d.opState = stHost → j.bursts = .erase p :: rest →
        ∃ t, exec .cisternBurstDone s = .next t ∧ said t ∧ moved t ∧
          t.dev.cst.job = some { j with running := some (.erase p), bursts := rest, begun := true } ∧
          t.dev.flag F.CST_STAT_BUSY = d.flag F.CST_STAT_BUSY) ∧
      (∀ w ws rest, d.opState = stHost → j.bursts = .program w ws :: rest →
        (j.kind = .command → ∀ i, i < ws.length → clean (w + i)) →
        ∃ t, exec .cisternBurstDone s = .next t ∧ said t ∧ moved t ∧
          t.dev.cst.job = some { j with running := some (.program w ws), bursts := rest, begun := true } ∧
          t.dev.flag F.CST_STAT_BUSY = d.flag F.CST_STAT_BUSY)) ∧
    (∀ j, d.cst.job = some j → j.kind = .command → j.running = none → j.refused = true → d.get F.CST_CTL_EWAIT ≠ 0 →
      d.now ≤ j.since + 1000000 * d.get F.CST_CTL_EWAIT →
      exec .cisternEnergyShort s = .next (became s s.core d)) ∧
    (∀ j, d.cst.job = some j → j.kind = .command → j.running = none → j.refused = true → d.get F.CST_CTL_EWAIT ≠ 0 →
      j.since + 1000000 * d.get F.CST_CTL_EWAIT < d.now →
      d.cst.waiting = none → d.cst.queue = [] → d.cst.due = false → j.begun = false → d.alarmTidy = [] →
      ∃ t, exec .cisternEnergyShort s = .next t ∧ said t ∧ t.dev.cstArray = d.cstArray ∧ t.dev.cst.job = none ∧
        t.dev.flag F.CST_STAT_BUSY = false ∧ t.dev.flag F.CST_STAT_DONE = true ∧ t.dev.get F.CST_STAT_STATUS = 8) ∧
    (d.on .isle = true → d.cst.clearDue = true → d.flag F.CST_STAT_BUSY = false →
      ∃ t, exec .cisternBufClear s = .next t ∧ said t ∧ t.dev.cst.clearDue = false ∧ t.dev.cstArray = d.cstArray ∧
        (∀ i : Fin 512, t.dev.reg (F.CST_BUF_A_DATA.addr + 4 * i.val) = 0) ∧ t.dev.get F.CST_SEQ_SEQ = 0 ∧
        t.dev.get (F.CST_SEQ_SEQ.plus 4) = 0 ∧ t.dev.get F.CST_VAL_LO_VAL = 0 ∧ t.dev.get F.CST_VAL_HI_VAL = 0)

/-- R308, R312, R314, R315, R320 to R322, R395: what the controller does of itself. The journal runs first after a power-up: it finds
its places, puts the layout and BP in force, and resolves the newest intent; a margin read queues a weak page; a refresh
takes the lowest page queued, and gives up a page whose data are poisoned (the model's choice, log entry 57); an alarm record
goes to the next EMPTY slot or is held in AON. -/
def Sys2Proof.Claims.CisternUpkeep : Prop :=
  ∀ s : State, s.dev.calm →
    let d := s.dev
    let said (t : State) : Prop := t.core = (became s s.core t.dev).core ∧ t.pending = s.pending ∧ t.dev.flash = d.flash
    let idle := d.opState = stHost ∧ d.on .isle = true ∧ d.cst.job = none ∧ d.cst.waiting = none ∧ d.cst.queue = [] ∧
      d.cst.due = false
    (d.on .isle = true → d.cst.due = true → d.cst.job = none → d.hp.apdu = none →
      ∃ t, exec .powerUpJournal s = .next t ∧ said t ∧ t.dev.cst.due = false ∧ t.dev.cstArray = d.cstArray ∧
        t.dev.cst.laid = true ∧
        (d.cst.laid = false →
          t.dev.get F.CST_PROT_BP = (((d.param 1).single).map fun r => byteAt r.data 0 % 4).getD 0 ∧
          t.dev.cst.rings.map (fun x => (x.first, x.count)) =
            ((((d.param 0).single).bind fun r => layoutOf r.data).getD layoutDefault).map fun x =>
              if x.2 = 0 then (0, 0) else x) ∧
        (d.cst.laid = true → t.dev.get F.CST_PROT_BP = d.get F.CST_PROT_BP ∧
          ∀ r : Fin 8, (t.dev.cRing r).count = (d.cRing r).count)) ∧
    (idle → d.get F.CST_CTL_SCAN_INT ≠ 0 → ∀ (weak : Bool) (k : Nat), k < 2048 →
      d.pageTouched ((d.cst.scan + k) % 2048) = true → (∀ j, j < k → d.pageTouched ((d.cst.scan + j) % 2048) = false) →
      let p := (d.cst.scan + k) % 2048
      ∃ t, exec (.marginScan weak) s = .next t ∧ said t ∧ t.dev.cst.scan = (p + 1) % 2048 ∧ t.dev.cstArray = d.cstArray ∧
        t.dev.get F.CST_HEALTH_WEAK_FOUND =
          satAdd 16 (d.get F.CST_HEALTH_WEAK_FOUND) (if weak then 1 else 0) ∧
        (weak = true → (t.dev.refqFind true p).isSome ∨ t.dev.flag F.INTEG_STAT_REFQ_LOST = true)) ∧
    (idle → ∀ q : Fin 8, d.flag (refqField q F.INTEG_REFQ_VALID) = true → d.flag (refqField q F.INTEG_REFQ_MEM) = true →
      (∀ j : Fin 8, j < q → d.flag (refqField j F.INTEG_REFQ_VALID) = false ∨ d.flag (refqField j F.INTEG_REFQ_MEM) = false) →
      let p := d.get (refqField q F.INTEG_REFQ_PAGE)
      let thermometer := 80 ≤ p ∧ p < 176 ∧ (p - 80) % 3 = 2
      let spare := 8 + d.cst.spare % 8
      let poisoned := ¬thermometer ∧ nvmSealed true p = true ∧ anyPoison (d.pageRead (Config.ownMaster 19) true p).2 = true
      (¬poisoned →
        ∃ t j, exec .refresh s = .next t ∧ said t ∧ t.dev.cstArray = d.cstArray ∧ t.dev.cst.job = some j ∧
          j.kind = .refresh p (if thermometer then none else some spare) ∧
          (thermometer → j.running = some (.program (128 * p + 1) (List.replicate (d.cells ((p - 82) / 3)) 0)) ∧
            j.bursts = []) ∧
          (¬thermometer → t.dev.cst.spare = (d.cst.spare + 1) % 8 ∧
            (d.pageErased spare = false → j.running = some (.erase spare)) ∧ .erase p ∈ j.bursts)) ∧
      (poisoned →
        ∃ t, exec .refresh s = .next t ∧ said t ∧ t.dev.cstArray = d.cstArray ∧ t.dev.cst.job = none ∧
          t.dev.flag (refqField q F.INTEG_REFQ_VALID) = false ∧ bitAt (t.dev.get F.EVT_TRBL_TRBL) tPOISON = true)) ∧
    (∀ r rest, d.wellcap.recs = r :: rest → d.opState = stAlarm → r.esn.isSome → d.wellcap.short = false →
      d.on .isle = true → 3 ≤ d.mark → d.cst.rings ≠ [] →
      (∀ page slot log, d.alarmSlot = some (page, slot, log) → d.nvmErased true (1024 * page + 64 * slot) 64 = true →
        cstSlotPage page = true →
        ∃ t, exec .alarmRecord s = .next t ∧ said t ∧ t.dev.wellcap.recs = rest ∧ t.dev.cst.aSeq = d.cst.aSeq + 1 ∧
          t.dev.get F.WC_PEND_COUNT = d.get F.WC_PEND_COUNT ∧ t.dev.nvmErased true (1024 * page + 64 * slot) 64 = false ∧
          ∀ k, k / 8 ≠ 16 * page + slot → t.dev.nvmWord true k = d.nvmWord true k) ∧
      (d.alarmSlot = none →
        ∃ t, exec .alarmRecord s = .next t ∧ said t ∧ t.dev.wellcap.recs = rest ∧ t.dev.cstArray = d.cstArray ∧
          t.dev.get F.WC_PEND_COUNT = satAdd 16 (d.get F.WC_PEND_COUNT) 1 ∧
          (d.wellcap.held = none → t.dev.wellcap.held = some r)))

/-- Bursts change their words alone and complete the command, and the controller keeps its array.
The model's choices in it: log entries 5, 10, 38 and 57. -/
def Obligations.CisternWork : Prop :=
  Claims.CisternBursts ∧ Claims.CisternUpkeep
end

