-- ==== Sys2Proof/Laws/Memory.lean ====
section
/-! SUPPORT. The stored contents: a read after a write, and the canonical form that reset has and that every operation on
RAM, its check bits, the registers and the non-volatile arrays keeps. -/
namespace Sys2Proof.Machine

theorem Memory.wf_iff {d : Dev} : Memory.wf d = true ↔
    Sparse.wf byteDflt d.ram = true ∧ Sparse.wf chkDflt d.chk = true ∧ Sparse.wf regReset d.regs = true ∧
      Sparse.rising none d.flash = true ∧ Sparse.rising none d.cstArray = true ∧ d.codes.wf = true := by
  simp only [Memory.wf, Bool.and_eq_true, and_assoc]

/-- The form after reset. -/
theorem Memory.wf_reset : Memory.wf State.reset.dev = true := by decide

/-- What changes none of the six contents keeps the form. -/
theorem Memory.wf_of_eq {d e : Dev} (h : Memory.wf d = true) (h1 : e.ram = d.ram) (h2 : e.chk = d.chk) (h3 : e.regs = d.regs)
    (h4 : e.flash = d.flash) (h5 : e.cstArray = d.cstArray) (h6 : e.codes = d.codes) : Memory.wf e = true := by
  rw [Memory.wf_iff] at h ⊢
  rw [h1, h2, h3, h4, h5, h6]
  exact h

/-! ### Codes -/

theorem Codes.wf_iff {c : Codes} : c.wf = true ↔
    Sparse.wf chkDflt c.ctx = true ∧ Sparse.wf lightDflt c.flashLight = true ∧ Sparse.wf lightDflt c.cstLight = true ∧
      Sparse.rising none c.flashSpare = true ∧ Sparse.rising none c.cstSpare = true := by
  simp only [Codes.wf, Bool.and_eq_true, and_assoc]

theorem Codes.wf_written {c : Codes} (a : Nat) (h : c.wf = true) : (c.written a).wf = true := by
  unfold Codes.written
  split
  · rw [Codes.wf_iff] at h ⊢
    exact ⟨by dsimp only; exact Sparse.wf_drop _ h.1, h.2⟩
  · exact h

theorem Codes.wf_put {c : Codes} (cst : Bool) (i n : Nat) (h : c.wf = true) : (c.put cst i n).wf = true := by
  obtain ⟨h1, h2, h3, h4, h5⟩ := Codes.wf_iff.1 h
  cases cst <;> simp only [Codes.put, Bool.false_eq_true, if_false, if_true] <;> refine Codes.wf_iff.2 ?_
  · exact ⟨h1, by dsimp only; exact Sparse.wf_drop _ h2, h3, by dsimp only; split <;> first | exact Sparse.rising_ins h4 | exact h4, h5⟩
  · exact ⟨h1, h2, by dsimp only; exact Sparse.wf_drop _ h3, h4, by dsimp only; split <;> first | exact Sparse.rising_ins h5 | exact h5⟩

theorem Codes.wf_erase {c : Codes} (cst : Bool) (page : Nat) (h : c.wf = true) : (c.erase cst page).wf = true := by
  obtain ⟨h1, h2, h3, h4, h5⟩ := Codes.wf_iff.1 h
  cases cst <;> simp only [Codes.erase, Bool.false_eq_true, if_false, if_true] <;> refine Codes.wf_iff.2 ?_
  · exact ⟨h1, by dsimp only; exact Sparse.wf_drop _ h2, h3, Sparse.rising_filter _ h4, h5⟩
  · exact ⟨h1, h2, by dsimp only; exact Sparse.wf_drop _ h3, h4, Sparse.rising_filter _ h5⟩

/-! ### Registers -/

theorem Memory.wf_setReg {d : Dev} (a : Nat) (w : Word) (h : Memory.wf d = true) : Memory.wf (d.setReg a w) = true := by
  rw [Memory.wf_iff] at h ⊢
  exact ⟨h.1, h.2.1, Sparse.wf_set a w h.2.2.1, h.2.2.2.1, h.2.2.2.2.1, Codes.wf_written a h.2.2.2.2.2⟩

theorem Memory.wf_put {d : Dev} (f : Fl) (v : Nat) (h : Memory.wf d = true) : Memory.wf (d.put f v) = true :=
  Memory.wf_setReg _ _ h

theorem Memory.wf_dropRegs {d : Dev} (p : Nat → Bool) (h : Memory.wf d = true) : Memory.wf (d.dropRegs p) = true := by
  rw [Memory.wf_iff] at h ⊢
  exact ⟨h.1, h.2.1, Sparse.wf_drop p h.2.2.1, h.2.2.2⟩

theorem Memory.wf_foldl {α : Type} {f : Dev → α → Dev} (hf : ∀ d x, Memory.wf d = true → Memory.wf (f d x) = true) (l : List α)
    {d : Dev} (h : Memory.wf d = true) : Memory.wf (l.foldl f d) = true := by
  induction l generalizing d with
  | nil => exact h
  | cons x t ih => exact ih (hf d x h)

theorem Memory.wf_commitFw {d : Dev} (h : Memory.wf d = true) : Memory.wf d.commitFw = true := by
  refine Memory.wf_foldl (fun e x he => Memory.wf_setReg _ _ he) _ ?_
  rw [Memory.wf_iff] at h ⊢
  exact ⟨h.1, h.2.1, Sparse.wf_filter _ h.2.2.1, h.2.2.2⟩

/-- A list mapped at its own keys, some entries left out, keeps the rising order. -/
theorem Sparse.rising_filterMap {β : Type} {l : List (Nat × β)} (g : Nat × β → Option (Nat × β))
    (hg : ∀ e x, g e = some x → x.1 = e.1) (h : Sparse.rising none l = true) :
    Sparse.rising none (l.filterMap g) = true := by
  induction l with
  | nil => rfl
  | cons e t ih =>
    obtain ⟨j, w⟩ := e
    obtain ⟨ha, ht⟩ := Sparse.rising_cons.1 h
    simp only [List.filterMap_cons]
    split
    · exact ih ht
    · next x hx =>
      obtain ⟨k, v⟩ := x
      have hk : k = j := hg _ _ hx
      subst hk
      refine Sparse.rising_cons.2 ⟨fun e he => ?_, ih ht⟩
      obtain ⟨e', he', hx'⟩ := List.mem_filterMap.1 he
      rw [hg _ _ hx']
      exact ha e' he'

/-- Registers mapped each to a word that is not its reset word, or unlisted, keep the form. -/
theorem Memory.wf_mapRegs {d : Dev} (g : Nat × Word → Option (Nat × Word))
    (hg : ∀ e x, g e = some x → x.1 = e.1 ∧ x.2 ≠ regReset x.1) (h : Memory.wf d = true) :
    Memory.wf { d with regs := d.regs.filterMap g } = true := by
  rw [Memory.wf_iff] at h ⊢
  refine ⟨h.1, h.2.1, Sparse.wf_iff.2 ⟨?_, ?_⟩, h.2.2.2⟩
  · exact Sparse.rising_filterMap g (fun e x hx => (hg e x hx).1) (Sparse.wf_iff.1 h.2.2.1).1
  · intro x hx
    obtain ⟨e, _, he⟩ := List.mem_filterMap.1 hx
    exact (hg e x he).2

theorem Memory.wf_alarmColumn {d : Dev} (h : Memory.wf d = true) : Memory.wf d.alarmColumn = true := by
  refine Memory.wf_mapRegs _ ?_ (Memory.wf_foldl (fun e r he => Memory.wf_put _ _ he) _ h)
  rintro ⟨a, w⟩ ⟨b, v⟩ hx
  simp only at hx
  split at hx
  · cases hx
  · next hne =>
    obtain ⟨rfl, rfl⟩ := Prod.mk.inj (Option.some.inj hx)
    exact ⟨rfl, hne⟩

/-! ### RAM -/

theorem Memory.wf_ramPut {d : Dev} (a : Nat) (b : MByte) (h : Memory.wf d = true) : Memory.wf (d.ramPut a b) = true := by
  rw [Memory.wf_iff] at h ⊢
  exact ⟨Sparse.wf_set a _ h.1, Sparse.wf_set a _ h.2.1, h.2.2⟩

theorem Memory.wf_ramPutAll (bs : List MByte) {d : Dev} (a : Nat) (h : Memory.wf d = true) :
    Memory.wf (d.ramPutAll a bs) = true := by
  induction bs generalizing d a with
  | nil => exact h
  | cons b t ih => exact ih _ (Memory.wf_ramPut a b h)

theorem Memory.wf_testChk {d : Dev} (a n : Nat) (h : Memory.wf d = true) : Memory.wf (d.testChk a n) = true := by
  induction n with
  | zero => exact h
  | succ n ih =>
    rw [Memory.wf_iff] at ih
    exact Memory.wf_iff.2 ⟨ih.1, Sparse.wf_set _ _ ih.2.1, ih.2.2⟩

theorem Memory.wf_ramWrite {d : Dev} (m : Master) (a : Nat) (bs : List MByte) (h : Memory.wf d = true) :
    Memory.wf (d.ramWrite m a bs) = true := by
  unfold Dev.ramWrite
  simp only
  split
  · exact Memory.wf_testChk _ _ (Memory.wf_ramPutAll bs a h)
  · exact Memory.wf_ramPutAll bs a h

theorem Memory.wf_writeBack {d : Dev} (h : Memory.wf d = true) : Memory.wf d.writeBackOp = true := by
  unfold Dev.writeBackOp
  split
  · exact h
  · rw [Memory.wf_iff] at h ⊢
    exact ⟨Sparse.wf_set _ _ h.1, Sparse.wf_set _ _ h.2.1, h.2.2⟩

theorem Memory.wf_copyBytes (n : Nat) {d : Dev} (a : Nat) (h : Memory.wf d = true) : Memory.wf (d.copyBytes a n) = true := by
  induction n generalizing d a with
  | zero => exact h
  | succ n ih =>
    refine ih _ ?_
    rw [Memory.wf_iff] at h ⊢
    exact ⟨Sparse.wf_set _ _ h.1, Sparse.wf_set _ _ h.2.1, h.2.2⟩

theorem Memory.wf_clearRam {d : Dev} (p : Nat → Bool) (h : Memory.wf d = true) : Memory.wf (d.clearRam p) = true := by
  rw [Memory.wf_iff] at h ⊢
  exact ⟨Sparse.wf_drop p h.1, Sparse.wf_drop p h.2.1, h.2.2⟩

/-- The byte just stored reads back with its data and the check bits of its mark. -/
theorem Dev.ramByte_ramPut_same (d : Dev) (a : Nat) (b : MByte) :
    (d.ramPut a b).ramByte a = b.1 ∧ (d.ramPut a b).ramChk a = if b.2 then poisonPattern else 0 :=
  ⟨Sparse.get_set_same _ _ _ _, Sparse.get_set_same _ _ _ _⟩

/-- A store of one byte leaves every other byte alone. -/
theorem Dev.ramByte_ramPut_ne (d : Dev) {a x : Nat} (b : MByte) (h : x ≠ a) :
    (d.ramPut a b).ramByte x = d.ramByte x ∧ (d.ramPut a b).ramChk x = d.ramChk x :=
  ⟨Sparse.get_set_ne _ _ _ h, Sparse.get_set_ne _ _ _ h⟩

/-- A store of bytes leaves every byte outside them alone. -/
theorem Dev.ramByte_ramPutAll_out (bs : List MByte) (d : Dev) {a x : Nat} (h : x < a ∨ a + bs.length ≤ x) :
    (d.ramPutAll a bs).ramByte x = d.ramByte x ∧ (d.ramPutAll a bs).ramChk x = d.ramChk x := by
  induction bs generalizing d a with
  | nil => exact ⟨rfl, rfl⟩
  | cons b t ih =>
    simp only [List.length_cons] at h
    have h1 := Dev.ramByte_ramPut_ne d b (show x ≠ a by omega)
    have h2 := ih (d.ramPut a b) (a := a + 1) (by omega)
    exact ⟨h2.1.trans h1.1, h2.2.trans h1.2⟩

/-! ### The non-volatile arrays -/

theorem Sparse.rising_insAll {β : Type} (i : Nat) (ws : List (β × Nat)) {l : List (Nat × β)} (h : Sparse.rising none l = true) :
    Sparse.rising none (ws.foldl (fun a p => Sparse.ins (i + p.2) p.1 a) l) = true := by
  induction ws generalizing l with
  | nil => exact h
  | cons p t ih => exact ih (Sparse.rising_ins h)

theorem Memory.wf_nvmPut {d : Dev} (cst : Bool) (i : Nat) (ws : List (BitVec 64)) (h : Memory.wf d = true) :
    Memory.wf (d.nvmPut cst i ws) = true := by
  rw [Memory.wf_iff] at h
  cases cst
  · exact Memory.wf_iff.2 ⟨h.1, h.2.1, h.2.2.1, Sparse.rising_insAll i _ h.2.2.2.1, h.2.2.2.2.1,
      Codes.wf_put _ _ _ h.2.2.2.2.2⟩
  · exact Memory.wf_iff.2 ⟨h.1, h.2.1, h.2.2.1, h.2.2.2.1, Sparse.rising_insAll i _ h.2.2.2.2.1,
      Codes.wf_put _ _ _ h.2.2.2.2.2⟩

theorem Memory.wf_nvmErasePage {d : Dev} (cst : Bool) (page : Nat) (h : Memory.wf d = true) :
    Memory.wf (d.nvmErasePage cst page) = true := by
  rw [Memory.wf_iff] at h
  cases cst
  · exact Memory.wf_iff.2 ⟨h.1, h.2.1, h.2.2.1, Sparse.rising_filter _ h.2.2.2.1, h.2.2.2.2.1,
      Codes.wf_erase _ _ h.2.2.2.2.2⟩
  · exact Memory.wf_iff.2 ⟨h.1, h.2.1, h.2.2.1, h.2.2.2.1, Sparse.rising_filter _ h.2.2.2.2.1,
      Codes.wf_erase _ _ h.2.2.2.2.2⟩

theorem Memory.wf_tear {d : Dev} (cst erase : Bool) (first words : Nat) (h : Memory.wf d = true) :
    Memory.wf (d.tear cst erase first words) = true :=
  Memory.wf_of_eq h rfl rfl rfl rfl rfl rfl

end Sys2Proof.Machine
end

