-- ==== Sys2Proof/WellFormed.lean ====
section
/-! DEFINITION. Which commands can reach the device at all: the lengths and ranges that the standards and the rules give
their operands. A command that is not well formed stands for nothing outside; its meaning is total all the same. -/
namespace Sys2Proof

/-- The extension of a frame of `n` bytes lies inside it (R48, R90): span, value, and a GMAC vector of twelve bytes or
none. -/
def Ext.wf (e : Ext) (n : Nat) : Bool :=
  decide (e.spanLo ≤ e.spanHi) && decide (e.spanHi ≤ n) && decide (e.valLo + e.valLen ≤ n) &&
    (e.iv.length == 12 || e.iv.isEmpty)

/-- A received frame: the marks of the line and of the deep parse lie inside its bytes (R44, R48). -/
def RxFrame.wf (f : RxFrame) : Bool :=
  f.codeErr.all (fun p => decide (p < f.bytes.length)) && decide (f.deep.apduEnd ≤ f.bytes.length) &&
    f.deep.ext.all fun e => e.wf f.bytes.length

/-- An addressed request names a UID of eight bytes (R333). -/
def VMode.wf (m : VMode) : Bool :=
  match m with
  | .addressed uid => uid.length == 8
  | .nonAddressed | .selected => true

/-- A block with its PCB, CID and check fits the 256 bytes of a frame (R336). -/
def Block.wf (b : Block) : Bool := decide (b.inf.length + 4 ≤ 256)

/-- A long instruction cannot stop behind more units than PROG.DONE counts (R185). -/
def stopWf (stop : Option Nat) : Bool := stop.all fun k => decide (k < 2 ^ 24)

/-- The command is well formed. -/
def Instr.wf (i : Instr) : Bool :=
  match i with
  | .rxFrame _ f => f.wf
  | .mpmac _ _ _ _ stop => stopWf stop
  | .bmov _ _ _ stop => stopWf stop
  | .bfill _ _ _ stop => stopWf stop
  | .crcb _ _ _ _ stop => stopWf stop
  | .exceptionEntry (some w) => (match decodeWord w with | .illegal _ => true | .instr _ => false)
  | .anticollision _ known => decide (known.length ≤ 5)
  | .select _ uid => uid.length == 4
  | .attrib pupi _ fsd _ => pupi.length == 4 && decide (16 ≤ fsd) && decide (fsd ≤ 256)
  | .hltb pupi => pupi.length == 4
  | .stayQuiet uid => uid.length == 8
  | .select15693 uid => uid.length == 8
  | .readSingleBlock mode _ => mode.wf
  | .readMultipleBlocks mode _ _ => mode.wf
  | .resetToReady mode => mode.wf
  | .getSystemInformation mode => mode.wf
  | .getResult mode => mode.wf
  | .apduTransfer mode apdu => mode.wf && decide (4 ≤ apdu.length)
  | .iBlock b => b.wf
  | .sWtxResponse wtxm => decide (1 ≤ wtxm) && decide (wtxm ≤ 59)
  | .write len _ data _ => data.length == len.toNat + 1
  | _ => true

end Sys2Proof
end

