-- ==== Sys2Proof/Laws/PerInstr.lean ====
section
/-! SUPPORT. The family Worded, one lemma per constructor: an instruction that has a word is well formed, whatever its fields
hold; only where a long instruction stops is not the word's to say. -/
namespace Sys2Proof.Laws.Worded
open Sys2Proof

/-- The instruction without what its word does not hold. -/
def unstopped (i : Instr) : Instr :=
  match i with
  | .mpmac d a b c _ => .mpmac d a b c none
  | .bmov d a b _ => .bmov d a b none
  | .bfill d a b _ => .bfill d a b none
  | .crcb d a b c _ => .crcb d a b c none
  | _ => i

/-- An instruction with a word is well formed (R167 to R171). -/
def Statement (i : Instr) : Prop := (encodeWord i).isSome = true → (unstopped i).wf = true

theorem hostGoodQualified (x0 x1 x2 x3 x4 : Nat) : Statement (.hostGoodQualified x0 x1 x2 x3 x4) := nofun
theorem hostGood : Statement .hostGood := nofun
theorem hostSupplyLoss (x0 x1 x2 : Nat) : Statement (.hostSupplyLoss x0 x1 x2) := nofun
theorem hostLoss : Statement .hostLoss := nofun
theorem fieldChg (x0 : Bool) : Statement (.fieldChg x0) := nofun
theorem fieldOn : Statement .fieldOn := nofun
theorem fieldOff : Statement .fieldOff := nofun
theorem runReached : Statement .runReached := nofun
theorem runLost : Statement .runLost := nofun
theorem runlow : Statement .runlow := nofun
theorem alarm : Statement .alarm := nofun
theorem alarmDone : Statement .alarmDone := nofun
theorem deviceReset : Statement .deviceReset := nofun
theorem coreReset (x0 : Master) (x1 : Word) : Statement (.coreReset x0 x1) := nofun
theorem devReset (x0 : Master) (x1 : Word) : Statement (.devReset x0 x1) := nofun
theorem aonPowerUp : Statement .aonPowerUp := nofun
theorem aonXtalSwitch : Statement .aonXtalSwitch := nofun
theorem pllLock : Statement .pllLock := nofun
theorem fillDone (x0 : FillMem) : Statement (.fillDone x0) := nofun
theorem pwrReqWrite (x0 : Master) (x1 : Word) : Statement (.pwrReqWrite x0 x1) := nofun
theorem linkPowerOff (x0 : Port) : Statement (.linkPowerOff x0) := nofun
theorem aonStoreComplete : Statement .aonStoreComplete := nofun
theorem claim (x0 : Master) (x1 : BitVec 5) (x2 : Byte) : Statement (.claim x0 x1 x2) := nofun
theorem release (x0 : Master) (x1 : BitVec 5) (x2 : Byte) : Statement (.release x0 x1 x2) := nofun
theorem forceRelease (x0 : Master) (x1 : BitVec 5) (x2 : Byte) : Statement (.forceRelease x0 x1 x2) := nofun
theorem registerWrite (x0 : Master) (x1 x2 : Word) (x3 : Bool) : Statement (.registerWrite x0 x1 x2 x3) := nofun
theorem counterLatchRead (x0 : Master) (x1 : Word) : Statement (.counterLatchRead x0 x1) := nofun
theorem anRestart (x0 : Master) (x1 : Port) : Statement (.anRestart x0 x1) := nofun
theorem linkModeChange (x0 : Master) (x1 : Port) (x2 : Word) : Statement (.linkModeChange x0 x1 x2) := nofun
theorem serdesLock (x0 : Port) : Statement (.serdesLock x0) := nofun
theorem serdesLockTimeout (x0 : Port) : Statement (.serdesLockTimeout x0) := nofun
theorem pcsSync (x0 : Port) : Statement (.pcsSync x0) := nofun
theorem pcsSyncTimeout (x0 : Port) : Statement (.pcsSyncTimeout x0) := nofun
theorem anDone (x0 : Port) (x1 : AnWord) : Statement (.anDone x0 x1) := nofun
theorem anLinkTimer (x0 : Port) : Statement (.anLinkTimer x0) := nofun
theorem syncLoss (x0 : Port) : Statement (.syncLoss x0) := nofun
theorem rxFrame (x0 : Lane) (x1 : RxFrame) : Statement (.rxFrame x0 x1) := nofun
theorem lookup (x0 : Lane) (x1 : Nat) : Statement (.lookup x0 x1) := nofun
theorem replayEarly (x0 : Lane) (x1 : Nat) : Statement (.replayEarly x0 x1) := nofun
theorem frameFailure (x0 : Lane) (x1 : Nat) (x2 : FailKind) (x3 : Nat) : Statement (.frameFailure x0 x1 x2 x3) := nofun
theorem verdict (x0 : Lane) (x1 : Nat) : Statement (.verdict x0 x1) := nofun
theorem egressStart (x0 : Port) : Statement (.egressStart x0) := nofun
theorem holdRelease (x0 : Lane) (x1 : Nat) : Statement (.holdRelease x0 x1) := nofun
theorem frameCommit (x0 : Port) (x1 : EgressSrc) : Statement (.frameCommit x0 x1) := nofun
theorem laneMismatch (x0 : Lane) (x1 : Fin 6) (x2 : Nat) : Statement (.laneMismatch x0 x1 x2) := nofun
theorem laneRestartDone (x0 : Lane) : Statement (.laneRestartDone x0) := nofun
theorem catchUpDone (x0 : Lane) : Statement (.catchUpDone x0) := nofun
theorem laneCfgWrite (x0 : Master) (x1 : Lane) (x2 : Word) : Statement (.laneCfgWrite x0 x1 x2) := nofun
theorem laneOffApplied (x0 : Lane) : Statement (.laneOffApplied x0) := nofun
theorem snap (x0 : Master) (x1 : Lane) : Statement (.snap x0 x1) := nofun
theorem snapClr (x0 : Master) (x1 : Lane) : Statement (.snapClr x0 x1) := nofun
theorem epochSweep (x0 : Fin 1024) : Statement (.epochSweep x0) := nofun
theorem ctxEnable (x0 : Master) (x1 : Fin 1024) : Statement (.ctxEnable x0 x1) := nofun
theorem ctxDisable (x0 : Master) (x1 : Fin 1024) : Statement (.ctxDisable x0 x1) := nofun
theorem resetGuard (x0 : Master) (x1 : Fin 1024) : Statement (.resetGuard x0 x1) := nofun
theorem clearStats (x0 : Master) (x1 : Fin 1024) : Statement (.clearStats x0 x1) := nofun
theorem installCurrent (x0 : Master) (x1 : Fin 64) (x2 : Fin 8) (x3 : Fin 1024) : Statement (.installCurrent x0 x1 x2 x3) := nofun
theorem installNext (x0 : Master) (x1 : Fin 64) (x2 : Fin 8) (x3 : Fin 1024) : Statement (.installNext x0 x1 x2 x3) := nofun
theorem cancelNext (x0 : Master) (x1 : Fin 1024) : Statement (.cancelNext x0 x1) := nofun
theorem revoke (x0 : Master) (x1 : Fin 1024) : Statement (.revoke x0 x1) := nofun
theorem keyCmdDone : Statement .keyCmdDone := nofun
theorem bktPartWrite (x0 : Master) (x1 : Word) : Statement (.bktPartWrite x0 x1) := nofun
theorem ringCfgWrite (x0 : Master) (x1 : Fin 256) (x2 : Word) : Statement (.ringCfgWrite x0 x1 x2) := nofun
theorem ringDoorbell (x0 : Master) (x1 : Fin 256) (x2 : Word) : Statement (.ringDoorbell x0 x1 x2) := nofun
theorem ringConsWrite (x0 : Master) (x1 : Fin 256) (x2 : Word) : Statement (.ringConsWrite x0 x1 x2) := nofun
theorem resume (x0 : Master) (x1 : Fin 256) : Statement (.resume x0 x1) := nofun
theorem frameTx (x0 : Fin 8) : Statement (.frameTx x0) := nofun
theorem copy (x0 : Fin 8) : Statement (.copy x0) := nofun
theorem fill (x0 : Fin 8) : Statement (.fill x0) := nofun
theorem check (x0 : Fin 8) : Statement (.check x0) := nofun
theorem windlassBurst (x0 : Fin 8) : Statement (.windlassBurst x0) := nofun
theorem windlassEnergyShort (x0 : Fin 8) : Statement (.windlassEnergyShort x0) := nofun
theorem chCtrlWrite (x0 : Master) (x1 : Fin 8) (x2 : Word) : Statement (.chCtrlWrite x0 x1 x2) := nofun
theorem descPost (x0 : Fin 256) : Statement (.descPost x0) := nofun
theorem energyGrant (x0 : Requester) : Statement (.energyGrant x0) := nofun
theorem step (x0 : Master) : Statement (.step x0) := nofun
theorem timeAdd (x0 : Master) : Statement (.timeAdd x0) := nofun
theorem declareLock (x0 : Master) : Statement (.declareLock x0) := nofun
theorem declareHoldover (x0 : Master) : Statement (.declareHoldover x0) := nofun
theorem timeFreqWrite (x0 : Master) (x1 : Word) : Statement (.timeFreqWrite x0 x1) := nofun
theorem servoTimeout : Statement .servoTimeout := nofun
theorem holdoverExpiry : Statement .holdoverExpiry := nofun
theorem ppsOutPulse : Statement .ppsOutPulse := nofun
theorem ppsOutEnd : Statement .ppsOutEnd := nofun
theorem ppsInEdge (x0 : PpsEdge) : Statement (.ppsInEdge x0) := nofun
theorem ppsCfgWrite (x0 : Master) (x1 : Word) : Statement (.ppsCfgWrite x0 x1) := nofun
theorem timeNowRead (x0 : Master) : Statement (.timeNowRead x0) := nofun
theorem add (x0 x1 x2 : RegNo) : Statement (.add x0 x1 x2) := fun _ => rfl
theorem sub (x0 x1 x2 : RegNo) : Statement (.sub x0 x1 x2) := fun _ => rfl
theorem and (x0 x1 x2 : RegNo) : Statement (.and x0 x1 x2) := fun _ => rfl
theorem or (x0 x1 x2 : RegNo) : Statement (.or x0 x1 x2) := fun _ => rfl
theorem xor (x0 x1 x2 : RegNo) : Statement (.xor x0 x1 x2) := fun _ => rfl
theorem nor (x0 x1 x2 : RegNo) : Statement (.nor x0 x1 x2) := fun _ => rfl
theorem slt (x0 x1 x2 : RegNo) : Statement (.slt x0 x1 x2) := fun _ => rfl
theorem sltu (x0 x1 x2 : RegNo) : Statement (.sltu x0 x1 x2) := fun _ => rfl
theorem sll (x0 x1 x2 : RegNo) : Statement (.sll x0 x1 x2) := fun _ => rfl
theorem srl (x0 x1 x2 : RegNo) : Statement (.srl x0 x1 x2) := fun _ => rfl
theorem sra (x0 x1 x2 : RegNo) : Statement (.sra x0 x1 x2) := fun _ => rfl
theorem slli (x0 x1 : RegNo) (x2 : BitVec 5) : Statement (.slli x0 x1 x2) := fun _ => rfl
theorem srli (x0 x1 : RegNo) (x2 : BitVec 5) : Statement (.srli x0 x1 x2) := fun _ => rfl
theorem srai (x0 x1 : RegNo) (x2 : BitVec 5) : Statement (.srai x0 x1 x2) := fun _ => rfl
theorem mul (x0 x1 x2 : RegNo) : Statement (.mul x0 x1 x2) := fun _ => rfl
theorem mulh (x0 x1 x2 : RegNo) : Statement (.mulh x0 x1 x2) := fun _ => rfl
theorem mulhu (x0 x1 x2 : RegNo) : Statement (.mulhu x0 x1 x2) := fun _ => rfl
theorem div (x0 x1 x2 : RegNo) : Statement (.div x0 x1 x2) := fun _ => rfl
theorem divu (x0 x1 x2 : RegNo) : Statement (.divu x0 x1 x2) := fun _ => rfl
theorem rem (x0 x1 x2 : RegNo) : Statement (.rem x0 x1 x2) := fun _ => rfl
theorem remu (x0 x1 x2 : RegNo) : Statement (.remu x0 x1 x2) := fun _ => rfl
theorem clz (x0 x1 : RegNo) : Statement (.clz x0 x1) := fun _ => rfl
theorem addi (x0 x1 : RegNo) (x2 : BitVec 16) : Statement (.addi x0 x1 x2) := fun _ => rfl
theorem andi (x0 x1 : RegNo) (x2 : BitVec 16) : Statement (.andi x0 x1 x2) := fun _ => rfl
theorem ori (x0 x1 : RegNo) (x2 : BitVec 16) : Statement (.ori x0 x1 x2) := fun _ => rfl
theorem xori (x0 x1 : RegNo) (x2 : BitVec 16) : Statement (.xori x0 x1 x2) := fun _ => rfl
theorem lui (x0 : RegNo) (x1 : BitVec 16) : Statement (.lui x0 x1) := fun _ => rfl
theorem slti (x0 x1 : RegNo) (x2 : BitVec 16) : Statement (.slti x0 x1 x2) := fun _ => rfl
theorem sltiu (x0 x1 : RegNo) (x2 : BitVec 16) : Statement (.sltiu x0 x1 x2) := fun _ => rfl
theorem lw (x0 x1 : RegNo) (x2 : BitVec 16) : Statement (.lw x0 x1 x2) := fun _ => rfl
theorem lh (x0 x1 : RegNo) (x2 : BitVec 16) : Statement (.lh x0 x1 x2) := fun _ => rfl
theorem lhu (x0 x1 : RegNo) (x2 : BitVec 16) : Statement (.lhu x0 x1 x2) := fun _ => rfl
theorem lb (x0 x1 : RegNo) (x2 : BitVec 16) : Statement (.lb x0 x1 x2) := fun _ => rfl
theorem lbu (x0 x1 : RegNo) (x2 : BitVec 16) : Statement (.lbu x0 x1 x2) := fun _ => rfl
theorem sw (x0 x1 : RegNo) (x2 : BitVec 16) : Statement (.sw x0 x1 x2) := fun _ => rfl
theorem sh (x0 x1 : RegNo) (x2 : BitVec 16) : Statement (.sh x0 x1 x2) := fun _ => rfl
theorem sb (x0 x1 : RegNo) (x2 : BitVec 16) : Statement (.sb x0 x1 x2) := fun _ => rfl
theorem beq (x0 x1 : RegNo) (x2 : BitVec 16) : Statement (.beq x0 x1 x2) := fun _ => rfl
theorem bne (x0 x1 : RegNo) (x2 : BitVec 16) : Statement (.bne x0 x1 x2) := fun _ => rfl
theorem blt (x0 x1 : RegNo) (x2 : BitVec 16) : Statement (.blt x0 x1 x2) := fun _ => rfl
theorem bge (x0 x1 : RegNo) (x2 : BitVec 16) : Statement (.bge x0 x1 x2) := fun _ => rfl
theorem bltu (x0 x1 : RegNo) (x2 : BitVec 16) : Statement (.bltu x0 x1 x2) := fun _ => rfl
theorem bgeu (x0 x1 : RegNo) (x2 : BitVec 16) : Statement (.bgeu x0 x1 x2) := fun _ => rfl
theorem j (x0 : BitVec 26) : Statement (.j x0) := fun _ => rfl
theorem jal (x0 : BitVec 26) : Statement (.jal x0) := fun _ => rfl
theorem jr (x0 : RegNo) : Statement (.jr x0) := fun _ => rfl
theorem jalr (x0 x1 : RegNo) : Statement (.jalr x0 x1) := fun _ => rfl
theorem loop (x0 : RegNo) (x1 : BitVec 1) (x2 : BitVec 10) : Statement (.loop x0 x1 x2) := fun _ => rfl
theorem loopi (x0 : BitVec 1) (x1 x2 : BitVec 10) : Statement (.loopi x0 x1 x2) := fun _ => rfl
theorem mfs (x0 : RegNo) (x1 : BitVec 16) : Statement (.mfs x0 x1) := fun _ => rfl
theorem mts (x0 : RegNo) (x1 : BitVec 16) : Statement (.mts x0 x1) := fun _ => rfl
theorem mpmac (x0 x1 x2 x3 : RegNo) (x4 : Option Nat) : Statement (.mpmac x0 x1 x2 x3 x4) := fun _ => rfl
theorem bmov (x0 x1 x2 : RegNo) (x3 : Option Nat) : Statement (.bmov x0 x1 x2 x3) := fun _ => rfl
theorem bfill (x0 x1 x2 : RegNo) (x3 : Option Nat) : Statement (.bfill x0 x1 x2 x3) := fun _ => rfl
theorem crcb (x0 x1 x2 x3 : RegNo) (x4 : Option Nat) : Statement (.crcb x0 x1 x2 x3 x4) := fun _ => rfl
theorem syscall : Statement .syscall := fun _ => rfl
theorem sysret : Statement .sysret := fun _ => rfl
theorem retx : Statement .retx := fun _ => rfl
theorem swaprules : Statement .swaprules := fun _ => rfl
theorem fence : Statement .fence := fun _ => rfl
theorem ifence : Statement .ifence := fun _ => rfl
theorem wait : Statement .wait := fun _ => rfl
theorem waitWake : Statement .waitWake := nofun
theorem brk : Statement .brk := fun _ => rfl
theorem storeDrain : Statement .storeDrain := nofun
theorem exceptionEntry (x0 : Option Word) : Statement (.exceptionEntry x0) := nofun
theorem interrupt : Statement .interrupt := nofun
theorem now (x0 : Master) : Statement (.now x0) := nofun
theorem withSwap (x0 : Master) : Statement (.withSwap x0) := nofun
theorem cancel (x0 : Master) : Statement (.cancel x0) := nofun
theorem epochDrained : Statement .epochDrained := nofun
theorem aesEcb (x0 : Master) (x1 : Fin 16) : Statement (.aesEcb x0 x1) := nofun
theorem aesCbc (x0 : Master) (x1 : Fin 16) : Statement (.aesCbc x0 x1) := nofun
theorem aesCtr (x0 : Master) (x1 : Fin 16) : Statement (.aesCtr x0 x1) := nofun
theorem aesGcm (x0 : Master) (x1 : Fin 16) : Statement (.aesGcm x0 x1) := nofun
theorem aesGmac (x0 : Master) (x1 : Fin 16) : Statement (.aesGmac x0 x1) := nofun
theorem sha256 (x0 : Master) (x1 : Fin 16) : Statement (.sha256 x0 x1) := nofun
theorem sha384 (x0 : Master) (x1 : Fin 16) : Statement (.sha384 x0 x1) := nofun
theorem sha512 (x0 : Master) (x1 : Fin 16) : Statement (.sha512 x0 x1) := nofun
theorem hmacSha256 (x0 : Master) (x1 : Fin 16) : Statement (.hmacSha256 x0 x1) := nofun
theorem hmacSha384 (x0 : Master) (x1 : Fin 16) : Statement (.hmacSha384 x0 x1) := nofun
theorem hmacSha512 (x0 : Master) (x1 : Fin 16) : Statement (.hmacSha512 x0 x1) := nofun
theorem ecdsaP256 (x0 : Master) (x1 : Fin 16) : Statement (.ecdsaP256 x0 x1) := nofun
theorem ecdsaP384 (x0 : Master) (x1 : Fin 16) : Statement (.ecdsaP384 x0 x1) := nofun
theorem rsa (x0 : Master) (x1 : Fin 16) : Statement (.rsa x0 x1) := nofun
theorem random (x0 : Master) (x1 : Fin 16) : Statement (.random x0 x1) := nofun
theorem ceAbort (x0 : Master) (x1 : Fin 16) : Statement (.ceAbort x0 x1) := nofun
theorem pageDisable (x0 : Master) (x1 : Fin 16) : Statement (.pageDisable x0 x1) := nofun
theorem ceChunk (x0 : Fin 16) : Statement (.ceChunk x0) := nofun
theorem ceJobDone (x0 : Fin 16) : Statement (.ceJobDone x0) := nofun
theorem ceEnergyShort (x0 : Fin 16) : Statement (.ceEnergyShort x0) := nofun
theorem importWrapped (x0 : Master) (x1 x2 : Fin 64) : Statement (.importWrapped x0 x1 x2) := nofun
theorem importPlain (x0 : Master) (x1 : Fin 64) : Statement (.importPlain x0 x1) := nofun
theorem generate (x0 : Master) (x1 : Fin 64) : Statement (.generate x0 x1) := nofun
theorem exportWrapped (x0 : Master) (x1 x2 : Fin 64) : Statement (.exportWrapped x0 x1 x2) := nofun
theorem erase (x0 : Master) (x1 : Fin 64) : Statement (.erase x0 x1) := nofun
theorem publicPoint (x0 : Master) (x1 : Fin 64) : Statement (.publicPoint x0 x1) := nofun
theorem ceKeyCmdDone : Statement .ceKeyCmdDone := nofun
theorem reseed (x0 : Master) : Statement (.reseed x0) := nofun
theorem reseedDone : Statement .reseedDone := nofun
theorem restart (x0 : Master) : Statement (.restart x0) := nofun
theorem rngReady : Statement .rngReady := nofun
theorem healthFail (x0 : Bool) : Statement (.healthFail x0) := nofun
theorem writeBack : Statement .writeBack := nofun
theorem trackerOffer : Statement .trackerOffer := nofun
theorem rowRemapDone : Statement .rowRemapDone := nofun
theorem integRemapCmd (x0 : Master) (x1 : Fin 16) (x2 : Fin 2048) : Statement (.integRemapCmd x0 x1 x2) := nofun
theorem remove (x0 : Master) (x1 : Fin 8) : Statement (.remove x0 x1) := nofun
theorem dredgeStart (x0 : Master) : Statement (.dredgeStart x0) := nofun
theorem dredgeAbort (x0 : Master) : Statement (.dredgeAbort x0) := nofun
theorem dredgeBurst : Statement .dredgeBurst := nofun
theorem readParam (x0 : Master) (x1 : Fin 2048) : Statement (.readParam x0 x1) := nofun
theorem writeParam (x0 : Master) (x1 : Fin 2048) : Statement (.writeParam x0 x1) := nofun
theorem eraseParam (x0 : Master) (x1 : Fin 2048) : Statement (.eraseParam x0 x1) := nofun
theorem readCtr (x0 : Master) (x1 : Fin 2048) : Statement (.readCtr x0 x1) := nofun
theorem incCtr (x0 : Master) (x1 : Fin 2048) : Statement (.incCtr x0 x1) := nofun
theorem advanceCtr (x0 : Master) (x1 : Fin 2048) : Statement (.advanceCtr x0 x1) := nofun
theorem appendLog (x0 : Master) (x1 : Byte) (x2 : Fin 2048) : Statement (.appendLog x0 x1 x2) := nofun
theorem readLog (x0 : Master) (x1 : Fin 2048) : Statement (.readLog x0 x1) := nofun
theorem readAlarm (x0 : Master) : Statement (.readAlarm x0) := nofun
theorem alarmAck (x0 : Master) : Statement (.alarmAck x0) := nofun
theorem cisternBurstDone : Statement .cisternBurstDone := nofun
theorem powerUpJournal : Statement .powerUpJournal := nofun
theorem marginScan (x0 : Bool) : Statement (.marginScan x0) := nofun
theorem refresh : Statement .refresh := nofun
theorem alarmRecord : Statement .alarmRecord := nofun
theorem cisternEnergyShort : Statement .cisternEnergyShort := nofun
theorem cisternBufClear : Statement .cisternBufClear := nofun
theorem reqa : Statement .reqa := nofun
theorem wupa : Statement .wupa := nofun
theorem anticollision (x0 : Fin 2) (x1 : Bytes) : Statement (.anticollision x0 x1) := nofun
theorem select (x0 : Fin 2) (x1 : Bytes) : Statement (.select x0 x1) := nofun
theorem hlta : Statement .hlta := nofun
theorem rats (x0 : Byte) : Statement (.rats x0) := nofun
theorem pps (x0 : Byte) : Statement (.pps x0) := nofun
theorem reqb : Statement .reqb := nofun
theorem wupb : Statement .wupb := nofun
theorem attrib (x0 : Bytes) (x1 : Byte) (x2 : Nat) (x3 : Fin 16) : Statement (.attrib x0 x1 x2 x3) := nofun
theorem hltb (x0 : Bytes) : Statement (.hltb x0) := nofun
theorem inventory : Statement .inventory := nofun
theorem stayQuiet (x0 : Bytes) : Statement (.stayQuiet x0) := nofun
theorem readSingleBlock (x0 : VMode) (x1 : Byte) : Statement (.readSingleBlock x0 x1) := nofun
theorem readMultipleBlocks (x0 : VMode) (x1 x2 : Byte) : Statement (.readMultipleBlocks x0 x1 x2) := nofun
theorem select15693 (x0 : Bytes) : Statement (.select15693 x0) := nofun
theorem resetToReady (x0 : VMode) : Statement (.resetToReady x0) := nofun
theorem getSystemInformation (x0 : VMode) : Statement (.getSystemInformation x0) := nofun
theorem apduTransfer (x0 : VMode) (x1 : Bytes) : Statement (.apduTransfer x0 x1) := nofun
theorem getResult (x0 : VMode) : Statement (.getResult x0) := nofun
theorem iBlock (x0 : Block) : Statement (.iBlock x0) := nofun
theorem rAck (x0 : Bool) : Statement (.rAck x0) := nofun
theorem rNak (x0 : Bool) : Statement (.rNak x0) := nofun
theorem sDeselect : Statement .sDeselect := nofun
theorem sWtxResponse (x0 : Nat) : Statement (.sWtxResponse x0) := nofun
theorem selectFile : Statement .selectFile := nofun
theorem readBinary : Statement .readBinary := nofun
theorem updateBinary : Statement .updateBinary := nofun
theorem getInfo : Statement .getInfo := nofun
theorem authInit : Statement .authInit := nofun
theorem authFinish : Statement .authFinish := nofun
theorem apduReadParam : Statement .apduReadParam := nofun
theorem apduReadCtr : Statement .apduReadCtr := nofun
theorem apduReadLog : Statement .apduReadLog := nofun
theorem apduReadAlarm : Statement .apduReadAlarm := nofun
theorem wtxTimer : Statement .wtxTimer := nofun
theorem responseTransmit : Statement .responseTransmit := nofun
theorem portClaimRetry : Statement .portClaimRetry := nofun
theorem fwResp (x0 : Master) (x1 : Word) : Statement (.fwResp x0 x1) := nofun
theorem fwTimeout : Statement .fwTimeout := nofun
theorem fwDataRead (x0 : Master) : Statement (.fwDataRead x0) := nofun
theorem reload (x0 : Master) : Statement (.reload x0) := nofun
theorem contactlessConfigLoad : Statement .contactlessConfigLoad := nofun
theorem markChange (x0 : Nat) : Statement (.markChange x0) := nofun
theorem pvSample (x0 : Nat) (x1 : Bool) (x2 : Nat) : Statement (.pvSample x0 x1 x2) := nofun
theorem canaryLate : Statement .canaryLate := nofun
theorem avsLower : Statement .avsLower := nofun
theorem avsLinkFail : Statement .avsLinkFail := nofun
theorem pmodeWrite (x0 : Master) (x1 : Word) : Statement (.pmodeWrite x0 x1) := nofun
theorem pmodeDone : Statement .pmodeDone := nofun
theorem alarmChargeTimeout : Statement .alarmChargeTimeout := nofun
theorem eventIssue (x0 : Fin 32) : Statement (.eventIssue x0) := nofun
theorem coalWindowClose (x0 : Fin 32) : Statement (.coalWindowClose x0) := nofun
theorem evtSw (x0 : Master) (x1 : Word) : Statement (.evtSw x0 x1) := nofun
theorem wdogKick (x0 : Master) (x1 : Word) : Statement (.wdogKick x0 x1) := nofun
theorem wdogStart (x0 : Master) (x1 : Word) : Statement (.wdogStart x0 x1) := nofun
theorem wdogExpiry : Statement .wdogExpiry := nofun
theorem alarmEdge (x0 : Fin 9) (x1 : Byte) : Statement (.alarmEdge x0 x1) := nofun
theorem meshSample (x0 : Option (Fin 8)) : Statement (.meshSample x0) := nofun
theorem meshResample (x0 : Option (Fin 8)) : Statement (.meshResample x0) := nofun
theorem light (x0 : Option (Fin 4)) : Statement (.light x0) := nofun
theorem vglitch (x0 : Glitch) : Statement (.vglitch x0) := nofun
theorem vbatUv (x0 : Nat) : Statement (.vbatUv x0) := nofun
theorem clock (x0 : ClockObs) : Statement (.clock x0) := nofun
theorem aonClock : Statement .aonClock := nofun
theorem temp (x0 : Int) : Statement (.temp x0) := nofun
theorem lockstep : Statement .lockstep := nofun
theorem read (x0 x1 : Byte) (x2 x3 : Word) : Statement (.read x0 x1 x2 x3) := nofun
theorem write (x0 : Byte) (x1 : Word) (x2 : Bytes) (x3 : Word) : Statement (.write x0 x1 x2 x3) := nofun
theorem ident (x0 : Byte) (x1 x2 : Word) : Statement (.ident x0 x1 x2) := nofun
theorem wohialTimeout : Statement .wohialTimeout := nofun
theorem wohialOpDone : Statement .wohialOpDone := nofun
theorem csRiseEarly (x0 : Byte) : Statement (.csRiseEarly x0) := nofun
theorem hostDb (x0 : Master) (x1 : Word) : Statement (.hostDb x0 x1) := nofun
theorem boot : Statement .boot := nofun
theorem recoveryImage : Statement .recoveryImage := nofun
theorem eraseSector (x0 : Master) (x1 : BitVec 12) : Statement (.eraseSector x0 x1) := nofun
theorem programPage (x0 : Master) (x1 : BitVec 12) : Statement (.programPage x0 x1) := nofun
theorem flashOpDone : Statement .flashOpDone := nofun
theorem clear (x0 : Master) : Statement (.clear x0) := nofun
theorem gpioEdge (x0 : Fin 24) (x1 : Bool) : Statement (.gpioEdge x0 x1) := nofun
theorem actTimeout (x0 : Port) : Statement (.actTimeout x0) := nofun
theorem aonUnpowered : Statement .aonUnpowered := nofun
theorem pvAonRailLoss : Statement .pvAonRailLoss := nofun
theorem aonTimerExpiry (x0 : Fin 8) : Statement (.aonTimerExpiry x0) := nofun

end Sys2Proof.Laws.Worded
end

