-- ==== Sys2Proof/Laws/Total.lean ====
section
/-! SUPPORT. No command ends the run: exec and step answer a next state on every path. -/
namespace Sys2Proof.Machine

/-- Every command answers a next state in every state. -/
theorem exec_next (i : Instr) (s : State) : ∃ t, exec i s = .next t := by
  cases i
  case exceptionEntry w => cases w <;> simp only [exec, execExceptionEntry] <;> repeat (first | exact ⟨_, rfl⟩ | split)
  all_goals exact ⟨_, rfl⟩

/-- So does every step. -/
theorem step_next (s : State) : ∃ t, step s = .next t := by
  unfold step
  split
  · exact ⟨_, rfl⟩
  · exact exec_next _ _

end Sys2Proof.Machine
end

