-- ==== Sys2Proof/Tests/Slice0.lean ====
section
/-! SUPPORT. Tests: words of the encoding tables, the well-formedness checks, single steps against the spec's tables and
examples, and for every statement with hypotheses states and operands that meet them, clause by clause. -/
namespace Sys2Proof.Tests
open Sys2Proof Sys2Proof.Machine Sys2Proof.Claims

set_option maxRecDepth 100000

/-! ### Small states -/

/-- A device in HOST with every domain on and its fills done, and some fields. -/
def dev (l : List (Fl × Nat)) : Dev :=
  l.foldl (fun d e => d.put e.1 e.2) { Dev.reset with
    dom := 0xFF, filled := Vector.replicate 3 true, xtal := true, pll := true, cst := { Dev.reset.cst with due := false },
    regs := [(F.SYS_STATE.addr, 3), (F.WH_STAT_HOST_GOOD.addr, 1)] }

/-- The core runs at 0x1000_3000 with some registers. -/
def core (l : List (Fin 32 × Word)) : Core :=
  { Core.reset with released := true, pc := 0x10003000, regs := l.foldl (fun r e => r.set e.1.val e.2) Core.reset.regs }

def on (d : Dev) : State := { State.reset with core := core [], dev := d }
def host (l : List (Fl × Nat)) : State := on (dev l)
def run (l : List (Fin 32 × Word)) : State := { State.reset with core := core l, dev := dev [] }

/-- A device whose Cistern port has an owner. -/
def port (m : BitVec 5) (d : Dev) : Dev := d.setOwner 0x40 m

/-- Region 0 of a firewall open for every master. -/
def opened (fw lo hi : Nat) (d : Dev) : Dev :=
  ((d.setReg (fwActive fw 0) (BitVec.ofNat 32 lo)).setReg (fwActive fw 0 + 4) (BitVec.ofNat 32 hi)).setReg (fwActive fw 0 + 8)
    0x8007FFFF

/-- The state a command answers. -/
def after (i : Instr) (s : State) : State := match exec i s with | .next t => t | _ => s

/-! ### Words of the encoding tables (R167 to R171) -/

theorem test_word_nop : decodeWord 0x00000000 = .instr (.add 0 0 0) := by decide
theorem test_word_sub : decodeWord (0b000000#6 ++ 0b00011#5 ++ 0b00100#5 ++ 0b00101#5 ++ 0b00000#5 ++ 0b000001#6) =
    .instr (.sub 3 4 5) := by decide
theorem test_word_unused_field : decodeWord (0b000000#6 ++ 0b00011#5 ++ 0b00100#5 ++ 0b00101#5 ++ 0b00001#5 ++ 0b000001#6) =
    .illegal 1 := by decide
theorem test_word_unassigned : decodeWord 0xFFFFFFFF = .illegal 0 := by decide

/-- The operation table gives no row any bits, so no table word spells a command. -/
theorem test_table_words : decodeTableWord 32 0 = none ∧ (State.reset.withFetchWord 32 0) = State.reset := ⟨rfl, rfl⟩

/-! ### Well-formedness: an ill-formed command for each check -/

def frame0 : RxFrame := ⟨List.replicate 64 0, none, false, false, ⟨true, 0, none, none, none, []⟩⟩
def ext0 : Ext := ⟨none, 0, 10, 10, 4, []⟩

theorem test_wf_frame : (Instr.rxFrame .verify frame0).wf = true := by decide
theorem test_wf_codeErr : (Instr.rxFrame .verify { frame0 with codeErr := some 64 }).wf = false := by decide
theorem test_wf_apdu : (Instr.rxFrame .verify { frame0 with deep := { frame0.deep with apduEnd := 65 } }).wf = false := by decide
theorem test_wf_span : (Instr.rxFrame .verify { frame0 with deep := { frame0.deep with ext := some { ext0 with spanLo := 11 } } }).wf =
    false := by decide
theorem test_wf_span_end : (Instr.rxFrame .verify
    { frame0 with deep := { frame0.deep with ext := some { ext0 with spanHi := 65 } } }).wf = false := by decide
theorem test_wf_value : (Instr.rxFrame .verify
    { frame0 with deep := { frame0.deep with ext := some { ext0 with valLen := 55 } } }).wf = false := by decide
theorem test_wf_iv : (Instr.rxFrame .verify { frame0 with deep := { frame0.deep with ext := some { ext0 with iv := [0] } } }).wf =
    false := by decide
theorem test_wf_stop : (Instr.mpmac 1 2 3 4 (some (2 ^ 24))).wf = false ∧ (Instr.bmov 1 2 3 (some (2 ^ 24))).wf = false ∧
    (Instr.bfill 1 2 3 (some (2 ^ 24))).wf = false ∧ (Instr.crcb 1 2 3 4 (some (2 ^ 24))).wf = false := by decide
theorem test_wf_entry : (Instr.exceptionEntry (some 0)).wf = false ∧ (Instr.exceptionEntry (some 0xFFFFFFFF)).wf = true := by decide
theorem test_wf_uid : (Instr.anticollision 0 (List.replicate 6 0)).wf = false ∧ (Instr.select 0 [1, 2, 3]).wf = false ∧
    (Instr.stayQuiet []).wf = false ∧ (Instr.select15693 [1]).wf = false ∧ (Instr.hltb [1]).wf = false := by decide
theorem test_wf_attrib : (Instr.attrib [1, 2, 3] 0 256 0).wf = false ∧ (Instr.attrib [1, 2, 3, 4] 0 257 0).wf = false ∧
    (Instr.attrib [1, 2, 3, 4] 0 15 0).wf = false ∧ (Instr.attrib [1, 2, 3, 4] 0 256 0).wf = true := by decide
theorem test_wf_mode : (Instr.readSingleBlock (.addressed [1]) 0).wf = false ∧
    (Instr.readMultipleBlocks (.addressed [1]) 0 0).wf = false ∧ (Instr.resetToReady (.addressed [1])).wf = false ∧
    (Instr.getSystemInformation (.addressed [1])).wf = false ∧ (Instr.getResult (.addressed [1])).wf = false := by decide
theorem test_wf_apdu_length : (Instr.apduTransfer .selected [0, 0xA4, 4]).wf = false ∧
    (Instr.apduTransfer (.addressed [1]) [0, 0xA4, 4, 0]).wf = false := by decide
theorem test_wf_block : (Instr.iBlock ⟨false, false, none, List.replicate 253 0, true⟩).wf = false := by decide
theorem test_wf_wtxm : (Instr.sWtxResponse 60).wf = false ∧ (Instr.sWtxResponse 0).wf = false := by decide
theorem test_wf_write : (Instr.write 3 0 [1, 2, 3] 0).wf = false ∧ (Instr.write 3 0 [1, 2, 3, 4] 0).wf = true := by decide

/-! ### Single steps against the spec -/

/-- R173's table: the cases without a mathematical result. -/
theorem test_division_corners :
    (after (.div 3 1 2) (run [(1, 0x80000000), (2, 0xFFFFFFFF)])).core.rd 3 = 0x80000000 ∧
    (after (.rem 3 1 2) (run [(1, 0x80000000), (2, 0xFFFFFFFF)])).core.rd 3 = 0 ∧
    (after (.div 3 1 2) (run [(1, 7)])).core.rd 3 = 0xFFFFFFFF ∧ (after (.remu 3 1 2) (run [(1, 7)])).core.rd 3 = 7 := by decide
/-- R173: division rounds towards zero, and REM takes the sign of the dividend. -/
theorem test_division_signs :
    (after (.div 3 1 2) (run [(1, 0xFFFFFFF9), (2, 2)])).core.rd 3 = 0xFFFFFFFD ∧
    (after (.rem 3 1 2) (run [(1, 0xFFFFFFF9), (2, 2)])).core.rd 3 = 0xFFFFFFFF := by decide
/-- R172: a shift takes five bits of its count, and w0 takes nothing. -/
theorem test_shift_count : (after (.sll 3 1 2) (run [(1, 1), (2, 33)])).core.rd 3 = 2 ∧
    (after (.addi 0 1 5) (run [(1, 1)])).core.rd 0 = 0 := by decide
/-- R176, R177: JALR reads wa before it writes wd, and the slot is next. -/
theorem test_jalr : (after (.jalr 3 3) (run [(3, 0x10004000)])).core.slot = some ⟨0x10003000, 0x10004000⟩ ∧
    (after (.jalr 3 3) (run [(3, 0x10004000)])).core.rd 3 = 0x10003008 := by decide
/-- R421's example: a Supervisor write of 0x00A0_0000 to CE_CFG asks for TAGLEN 20 and stores 16. -/
theorem test_clamp_example :
    let t := after (.registerWrite 1 (BitVec.ofNat 32 F.CE_CFG_TAGLEN.addr) 0x00A00000 false)
      (on (opened 15 0x50000000 0x5000FFFF (dev [(pageCtl 0 F.CE_PAGE_CTL_EN, 1), (pageCtl 0 F.CE_PAGE_GRANT_LO_GRANT, 2)])))
    t.dev.get F.CE_CFG_TAGLEN = 16 ∧ t.dev.get F.CLAMP_STAT_COUNT = 1 ∧ t.dev.get F.CLAMP_INFO_MASTER = 1 ∧
      t.dev.get F.CLAMP_INFO_LSB = 19 ∧ t.dev.get F.CLAMP_INFO_WIDTH = 5 ∧ t.dev.get F.CLAMP_WRITTEN_VALUE = 0x14 ∧
      t.dev.get F.CLAMP_STORED_VALUE = 0x10 := by decide

/-! ### Witnesses: the core -/

theorem witness_computations : computes (core [(1, 5)]) (.add 3 1 2) = some (3, 5, false, 1) ∧ Ready (run [(1, 5)]) .free ∧
    computes (core [(1, 0x80000000), (2, 0xFFFFFFFF)]) (.div 3 1 2) = some (3, 0x80000000, false, 34) := by decide

def slotted (c : Core) : Core := { c with slot := some ⟨0x10002FFC, 0x10004000⟩ }
def looping (k0 k1 : Word) (c : Core) : Core := { c with lc := #v[k0, k1], le := #v[0x10003000, 0x10003000] }
theorem witness_continuation : (slotted (core [])).slot ≠ none ∧ (core []).slot = none ∧ (core []).lc[0] = 0 ∧ (core []).lc[1] = 0 ∧
    ((looping 0 2 (core [])).lc[1] ≠ 0 ∧ (looping 0 2 (core [])).le[1] = (core []).pc ∧ (looping 0 2 (core [])).lc[1] ≠ 1) ∧
    ((looping 1 0 (core [])).lc[1] = 0 ∧ (looping 1 0 (core [])).lc[0] ≠ 0 ∧ (looping 1 0 (core [])).le[0] = (core []).pc) := by
  decide

def loadOk (n : Nat) (a : Nat) (s : State) : Bool :=
  (fetched s).mpuCheck (s.core.mpuOn s.core.pl) s.core.pl .read a n == none &&
    ((fetched s).cpuLoad s.core.master a n).2.1 == .ok && ((fetched s).cpuLoad s.core.master a n).2.2.length == n &&
    decide (((fetched s).cpuLoad s.core.master a n).1.calm)
theorem witness_loads : Ready (run [(1, 0x10004000)]) .free ∧ (core [(1, 0x10004000)]).psn 1 = false ∧
    loadOk 4 0x10004004 (run [(1, 0x10004000)]) = true ∧ loadOk 2 0x10004006 (run [(1, 0x10004000)]) = true ∧
    loadOk 1 0x1001FFFF (run [(1, 0x10004000)]) = true := by decide
theorem witness_stores : Ready (run [(1, 0x10004000)]) .free ∧
    (∀ n ∈ [4, 2, 1], (fetched (run [(1, 0x10004000)])).mpuCheck ((core [(1, 0x10004000)]).mpuOn 2) 2 .write 0x10004004 n = none) ∧
    (core [(1, 0x10004000)]).mode.getLsbD 1 = false ∧ (fetched (run [(1, 0x10004000)])).sbuf.length < 4 := by decide
def aStore (a : Nat) : Store := ⟨a, 4, 0x12345678, 0, 2, 0⟩
theorem witness_forward : isRegAddr 0x10004002 = false ∧ (aStore 0x10004000).addr ≤ 0x10004002 ∧
    0x10004002 + 2 ≤ (aStore 0x10004000).addr + (aStore 0x10004000).size := by decide
def drained (a : Nat) : Dev × Resp := Dev.busStore (dev []) 0 2 a (aStore a).bytes
theorem witness_drain : (dev []).calm ∧ (drained 0x10004000).2 = .ok ∧ (drained 0x10004000).1.calm ∧
    (drained 0x7FFFFFFC).2 ≠ .ok ∧ (drained 0x7FFFFFFC).1.calm ∧ (drained 0x7FFFFFFC).1.impStore = none := by decide
theorem witness_transfers : Ready (run [(1, 0x10004000)]) .restricted ∧ (core [(1, 0x10004000)]).psn 1 = false ∧
    ((core [(1, 0x10004000)]).rd 1).toNat % 4 = 0 := by decide
theorem witness_loops : Ready (run []) .restricted ∧ (1 : BitVec 10) ≠ 0 ∧ (1023 : BitVec 10) ≠ 0 := by decide

/-! ### Witnesses: system instructions, exceptions, long instructions -/

/-- The core at a level, its memory open to every master. -/
def atLevel (cst : Word) : State :=
  { State.reset with dev := opened 1 0x10000000 0x1001FFFF (dev []), core := { core [] with cst := cst } }
theorem witness_mfs : sprOf 0x0000 ≠ none ∧ (∀ r, sprOf 0x0000 = some r → r.readLevel ≤ (run []).core.pl) ∧ Ready (run []) .free := by
  decide
theorem witness_mts : sprOf 0x0000 = some .cst ∧ sprOf 0x0001 = some .mode ∧ (Spr.writeLevel .cst).isSome = true ∧
    (Spr.writeLevel .mode).isSome = true ∧ Ready (run []) .restricted ∧ (run []).core.psn 3 = false := by decide
theorem witness_refusals : sprOf 0x03FF = none ∧ Ready (atLevel 0) .free ∧ Ready (atLevel 0) .restricted ∧
    Ready (atLevel 0) .mayEnd ∧ (atLevel 0).core.pl = 0 := by decide
theorem witness_fast_calls : Ready (atLevel 0) .restricted ∧ Ready (atLevel 1) .restricted ∧
    (atLevel 1).core.pl ≠ 0 ∧ (atLevel 1).core.sst.toNat % 4 ≤ (atLevel 1).core.pl ∧
    (atLevel 1).core.spc.toNat % 4 = 0 := by decide

/-- A state with a descriptor of every vector and an exception stack. -/
def entered : State :=
  let d := ((dev []).ramPutAll 0x10001060 (marked (leBytes 4 0x10000800 ++ leBytes 4 0x80000001) false))
  { State.reset with
    dev := d, core := { core [] with extb := 0x10001000, slim := Vector.replicate 4 0x10004000, ssp := Vector.replicate 4 0x10006000 } }
def entryMet (s : State) (x : Exc) : Bool :=
  match s.dev.drainAll.descriptor s.core.extb x.vector with
  | (d1, some (_, w), _) =>
    let top := (s.core.ssp[0]).toNat
    let lv := max (w.toNat % 4) s.core.pl
    w.getLsbD 31 && w.toNat % 4 == 1 && w.toNat / 16 % 4 == 0 && decide (64 ≤ top) &&
      decide ((s.core.slim[0]).toNat ≤ top - 64) && top % 4 == 0 &&
      (Dev.writeFrame (s.core.mpuOn lv) lv d1 (top - 64) (s.core.frameWords s.core.point
        (BitVec.ofNat 32 (x.detail * 2 ^ 8 + x.vector)))).2 == none
  | _ => false
theorem witness_entry : entered.core.inEmergency = false ∧ entered.core.psn 31 = false ∧ entryMet entered ⟨12, 0, 0⟩ = true := by
  decide
theorem witness_entries_taken : Ready (run []) .free ∧ Ready (run []) .restricted ∧ (run []).core.pl ≠ 0 ∧
    decodeWord 0xFFFFFFFF = .illegal 0 := by decide
def imprecise : State := on { dev [] with impStore := some ⟨0x10004000, 1, false⟩ }
theorem witness_imprecise : imprecise.running = true ∧ imprecise.core.slot = none ∧ imprecise.core.shadow = none ∧
    imprecise.core.inEmergency = false := by decide
/-- RUNLOW is interrupt source 1; its priority is in the first priority register. -/
def calling : State :=
  let d := (dev [(F.SYS_RUNLOW, 1)])
  { State.reset with dev := (List.range 48).foldl (fun x k => x.setReg (0x400D0000 + 4 * k) 0xFFFFFFFF) d
                     core := { core [] with cst := 6 } }
theorem witness_interrupt : calling.running = true ∧ calling.dev.impStore = none ∧ calling.core.ie = true ∧
    (calling.dev.topSource calling.core.ipl).isSome = true ∧ (calling.dev.topSource 15) = none := by decide

def returning : State := entered.enter ⟨12, 0, 0⟩ none false
def retxMet (s : State) : Bool :=
  match State.readFrame 16 { s with dev := fetched s } (s.core.rd 31).toNat with
  | (t1, .ok f) => (s.core.retxCheck (s.core.rd 31).toNat f).isNone && decide t1.dev.calm && decide t1.dev.swapRules.calm &&
      !t1.dev.flag F.ACCESS_EPOCH_PREV_LIVE
  | _ => false
theorem witness_retx : Ready returning .restricted ∧ returning.core.pl ≠ 0 ∧ returning.core.psn 31 = false ∧
    (returning.core.rd 31).toNat % 4 = 0 ∧ retxMet returning = true := by decide
theorem witness_return : CoreLegal Core.reset := by decide
def stored (a : Nat) : State := { run [] with dev := { dev [] with sbuf := [aStore a] } }
theorem witness_fences : Ready (stored 0x10004000) .free ∧ (fetched (stored 0x10004000)).sbuf = [aStore 0x10004000] ∧
    (fetched (stored 0x10004000)).aonPend = [] ∧ (drained 0x10004000).1.aonPend = [] ∧ Ready (run []) .free ∧
    (fetched (run [])).sbuf = [] := by decide
theorem witness_swaps : Ready (run []) .restricted ∧ (fetched (run [])).flag F.ACCESS_EPOCH_PREV_LIVE = false ∧
    Ready (host [(F.ACCESS_EPOCH_PREV_LIVE, 1)]) .restricted ∧
    (fetched (host [(F.ACCESS_EPOCH_PREV_LIVE, 1)])).flag F.ACCESS_EPOCH_PREV_LIVE = true := by decide
/-- The core waits, and RUNLOW is pending above the threshold. -/
def waitingCore (cst : Word) : State := { calling with core := { calling.core with waiting := true, cst := cst } }
theorem witness_waits : Ready (run []) .mayEnd ∧ (fetched (run [])).topSource (run []).core.ipl = none ∧
    (waitingCore 2).core.waiting = true ∧ (waitingCore 2).core.ie = false ∧ (waitingCore 6).core.ie = true ∧
    (waitingCore 6).dev.topSource (waitingCore 6).core.ipl ≠ none ∧ (waitingCore 6).dev.calm ∧
    (waitingCore 2).dev.topSource (waitingCore 2).core.ipl ≠ none ∧ (waitingCore 6).dev.impStore = none ∧
    (waitingCore 6).core.slot = none ∧ (waitingCore 6).core.shadow = none ∧ (waitingCore 6).core.inEmergency = false ∧
    { (waitingCore 6).dev with impStore := some ⟨0x10004000, 1, false⟩ }.impStore = some ⟨0x10004000, 1, false⟩ := by decide

/-! ### Witnesses: long instructions -/

def longState : State := run [(1, 0x10004000), (2, 0x10004100), (3, 4)]
def longAt (c : Core) : State := { longState with core := c, dev := fetched longState }
def done (e : Done × Bool) (whole : Bool) : Bool := match e with
  | (.ok t, w) => w == whole && decide t.dev.calm
  | _ => false
theorem witness_long : Ready longState .mayEnd ∧
    done (runUnits (mpmacUnit 0x10004000 0x10004100 7 false 4) (fun k => decide (4 < k.done)) 5 none
      (longAt (longState.core.startLong 1 0 false))) true = true ∧
    done (runUnits (bmovUnit 0x10004000 0x10004100 4) (fun k => decide (4 ≤ k.done)) 4 none
      (longAt (longState.core.startLong 2 0 false))) true = true := by decide
theorem witness_long_more :
    done (runUnits (bfillUnit 0x10004000 4 0xA5A5A5A5 false) (fun k => decide (4 ≤ k.done)) 4 none
      (longAt (longState.core.startLong 3 0 false))) true = true ∧
    done (runUnits (crcbUnit 0x10004100 4) (fun k => decide (4 ≤ k.done)) 4 none
      (longAt { longState.core with prog := progWord 4 0, pacc := 0, paccPoison := false })) true = true ∧
    longState.core.prog.getLsbD 28 = false := by decide
theorem witness_resumes : done (runUnits (bfillUnit 0x10004000 8 0xA5A5A5A5 false) (fun k => decide (8 ≤ k.done)) 8 (some 1)
    (longAt (longState.core.startLong 3 0 false))) false = true := by decide
def unitMet (e : UnitEnd) : Bool := match e with | .ok _ => true | _ => false
theorem witness_units : unitMet (mpmacUnit 0x10004000 0x10004100 7 false 4 (longAt (longState.core.startLong 1 0 false))) = true ∧
    unitMet (bmovUnit 0x10004000 0x10004101 4 (longAt (longState.core.startLong 2 0 false))) = true ∧
    unitMet (bfillUnit 0x10004002 4 7 false (longAt (longState.core.startLong 3 0 false))) = true ∧
    unitMet (crcbUnit 0x10004001 4 (longAt { longState.core with prog := progWord 4 0 })) = true := by decide
/-- No access of a unit is refused. -/
def unitFree (s : State) (l : List (Kind × Nat × Nat)) : Bool := (s.unitChecks l).isNone
def unitAt (k : Nat) : State := longAt (longState.core.startLong k 0 false)
/-- A limb's loads and its store succeed. -/
def limbMet (s : State) (x y : Nat) : Bool := match s.longLoad x 4 with
  | (s1, .ok _) => match s1.longLoad y 4 with
    | (s2, .ok _) => (s2.longStore x (marked [1, 2, 3, 4] false)).2.isNone && (s1.longStore x (marked [1, 2, 3, 4] false)).2.isNone
    | _ => false
  | _ => false
/-- User code under an MPU without regions. -/
def guarded : State := longAt { longState.core.startLong 2 0 false with mode := 1, cst := 0 }
theorem witness_unit_checks : unitFree (unitAt 1) [(.read, 0x10004000, 4), (.read, 0x10004100, 4), (.write, 0x10004000, 4)] = true ∧
    unitFree (unitAt 1) [(.read, 0x10004000, 4), (.write, 0x10004000, 4)] = true ∧ limbMet (unitAt 1) 0x10004000 0x10004100 = true ∧
    (unitAt 1).core.done = 0 ∧ unitFree (unitAt 2) [(.read, 0x10004100, 4), (.write, 0x10004000, 4)] = true ∧
    (State.moveBytes (unitAt 2) 4 (unitAt 2) 0x10004000 0x10004101).2.isNone = true ∧
    unitFree guarded [(.read, 0x10004100, 4), (.write, 0x10004000, 4)] = false := by decide
theorem witness_unit_moves : (match State.loadUnit (unitAt 2) (unitAt 2) 0x10004100 4 with
      | (s1, .ok bs) => (State.storeUnit (unitAt 2) s1 0x10004000 bs).2.isNone | _ => false) = true ∧
    unitFree (unitAt 3) [(.write, 0x10004002, 2)] = true ∧
    (State.storeUnit (unitAt 3) (unitAt 3) 0x10004002 (marked [1, 2] false)).2.isNone = true ∧
    unitFree guarded [(.write, 0x10004000, 4)] = false := by decide
theorem witness_legal : CoreLegal State.reset.core ∧ Settled State.reset := by decide

/-! ### Witnesses: states, supplies, resets -/

/-- A device in an operating state with some domains, supply environment and carrier. -/
def opDev (st : Nat) (dom : Byte) (carrier : Bool) (vhold : Nat) : State :=
  on { dev [(F.SYS_STATE, st), (F.WH_STAT_MARK, 5)] with dom := dom, env := { Dev.reset.env with carrier := carrier, vhold := vhold } }
theorem witness_transitions :
    (opDev stDormant 3 true 5000).dev.alarming = false ∧ (opDev stDormant 3 true 5000).dev.opState = stDormant ∧
    1 ≤ (opDev stDormant 3 true 5000).dev.mark ∧ (opDev stDormant 3 true 5000).dev.calm ∧
    (opDev stDormant 3 true 5000).dev.on .isle = false ∧ (opDev stDormant 3 true 5000).dev.on .aon = true ∧
    (opDev stPassiveRead 7 false 0).dev.cst.job = none ∧ (opDev stPassiveRead 7 false 0).dev.on .isle = true ∧
    (opDev stPassiveRead 7 false 0).dev.calm ∧ 5 ≤ (opDev stPassiveRead 7 true 5000).dev.mark ∧
    (opDev stPassiveRun 0x8F true 2700).dev.opState = stPassiveRun ∧ (opDev stPassiveRun 0x8F false 0).dev.on .isle = true ∧
    (opDev stPassiveRun 0x8F true 2700).dev.flag F.WH_STAT_HOST_GOOD = true ∧
    (opDev stPassiveRun 0x8F true 2700).dev.hostSeen = true := by decide
/-- The same with the host's supplies away. -/
def quiet (st : Nat) (dom : Byte) (carrier : Bool) (vhold : Nat) : Dev := (opDev st dom carrier vhold).dev.put F.WH_STAT_HOST_GOOD 0
theorem witness_quiet_transitions : (quiet stDormant 3 true 5000).hostSeen = false ∧ (quiet stDormant 3 true 5000).opState = stDormant ∧
    1 ≤ (quiet stDormant 3 true 5000).mark ∧ (quiet stPassiveRead 7 false 0).hostSeen = false ∧
    (quiet stPassiveRead 7 false 0).opState = stPassiveRead ∧ 5 ≤ (quiet stPassiveRead 7 true 5000).mark ∧
    (quiet stPassiveRun 0x8F false 2800).hostSeen = false ∧ (quiet stPassiveRun 0x8F false 2800).env.carrier = false ∧
    2800 ≤ (quiet stPassiveRun 0x8F false 2800).env.vhold ∧ (quiet stPassiveRun 0x8F false 2800).on .isle = true ∧
    (quiet stPassiveRun 0x8F true 1699).env.vhold < 1700 ∧ 1700 ≤ (quiet stPassiveRun 0x8F false 1700).env.vhold ∧
    (quiet stPassiveRun 0x8F false 2799).env.vhold < 2800 ∧ (quiet stPassiveRun 0x8F false 2799).opState = stPassiveRun := by decide
def lostHost (carrier : Bool) : State :=
  on { (opDev stHost 0xFF carrier 5000).dev.put F.WH_STAT_HOST_GOOD 0 with laneV := LaneSt.reset }
theorem witness_host_loss : (∀ c ∈ [true, false], (lostHost c).dev.opState = stHost ∧ (lostHost c).dev.hostSeen = false ∧
    (lostHost c).dev.on .core = true ∧ (lostHost c).dev.on .isle = true ∧ (lostHost c).dev.cst.job = none ∧
    (lostHost c).dev.alarming = false) ∧ 1 ≤ (lostHost true).dev.mark := by decide
def anAlarm : AlarmRec := ⟨1, 0, 3, 0, 0, 0, 0, 0, 0, 0, 0, none⟩
def alarmed (recs : List AlarmRec) (st : Nat) : State :=
  on { (opDev st 0xFF false 0).dev with wellcap := { Dev.reset.wellcap with recs := recs } }
theorem witness_alarm : (alarmed [anAlarm] stHost).dev.wellcap.recs ≠ [] ∧ (alarmed [anAlarm] stHost).dev.opState ≠ stAlarm ∧
    (alarmed [] stAlarm).dev.opState = stAlarm ∧ (alarmed [] stAlarm).dev.cst.job = none ∧
    (alarmed [] stAlarm).dev.on .isle = true := by decide
theorem witness_clocks : (opDev stPassiveRun 0x8F true 2850).dev.opState = stPassiveRun ∧
    (opDev stPassiveRun 0x8F true 2850).dev.env.vhold < 2900 ∧ (dev []).on .pump = true ∧ (opDev 0 0 false 0).dev.on .aon = false ∧
    (opDev 0 0 false 0).dev.calm ∧ (dev []).calm ∧ (dev []).on .aon = true ∧ (dev []).on .core = true ∧ (dev []).pll = true ∧
    (dev []).on .isle = true := by decide
def unpowered : State := on { ((opDev stDormant 3 false 0).dev.put F.WH_STAT_HOST_GOOD 0).put F.WH_STAT_MARK 0 with dom := 3 }
theorem witness_supplies : (dev []).on .well = true ∧ (dev [(F.WH_STAT_HOST_GOOD, 0)]).flag F.WH_STAT_HOST_GOOD = false ∧
    (dev []).flag F.WH_STAT_HOST_GOOD = true ∧ unpowered.dev.on .aon = true ∧ unpowered.dev.aonSource = 0 ∧
    unpowered.dev.on .isle = false ∧ unpowered.dev.flashJob = none ∧ unpowered.dev.calm ∧
    ((dev []).setLink .a { (dev []).link .a with offPending := true }).on .linkA = true ∧
    ((dev []).setLink .a { (dev []).link .a with offPending := true }).egress .a = none ∧
    (((dev []).setLink .a { (dev []).link .a with offPending := true }).link .a).offPending = true ∧
    (∀ u ∈ [0, 5], (((dev []).setLink .a { (dev []).link .a with offPending := true, rxUntil := u }).link .a).rxUntil = u) ∧
    (dev []).now = 0 := by decide
theorem witness_power_requests : Arrives (dev []) 2 F.SYS_PWR_REQ_LINKA_ON.addr 3 ∧ Arrives (dev []) 2 F.SYS_PWR_REQ_LINKA_ON.addr 0 := by
  decide
theorem witness_resets : Arrives (dev []) 2 F.SYS_CORE_RESET_KEY.addr 0xA55A ∧ (dev []).sbuf = [] ∧
    Arrives (dev []) 2 F.SYS_DEV_RESET_KEY.addr 0x5AA5 ∧ (dev []).resetReq = none ∧
    { (opDev stPassiveRun 0x8F true 4000).dev with resetReq := some 4 }.resetReq = some 4 ∧
    (opDev stPassiveRun 0x8F true 4000).dev.alarming = false ∧ (opDev stPassiveRun 0x8F true 4000).dev.opState ≠ stHost ∧
    (dev []).owner 0x40 ≠ 12 := by decide
/-- Claims of a free and of another's resource, of no resource, of a fixed one, and one on master 5's behalf. -/
theorem witness_ownership :
    (∀ r ∈ [0x40, 0xFF, 0], Arrives (dev []) 2 F.SYS_OWN_CLAIM_RES.addr (0x1F0100 + r)) ∧
    Arrives (dev []) 2 F.SYS_OWN_CLAIM_RES.addr 0x1F0240 ∧ Arrives (dev []) 2 F.SYS_OWN_CLAIM_RES.addr 0x1F0340 ∧
    Arrives (dev []) 2 F.SYS_OWN_CLAIM_RES.addr 0x050140 := by decide
theorem witness_owners : resourceInit 0xFF = none ∧ (resourceInit 0x40).isSome = true ∧ (port 2 (dev [])).owner 0x40 = 2 ∧
    (dev []).owner 0x40 = ownFree ∧ (dev []).owner 0x30 = 11 ∧ resourceInit 0x48 = some (ownHW, false) := by decide
theorem witness_fields : (fieldsAt F.SYS_OWN_CLAIM_RES.addr) ≠ [] ∧ (∃ f ∈ fieldsAt F.SYS_STATE.addr, f.acc = .ro) ∧
    (∃ f ∈ fieldsAt F.CE_PAGE_GRANT_LO_GRANT.addr, f.acc = .rw ∧ f.owner.reached (masterLevel 2) = true) := by decide
def aonAddr : Nat := F.EVT_CFG_CLASS_EN.addr
theorem witness_register_access : isRegAddr F.CE_PAGE_GRANT_LO_GRANT.addr = true ∧
    Arrives (dev []) 2 F.CE_PAGE_GRANT_LO_GRANT.addr 2 ∧ isAonReg F.CE_PAGE_GRANT_LO_GRANT.addr = false ∧
    noAbort ((dev []).regEffect 2 F.CE_PAGE_GRANT_LO_GRANT.addr 2) ∧ ((dev []).regEffect 2 F.CE_PAGE_GRANT_LO_GRANT.addr 2).calm ∧
    Arrives (dev []) 2 aonAddr 2 ∧ isAonReg aonAddr = true ∧ (dev []).aonPend = [] ∧
    ((dev []).regEffect 2 aonAddr 2).calm ∧
    (Dev.regEffect { dev [] with aonPend := [] } 2 aonAddr 2).calm := by decide
/-- An AON store on its way, and another behind it. -/
def onItsWay : Dev := { dev [] with aonPend := [⟨aonAddr, 2, 2, 0⟩, ⟨aonAddr + 4, 3, 2, 0⟩] }
theorem witness_aon_store : (∀ y ∈ [(⟨aonAddr + 4, 3, 2, 0⟩ : AonStore)], y.addr ≠ aonAddr) ∧
    (Dev.regEffect { onItsWay with aonPend := [⟨aonAddr + 4, 3, 2, 0⟩] } 2 aonAddr 2).calm ∧
    (∀ x ∈ onItsWay.aonPend, x.addr ≠ ctxWord 3 0x80) ∧ ∀ k < 8, onItsWay.ctxChk (ctxWord 3 0x80 + k) = 0 := by decide
theorem witness_latch : isRegAddr (ctxWord 3 0x80) = true ∧ Arrives (dev []) 2 (ctxWord 3 0x80) 0 ∧
    (dev []).highOf 2 (ctxWord 3 0x80) = none ∧ (dev []).reachCheck 2 .read (ctxWord 3 0x80) = (dev [], true) ∧
    (dev []).slaveCheck (dev []).epoch 2 false .read (ctxWord 3 0x80) = (dev [], .ok) := by decide

/-! ### Witnesses: the contactless side -/

/-- A device in its carrier, its contactless configuration loaded, the Cistern port in Handpump's reach; a layer and a protocol in use. -/
def rf (layer proto : Nat) (f : Hp → Hp) : State :=
  on { dev [(F.WH_STAT_MARK, 5), (F.RFIF_STAT_LAYER, layer), (F.RFIF_STAT_PROTO, proto), (⟨0x40030064, 31, 0⟩, 0xFFFFFFFF)] with
    env := { Dev.reset.env with carrier := true, vhold := 4000 }, hp := f { Hp.reset with loaded := true } }
/-- A device with the random UID of R330. -/
def random (h : Hp) : Hp := { h with cfg6 := [0x0F, 3, 4], rnd := [8, 1, 2, 3] }
theorem witness_field : (rf 0 0 id).dev.calm ∧ (rf 0 0 id).dev.on .isle = true ∧ (rf 0 0 id).dev.env.carrier = true ∧
    (dev []).env.carrier = false := by decide
theorem witness_typeA : (rf lyIDLE 0 id).dev.answers = true ∧ (rf lyHALT 1 id).dev.hp.typeA = true ∧
    (rf lyREADY 1 random).dev.hp.randomUid = true ∧ (rf lyREADY 1 random).dev.hp.level = 0 ∧
    ([0x08, 1, 2, 3] : Bytes).length = 4 ∧ (rf lyACTIVE 1 id).dev.layer = lyACTIVE ∧
    (rf lyPROTOCOL 1 fun h => { h with fresh := true }).dev.hp.fresh = true ∧
    (0x05 : Byte).toNat % 4 ≤ (rf lyPROTOCOL 1 id).dev.hp.maxRate ∧ (rf lyREADY 1 id).dev.hp.randomUid = false := by decide
theorem witness_typeB : (rf lyIDLE 0 id).dev.hp.typeB = true ∧ (rf lyREADY 2 id).dev.proto = 2 ∧ (rf lyHALT 2 id).dev.layer = lyHALT ∧
    (0xA0 : Byte).toNat / 64 ≤ (rf lyREADY 2 id).dev.hp.maxRate ∧ (rf lyREADY 2 id).dev.answers = true := by decide
theorem witness_halts : (rf lyPROTOCOL 1 id).dev.answers = true ∧ (rf lyREADY 2 id).dev.layer = lyREADY ∧
    (rf lyIDLE 0 id).dev.hp.v15693 = true := by decide
theorem witness_vicinity : (rf lyREADY 3 id).dev.vMeant .nonAddressed = some false ∧ 2 ≤ (rf lyREADY 3 id).dev.tier ∧
    (rf lyREADY 3 id).dev.alarming = false ∧ (rf lyREADY 3 id).dev.owner 0x40 = ownFree ∧ CstIdle (rf lyREADY 3 id).dev ∧
    parseApdu [0, 0xA4, 4, 0, 2, 0xE1, 3] = some ⟨0, 0xA4, 4, 0, [0xE1, 3], 256, false⟩ ∧
    (rf lyREADY 3 id).dev.implemented ⟨0, 0xA4, 4, 0, [0xD2, 0x76, 0x00, 0x00, 0x85, 0x01, 0x01], 256, false⟩ = true := by decide
/-- Handpump reaches the Cistern port where its bit of ACCESS_REACH is set and ISLE is on; the fixed rule of R232 grants the rest. -/
theorem portOpen_of (d : Dev) (h1 : d.reachRefuses 12 F.CST_CMD_OP.addr = none) (h2 : d.on .isle = true) : PortOpen d := by
  intro own hp
  have r : Dev.reachRefuses { d with own := own, hp := hp } 12 F.CST_CMD_OP.addr = none := h1
  have o : Dev.on { d with own := own, hp := hp } (addrDomain F.CST_CMD_OP.addr) = true := h2
  have c : decoded F.CST_CMD_OP.addr = true := by decide
  have x : fixedRule 12 false .write F.CST_CMD_OP.addr = some true := by decide
  simp [Dev.portReached, Dev.reachCheck, r, Dev.slaveCheck, o, c, Dev.fwJudge, x]
theorem witness_port_open : PortOpen (rf lyREADY 3 id).dev := portOpen_of _ (by decide) (by decide)
theorem witness_port_open_used : PortOpen ((rf lyREADY 3 id).dev.put F.RFIF_STAT_PROTO 3) :=
  portOpen_of _ (by decide) (by decide)
theorem witness_slots_clean : ∀ k, ((rf lyREADY 3 id).dev.slot k).chk = [] := fun _ => rfl
/-- The NDEF file of an empty Cistern is short, and a block of it and one beyond it exist. -/
theorem witness_vicinity_blocks : 0 < min 252 (((rf lyREADY 3 id).dev.ndefFile.length + 3) / 4) ∧
    min 252 (((rf lyREADY 3 id).dev.ndefFile.length + 3) / 4) ≤ (255 : Byte).toNat := by decide
def blocked : State := rf lyPROTOCOL 1 fun h => { h with rest := [1, 2, 3], lastBlock := [2], wtxOpen := true }
/-- The chip in the LISTEN tier, and with a command owed. -/
def listening : State := { rf lyPROTOCOL 1 id with dev := (rf lyPROTOCOL 1 id).dev.put F.WH_STAT_MARK 1 }
theorem witness_listening : listening.dev.inProtocol = true ∧ listening.dev.tier < 2 ∧ listening.dev.owed = false ∧
    (rf lyPROTOCOL 1 fun h => { h with held := some (false, []), reload := true }).dev.owed = true ∧
    blocked.dev.hp.wtxCount < blocked.dev.get F.RFIF_FW_CFG_WTX_MAX := by decide
theorem witness_blocks : blocked.dev.inProtocol = true ∧ blocked.dev.hp.rest ≠ [] ∧ blocked.dev.hp.lastBlock ≠ [] ∧
    blocked.dev.hp.wtxOpen = true ∧ (rf lyPROTOCOL 1 id).dev.hp.rest = [] ∧
    2 ≤ (rf lyPROTOCOL 1 id).dev.tier ∧ (rf lyPROTOCOL 1 id).dev.alarming = false ∧
    (rf lyPROTOCOL 1 fun h => { h with app := 1 }).dev.implemented ⟨0, 0xB0, 0, 0, [], 256, false⟩ = true ∧
    parseApdu [0, 0xB0, 0, 0, 0] = some ⟨0, 0xB0, 0, 0, [], 256, false⟩ := by decide

def apdu (ins p1 p2 : Nat) (data : Bytes) : Apdu := ⟨if ins < 0x40 then 0x80 else 0, ins, p1, p2, data, 256, false⟩
def working (a : Apdu) (f : Hp → Hp) : State :=
  rf lyPROTOCOL 1 fun h => f { h with apdu := some a, app := if a.cla = 0 then 1 else 2 }
theorem witness_apdus :
    ApduRuns (working (apdu 0xA4 4 0 [0xD2, 0x76, 0x00, 0x00, 0x85, 0x01, 0x01]) id).dev
      (apdu 0xA4 4 0 [0xD2, 0x76, 0x00, 0x00, 0x85, 0x01, 0x01]) 0xA4 ∧
    ApduRuns (working (apdu 0xA4 0 0x0C [0xE1, 3]) id).dev (apdu 0xA4 0 0x0C [0xE1, 3]) 0xA4 ∧
    ApduRuns (working (apdu 0xB0 0 2 []) fun h => { h with file := some [1, 2] }).dev (apdu 0xB0 0 2 []) 0xB0 ∧
    ApduRuns (working (apdu 0xD6 0 0 [1]) id).dev (apdu 0xD6 0 0 [1]) 0xD6 ∧
    ApduRuns (working (apdu 0x10 0 0 []) id).dev (apdu 0x10 0 0 []) 0x10 := by decide
def aKey : SecKeys := secKeys 0 (List.replicate 16 1) (List.replicate 16 2) (List.replicate 16 3)
def keyed : Dev :=
  { (working (apdu 0x20 0 0 (List.replicate 16 0)) fun h => { h with cfg5 := [1, 0xFF, 0xFF, 0xFF, 0, 0xFF] }).dev with
    slots := [(1, { KeySlot.empty with typ := 1, usage := 0x80, key := List.replicate 16 1 })] }
theorem witness_sessions : ApduRuns keyed (apdu 0x20 0 0 (List.replicate 16 0)) 0x20 ∧ (keyed.channelKey 0).isSome = true ∧
    keyed.evt.esn + 1 < 2 ^ 48 ∧
    ApduRuns (working (apdu 0x22 0 0 (List.replicate 16 0)) fun h => { h with auth := some aKey }).dev
      (apdu 0x22 0 0 (List.replicate 16 0)) 0x22 := by decide

/-- A Cistern with records: parameter 16, counter 0 at 1, a record of ring 0 with SEQ 5, and an alarm record with SEQ 3. -/
def paramRec : CRec := ⟨1, 1, 4, 7, 0, 16, [1, 2, 3, 4]⟩
def logRec : CRec := ⟨0x10, 0, 4, 5, 9, 0, [5, 6, 7, 8]⟩
def alarmRec : CRec := ⟨4, 0, 4, 3, 8, 0, [1, 1, 1, 1]⟩
def cistern (d : Dev) : Dev :=
  let d1 := d.nvmPut true (128 * 1056) paramRec.words
  let d2 := d1.nvmPut true (128 * 80) (CRec.words ⟨2, 0, 4, 1, 0, 0, [0, 0, 0, 0]⟩)
  let d3 := d2.nvmPut true (128 * 82) [thermoHeader 0 0, 0]
  let d4 := d3.nvmPut true (128 * 176) logRec.words
  let d5 := d4.nvmPut true (128 * 16) alarmRec.words
  { d5 with cst := { d5.cst with rings := [⟨176, 2, 0, 1, 5, 1, 0, 0, 0⟩], aPage := 0, aSlot := 1, aSeq := 3 } }
theorem witness_array : (cistern (dev [])).param 16 = .one paramRec false ∧ (cistern (dev [])).counter 0 = some (1, 0, false) ∧
    (cistern (dev [])).ringRecs 0 = [logRec] ∧ (cistern (dev [])).alarmRecs = [alarmRec] := by decide
def reading (ins p1 p2 : Nat) (data : Bytes) : Dev :=
  cistern (working (apdu ins p1 p2 data) fun h => { h with cfg5 := [0xFF, 0xFF, 0xFF, 0xFF, 1, 0xFF] }).dev
theorem witness_reading_open : PortOpen (reading 0x30 0 16 [0, 0]) := portOpen_of _ (by decide) (by decide)
theorem witness_reading : ApduRuns (reading 0x30 0 16 [0, 0]) (apdu 0x30 0 16 [0, 0]) 0x30 ∧
    (reading 0x30 0 16 [0, 0]).param 16 = .one paramRec false ∧
    ApduRuns (reading 0x32 0 0 []) (apdu 0x32 0 0 []) 0x32 ∧ (reading 0x32 0 0 []).counter 0 = some (1, 0, false) ∧
    (reading 0x32 0 0 []).high 0 = .one ⟨2, 0, 4, 1, 0, 0, [0, 0, 0, 0]⟩ false ∧ CstIdle (reading 0x32 0 0 []) ∧
    (reading 0x32 0 0 []).owner 0x40 = ownFree := by decide
theorem witness_reading_log : ApduRuns (reading 0x34 0 0 [0, 0, 0, 5]) (apdu 0x34 0 0 [0, 0, 0, 5]) 0x34 ∧
    bitAt (byteAt (reading 0x34 0 0 [0, 0, 0, 5]).hp.cfg5 4) 0 = true ∧
    (reading 0x34 0 0 [0, 0, 0, 5]).ringRecs 0 = [logRec] ∧ beNat [0, 0, 0, 5] = logRec.seq ∧
    ApduRuns (reading 0x36 0 0 [0, 0, 0, 3]) (apdu 0x36 0 0 [0, 0, 0, 3]) 0x36 ∧
    (reading 0x36 0 0 [0, 0, 0, 3]).alarmRecs = [alarmRec] ∧ beNat [0, 0, 0, 3] = alarmRec.seq := by decide
def sending : Dev := (rf lyPROTOCOL 1 fun h => { h with out := some ⟨.block, [2, 0x90, 0], true, false, true⟩ }).dev
def firmware : Dev :=
  (opened 14 0x400B0000 0x400BFFFF (rf lyPROTOCOL 1 fun h => { h with fw := some ⟨apdu 0x80 0 0 [], [0, 0, 0, 0x80, 0, 0, 0, 1], 0, 0⟩ }).dev).put
    F.RFIF_FW_CFG_WTX_MAX 1
theorem witness_frames : (sending.askEnergy .response 1 (sending.frameBudget 5)).2 = true ∧ firmware.inProtocol = true ∧
    firmware.hp.wtxCount < firmware.get F.RFIF_FW_CFG_WTX_MAX ∧ firmware.owner 0x40 ≠ 12 ∧
    firmware.now ≤ 0 + firmware.get F.RFIF_FW_CFG_TMO_MS * 10 ^ 6 ∧
    0 + firmware.get F.RFIF_FW_CFG_TMO_MS * 10 ^ 6 < { firmware with now := 10 ^ 12 }.now ∧ firmware.aonPend = [] ∧
    Arrives firmware 2 F.RFIF_FW_RESP_SW.addr 0x90000000 ∧ Arrives firmware 2 F.RFIF_FW_RESP_SW.addr 0x90000008 ∧
    4096000 * 2 ^ firmware.hp.fwi * firmware.hp.wtxPrev * 20 < (10 ^ 12 - firmware.hp.wtxAt) * 339 ∧ firmware.reachCheck 2 .read F.RFIF_FW_DATA_DATA.addr = (firmware, true) ∧
    firmware.slaveCheck firmware.epoch 2 false .read F.RFIF_FW_DATA_DATA.addr = (firmware, .ok) := by decide
theorem witness_config : (cistern (dev [])).on .isle = true ∧ (cistern (dev [])).hp.loaded = false ∧
    (cistern (dev [])).cst.due = false ∧
    Arrives (rf 3 1 id).dev 2 F.RFIF_CTL_RELOAD.addr (((rf 3 1 id).dev.reg F.RFIF_CTL_RELOAD.addr ||| 4).toNat) ∧
    Arrives sending 2 F.RFIF_CTL_RELOAD.addr ((sending.reg F.RFIF_CTL_RELOAD.addr ||| 4).toNat) ∧ sending.hp.out ≠ none := by decide

/-! ### Witnesses: ports and lanes -/

/-- A port at a step of its start-up. -/
def linkAt (p : Port) (x : LinkStep) (l : List (Fl × Nat)) : State := on ((dev l).setLink p { (dev l).link p with step := x })
theorem witness_links : (linkAt .a .pcs []).dev.on .linkA = true ∧ ((linkAt .a .pcs []).dev.link .a).step = .pcs ∧
    (linkAt .b .pcs [(portField .b F.LINK_CTRL_AN_EN, 1)]).dev.get (portField .b F.LINK_CTRL_AN_EN) = 1 ∧
    (linkAt .b .pcs [(portField .b F.LINK_CTRL_AN_EN, 0)]).dev.get (portField .b F.LINK_CTRL_AN_EN) = 0 ∧
    ((linkAt .b .autoneg []).dev.link .b).step = .autoneg ∧ ((linkAt .a .serdes []).dev.link .a).step = .serdes ∧
    (linkAt .a .pcs []).dev.calm := by decide
/-- A port whose present step began at 0, at the time `now`. -/
def linkAged (x : LinkStep) (now : Nat) (an : Nat) : Dev :=
  { (linkAt .a x [(portField .a F.LINK_CTRL_AN_EN, an)]).dev with now := now }
theorem witness_link_timers : (linkAged .serdes 100000 0).now ≤ ((linkAged .serdes 100000 0).link .a).stepAt + 100000 ∧
    ((linkAged .serdes 100001 0).link .a).stepAt + 100000 < (linkAged .serdes 100001 0).now ∧
    ((linkAged .pcs 20001 0).link .a).stepAt + 20000 < (linkAged .pcs 20001 0).now ∧
    (∀ an ∈ [0, 1], ((linkAged .autoneg 10000001 an).link .a).stepAt + 10000000 < (linkAged .autoneg 10000001 an).now ∧
      (linkAged .autoneg 10000001 an).get (portField .a F.LINK_CTRL_AN_EN) = an) ∧
    ((linkAged .up 50000001 0).link .a).actAt + 50000000 < (linkAged .up 50000001 0).now := by decide
def linkCtrl : Nat := (portField .a F.LINK_CTRL_MODE).addr
theorem witness_restarts : (linkAt .a .up []).dev.egress .a = none ∧ ((linkAt .a .up []).dev.link .a).step = .up ∧
    Arrives (linkAt .a .up []).dev 2 linkCtrl (((linkAt .a .up []).dev.reg linkCtrl ||| 0x10).toNat) ∧
    (linkAt .a .up []).dev.get F.LINK_CTRL_FORCE_SPEED ≤ 2 ∧ Arrives (linkAt .a .up []).dev 2 linkCtrl 1 ∧
    Arrives (linkAt .a .up []).dev 2 linkCtrl 0 := by decide

/-- A frame of 64 bytes with its FCS. -/
def body0 (da etype : Nat) : Bytes := leBytes 6 da ++ List.replicate 6 2 ++ beBytes 2 etype ++ List.replicate 46 0
def rx0 (da etype : Nat) : RxFrame := { frame0 with bytes := body0 da etype ++ leBytes 4 (crc32 (body0 da etype)) }
def up (l : List (Fl × Nat)) : Dev :=
  dev (l ++ [(portField .a F.LINK_STAT_LINK_UP, 1), (portField .b F.LINK_STAT_LINK_UP, 1)])
def laneOf (f : LaneSt → LaneSt) (d : Dev) : Dev := { d with laneV := f d.laneV, laneT := f d.laneT }
def laneF (x : Fl) : Fl := laneField .verify x
theorem witness_enter : (up []).linkUp .a = true ∧ (up []).linkUp .b = true ∧ isMacControl (rx0 1 0x8808).bytes = true ∧
    isMacControl (rx0 1 0x88B8).bytes = false ∧ (up []).laneState .verify ≠ laneRESTART ∧
    (up []).laneState .verify ≠ laneCATCH_UP ∧ (up []).laneState .verify ≠ laneFAILED ∧ (up []).filled[1] = true ∧
    (up [(laneF F.LANE_CFG_ENABLE, 1)]).flag (laneF F.LANE_CFG_ENABLE) = true ∧
    (up []).flag (laneF F.LANE_CFG_ENABLE) = false ∧ (up [(laneF F.LANE_STAT_STATE, laneFAILED)]).laneState .verify = laneFAILED ∧
    (up []).isMgmt .tag (rx0 1 0x88B8).body = false ∧ ((up []).lane .verify).bufferUsed + 1536 ≤ 4096 := by decide
def frameAt (rx : RxFrame) : Frame := newFrame 0 rx (0, 0)
def full : Dev := laneOf (fun x => { x with frames := [{ frame0 with bytes := List.replicate 1400 0 },
  { frame0 with bytes := List.replicate 1400 0 }].map frameAt }) (up [(laneF F.LANE_CFG_ENABLE, 1)])
theorem witness_full : 4096 < (full.lane .verify).bufferUsed + 1536 := by decide

/-- Context 3 matches the EtherType 0x88B8 in the verify lane, with an action; a frame waits for its lookup. -/
def classed (action : Nat) (f : Frame) : Dev :=
  laneOf (fun x => { x with frames := [f], cache := [⟨5, 2, 1, List.replicate 16 1⟩] }) (up
    [(ctxField 3 F.CTX_VALID, 1), (ctxField 3 F.CTX_ETYPE_EN, 1), (ctxField 3 F.CTX_ETYPE, 0x88B8), (ctxField 3 F.CTX_ACTION, action),
     (epField 3 false F.CTX_EP_STATE, 2), (epField 3 false F.CTX_EP_ALG, 2), (epField 3 false F.CTX_EP_CE_SLOT, 5),
     (F.BKT_PART_HOLD_SLOTS, 4)])
def looked (a : Nat) (verify : Bool) (rx : RxFrame) : Frame :=
  { frameAt rx with looked := true, action := a, verify := verify, stream := if verify then some 3 else none, elig0 := true }
theorem witness_lookup :
    (classed 0 (frameAt (rx0 1 0x88B8))).classify .verify (rx0 1 0x88B8).body = some 3 ∧
    (classed 0 (frameAt (rx0 1 0x88B8))).frame .verify 0 = some (frameAt (rx0 1 0x88B8)) ∧
    (classed 3 (frameAt (rx0 1 0x88B8))).ctx 3 F.CTX_ACTION = 3 ∧ actionOk .verify 3 = true ∧ actionOk .verify 1 = false ∧
    (classed 3 (frameAt (rx0 1 0x88B8))).freeHold = some 0 ∧ isPtp (rx0 1 0x88B8).bytes = false ∧
    (classed 0 (frameAt (rx0 1 0x1234))).classify .verify (rx0 1 0x1234).body = none ∧
    (classed 0 (frameAt (rx0 1 0x1234))).get (laneF F.LANE_CFG_NOMATCH) = 6 ∧
    ((classed 0 (frameAt (rx0 1 0x88B8))).lane .verify).saf = false := by decide

/-- A frame that waits for its lookup in the tag lane, whose context 3 has the current epoch 0 with a count. -/
def tagging (rx : RxFrame) (count : Nat) (state : Nat) : Dev :=
  (classed 1 (frameAt rx)).put (epField 3 false F.CTX_EP_COUNT) count |>.put (epField 3 false F.CTX_EP_STATE) state |>.put
    (ctxField 3 F.CTX_LANE) 1
theorem witness_tag : (tagging (rx0 1 0x88B8) 4 2).classify .tag (rx0 1 0x88B8).body = some 3 ∧
    (∀ k < 256, (tagging (rx0 1 0x88B8) 4 2).ctxChk (ctxWord 3 k) = 0) ∧
    (tagging (rx0 1 0x88B8) 4 2).ctx 3 F.CTX_ACTION = 1 ∧ (frameAt (rx0 1 0x88B8)).tagSlot = none ∧
    (tagging (rx0 1 0x88B8) 4 2).tagChoice 3 (ptp62 0 0) = some false ∧ (tagging (rx0 1 0x88B8) 4 0).tagChoice 3 (ptp62 0 0) = none ∧
    (tagging (rx0 1 0x88B8) 4 2).ep 3 false F.CTX_EP_COUNT + (tagging (rx0 1 0x88B8) 4 2).tagAhead 3 false 0 < 0xFFFFFFFF ∧
    ¬ (tagging (rx0 1 0x88B8) 0xFFFFFFFF 2).ep 3 false F.CTX_EP_COUNT + (tagging (rx0 1 0x88B8) 0xFFFFFFFF 2).tagAhead 3 false 0 <
      0xFFFFFFFF ∧ isGoose (rx0 1 0x88B8).bytes = true ∧ isSv (rx0 1 0x1234).bytes = false := by decide

/-- A GOOSE frame of 64 bytes: its value is at 52 to 59, over the bytes before it. -/
def goose (st sq : Nat) (value : Bytes) : RxFrame :=
  let b := (body0 1 0x88B8).take 52 ++ value
  ⟨b ++ leBytes 4 0, none, false, false, ⟨true, 52, some ⟨some 2, 14, 22, 52, 8, List.replicate 12 7⟩, some (BitVec.ofNat 32 st),
    some (BitVec.ofNat 32 sq), []⟩⟩
def gooseMac : Bytes := authValue 2 (List.replicate 16 1) (List.replicate 12 7) (slice (goose 1 1 []).bytes 14 8)
def judged (f : Frame) : Dev := classed 3 f
def verdictMet (f : Frame) : Bool :=
  ((judged f).frame .verify 0).isSome && !formatBad f.rx && judgeable f.rx && f.shape == 0 && (judged f).usable f 3 == [false] &&
    (match f.rx.deep.ext with
      | some x => (judged f).valueMatches .verify f 3 x false &&
        x.alg.any (fun a => a.val == (judged f).ep 3 false F.CTX_EP_ALG && x.valLen == valueLen a.val)
      | none => false)
theorem witness_verdict : verdictMet (looked 3 true (goose 1 1 gooseMac)) = true := by decide
theorem witness_verdict_errors : formatEarly frame0 = true ∧ formatEarly (goose 1 1 []) = false ∧ formatLate (goose 1 1 []) = true ∧
    (judged (looked 3 true (goose 1 1 []))).verdictFirst .verify (looked 3 true (goose 1 1 []))
      ⟨some 2, 14, 22, 52, 8, List.replicate 12 7⟩ = false ∧
    (judged { looked 3 true (goose 1 1 gooseMac) with elig0 := false }).usable
      { looked 3 true (goose 1 1 gooseMac) with elig0 := false } 3 = [] ∧
    (judged (looked 3 true (goose 1 1 (List.replicate 8 9)))).valueMatches .verify (looked 3 true (goose 1 1 (List.replicate 8 9))) 3
      ⟨some 2, 14, 22, 52, 8, List.replicate 12 7⟩ false = false ∧
    (classed 3 (looked 3 true (goose 1 1 []))).epState 3 false = epCURRENT := by decide
/-- Context 3 has accepted stNum 1 and sqNum 1, so the same counters are a replay, with a right value. -/
def replayed : Dev := (judged (looked 3 true (goose 1 1 gooseMac))).setWin 3 ⟨true, 1, 1, 1, 0, 0⟩
theorem witness_replay : replayed.judgeFrame .verify 3 (looked 3 true (goose 1 1 gooseMac)) (1, 1) = .replay ∧
    seqOf (goose 1 1 gooseMac) = some (1, 1) := by decide
theorem witness_algorithm :
    ((judged (looked 3 true (goose 1 1 gooseMac))).put (epField 3 false F.CTX_EP_ALG) 4).ep 3 false F.CTX_EP_ALG ≠ 2 := by decide
theorem witness_goose : dist32 4 9 < 0 ∧ 0 < dist32 9 4 ∧ dist32 4 4 = 0 ∧ dist32 3 67 = -64 ∧
    dist32 4 67 = -63 ∧ judgeGoose ⟨true, 67, 5, 1, 0, 0⟩ 5 4 (0, 0) = .fresh ⟨true, 67, 5, 2 ^ 63 + 1, 0, 0⟩ cREORDER 0 := by decide

def failing (st : Stage) : Dev :=
  { (classed 3 { frameAt frame0 with looked := true, stage := st }).put (laneF F.LANE_STAT_STATE)
      (if st = .reserve then laneCATCH_UP else laneRUN) with
    egressB := if st = .egress then some ⟨.lane .verify 0, frame0.bytes, none, [], false, (0, 0)⟩ else none }
theorem witness_failures : (∀ st ∈ [Stage.input, .held, .reserve, .divert, .egress], ((failing st).frame .verify 0).map Frame.stage = some st) ∧
    (failing .reserve).laneState .verify = laneCATCH_UP ∧ (failing .input).failureIs (frameAt frame0) .fcs = true ∧ (frameAt frame0).reported = false ∧ (failing .input).frame .verify 0 ≠ none ∧ (failing .input).calm ∧
    (failing .egress).egress (Lane.egress .verify) = some ⟨.lane .verify 0, frame0.bytes, none, [], false, (0, 0)⟩ := by decide
def leaving (a : Nat) (st : Stage) : Dev := classed a { looked a false (rx0 1 0x1234) with stage := st, verdict := true }
/-- The held frame lies in hold slot 0. -/
def heldFrame : Frame := { looked 0 false (rx0 1 0x1234) with stage := .held, verdict := true, slot := some 0 }
def holding (p : Bool) : Dev := (classed 0 heldFrame).ramPutAll (slotAddr 0) (marked heldFrame.rx.body p)
theorem witness_release : (holding false).releasable .verify heldFrame = true ∧ (holding false).cutReady .verify = none ∧
    (holding false).stagedFrom 5 = none ∧ (holding false).linkUp (Lane.egress .verify) = true ∧
    (holding false).memRead 11 (slotAddr 0) heldFrame.rx.body.length = (holding false, marked heldFrame.rx.body false) ∧
    anyPoison ((holding true).memRead 11 (slotAddr 0) heldFrame.rx.body.length).2 = true := by decide
def sentFrame (a : Nat) : Frame := { looked a false (rx0 1 0x1234) with stage := .egress, verdict := true }
theorem witness_commit : (sentFrame 0).failed = none ∧ macFail (sentFrame 0).rx = none ∧ (sentFrame 0).verify = false ∧
    (classed 0 (sentFrame 0)).poisonAt (sentFrame 0) = none ∧ (sentFrame 6).action = 6 ∧ (sentFrame 6).looked = true := by decide
theorem witness_rewritten : etypeAt (goose 1 1 gooseMac).body + 10 ≤ (goose 1 1 gooseMac).deep.apduEnd ∧
    (goose 1 1 gooseMac).deep.apduEnd ≤ (goose 1 1 gooseMac).body.length := by decide
theorem witness_leave : macFail (rx0 1 0x1234) = none ∧
    (leaving 0 .input).cutReady .verify = some { looked 0 false (rx0 1 0x1234) with verdict := true } ∧
    (leaving 0 .input).linkUp (Lane.egress .verify) = true ∧ (leaving 0 .input).egress (Lane.egress .verify) = none ∧
    (Lane.egress .verify).laneTo = .verify ∧
    (leaving 0 .held).releasable .verify { looked 0 false (rx0 1 0x1234) with stage := .held, verdict := true } = true ∧
    (leaving 0 .held).cutReady .verify = none ∧ (leaving 0 .held).stagedFrom 5 = none := by decide
def laneIn (st : Nat) (en : Nat) (f : LaneSt → LaneSt) : Dev :=
  laneOf f (dev [(laneF F.LANE_STAT_STATE, st), (laneF F.LANE_CFG_ENABLE, en)])
theorem witness_lanes : Arrives (laneIn laneOFF 0 id) 2 (laneF F.LANE_CFG_ENABLE).addr 1 ∧ (laneIn laneOFF 0 id).laneState .verify = laneOFF ∧
    (laneIn laneRUN 0 fun x => { x with open_ := true }).laneState .verify = laneRUN ∧
    ((laneIn laneRUN 0 fun x => { x with open_ := true }).lane .verify).open_ = true ∧
    ((laneIn laneRUN 1 fun x => { x with mismatches := [0, 0] }).recentMismatches .verify).length = 2 ∧
    (laneIn laneRUN 1 id).laneState .verify ≠ laneFAILED ∧ ((laneIn laneRESTART 1 id).lane .verify).waitRestart = false ∧
    (laneIn laneRESTART 1 id).laneState .verify = laneRESTART ∧ (laneIn laneCATCH_UP 0 id).reserve = [] := by decide
theorem witness_snap : Arrives (dev []) 2 (laneF F.CNT_CTL_OP).addr 1 ∧ Arrives (dev []) 2 (laneF F.CNT_CTL_OP).addr 2 := by decide

/-! ### Witnesses: contexts and keys -/

theorem witness_contexts : (∀ k ∈ [1, 2, 3, 4], Arrives (dev []) 2 F.CTX_CMD_OP.addr (k * 2 ^ 16 + 1023)) ∧
    (classed 3 (looked 3 true frame0)).inFlight 3 = true ∧ (classed 3 (frameAt frame0)).inFlight 3 = false ∧
    (dev []).validCtx = [] := by decide
def twinCtx : Dev := ((((classed 3 (frameAt frame0)).put (ctxField 4 F.CTX_ETYPE_EN) 1).put (ctxField 4 F.CTX_ETYPE) 0x88B8))
theorem witness_duplicate : (3 : Fin 1024) ∈ twinCtx.validCtx ∧ twinCtx.ctxSame 4 3 = true := by decide
def keyDev (l : List (Fl × Nat)) (c : Option KeyCmd) : Dev :=
  { dev l with keyCmd := c, tu := { Dev.reset.tu with sec := 100, edges := 768 }
               slots := [(5, { KeySlot.empty with typ := 1, usage := 0x40, key := List.replicate 16 1 })] }
theorem witness_key_commands : (keyDev [] none).keyCmd = none ∧
    (∀ k ∈ [0x05210003, 0x05220003, 0x00030003, 0x00040003], Arrives (keyDev [] none) 2 F.PK_KEY_CMD_OP.addr k) := by decide
def cur : List (Fl × Nat) := [(epField 3 false F.CTX_EP_STATE, 2), (ctxField 3 F.CTX_SW_CUR, 0)]
def armed (sec : Nat) : List (Fl × Nat) := cur ++ [(epField 3 true F.CTX_EP_STATE, 1), (ctxField 3 F.CTX_SW_SEC, sec)]
def keyCmd (op : Nat) : KeyCmd := ⟨op, 2, 5, 3, 9, 200, 0⟩
theorem witness_key_done : (keyDev [] (some (keyCmd 1))).keyRefused (keyCmd 1) = false ∧
    (keyDev [] (some (keyCmd 1))).epState 3 false = epVACANT ∧
    (keyDev cur (some (keyCmd 2))).epState 3 false = epCURRENT ∧ (keyDev cur (some (keyCmd 2))).epState 3 true = epVACANT ∧
    (keyDev cur (some (keyCmd 2))).time62 + 100000 + (keyDev cur (some (keyCmd 2))).wPre 3 ≤ 200 * 10 ^ 9 ∧
    (keyDev (armed 300) (some (keyCmd 3))).epState 3 true = epARMED ∧
    (keyDev (armed 300) (some (keyCmd 3))).time62 + (keyDev (armed 300) (some (keyCmd 3))).wPre 3 <
      (keyDev (armed 300) (some (keyCmd 3))).tSw 3 ∧
    (keyDev cur (some (keyCmd 4))).epInUse 3 true = false ∧ ((keyDev cur (some (keyCmd 4))).slot 5).chk = [] ∧
    (keyDev cur (some (keyCmd 4))).epInUse 3 false = false ∧ (keyDev cur (some (keyCmd 4))).calm := by decide
def retiring : List (Fl × Nat) :=
  [(epField 3 true F.CTX_EP_STATE, 2), (epField 3 false F.CTX_EP_STATE, 3), (ctxField 3 F.CTX_SW_SEC, 50)]
theorem witness_sweep : (keyDev (armed 100) none).sweepVisits 3 = true ∧ (keyDev (armed 100) none).sweepVisits 4 = false ∧
    (keyDev (armed 100) none).tSw 3 ≤ (keyDev (armed 100) none).time62 ∧
    (keyDev (armed 300) none).time62 < (keyDev (armed 300) none).tSw 3 ∧
    (keyDev retiring none).epState 3 false = epRETIRING ∧ (keyDev retiring none).epState 3 true = epCURRENT ∧
    (keyDev retiring none).tSw 3 + (keyDev retiring none).wPost 3 ≤ (keyDev retiring none).time62 ∧
    (keyDev retiring none).laneState ((keyDev retiring none).ctxLane 3) ≠ laneRESTART := by decide

/-! ### Witnesses: rings and Windlass -/

def rf_ (n : Nat) (x : Fl) : Fl := ringField n x
/-- Ring `n` runs on channel 0 with the eight descriptors at 0x1000_8000, `prod` of them in it, the first one given. -/
def ringed (n prod : Nat) (ws : List Word) (l : List (Fl × Nat)) : Dev :=
  (opened 1 0x10000000 0x1001FFFF (dev ([(rf_ n F.RING_CFG_ENABLE, 1), (rf_ n F.RING_CFG_SIZE, 3), (rf_ n F.RING_STAT_STATE, 1),
    (rf_ n F.RING_PROD_INDEX, prod), (rf_ n F.RING_BASE_BASE, 0x10008000 / 32), (chField 0 F.CH_CTRL_ENABLE, 1),
    (⟨0x40030040, 31, 0⟩, 0xFFFFFFFF)] ++ l))).ramPutAll
    0x10008000 (marked (ws.flatMap fun w => leBytes 4 w.toNat) false)
def desc (typ len op : Nat) : List Word :=
  [BitVec.ofNat 32 (2 ^ 31 + typ * 2 ^ 28 + len), 0x10004000, 0, 0x10005000, 0, BitVec.ofNat 32 (op * 2 ^ 16), 0, 0]
def partition : Dev := ((dev []).setOwner 0x30 2).setOwner 0x31 2
theorem witness_ring_writes : Arrives partition 2 F.BKT_PART_HOLD_SLOTS.addr 200 ∧ Arrives partition 2 F.BKT_PART_HOLD_SLOTS.addr 7 ∧
    Arrives (dev []) 2 (rf_ 16 F.RING_CFG_ENABLE).addr 0x83000000 ∧ (dev []).ringEnabled 16 = false := by decide
theorem witness_ring_runs : Arrives (ringed 16 0 [] []) 2 (rf_ 16 F.RING_CFG_ENABLE).addr 0 ∧ (ringed 16 0 [] []).ringBusy 16 = false ∧
    Arrives (ringed 16 0 [] []) 2 (rf_ 16 F.RING_PROD_INDEX).addr 8 ∧ Arrives (ringed 16 0 [] []) 2 (rf_ 16 F.RING_PROD_INDEX).addr 9 := by decide
theorem witness_ring_writes_more :
    (ringed 20 4 [] [(rf_ 20 F.RING_CFG_DIR, 1)]).ringFrom 20 = true ∧
    Arrives (ringed 20 4 [] [(rf_ 20 F.RING_CFG_DIR, 1)]) 2 (rf_ 20 F.RING_CONS_INDEX).addr 4 ∧
    Arrives (ringed 16 0 [] [(rf_ 16 F.RING_STAT_STATE, 2)]) 2 (rf_ 16 F.RING_STAT_RESUME).addr 1 ∧
    (ringed 16 0 [] [(rf_ 16 F.RING_STAT_STATE, 2)]).ringState 16 = ringSTOPPED ∧
    Arrives (ringed 16 0 [] []) 2 (chField 0 F.CH_CTRL_ENABLE).addr 0 ∧ ((ringed 16 0 [] []).chans[0]).job = none := by decide
def readsTo (d : Dev) (n : Nat) (P : Except Nat (List Word) → Bool) : Bool :=
  d.nextRing 0 == some n && P (d.descRead (chanMaster 0) n (d.ringCons n)).2
def isWork (w : Option Work) (n : Nat) : Except Nat (List Word) → Bool | .ok ws => workOf n ws == w | _ => false
def isStop : Except Nat (List Word) → Bool | .error _ => true | _ => false
theorem witness_takes : readsTo (ringed 16 1 (desc 2 64 0) []) 16 (isWork (some .copy) 16) = true ∧
    readsTo (ringed 16 1 (desc 2 64 1) []) 16 (isWork (some .fill) 16) = true ∧
    readsTo (ringed 16 1 (desc 2 64 2) []) 16 (isWork (some .check) 16) = true ∧
    readsTo (ringed 0 1 (desc 1 64 0) []) 0 (isWork (some .tx) 0) = true ∧
    readsTo (ringed 16 1 (desc 3 64 0) []) 16 (isWork none 16) = true ∧
    readsTo (ringed 16 1 [] []) 16 isStop = true := by decide
def jobAt (op moved : Nat) (granted : Bool) : DescJob := ⟨16, 0, desc 2 64 op, granted, 0, moved, 0xFFFFFFFF, false, []⟩
def moving (op moved : Nat) (granted : Bool) : Dev :=
  (ringed 16 1 (desc 2 64 op) [(chField 0 F.CH_CTRL_EWAIT, 5)]).setJobDma 0 (some (jobAt op moved granted))
theorem witness_bursts : (jobAt 0 0 true).moved < descLen (jobAt 0 0 true).words ∧ (jobAt 0 63 true).moved < descLen (jobAt 0 63 true).words := by
  decide
def slotTakes (y : Dev) (k : Completion) : Bool := decide (SlotTakes (y.chanFree 0) (chanMaster 0) (jobAt 1 0 true) k)
/-- The channel's burst, where its turn has come. -/
def burst (d : Dev) (j : DescJob) (w : Work) : Dev × Resp × DescJob := { d with chanLast := 0 }.chanMove 0 j w
theorem witness_ends : let x := burst (moving 1 0 true) (jobAt 1 0 true) .fill
    x.2.1 = .ok ∧ 64 ≤ x.2.2.moved ∧ noAbort x.1 ∧ x.1.calm ∧ (moving 1 0 true).burstTurn 0 = true ∧
    slotTakes (x.1.put (chField 0 F.CH_PROG_DONE) x.2.2.moved) ⟨dsOK, 64, none, false, none⟩ = true ∧
    (moving 1 0 true).calm := by decide
/-- The channel waited from 0 for its energy; it is past EWAIT of 5 ms, or not. -/
def denied (now : Nat) : Dev := { moving 1 0 false with now := now }
theorem witness_denied : (denied 5000000).now ≤ (jobAt 1 0 false).since + 5 * 10 ^ 6 ∧ (jobAt 1 0 false).granted = false ∧
    (jobAt 1 0 false).since + (denied 5000001).get (chField 0 F.CH_CTRL_EWAIT) * 10 ^ 6 < (denied 5000001).now ∧
    (denied 5000001).get (chField 0 F.CH_CTRL_EWAIT) ≠ 0 ∧
    slotTakes (denied 5000001) ⟨dsENERGY_SHORT, 0, none, false, none⟩ = true := by decide
/-- Channel 1 is ready too, and of a higher priority. -/
def outranked : Dev := (((moving 1 0 true).setJobDma 1 (some (jobAt 1 0 true))).put (chField 1 F.CH_CTRL_ENABLE) 1).put
  (chField 1 F.CH_CTRL_PRIO) 3
theorem witness_outranked : outranked.burstTurn 0 = false ∧ (jobAt 1 0 true).granted = true := by decide
def longJob (moved : Nat) : DescJob := { jobAt 0 moved true with words := desc 2 200 0 }
theorem witness_moves : let x := burst ((moving 0 0 true).setJobDma 0 (some (longJob 0))) (longJob 0) .copy
    x.2.1 = .ok ∧ x.2.2.moved < 200 ∧ noAbort x.1 ∧ x.1.calm := by decide
/-- A burst from an address that nothing decodes fails. -/
def lostJob : DescJob := { jobAt 2 0 true with words := (desc 2 64 2).set 1 0x7FFF0000 }
theorem witness_fails : let x := burst (moving 2 0 true) lostJob .check
    x.2.1 ≠ .ok ∧ noAbort x.1 ∧ x.1.calm ∧ slotTakes (x.1.put (chField 0 F.CH_PROG_DONE) x.2.2.moved)
      ⟨partStatus x.2.1, x.2.2.moved, none, x.2.2.poison, none⟩ = true := by decide
def posting (own : Bool) : Dev :=
  let d := ringed 20 0 (if own then [0x80000000, 0, 0, 0, 0, 0, 0, 0] else []) [(rf_ 20 F.RING_CFG_DIR, 1)]
  (opened 1 0x10000000 0x1001FFFF d).setRing 20 { RingHw.empty with reserved := [⟨.lost, 4, none, some (List.replicate 8 7), false⟩] }
/-- The words of an entry reach the ring's memory. -/
def posted (d : Dev) : Bool := match d.descRead 11 20 0 with
  | (d1, .ok _) =>
    let z := Dev.descWrite 11 (d1.descAddr 20 0) d1 (((List.range 7).map fun i => (i + 1, 7)) ++
      [(0, BitVec.ofNat 32 (withBits (withBits 7 31 31 0) 25 25 0))])
    z.2 == none && decide z.1.calm && decide (z.1.ring 20 = d.ring 20) && z.1.ringProd 20 == d.ringProd 20 && z.1.ringEnabled 20 &&
      !d1.flag (rf_ 20 F.RING_CFG_IRQ_EN) && !z.1.flag (rf_ 20 F.RING_CFG_IRQ_EN)
  | _ => false
theorem witness_posts : (posting true).ringState 20 = ringRUN ∧ posted (posting true) = true ∧
    (((posting true).ring 20).complete).isSome = true ∧ isStop ((posting false).descRead 11 20 0).2 = true ∧
    (posting true).calm ∧ (posting true).on .core = true := by decide

/-! ### Witnesses: Wellhead -/

theorem witness_measured : markRise 3 ≤ 4000 ∧ (dev []).wellcap.charging = false ∧ (dev [(F.WH_STAT_VBAT_OK, 1)]).flag F.WH_STAT_VBAT_OK = true ∧
    (dev [(F.WH_STAT_PV_OK, 1)]).flag F.WH_STAT_PV_OK = true ∧ (dev []).mark < 3 ∧ (dev []).calm ∧
    (dev []).on .well = true ∧ (opDev 0 0 false 0).dev.on .well = false ∧
    { (dev []).wellcap with charging := true }.charging = true ∧
    (dev []).wellcap.alarmAt + 100000000 < { dev [] with now := 100000001 }.now := by decide
theorem witness_energy : (opDev stPassiveRun 0x8F true 5000).dev.opState = stPassiveRun ∧
    ((opDev stPassiveRun 0x8F true 5000).dev.askEnergy (.ce 3) 5 1000).2 = true ∧
    ((opDev stPassiveRead 7 true 5000).dev.askEnergy (.ce 3) 5 1000).2 = false ∧
    ((opDev stPassiveRead 7 true 5000).dev.askEnergy .cistern 3 1000).2 = true := by decide
def bursting (b : CstBurst) : Dev := { dev [] with cst := { (dev []).cst with job := some ⟨.command, [b], none, false, false, 0, none, none, none⟩ } }
/-- Page 2 of the crypto engine waits for its energy. -/
def shortJob : CeJob := { (dev []).jobOf 2 with begun := true, short := some 0 }
def short : Dev := (dev []).setJobCe 2 (some shortJob)
theorem witness_short : (short.page 2).job = some shortJob ∧ shortJob.granted = false ∧ shortJob.ended = none ∧
    shortJob.short.isSome = true ∧ ∀ q : Fin 16, q < 2 → short.ceWait q ≠ 2 := by decide
theorem witness_gauge : (∀ x ∈ [1800, 2100, 2550, 2800], (opDev stPassiveRead 7 true x).dev.env.vhold = x ∧
      (opDev stPassiveRead 7 true x).dev.on .core = false ∧ (opDev stPassiveRead 7 true x).dev.well.cst = 0 ∧
      (opDev stPassiveRead 7 true x).dev.well.tx = 0) ∧
    (opDev stPassiveRun 0x8F true 3000).dev.on .core = true ∧ (opDev stPassiveRun 0x8F true 3000).dev.env.vhold = 3000 := by decide
theorem witness_grants : ((moving 1 0 false).chans[0]).job = some (jobAt 1 0 false) ∧ sending.nextFrame ≠ none ∧ sending.hp.granted = false ∧
    (bursting (.erase 300)).cstBlocked ⟨.command, [.erase 300], none, false, false, 0, none, none, none⟩ (.erase 300) = false ∧
    (bursting (.erase 300)).cst.waiting = none ∧ (bursting (.erase 300)).cst.queue = [] ∧ (bursting (.erase 300)).hp.apdu = none ∧
    (moving 1 0 false).cst.job = none ∧ (∀ q : Fin 16, (moving 1 0 false).ceWait q ≠ 2) ∧ sending.cst.job = none ∧ short.cst.job = none ∧
    (bursting (.erase 300)).on .isle = true ∧ ((bursting (.erase 300)).askEnergy .cistern (CstBurst.need (.erase 300)).1 (CstBurst.need (.erase 300)).2).2 = true := by decide
theorem witness_loop : (dev [(F.WH_AVS_STAT_VSET, 800)]).loopRuns = true ∧
    900 ≤ (dev [(F.WH_AVS_STAT_VSET, 900)]).get F.WH_AVS_STAT_VSET ∧ (dev []).opState = stHost ∧
    (dev []).flag F.WH_AVS_STAT_LINK_FAIL = false ∧
    (dev []).well.pmRead = false ∧ { (dev []).well with pmRead := true }.pmRead = true := by decide
theorem witness_modes : (∀ v ∈ [0, 1, 2, 3], Arrives (dev []) 2 F.WH_PMODE_MODE.addr v) ∧ (dev []).flag F.WH_PMODE_BUSY = false ∧
    { (dev []).well with pmodeTo := some 2 }.pmodeTo = some 2 ∧ (dev []).well.pmode = 1 := by decide

/-! ### Witnesses: time -/

theorem witness_time : (∀ v ∈ [1, 2, 3, 4], Arrives (dev []) 2 F.TIME_CMD_OP.addr v) ∧
    sgn 32 ((dev [(F.TIME_ADD_NS, 0xFFFFFFFF)]).get F.TIME_ADD_NS) = -1 ∧ 0 ≤ sgn 32 ((dev []).get F.TIME_ADD_NS) ∧
    Arrives (dev []) 2 F.TIME_FREQ_FREQ.addr 0x80000000 ∧ (dev []).reachCheck 2 .read F.TIME_NOW_NS_NS.addr = (dev [], true) ∧
    (dev []).slaveCheck (dev []).epoch 2 false .read F.TIME_NOW_NS_NS.addr = (dev [], .ok) := by decide
/-- A lock state at a time, with limits of 3 ms and 2 s. -/
def clocked (lock now : Nat) : Dev :=
  { dev [(F.TIME_STAT_LOCK, lock), (F.TIME_SERVO_SERVO_TO, 3), (F.TIME_SERVO_HOLD_MAX, 2)] with now := now }
def silent (d : Dev) : Nat := d.tu.servoAt + d.get F.TIME_SERVO_SERVO_TO * 10 ^ 6
def heldTill (d : Dev) : Nat := d.tu.holdAt + d.get F.TIME_SERVO_HOLD_MAX * 10 ^ 9
theorem witness_limits : silent (clocked lockLOCKED 3000001) < (clocked lockLOCKED 3000001).now ∧
    (clocked lockLOCKED 3000000).now ≤ silent (clocked lockLOCKED 3000000) ∧ (clocked lockLOCKED 0).get F.TIME_STAT_LOCK = lockLOCKED ∧
    heldTill (clocked lockHOLDOVER 2000000001) < (clocked lockHOLDOVER 2000000001).now ∧
    (clocked lockHOLDOVER 2000000000).now ≤ heldTill (clocked lockHOLDOVER 2000000000) ∧
    (clocked lockHOLDOVER 0).get F.TIME_STAT_LOCK = lockHOLDOVER ∧ (clocked lockFREE 0).get F.TIME_STAT_LOCK = lockFREE := by decide
theorem witness_time_read : (BitVec.ofNat 32 F.TIME_NOW_NS_NS.addr).toNat = F.TIME_NOW_NS_NS.addr ∧ (dev []).calm ∧
    (dev []).aonPend = [] := by decide
theorem witness_locks : (dev []).get F.TIME_STAT_LOCK = lockFREE ∧ (dev [(F.TIME_STAT_LOCK, 2)]).get F.TIME_STAT_LOCK ≠ lockFREE ∧
    (dev [(F.TIME_SERVO_SERVO_TO, 3)]).get F.TIME_SERVO_SERVO_TO ≠ 0 ∧ (dev []).on .pump = true := by decide
/-- The time unit one edge before a second's end or before the end of a pulse. -/
def secondEnd (f : TimeUnit → TimeUnit) : Dev := { dev [(F.TIME_PPS_CFG_OUT_EN, 1)] with tu := f (dev []).tu }
def nextNs (d : Dev) : Nat := d.tu.ns + (d.tu.frac + d.timeInc) / 2 ^ 32
theorem witness_pps_out : let d := secondEnd fun u => { u with ns := 999999996 }
    10 ^ 9 ≤ nextNs d ∧ d.pll = true ∧ nextNs (secondEnd id) < 10 ^ 9 ∧
    (let p := secondEnd fun u => { u with ppsOut := true, ppsEnd := u.edges + 1 }
    p.tu.ppsOut = true ∧ p.tu.ppsEnd = p.tu.edges + 1 ∧ nextNs p < 10 ^ 9) ∧
    (secondEnd id).tu.ppsOut = false := by decide
def bounced (now : Nat) : Dev :=
  { dev [(F.TIME_PPS_CFG_IN_EN, 1)] with now := now, tu := { (dev []).tu with ppsInAt := some 1000 } }
theorem witness_pps_in : (bounced 1096).now + 2 * b2n true < 1000 + 100 ∧ 1000 + 100 ≤ (bounced 1100).now + 2 * b2n false ∧
    (bounced 1100).tu.ppsInAt = some 1000 ∧ (bounced 0).flag F.TIME_PPS_CFG_IN_EN = true ∧
    true = !(bounced 0).flag F.TIME_PPS_CFG_IN_EDGE ∧ (dev []).tu.ppsInAt = none := by decide
theorem witness_pps : (dev [(F.TIME_PPS_CFG_OUT_EN, 1)]).flag F.TIME_PPS_CFG_OUT_EN = true ∧
    (dev [(F.TIME_PPS_CFG_IN_EN, 1), (F.TIME_PPSIN_STAT_VALID, 1)]).flag F.TIME_PPSIN_STAT_VALID = true ∧
    (dev []).flag F.TIME_PPSIN_STAT_VALID = false ∧ Arrives (dev []) 2 F.TIME_PPS_CFG_OUT_EN.addr 0x00000015 := by decide

/-! ### Witnesses: access rules -/

theorem witness_commits : (∀ v ∈ [1, 2, 3], Arrives (dev []) 2 F.ACCESS_FW_COMMIT_OP.addr v) ∧
    (dev []).flag F.ACCESS_EPOCH_PREV_LIVE = false ∧ (dev [(F.ACCESS_EPOCH_PREV_LIVE, 1)]).flag F.ACCESS_EPOCH_PREV_LIVE = true ∧
    Arrives (dev [(F.ACCESS_EPOCH_PREV_LIVE, 1)]) 2 F.ACCESS_FW_COMMIT_OP.addr 1 ∧ (dev []).sbuf = [] ∧ (dev []).aonPend = [] ∧ (dev []).woh.job = none := by decide

/-! ### Witnesses: the crypto engine -/

/-- Page 3 of the engine: an operation over 32 bytes at 0x1000_4000 with key slot 5, everything granted. -/
def cePage (op dir : Nat) (l : List (Fl × Nat)) : Dev :=
  let f (x : Fl) : Fl := pageField 3 x
  let d := opened 1 0x10000000 0x1001FFFF (dev ([(f F.CE_CFG_OP, op), (f F.CE_CFG_DIR, dir), (f F.CE_CFG_SLOT, 5),
    (f F.CE_CFG_TAGLEN, 16), (f F.CE_SRC_SRC, 0x10004000), (f F.CE_DST_DST, 0x10005000), (f F.CE_LEN_LEN, 32),
    (pageCtl 3 F.CE_PAGE_CTL_EN, 1), (pageCtl 3 F.CE_PAGE_GRANT_LO_GRANT, 0x20), (F.CE_RNG_STAT_STATE, rngREADY),
    (⟨(pageCtl 3 F.CE_PAGE_WIN_BASE_ADDR).addr, 31, 0⟩, 0x10000000),
    (⟨(pageCtl 3 F.CE_PAGE_WIN_BASE_ADDR).addr + 4, 31, 0⟩, 0x1000FFFF), (⟨0x40030040 + 32, 31, 0⟩, 0xFFFFFFFF)] ++ l))
  { d.ramPutAll 0x10004000 (marked (List.replicate 64 0x61) false) with
    slots := [(5, { KeySlot.empty with typ := 1, usage := 0x3FF, key := List.replicate 16 1 })] }
theorem witness_starts :
    Arrives (cePage 1 0 []) 2 (pageField 3 F.CE_CMD_OP).addr 1 ∧ Arrives (cePage 1 0 []) 2 (pageField 3 F.CE_CMD_OP).addr 2 ∧
    (cePage 1 0 []).startFails 3 ((cePage 1 0 []).jobOf 3) = none ∧ (cePage 0x10 0 []).startFails 3 ((cePage 0x10 0 []).jobOf 3) = none ∧
    (cePage 0x30 0 []).startFails 3 ((cePage 0x30 0 []).jobOf 3) = none ∧
    (cePage 1 0 [(pageCtl 3 F.CE_PAGE_GRANT_LO_GRANT, 0)]).startFails 3 ((cePage 1 0 []).jobOf 3) = some jsKEY_DENIED := by decide
theorem witness_starts_more : ((cePage 1 0 []).jobOf 3).wants = 0 ∧ takesIv 1 0 0 = false ∧ ((cePage 1 0 []).slot 5).chk = [] ∧
    (cePage 1 0 [(pageCtl 3 F.CE_PAGE_CTL_EN, 0)]).flag (pageCtl 3 F.CE_PAGE_CTL_EN) = false ∧
    (cePage 1 0 []).flag (pageField 3 F.CE_STAT_BUSY) = false ∧
    (cePage 1 0 []).cfgLegal 3 ((cePage 1 0 []).jobOf 3) = true ∧ usesSlot 1 0 = true ∧
    bitAt ((cePage 1 0 [(pageCtl 3 F.CE_PAGE_GRANT_LO_GRANT, 0)]).get (pageCtl 3 (F.CE_PAGE_GRANT_LO_GRANT.plus (4 * (5 / 32))))) (5 % 32)
      = false := by decide
/-- A generated key that nobody may export, on a page whose IVs are COUNTER. -/
def counting (op : Nat) : Dev :=
  { cePage op 0 [(pageCtl 3 F.CE_PAGE_CTL_NPOL, 1)] with
    slots := [(5, { KeySlot.empty with typ := 1, usage := 0x2FF, origin := true, key := List.replicate 16 1 })] }
theorem witness_counter : (∀ op ∈ [3, 4, 5], (counting op).startFails 3 ((counting op).jobOf 3) = none ∧ takesIv op 0 0 = true ∧
    ((counting op).jobOf 3).wants = 0) ∧ ((counting 3).slot 5).chk = [] ∧ (counting 3).opState = stHost := by decide
def ceJob (op dir pos : Nat) : CeJob := { (cePage op dir []).jobOf 3 with begun := true, pos := pos }
def ceBusy (j : CeJob) (l : List (Fl × Nat)) : Dev := (cePage j.op j.dir l).setJobCe 3 (some j)
def ceCtl : Nat := (pageCtl 3 F.CE_PAGE_CTL_EN).addr
theorem witness_stops : Arrives (cePage 1 0 []) 2 ceCtl (((cePage 1 0 []).reg ceCtl &&& 0x7FFFFFFF).toNat) ∧
    ((cePage 1 0 []).page 3).job = none ∧ ((ceBusy (ceJob 1 0 0) []).page 3).job = some (ceJob 1 0 0) ∧
    (cePage 1 0 [(pageField 3 F.CE_STAT_BUSY, 1)]).flag (pageField 3 F.CE_STAT_BUSY) = true := by decide
theorem witness_abort : isPk 0x20 = true ∧ isPk 1 = false ∧ (ceBusy (ceJob 0x20 1 0) []).ceWait 3 ≠ 1 ∧
    (ceBusy { ceJob 0x20 1 0 with want := 1 } []).ceWait 3 = 1 ∧ (ceJob 1 0 0).ended = none := by decide
/-- A chunk of the job is read within the window, and can be written. -/
def reads (d : Dev) (j : CeJob) : Bool :=
  let w := some ((d.ceAsk 3 j).1.pageWindow 3)
  match (d.ceAsk 3 j).1.ceRead w (j.src + j.pos) (min 64 (j.len - j.pos)) with
  | (d2, .ok data) => data.length == 32 && decide d2.calm && (match d2.ceWrite w (j.dst + j.pos) data with
    | (d3, _, none) => decide d3.calm | _ => false)
  | _ => false
theorem witness_chunks : (ceBusy (ceJob 1 0 0) []).calm ∧ ((ceBusy (ceJob 1 0 0) []).ceAsk 3 (ceJob 1 0 0)).2 = true ∧
    reads (ceBusy (ceJob 1 0 0) []) (ceJob 1 0 0) = true ∧ reads (ceBusy (ceJob 0x10 0 0) []) (ceJob 0x10 0 0) = true ∧
    (ceBusy (ceJob 1 0 0) []).ceTurn 3 = true ∧ (ceJob 1 0 0).begun = true ∧ (ceJob 1 0 0).short = none ∧
    (ceJob 1 0 0).ended = none ∧ (ceJob 1 0 0).abort = false ∧ ((ceBusy (ceJob 1 0 0) []).slot 5).chk = [] ∧
    ((ceBusy (ceJob 1 0 0) []).slot 5).damaged = false ∧ isAesRun 1 = true ∧ isSha 0x10 = true ∧ isHmac 0x18 = true ∧
    jsAUTH_FAIL < 16 ∧ jsAUTH_FAIL ≠ jsOK := by decide
/-- The job waits for its energy since 0; EWAIT is 1 ms. -/
def ceShort (now : Nat) : Dev := { ceBusy { ceJob 1 0 0 with short := some 0 } [(F.CE_CTRL_EWAIT, 1)] with now := now }
theorem witness_ce_energy : (ceShort 0).get F.CE_CTRL_EWAIT ≠ 0 ∧
    (ceShort 1000000).now ≤ 0 + 1000000 * (ceShort 1000000).get F.CE_CTRL_EWAIT ∧
    0 + 1000000 * (ceShort 1000001).get F.CE_CTRL_EWAIT < (ceShort 1000001).now ∧
    ((ceShort 0).page 3).job = some { ceJob 1 0 0 with short := some 0 } := by decide
/-- In PASSIVE_RUN without a charge the gauge grants nothing. -/
def starved : Dev := ((ceBusy (ceJob 1 0 0) []).put F.SYS_STATE stPassiveRun).put F.WH_STAT_MARK 0
theorem witness_ce_refused : (starved.ceAsk 3 (ceJob 1 0 0)).2 = false ∧ starved.on .core = true ∧ starved.ceTurn 3 = true ∧
    (starved.page 3).job = some (ceJob 1 0 0) := by decide
/-- Page 4 has a job of the same engine and was not the last one served, so page 3 waits. -/
def rival : Dev :=
  let d := (ceBusy (ceJob 1 0 0) []).setJobCe 4 (some (ceJob 1 0 0))
  { d with ce := { d.ce with lastAes := 3 } }
theorem witness_ce_turn : rival.ceTurn 3 = false ∧ (rival.page 3).job = some (ceJob 1 0 0) := by decide
/-- A decryption that has failed after 32 bytes: what it wrote can be zeroed, or its window no longer holds it. -/
def zeroed (l : List (Fl × Nat)) : Dev × Option Nat :=
  let d := ceBusy (ceJob 4 1 0) l
  Dev.ceZero (some (d.pageWindow 3)) 33 d 0x10005000 32
def shutWindow : List (Fl × Nat) := [(⟨(pageCtl 3 F.CE_PAGE_WIN_BASE_ADDR).addr + 4, 31, 0⟩, 0x10004FFF)]
theorem witness_zeroed : (zeroed []).1.calm ∧ (zeroed []).2 = none ∧ (zeroed shutWindow).1.calm ∧
    (zeroed shutWindow).2.isSome = true := by decide
theorem witness_random : Arrives (cePage 1 0 []) 2 F.CE_RNG_CTL_PR.addr ((((cePage 1 0 []).reg F.CE_RNG_CTL_PR.addr &&& 4) ||| 2).toNat) ∧
    Arrives (cePage 1 0 []) 2 F.CE_RNG_CTL_PR.addr ((((cePage 1 0 []).reg F.CE_RNG_CTL_PR.addr &&& 4) ||| 1).toNat) ∧
    (cePage 1 0 []).rngState = rngREADY ∧ (cePage 1 0 []).nextWanting = none ∧ (cePage 1 0 []).ce.key = none ∧
    (dev []).rngState = rngSTARTUP ∧ (dev []).rngState ≠ rngFAILED := by decide
/-- A device whose noise source gives the bytes next. -/
def noisy (raw : Bytes) : Dev := { dev [] with env := { (dev []).env with noise := raw }, ce := { (dev []).ce with reseeding := true } }
/-- How the health tests find the next `n` bytes. -/
def rawFails (d : Dev) (n : Nat) : Option Bool := (d.ce.health.feed (d.rawNext n)).2
theorem witness_raw : rawFails (noisy (List.replicate 128 0xA5)) 128 = none ∧ rawFails (noisy (List.replicate 128 0)) 128 = some true ∧
    (noisy []).calm ∧ (noisy []).ce.reseeding = true := by decide
/-- 1,024 bits of which 896 are ones, in runs of 28: the adaptive proportion test fails. -/
theorem witness_raw_proportion : rawFails (noisy (List.replicate 32 [(0xFF : Byte), 0xFF, 0xFF, 0xF0]).flatten) 128 = some false := by
  decide
theorem witness_raw_start : rawFails (noisy (List.replicate 640 0xA5)) 640 = none := by decide
def ceKey (op kek slot : Nat) : CeKeyCmd := ⟨op, kek, slot, 0x10004000, 16, 1, 0x300, 0, 0, 0, [], 0⟩
def keyBusy (k : CeKeyCmd) : Dev :=
  let d := cePage 1 0 []
  { d with ce := { d.ce with key := some k }
           slots := [(5, { KeySlot.empty with typ := 1, usage := 0x3FF, key := List.replicate 16 1 }),
                     (6, { KeySlot.empty with typ := 2, usage := 0x3FF, key := List.replicate 32 1 }),
                     (7, { KeySlot.empty with typ := 4, usage := 0x300, key := List.replicate 32 1 })] }
def asking (k : CeKeyCmd) : Dev := ((keyBusy k).askEnergy .key 5 (keyBudget k)).1
def keyReads (k : CeKeyCmd) (n : Nat) : Bool :=
  match (asking k).ceRead none k.addr n with | (d2, .ok x) => x.length == n && decide d2.calm | _ => false
theorem witness_keys : (∀ v ∈ [0x060901, 0x0902, 0x0903, 0x060504, 0x0505, 0x0706], Arrives (keyBusy (ceKey 2 0 9)) 2 F.CE_KEY_CMD_OP.addr v) ∧
    (asking (ceKey 2 0 9)).keyCmdFails (ceKey 2 0 9) = none ∧ keyReads (ceKey 2 0 9) 16 = true ∧
    (asking (ceKey 2 0 5)).keyCmdFails (ceKey 2 0 5) = some ksOCCUPIED ∧
    ((asking (ceKey 2 0 5)).exportRefused (ceKey 2 0 5)).isNone = true ∧
    (∀ k ∈ [0, 5, 6, 9], ((keyBusy (ceKey 2 0 9)).slot k).chk = []) ∧ (ceKey 2 0 9).want = 0 := by decide
theorem witness_more_keys : (asking (ceKey 3 0 9)).keyCmdFails (ceKey 3 0 9) = none ∧
    (asking (ceKey 4 6 5)).keyCmdFails (ceKey 4 6 5) = none ∧ (asking (ceKey 5 0 5)).keyCmdFails (ceKey 5 0 5) = none ∧
    (asking (ceKey 6 0 7)).keyCmdFails (ceKey 6 0 7) = none ∧ (asking (ceKey 1 6 9)).keyCmdFails (ceKey 1 6 9) = none ∧
    (match (asking (ceKey 6 0 7)).ceWrite none 0x10004000 (List.replicate 64 0) with | (y, _, none) => decide y.calm | _ => false) = true ∧
    (match (asking (ceKey 4 6 5)).ceWrite none 0x10004000 (List.replicate 60 0) with | (y, _, _) => decide y.calm) = true ∧
    (match (asking (ceKey 2 0 9)).ceRead none 0x7FFF0000 16 with | (y, .error _) => decide y.calm | _ => false) = true := by decide
/-- A blob of slot 5's key under slot 6's, in the memory that IMPORT_WRAPPED reads. -/
def aBlob : Bytes := wrapKey (List.replicate 32 1) (List.replicate 12 7) { KeySlot.empty with typ := 1, usage := 0x300, key := List.replicate 16 1 }
def wrapped : Bool :=
  let d := (asking (ceKey 1 6 9)).ramPutAll 0x10004000 (marked aBlob false)
  match d.ceRead none 0x10004000 16 with
  | (d2, .ok head) => blobHeader head == some (1, 16, 0x300, 0) && plenOk 1 16 && (match d2.ceRead none 0x10004010 44 with
    | (d3, .ok rest) => decide d3.calm && unwrapKey (List.replicate 32 1) (head ++ rest) 16 == some (List.replicate 16 1)
    | _ => false)
  | _ => false
theorem witness_wrapped : wrapped = true := by decide

/-! ### Witnesses: memory integrity -/

def repairing (f : Integ → Integ) (l : List (Fl × Nat)) : Dev := { dev l with integ := f (dev l).integ }
def anOffer : Offer := ⟨0x10004000, false, 0, 0⟩
def tracked (n : Nat) : List (Fl × Nat) :=
  [(F.INTEG_CTL_TRK_EN, 1), (trkField 2 F.INTEG_TRK_INFO_VALID, 1), (trkField 2 F.INTEG_TRK_ADDR_ADDR, 0x10004000), (trkField 2 F.INTEG_TRK_INFO_COUNT, n)]
def tracking (n : Nat) : Dev := repairing (fun x => { x with offers := [anOffer] }) (tracked n)
theorem witness_repair : (repairing (fun x => { x with writeBack := [⟨0x10004000, 7, true⟩] }) []).integ.writeBack ≠ [] ∧
    (dev [(F.INTEG_CTL_TRK_EN, 0)]).flag F.INTEG_CTL_TRK_EN = false ∧ (tracking 3).flag F.INTEG_CTL_TRK_EN = true ∧
    (tracking 4).rowCopying (ramSource anOffer.addr) (ramRow anOffer.addr) = false ∧ ramSource anOffer.addr ≠ 12 ∧
    (tracking 3).trkFind anOffer = some 2 ∧ (tracking 4).rowGone (ramSource anOffer.addr) (ramRow anOffer.addr) = false ∧
    (tracking 4).sparesTaken (ramSource anOffer.addr) < 16 ∧ ramSource anOffer.addr < 12 ∧
    (repairing (fun x => { x with offers := [anOffer] }) []).trkFind anOffer = none ∧
    (repairing (fun x => { x with offers := [anOffer] }) []).trkVictim = some 0 ∧
    (repairing id ((List.range 16).flatMap fun k => [(trkField k F.INTEG_TRK_INFO_VALID, 1), (trkField k F.INTEG_TRK_INFO_COUNT, 2)])).trkVictim =
      none ∧ (7 : Nat) < rowsOf 0 := by decide
/-- A page of program flash whose second offer comes; a row whose copy has ended. -/
def pageOffer : Offer := ⟨flashBase + 1024 * 7, true, 18, 1⟩
def pageTracked : Dev := repairing (fun x => { x with offers := [pageOffer] })
  [(F.INTEG_CTL_TRK_EN, 1), (trkField 2 F.INTEG_TRK_INFO_VALID, 1), (trkField 2 F.INTEG_TRK_INFO_KIND, 1), (trkField 2 F.INTEG_TRK_ADDR_ADDR, flashBase + 1024 * 7),
   (trkField 2 F.INTEG_TRK_INFO_SOURCE, 18), (trkField 2 F.INTEG_TRK_INFO_COUNT, 1)]
theorem witness_repair_pages : pageTracked.trkFind pageOffer = some 2 ∧ 1 ≤ pageTracked.get (trkField 2 F.INTEG_TRK_INFO_COUNT) ∧
    (pageOffer.addr - flashBase) / 1024 < 2 ^ 12 ∧ (dev []).on .core = true ∧ (opDev stPassiveRead 7 true 0).dev.on .core = false ∧
    (repairing (fun x => { x with copying := [⟨0, 5, some 2⟩] }) []).calm ∧ (5 : Nat) < rowsOf 0 := by decide
theorem witness_repair_commands :
    (∀ v ∈ [0x10005, 0x1C7FF, 0x1D000], Arrives (dev []) 2 F.INTEG_REMAP_CMD_GO.addr v) ∧
    (repairing (fun x => { x with remapped := [(0, 5)] }) []).rowGone 0 5 = true ∧ (dev []).rowGone 12 7 = false ∧
    (dev []).sparesTaken 12 < 16 ∧ { dev [] with divertUsed := [0] }.rowOccupied 7 = true ∧ (dev []).rowOccupied 7 = false ∧
    Arrives (dev [(refqField 7 F.INTEG_REFQ_VALID, 1)]) 2 F.INTEG_REFQ_CMD_REMOVE.addr 15 ∧
    (dev [(refqField 7 F.INTEG_REFQ_VALID, 1)]).flag (refqField 7 F.INTEG_REFQ_VALID) = true := by decide
def drgCtl : Nat := F.DRG_CTL_OP.addr
def drg (run lo hi : Nat) : Dev :=
  repairing (fun x => { x with drgNext := 64 * lo }) [(F.DRG_STAT_RUN, run), (F.DRG_BASE_ADDR, lo), (F.DRG_BASE_ADDR.plus 4, hi)]
theorem witness_dredge : Arrives (drg 0 0x400000 0x400001) 2 drgCtl ((((drg 0 0x400000 0x400001).reg drgCtl &&& 0xF00) ||| 1).toNat) ∧
    Arrives (drg 1 0x400000 0x400001) 2 drgCtl ((((drg 1 0x400000 0x400001).reg drgCtl &&& 0xF00) ||| 2).toNat) ∧
    inRam (drg 1 0x400000 0x400001).integ.drgNext = true ∧ (drg 1 0x400000 0x400001).integ.drgNext % 64 = 0 ∧
    (drg 1 0x400000 0x400001).integ.copying = [] ∧ (drg 1 0x400000 0x400001).integ.drgAbort = false ∧
    { (drg 1 0x400000 0x400001).integ with drgAbort := true }.drgAbort = true ∧ (drg 1 0x400000 0x400000).integ.drgNext = 64 * 0x400000 ∧
    (drg 0 2 1).get (F.DRG_BASE_ADDR.plus 4) < (drg 0 2 1).get F.DRG_BASE_ADDR := by decide

/-! ### Witnesses: events, watchdog, Wellcap -/

def aReq : EvReq := ⟨3, 1, clsFault, 5, 6, 0, none⟩
def asked (l : List (Fl × Nat)) (opens : List OpenRec) : Dev :=
  let d := ringed 6 0 [] ([(rf_ 6 F.RING_CFG_DIR, 1)] ++ l)
  { d with evt := { d.evt with queue := [aReq], open_ := opens } }
theorem witness_events : (asked [(F.EVT_CFG_COAL, 1)] []).joins aReq = none ∧ (asked [] []).ringTakes 6 = true ∧
    (asked [] []).eventNeed clsFault < (asked [] []).ringSpace 6 ∧ aReq.isLost = false ∧
    (asked [(rf_ 6 F.RING_STAT_STATE, 2)] []).ringTakes 6 = false ∧
    ((asked [(F.EVT_CFG_COAL, 1)] [⟨3, 1, clsFault, 5, 6, 9, 1, some 6, 0, none⟩]).joins aReq).isSome = true ∧
    ((asked [] [⟨3, 1, clsFault, 5, 6, 9, 1, some 6, 0, none⟩]).openOf 3).isSome = true := by decide
/-- The coalescing window of 64 µs has not ended, or has. -/
def windowed (now : Nat) : Dev := { asked [(F.EVT_CFG_COAL, 1)] [⟨3, 1, clsFault, 5, 6, 9, 1, some 6, 0, none⟩] with now := now }
theorem witness_windows : (windowed 64000).now ≤ 0 + 64000 * (windowed 64000).get F.EVT_CFG_COAL ∧
    0 + 64000 * (windowed 64001).get F.EVT_CFG_COAL < (windowed 64001).now ∧ (windowed 0).on .aon = true ∧ (windowed 0).on .core = true ∧
    ((windowed 0).openOf 3).isSome = true ∧ (windowed 0).openOf 4 = none ∧ (windowed 0).calm ∧
    (asked [(F.EVT_CFG_COAL, 0)] []).get (rf_ 6 F.RING_LOST_PENDING) = 0 := by decide
theorem witness_resets_follow : { dev [] with resetReq := some 4 }.resetReq = some 4 ∧ (dev []).alarming = false ∧
    Arrives (dev []) 2 F.SYS_CORE_RESET_KEY.addr 0xA55A ∧ (dev []).sbuf = [] ∧ Arrives (dev []) 2 F.SYS_DEV_RESET_KEY.addr 0x5AA5 ∧
    { dev [] with aonPend := [⟨F.EVT_SW_ARG0_ARG.addr, 7, 2, 0⟩] }.calm := by decide
theorem witness_software_events : (∀ v ∈ [0x20000001, 0xE0000001, 1], Arrives (dev []) 2 F.EVT_SW_CODE.addr v) ∧ (dev []).aonPend = [] ∧
    bitAt ((dev [(F.EVT_CFG_CLASS_EN, 0xFF)]).get F.EVT_CFG_CLASS_EN) 5 = true := by decide
theorem witness_watchdog : Arrives (dev [(F.WDOG_CTL_EN, 1)]) 2 F.WDOG_KICK_KEY.addr 0x6B17 ∧
    (dev [(F.WDOG_CTL_EN, 1), (F.WDOG_CTL_TIMEOUT, 9)]).wdogExpired = false ∧
    { dev [(F.WDOG_CTL_EN, 1), (F.WDOG_CTL_TIMEOUT, 9)] with wdog := ⟨9003907, none⟩ }.wdogExpired = true ∧
    { dev [(F.WDOG_CTL_EN, 1), (F.WDOG_CTL_TIMEOUT, 9)] with wdog := ⟨9000000, none⟩ }.wdogExpired = false ∧
    { dev [(F.WDOG_CTL_EN, 1), (F.WDOG_CTL_TIMEOUT, 9)] with wdog := ⟨9003907, none⟩ }.calm ∧ Arrives (dev []) 2 F.WDOG_CTL_EN.addr 0x80000000 ∧
    (dev []).flag F.WDOG_CTL_EN = false ∧ wdogCounts (dev []).opState = true ∧
    (dev [(F.WDOG_STAT_ESCALATE, 1)]).flag F.WDOG_STAT_ESCALATE = true ∧ (dev []).filled[0] = true := by decide
theorem witness_alarms : (dev []).latched 0 = false ∧ (dev [(F.WC_LATCH_LATCH, 0x180)]).latched 8 = true ∧
    (dev [(F.WC_LATCH_LATCH, 1)]).latched 0 = true ∧ (dev []).on .aon = true := by decide
theorem witness_sensors : (dev [(F.WC_CTL_LIGHT_EN, 1)]).flag F.WC_CTL_LIGHT_EN = true ∧ (dev [(F.WC_CTL_LIGHT_EN, 0)]).flag F.WC_CTL_LIGHT_EN = false ∧
    bitAt ((dev [(F.WC_STAT_PRESENT, 4)]).get F.WC_STAT_PRESENT) 2 = true ∧ (dev [(F.WC_STAT_PRESENT, 4)]).latched 2 = false ∧
    (∀ k, k < 7 → k ≠ 2 → bitAt ((dev [(F.WC_STAT_PRESENT, 4)]).get F.WC_STAT_PRESENT) k = false) ∧
    { (dev []).wellcap with resample := true }.resample = true ∧ (dev []).xtal = true ∧
    (dev [(F.WH_STAT_AON_SRC, 0)]).get F.WH_STAT_AON_SRC = 0 ∧ (dev [(F.WH_STAT_AON_SRC, 3)]).get F.WH_STAT_AON_SRC ≠ 0 ∧
    (dev []).latched 6 = false := by decide

/-! ### Witnesses: host link, boot, flash, balls -/

def crcOf (bs : Bytes) : Word := BitVec.ofNat 32 (crc32c bs)
/-- The host's bytes: IDENT and READ of four bytes at 0x1000_4000, READ of an address that is not aligned, WRITE of four bytes. -/
def hostRead : Bytes := 3 :: 3 :: leBytes 4 0x10004000
def hostWrite : Bytes := 2 :: 3 :: leBytes 4 0x10004000 ++ [1, 2, 3, 4]
theorem witness_transactions : (dev []).opState = stHost ∧ (dev []).on .core = true ∧ (dev []).alarming = false ∧ (dev []).woh.job = none ∧
    (crcOf (0x9F :: 3 :: leBytes 4 0)).toNat = crc32c (0x9F :: 3 :: leBytes 4 (0 : Word).toNat) ∧
    (0 : Word).toNat ≠ crc32c (0x9F :: 3 :: leBytes 4 (0 : Word).toNat) ∧
    (0 : Word).toNat ≠ crc32c hostWrite ∧ (0x40000002 : Word).toNat % 4 ≠ 0 ∧ ([1, 2, 3, 4] : Bytes).length = (3 : Byte).toNat + 1 := by
  decide
/-- The host's firewall is open. -/
def linked : Dev := opened 1 0x10000000 0x1001FFFF (dev [(⟨0x40030040 + 40, 31, 0⟩, 0xFFFFFFFF)])
theorem witness_accesses : (crcOf hostRead).toNat = crc32c hostRead ∧ linked.wohStalled ⟨3, 3, 0x10004000, [], false, linked.epoch, linked.now⟩ = false ∧
    (linked.busLoad 13 .read 0x10004000 4).1.calm ∧ (linked.busLoad 13 .read 0x10004000 4).2.1 = .ok ∧
    anyPoison (linked.busLoad 13 .read 0x10004000 4).2.2 = false ∧ inRam 0x10004000 = true ∧
    linked.reachCheck 13 .write 0x10004000 = (linked, true) ∧
    linked.slaveCheck linked.epoch 13 false .write 0x10004000 = (linked, .ok) ∧ noAbort linked := by decide
def bursty : Dev := { linked with flashJob := some ⟨true, 8, []⟩ }
theorem witness_stall : bursty.wohStalled ⟨3, 3, 0x08000000, [], false, 0, 0⟩ = true ∧
    bursty.now = 0 ∧ bursty.epoch = 0 := by decide
/-- A READ waits since 0; TMO is 1, at 100 MHz, or what the state's frequency is. -/
def stalled (now : Nat) (timedOut : Bool) : Dev :=
  { linked.put F.WOHIAL_CTL_TMO 1 with
    now := now, woh := { linked.woh with job := some ⟨3, 3, 0x10004000, [], timedOut, linked.epoch, 0⟩ } }
def lateBy (now : Nat) : Bool :=
  decide ((stalled now false).get F.WOHIAL_CTL_TMO * 256000 < ((stalled now false).now - 0) * (stalled now false).coreMhz)
theorem witness_timeouts : lateBy 0 = false ∧ lateBy 100000 = true ∧
    (let d := { stalled 0 false with woh := { (stalled 0 false).woh with job := none } }
    (d.busLoadAt d.epoch 13 .read 0x10004000 4).1.calm ∧ (d.busLoadAt d.epoch 13 .read 0x10004000 4).2.1 = .ok ∧
      anyPoison (d.busLoadAt d.epoch 13 .read 0x10004000 4).2.2 = false) := by decide
def booting (b : BootStep) (l : List (Fl × Nat)) : State :=
  { run [] with dev := { dev l with boot := b, cst := { (dev []).cst with rings := [⟨176, 848, 0, 0, 0, 0, 0, 0, 0⟩] } } }
theorem witness_boot : (booting .fresh []).dev.calm ∧ (booting .fresh []).core.released = true ∧ (booting .fresh []).core.stopped = false ∧
    (booting .fresh []).dev.filled[0] = true ∧ (booting .fresh []).dev.on .isle = true ∧ (booting .fresh []).dev.cst.due = false ∧
    (booting .fresh []).dev.cst.job = none ∧ (booting .fresh []).dev.owner 0x40 = ownFree ∧
    (booting .fresh []).dev.flag F.ACCESS_EPOCH_PREV_LIVE = false ∧ (booting .trial []).dev.flag F.CST_STAT_BUSY = false ∧
    (booting .trial []).dev.get F.CST_STAT_STATUS = 0 ∧ (booting .trial [(F.CST_STAT_STATUS, 3)]).dev.get F.CST_STAT_STATUS ≠ 0 := by
  decide
theorem witness_recovery : (booting .recovery [(F.WOHIAL_DB_DB, 1)]).dev.boot = .recovery ∧
    (booting .recovery [(F.WOHIAL_DB_DB, 1)]).dev.get F.WOHIAL_DB_DB % 2 = 1 ∧
    headerOk (((booting .recovery []).dev.ramBytes 0x10040000 0x200).2.map Prod.fst) = false := by decide
def flashed (l : List (Fl × Nat)) : Dev := (dev l).nvmPut false 0 [0]
theorem witness_flash : Arrives (dev []) 2 F.FLASH_CMD_OP.addr 0x10000 ∧ Arrives (dev []) 2 F.FLASH_CMD_OP.addr 0x20FFF ∧
    (dev []).flag F.FLASH_STAT_BUSY = false ∧ (dev [(F.FLASH_PROT_PROT_A, 1)]).flag F.FLASH_PROT_PROT_A = true ∧
    (dev []).flag F.FLASH_PROT_PROT_A = false ∧ (flashed []).nvmErased false 0 1024 = false ∧
    (dev []).nvmErased false 0x3FFC00 1024 = true ∧ (dev [(F.FLASH_STAT_BUF_POISON, 1)]).flag F.FLASH_STAT_BUF_POISON = true ∧
    (dev [(F.FLASH_STAT_BUSY, 1)]).flag F.FLASH_STAT_BUSY = true ∧ Arrives (dev []) 2 F.CLAMP_CTL_CLEAR.addr 1 := by decide
def flashing : Dev := { dev [] with flashJob := some ⟨false, 4095, List.replicate 1024 5⟩ }
theorem witness_flash_job : flashing.calm ∧ flashing.flashJob = some ⟨false, 4095, List.replicate 1024 5⟩ ∧
    (List.replicate 1024 (5 : Byte)).length = 1024 := by decide
theorem witness_balls : (dev []).flag F.WH_STAT_HOST_GOOD = true ∧ (dev []).on .core = true ∧ (dev []).on .aon = true ∧
    { (dev []).env with vddIo1 := 3300 }.vddIo1 ≠ 0 ∧ (dev [(F.GPIO_FUNC, 1)]).get F.GPIO_FUNC = 1 := by decide
theorem witness_doorbells : Arrives (dev []) 2 F.WOHIAL_HOST_DB_SET.addr 0x80000001 ∧ Arrives (dev []) 2 F.WOHIAL_MSG_MSG.addr 7 := by decide

/-! ### Witnesses: the Cistern -/

/-- Master `m` owns the port of a Cistern with records. -/
def owned (m : BitVec 5) (l : List (Fl × Nat)) : Dev := port m (cistern (opened 14 0x40050000 0x4005FFFF (dev l)))
def cmd (op target : Nat) : Nat := op * 2 ^ 28 + target
theorem witness_port : CstIdle (owned 2 []) ∧ (owned 2 []).cst.clearDue = false ∧
    (∀ v ∈ [cmd 1 16, cmd 1 511, cmd 1 512, cmd 4 0, cmd 4 32, cmd 8 0, cmd 8 8, cmd 9 0, cmd 10 0],
      Arrives (owned 2 []) 2 F.CST_CMD_OP.addr v) ∧ Arrives (owned 1 []) 1 F.CST_CMD_OP.addr (cmd 10 0) := by decide
theorem witness_twins : (owned 2 []).param 16 = .one paramRec false ∧ (owned 2 []).param 17 = .empty ∧ (owned 2 []).counter 1 = none := by decide
def twinned (b : CRec) : Dev := (owned 2 []).nvmPut true (128 * 1057) b.words
theorem witness_two_twins : (twinned paramRec).param 16 = .same paramRec ∧
    (twinned { paramRec with data := [9, 9, 9, 9] }).param 16 = .conflict paramRec { paramRec with data := [9, 9, 9, 9] } ∧
    ((dev []).nvmPut true (128 * 1057) [0]).param 16 = .invalid := by decide
theorem witness_high_twins :
    ((owned 2 []).nvmPut true (128 * 81) (CRec.words ⟨2, 0, 4, 1, 0, 0, [0, 0, 0, 0]⟩)).high 0 = .same ⟨2, 0, 4, 1, 0, 0, [0, 0, 0, 0]⟩ ∧
    ((owned 2 []).nvmPut true (128 * 83) [0]).high 1 = .invalid := by decide
theorem witness_logs : (owned 2 [(F.CST_ARG_ARG, 5)]).ringRecs 0 = [logRec] ∧ (owned 2 [(F.CST_ARG_ARG, 3)]).alarmRecs = [alarmRec] ∧
    (owned 2 []).cRing 0 = ⟨176, 2, 0, 1, 5, 1, 0, 0, 0⟩ ∧ ((owned 2 []).cRing 7).count = 0 := by decide
theorem witness_writes : (∀ v ∈ [cmd 2 16, cmd 2 512, cmd 3 16, cmd 5 0, cmd 5 32, cmd 6 0, cmd 7 0x1000000, cmd 7 8],
      Arrives (owned 2 []) 2 F.CST_CMD_OP.addr v) ∧ Arrives (owned 1 []) 1 F.CST_CMD_OP.addr (cmd 2 15) ∧
    (owned 2 []).opState = stHost ∧ (owned 2 []).cst.poison = false := by decide
def journaled (d : Dev) : Dev := { d with cst := { d.cst with jSlot := 1 } }
theorem witness_writes_begin : (journaled (owned 2 [])).cst.jSlot % 32 ≠ 0 ∧ ((journaled (owned 2 [])).param 16).newest < 200000 ∧
    (owned 2 []).get F.CST_PROT_BP = 0 ∧ (owned 2 [(F.CST_PROT_BP, 2)]).get F.CST_PROT_BP = 2 ∧
    layoutOf (((owned 2 [(F.CST_ARG_ARG, 32)]).bufABytes 1004).take 32) = none ∧
    { (owned 2 []).cst with poison := true }.poison = true ∧ ((owned 2 []).cRing 0).slot < 15 := by decide
/-- The next journal slot, the next cell of counter 0 and the next slot of ring 0 are EMPTY, or something is in them. -/
def freeAt (d : Dev) (word n : Nat) : Bool := d.nvmErased true (8 * word) (8 * n)
def littered (word : Nat) : Dev := (journaled (owned 2 [])).nvmPut true word [BitVec.allOnes 64]
theorem witness_places : freeAt (journaled (owned 2 [])) 4 4 = true ∧ freeAt (littered 5) 4 4 = false ∧
    freeAt (owned 2 []) (128 * 82 + 2) 1 = true ∧ freeAt (littered (128 * 82 + 2)) (128 * 82 + 2) 1 = false ∧
    (littered (128 * 82 + 2)).counter 0 = some (1, 0, false) ∧ (littered (128 * 82 + 2)).gen 0 = some 0 ∧
    freeAt (owned 2 []) (128 * 176 + 8) 8 = true ∧ freeAt (littered (128 * 176 + 9)) (128 * 176 + 8) 8 = false ∧
    ((littered (128 * 176 + 9)).cRing 0).lost = 0 := by decide
theorem witness_counters : (owned 2 []).counter 0 = some (1, 0, false) ∧ (owned 2 []).gen 0 = some 0 ∧ (2 : Nat) ≤ 64 * 0 + 64 ∧
    ((owned 2 [(F.CST_VAL_LO_VAL, 70)]).get F.CST_VAL_LO_VAL) = 70 ∧ ((owned 2 []).high 0).newest < 100000 := by decide
def job (bs : List CstBurst) (run : Option CstBurst) : CstJob := ⟨.command, bs, run, false, false, 0, none, none, some 5⟩
def working_ (j : CstJob) (l : List (Fl × Nat)) : Dev := let d := owned 2 l; { d with cst := { d.cst with job := some j } }
/-- A job goes on with a burst into the page that it erases now, or into words that are EMPTY. -/
theorem witness_job_goes_on : (job [.program (128 * 300) [1, 2]] (some (.erase 300))).refused = false ∧ (128 * 300 + 1) / 128 = 300 ∧
    (owned 2 []).nvmWord true (128 * 301) = .erased ∧ nvmSealed true 80 = true ∧ nvmSealed true 176 = false := by decide
def refusedJob : CstJob := { job [.erase 3] none with refused := true }
def refusedAt (now : Nat) : Dev := { working_ refusedJob [(F.CST_CTL_EWAIT, 4)] with now := now }
theorem witness_refused : (refusedAt 4000000).now ≤ refusedJob.since + 1000000 * (refusedAt 4000000).get F.CST_CTL_EWAIT ∧
    refusedJob.since + 1000000 * (refusedAt 4000001).get F.CST_CTL_EWAIT < (refusedAt 4000001).now ∧
    (refusedAt 0).get F.CST_CTL_EWAIT ≠ 0 ∧ (refusedAt 0).cst.job = some refusedJob ∧ refusedJob.kind = .command ∧
    refusedJob.running = none ∧ refusedJob.begun = false ∧ (refusedAt 0).cst.waiting = none ∧ (refusedAt 0).cst.queue = [] ∧
    (refusedAt 0).cst.due = false ∧ (refusedAt 0).alarmTidy = [] ∧ (refusedAt 0).hp.apdu = none := by decide
theorem witness_jobs : (working_ (job [] (some (.erase 300))) []).cst.job = some (job [] (some (.erase 300))) ∧
    (working_ (job [] (some (.erase 300))) []).hp.apdu = none ∧ (working_ (job [] (some (.erase 300))) []).calm ∧
    (job [] (some (.erase 300))).val.all (· < 2 ^ 38) = true ∧
    (working_ (job [.erase 3] none) [(F.CST_CTL_EWAIT, 4)]).get F.CST_CTL_EWAIT ≠ 0 ∧
    { (owned 2 []).cst with clearDue := true }.clearDue = true ∧ (owned 2 []).alarmTidy = [] := by decide
def fresh : Dev := { dev [] with cst := { (dev []).cst with due := true } }
theorem witness_laid : fresh.cst.laid = false ∧ { fresh.cst with laid := true }.laid = true := by decide
theorem witness_journal : fresh.on .isle = true ∧ fresh.cst.due = true ∧ fresh.cst.job = none ∧ fresh.hp.apdu = none ∧
    (owned 2 [(F.CST_CTL_SCAN_INT, 1)]).get F.CST_CTL_SCAN_INT ≠ 0 ∧ (owned 2 []).pageTouched 16 = true ∧
    (owned 2 []).pageTouched 15 = false := by decide
def queued (p : Nat) : List (Fl × Nat) :=
  [(refqField 0 F.INTEG_REFQ_VALID, 1), (refqField 0 F.INTEG_REFQ_MEM, 1), (refqField 0 F.INTEG_REFQ_PAGE, p)]
theorem witness_refresh : (dev (queued 82)).get (refqField 0 F.INTEG_REFQ_PAGE) = 82 ∧ (82 - 80) % 3 = 2 ∧
    (dev (queued 300)).flag (refqField 0 F.INTEG_REFQ_MEM) = true ∧
    ((dev []).nvmPut true (128 * 8) [0]).pageErased 8 = false := by decide
/-- Page 1100's spare area holds a page check that its data do not have. -/
def poisonedPage : Dev := { dev (queued 1100) with codes := { (dev []).codes with cstSpare := [(1100, ⟨0, 1, 0⟩)] } }
def poisoned (d : Dev) (p : Nat) : Bool := nvmSealed true p && anyPoison (d.pageRead (Config.ownMaster 19) true p).2
theorem witness_refresh_more : poisoned poisonedPage 1100 = true ∧ poisoned (dev (queued 1100)) 1100 = false ∧
    (dev (queued 1100)).get (refqField 0 F.INTEG_REFQ_PAGE) = 1100 ∧ (dev (queued 1100)).on .isle = true ∧
    (dev (queued 1100)).opState = stHost ∧ (dev (queued 1100)).cst.job = none ∧ (dev (queued 1100)).cst.due = false := by decide
def recording (slots : Nat) (touch : Bool) : Dev :=
  let d := owned 2 [(F.SYS_STATE, stAlarm), (F.WH_STAT_MARK, 5)]
  let d1 := if touch then (d.nvmPut true (128 * 17) [0]).nvmPut true (128 * 176 + 120) [0] else d
  { d1 with wellcap := { d1.wellcap with recs := [{ anAlarm with esn := some 4 }] }, cst := { d1.cst with aSlot := slots } }
theorem witness_alarm_record : (recording 1 false).alarmSlot = some (16, 1, true) ∧
    (recording 1 false).nvmErased true (1024 * 16 + 64) 64 = true ∧ (recording 16 true).alarmSlot = none ∧
    cstSlotPage 16 = true ∧ (recording 1 false).cst.rings ≠ [] ∧ (recording 1 false).wellcap.recs ≠ [] ∧
    (recording 1 false).wellcap.short = false ∧ 3 ≤ (recording 1 false).mark ∧ (recording 1 false).opState = stAlarm := by decide

end Sys2Proof.Tests
end

section
/-! PROOFS. What a write of a register gives each of its fields (R8, R420, R421): the fields of a register share no bit, so
each takes what the write of that field alone gives it. -/
namespace Sys2Proof.Machine

/-! ### The register tables: no two fields of a register share a bit -/

/-- Every field of a table lies within 32 bits, and two fields of one register share no bit. -/
def tableOk (l : List Fld) : Bool :=
  l.all (fun f => (f.at f.addr).ok) && decide (l.Pairwise fun f g => ((f.at f.addr).apart (g.at g.addr)) = true)

theorem tableOk_ite {c : Prop} [Decidable c] {x y : List Fld} (hx : tableOk x = true) (hy : tableOk y = true) :
    tableOk (if c then x else y) = true := by split <;> assumption

theorem blockFields_ok (a : Nat) : tableOk (blockFields a) = true := by
  unfold blockFields
  dsimp only
  repeat' refine tableOk_ite ?_ ?_
  all_goals decide +kernel

theorem Fl.apart_comm (f g : Fl) : f.apart g = g.apart f := by
  rw [Bool.eq_iff_iff]
  simp only [Fl.apart, Bool.or_eq_true, bne_iff_ne, decide_eq_true_eq]
  rw [ne_comm]
  tauto

theorem mem_fieldsAt {a : Nat} {f : Fld} : f ∈ fieldsAt a ↔ f ∈ blockFields a ∧ f.addr = canonAddr a := by
  simp [fieldsAt]

/-- A field lies within its register. -/
theorem fieldsAt_ok {a : Nat} {f : Fld} (h : f ∈ fieldsAt a) : (f.at a).ok = true := by
  have ht := blockFields_ok a
  rw [tableOk, Bool.and_eq_true, List.all_eq_true] at ht
  exact ht.1 f (mem_fieldsAt.1 h).1

/-- The fields of a register share no bit. -/
theorem fieldsAt_apart (a : Nat) : (fieldsAt a).Pairwise fun f g => (f.at a).apart (g.at a) = true := by
  have ht := blockFields_ok a
  rw [tableOk, Bool.and_eq_true, decide_eq_true_eq] at ht
  refine List.pairwise_filter.2 (ht.2.imp ?_)
  intro f g h hf hg
  rw [beq_iff_eq] at hf hg
  simp only [Fl.apart, Fld.at, hf, hg, bne_self_eq_false] at h ⊢
  exact h

/-! ### Registers that a write touches beside its own -/

/-- Is it a register of the clamp log (R421)? -/
def isClampLog (a : Nat) : Bool := a == 0x40000100 || (0x40000110 ≤ a && a < 0x40000210)

/-- The log leaves every register but its own alone. -/
theorem Dev.reg_logClamp (d : Dev) (b hi lo : Nat) (m : Master) (v c : Nat) {a : Nat} (h : isClampLog a = false) :
    (d.logClamp b hi lo m v c).reg a = d.reg a := by
  simp only [isClampLog, Bool.or_eq_false_iff, beq_eq_false_iff_ne, Bool.and_eq_false_iff, decide_eq_false_iff_not] at h
  unfold Dev.logClamp Dev.bump
  dsimp only
  split
  · rw [Dev.reg_put_ne, Dev.reg_put_ne, Dev.reg_put_ne, Dev.reg_setReg_ne, Dev.reg_put_ne] <;>
      simp only [Fl.plus, F.CLAMP_STAT_COUNT, F.CLAMP_STORED_VALUE, F.CLAMP_WRITTEN_VALUE, F.CLAMP_INFO_MASTER,
        F.CLAMP_ADDR_ADDR] at * <;> omega
  · exact Dev.reg_put_ne _ _ _ (by simp only [F.CLAMP_STAT_DROPPED]; omega)

/-- The clamp log's own registers have no field that a write stores into. -/
theorem not_isClampLog {a : Nat} {f : Fld} (h : f ∈ fieldsAt a) (hf : f.acc ≠ .ro) : isClampLog a = false := by
  by_contra hl
  obtain ⟨hb, hc⟩ := mem_fieldsAt.1 h
  rw [Bool.not_eq_false, isClampLog, Bool.or_eq_true, beq_iff_eq, Bool.and_eq_true, decide_eq_true_eq,
    decide_eq_true_eq] at hl
  have hk : a / 0x10000 = 0x4000 := by omega
  have hro : ∀ g ∈ Fields.sysctl, g.addr = 0x40000100 ∨ (0x40000110 ≤ g.addr ∧ g.addr < 0x40000120) → g.acc = .ro := by
    decide
  simp only [blockFields, hk, if_true] at hb
  refine hf (hro f hb ?_)
  rw [hc]
  simp only [canonAddr, hk, if_true]
  split_ifs <;> omega

/-- RING_STAT of a ring is not the register whose field locks with it (R120). -/
theorem ringStat_ne {a : Nat} {f : Fld} (h : f ∈ fieldsAt a) (hf : isRingCfg f = true) :
    a ≠ (ringField (ringOf a) F.RING_STAT_CFG_LOCKED).addr := by
  intro ha
  have hc := (mem_fieldsAt.1 h).2
  have hr : f.addr = 0x40081000 ∨ f.addr = 0x40081004 := by
    simp only [isRingCfg, Fld.is, F.RING_BASE_BASE, F.RING_CFG_SIZE, F.RING_CFG_CHAN, F.RING_CFG_DIR, Bool.or_eq_true,
      Bool.and_eq_true, beq_iff_eq] at hf
    tauto
  simp only [ringField, ringOf, Fl.plus, F.RING_STAT_CFG_LOCKED] at ha
  have hk : a / 0x10000 = 0x4008 := by omega
  have hm : 0x2000 ≤ a % 0x10000 ∧ a % 0x10000 < 0x3000 := by omega
  simp only [canonAddr, hk] at hc
  norm_num at hc
  split_ifs at hc <;> omega

/-- Two devices with the same word in a register have the same fields there. -/
theorem Dev.get_congr {d e : Dev} {f : Fl} (h : d.reg f.addr = e.reg f.addr) : d.get f = e.get f :=
  congrArg (fun r : Word => bitsOf r.toNat f.hi f.lo) h

theorem Dev.get_put_cfgLocked (d : Dev) (v : Nat) {a : Nat} {f g : Fld} (hf : f ∈ fieldsAt a) (h : isRingCfg f = true) :
    (d.put (ringField (ringOf a) F.RING_STAT_CFG_LOCKED) v).get (g.at a) = d.get (g.at a) :=
  Dev.get_congr (Dev.reg_put_ne _ _ _ (ringStat_ne hf h))

theorem Dev.get_logClamp (d : Dev) (m : Master) (v c : Nat) {a hi lo : Nat} {f g : Fld} (hf : f ∈ fieldsAt a)
    (h : f.acc ≠ .ro) : (d.logClamp a hi lo m v c).get (g.at a) = d.get (g.at a) :=
  Dev.get_congr (Dev.reg_logClamp _ _ _ _ _ _ _ (not_isClampLog hf h))

/-! ### What a write changes at all -/

/-- `e` differs from `d` in its registers, and in the check bits that go with them, alone. -/
def Dev.RegsOnly (d e : Dev) : Prop := e = { d with regs := e.regs, codes := e.codes }

theorem Dev.RegsOnly.trans {d e g : Dev} (h : d.RegsOnly e) (h' : e.RegsOnly g) : d.RegsOnly g :=
  Eq.trans h' (congrArg (fun z : Dev => { z with regs := g.regs, codes := g.codes }) h)

theorem Dev.regsOnly_refl (d : Dev) : d.RegsOnly d := rfl

theorem Dev.regsOnly_setReg (d : Dev) (a : Nat) (w : Word) : d.RegsOnly (d.setReg a w) := rfl

theorem Dev.regsOnly_put (d : Dev) (f : Fl) (v : Nat) : d.RegsOnly (d.put f v) := rfl

theorem Dev.regsOnly_logClamp (d : Dev) (b hi lo : Nat) (m : Master) (v c : Nat) :
    d.RegsOnly (d.logClamp b hi lo m v c) := by
  unfold Dev.logClamp
  dsimp only
  split
  · exact ((((Dev.regsOnly_put _ _ _).trans (Dev.regsOnly_setReg _ _ _)).trans (Dev.regsOnly_put _ _ _)).trans
      (Dev.regsOnly_put _ _ _)).trans (Dev.regsOnly_put _ _ _)
  · exact Dev.regsOnly_put _ _ _

/-- All that one field of a write can do to the device: nothing, its own field stored, CFG_LOCKED of its ring set, or its
field stored and the clamp logged. -/
theorem Dev.writeField_cases (d : Dev) (m : Master) (a w : Nat) (x : Dev × Nat) (f : Fld) :
    (d.writeField m a w x f).1 = x.1 ∨
    (∃ v, (d.writeField m a w x f).1 = x.1.put (f.at a) v) ∨
    (isRingCfg f = true ∧
      (d.writeField m a w x f).1 = x.1.put (ringField (ringOf a) F.RING_STAT_CFG_LOCKED) 1) ∨
    (f.acc ≠ .ro ∧ ∃ v u c, (d.writeField m a w x f).1 = (x.1.put (f.at a) v).logClamp a f.hi f.lo m u c) := by
  unfold Dev.writeField
  dsimp only
  split
  · exact .inl rfl
  · cases hacc : f.acc <;> dsimp only
    case ro => exact .inl rfl
    case wo => exact .inl rfl
    case w1c => exact .inr (.inl ⟨_, rfl⟩)
    case rws =>
      split
      · exact .inr (.inl ⟨_, rfl⟩)
      · exact .inl rfl
    all_goals
      split_ifs with _ _ hcfg
      · exact .inl rfl
      · exact .inr (.inr (.inl ⟨hcfg.1, rfl⟩))
      · exact .inl rfl
      · exact .inr (.inl ⟨_, rfl⟩)
      · exact .inr (.inr (.inr ⟨nofun, _, _, _, rfl⟩))

theorem Dev.regsOnly_writeField (d : Dev) (m : Master) (a w : Nat) (x : Dev × Nat) (f : Fld) :
    x.1.RegsOnly (d.writeField m a w x f).1 := by
  obtain h | ⟨v, h⟩ | ⟨-, h⟩ | ⟨-, v, u, c, h⟩ := d.writeField_cases m a w x f <;> rw [h]
  · exact Dev.regsOnly_refl _
  · exact Dev.regsOnly_put _ _ _
  · exact Dev.regsOnly_put _ _ _
  · exact (Dev.regsOnly_put _ _ _).trans (Dev.regsOnly_logClamp _ _ _ _ _ _ _)

/-- One field of a write leaves every field alone that lies in its register and shares no bit with it. -/
theorem Dev.get_writeField_apart (d : Dev) (m : Master) {a : Nat} (w : Nat) (x : Dev × Nat) {f g : Fld}
    (hf : f ∈ fieldsAt a) (h : (f.at a).apart (g.at a) = true) :
    (d.writeField m a w x f).1.get (g.at a) = x.1.get (g.at a) := by
  have hput (v : Nat) : (x.1.put (f.at a) v).get (g.at a) = x.1.get (g.at a) :=
    Dev.get_put_apart _ _ _ _ (fieldsAt_ok hf) h
  obtain e | ⟨v, e⟩ | ⟨hr, e⟩ | ⟨hacc, v, u, c, e⟩ := d.writeField_cases m a w x f <;> rw [e]
  · exact hput v
  · exact Dev.get_put_cfgLocked _ _ hf hr
  · exact (Dev.get_logClamp _ _ _ _ hf hacc).trans (hput v)

/-- The same for any of the register's other fields. -/
theorem Dev.get_writeFields_apart (d : Dev) (m : Master) {a : Nat} (w : Nat) {g : Fld} (l : List Fld)
    (hl : ∀ f ∈ l, f ∈ fieldsAt a ∧ (f.at a).apart (g.at a) = true) (x : Dev × Nat) :
    (l.foldl (d.writeField m a w) x).1.get (g.at a) = x.1.get (g.at a) := by
  induction l generalizing x with
  | nil => rfl
  | cons f l ih =>
    obtain ⟨hf, hl⟩ := List.forall_mem_cons.1 hl
    exact (ih hl _).trans (d.get_writeField_apart m w x hf.1 hf.2)

/-- A field takes from a write of its register what the write of that field alone gives it. -/
theorem Dev.get_writeFields (d : Dev) (m : Master) {a : Nat} (w : Nat) {f : Fld} (hf : f ∈ fieldsAt a) :
    ∃ x : Dev × Nat, x.1.get (f.at a) = d.get (f.at a) ∧
      ((fieldsAt a).reverse.foldl (d.writeField m a w) (d, 0)).1.get (f.at a) =
        (d.writeField m a w x f).1.get (f.at a) := by
  obtain ⟨l₁, l₂, hl⟩ := List.append_of_mem (List.mem_reverse.2 hf)
  have hp : (fieldsAt a).reverse.Pairwise fun g k => (g.at a).apart (k.at a) = true :=
    List.pairwise_reverse.2 ((fieldsAt_apart a).imp fun h => (Fl.apart_comm _ _).trans h)
  have hmem : ∀ g ∈ l₁ ++ f :: l₂, g ∈ fieldsAt a := fun g hg => List.mem_reverse.1 (hl ▸ hg)
  rw [hl] at hp ⊢
  obtain ⟨-, hafter, hbefore⟩ := List.pairwise_append.1 hp
  refine ⟨l₁.foldl (d.writeField m a w) (d, 0), ?_, ?_⟩
  · exact d.get_writeFields_apart m w l₁
      (fun g hg => ⟨hmem g (List.mem_append_left _ hg), hbefore g hg f List.mem_cons_self⟩) (d, 0)
  · rw [List.foldl_append, List.foldl_cons]
    refine d.get_writeFields_apart m w l₂ (fun g hg => ⟨hmem g ?_, ?_⟩) _
    · exact List.mem_append_right _ (List.mem_cons_of_mem _ hg)
    · rw [Fl.apart_comm]
      exact List.rel_of_pairwise_cons hafter hg

theorem Dev.regsOnly_writeFields (d : Dev) (m : Master) (a w : Nat) (l : List Fld) (x : Dev × Nat) :
    x.1.RegsOnly (l.foldl (d.writeField m a w) x).1 := by
  induction l generalizing x with
  | nil => rfl
  | cons f l ih => exact (d.regsOnly_writeField m a w x f).trans (ih _)

/-! ### What the write of one field gives that field, by its access code (R8) -/

theorem Dev.writeField_of_not_reached (d : Dev) (m : Master) (a w : Nat) (x : Dev × Nat) {f : Fld}
    (h : f.owner.reached (masterLevel m) = false) : d.writeField m a w x f = x := by
  simp [Dev.writeField, h]

theorem Dev.writeField_of_ro (d : Dev) (m : Master) (a w : Nat) (x : Dev × Nat) {f : Fld} (h : f.acc = .ro) :
    d.writeField m a w x f = x := by
  simp [Dev.writeField, h]

theorem Dev.get_writeField_w1c (d : Dev) (m : Master) {a : Nat} (w : Nat) (x : Dev × Nat) {f : Fld}
    (hf : f ∈ fieldsAt a) (hr : f.owner.reached (masterLevel m) = true) (h : f.acc = .w1c) :
    (d.writeField m a w x f).1.get (f.at a) =
      (x.1.get (f.at a) &&& (bitsOf w f.hi f.lo ^^^ (2 ^ (f.hi + 1 - f.lo) - 1))) := by
  simp only [Dev.writeField, hr, h, Bool.not_true, Bool.false_eq_true, if_false]
  rw [Dev.get_put_same _ _ _ (fieldsAt_ok hf), Nat.mod_eq_of_lt]
  exact lt_of_le_of_lt Nat.and_le_left (bitsOf_lt _ _ _)

/-- A read-write field: as it was where it is fixed or locked, else the legal value as it is stored. -/
theorem Dev.get_writeField_rw (d : Dev) (m : Master) {a : Nat} (w : Nat) (x : Dev × Nat) {f : Fld}
    (hf : f ∈ fieldsAt a) (hr : f.owner.reached (masterLevel m) = true) (h : f.acc = .rw ∨ f.acc = .rwl) :
    (d.writeField m a w x f).1.get (f.at a) =
      if d.fieldFixed a f ∨ d.fieldLocked a f then x.1.get (f.at a)
      else fieldStore a f (d.fieldClamp a w f (bitsOf w f.hi f.lo)) % 2 ^ (f.hi + 1 - f.lo) := by
  have hro : f.acc ≠ .ro := by rintro h'; simp [h'] at h
  have hstored (v : Nat) : (x.1.put (f.at a) v).get (f.at a) = v % 2 ^ (f.hi + 1 - f.lo) :=
    Dev.get_put_same _ _ _ (fieldsAt_ok hf)
  by_cases hfix : d.fieldFixed a f = true
  · rw [if_pos (.inl hfix)]
    obtain h | h := h <;> simp only [Dev.writeField, hr, h, hfix, Bool.not_true, Bool.false_eq_true, if_false, if_true]
  by_cases hlock : d.fieldLocked a f = true
  · have hkept : (if isRingCfg f ∧ bitsOf w f.hi f.lo ≠ d.get (f.at a) then
        x.1.put (ringField (ringOf a) F.RING_STAT_CFG_LOCKED) 1 else x.1).get (f.at a) = x.1.get (f.at a) := by
      split
      · next hc => exact Dev.get_put_cfgLocked _ _ hf hc.1
      · rfl
    rw [if_pos (.inr hlock), ← hkept]
    obtain h | h := h <;>
      simp only [Dev.writeField, hr, h, hfix, hlock, Bool.not_true, Bool.false_eq_true, if_false, if_true]
  · have hlogged (e : Dev) (u c : Nat) :
        (if c = u then e else e.logClamp a f.hi f.lo m u c).get (f.at a) = e.get (f.at a) := by
      split
      · rfl
      · exact Dev.get_logClamp _ _ _ _ hf hro
    rw [if_neg (not_or.2 ⟨hfix, hlock⟩), ← hstored]
    obtain h | h := h <;>
      simp only [Dev.writeField, hr, h, hfix, hlock, hlogged, Bool.not_true, Bool.false_eq_true, if_false]

/-- Settles O25: the fields of a register share no bit, so each takes what the write of that field alone gives it. -/
theorem fieldsTake : Obligations.FieldsTake := by
  unfold Obligations.FieldsTake
  intro d m a w f hf
  obtain ⟨x, hx, ht⟩ := d.get_writeFields m w hf
  dsimp only
  rw [ht]
  refine ⟨fun h => ?_, fun h => ?_, fun hr h => ?_, fun hr h => ?_, ?_⟩
  · rw [d.writeField_of_not_reached m a w x h, hx]
  · rw [d.writeField_of_ro m a w x h, hx]
  · rw [d.get_writeField_w1c m w x hf hr h, hx]
  · rw [d.get_writeField_rw m w x hf hr h, hx]
  · exact d.regsOnly_writeFields m a w _ (d, 0)

end Sys2Proof.Machine
end

section
/-! PROOFS. A word at the crossbar that the access rules let pass to a register (R20, R224, R283): what the store does
for a register of CORE, for one of the AON domain, and when the word is poisoned. -/
namespace Sys2Proof.Machine
open Sys2Proof.Claims

/-! ### Words as the bus carries them (R6) -/

theorem leNat_leBytes (n v : Nat) : leNat (leBytes n v) = v % 256 ^ n := by
  induction n generalizing v with
  | zero => simp [leBytes, leNat, Nat.mod_one]
  | succ n ih =>
    have hsplit : v % (256 * 256 ^ n) = v % 256 + 256 * (v / 256 % 256 ^ n) := Nat.mod_mul
    rw [leBytes, leNat, ih, BitVec.toNat_ofNat, pow_succ' 256 n, hsplit]

@[simp] theorem wordOf_marked (v : Word) (p : Bool) : wordOf (marked (leBytes 4 v.toNat) p) = v := by
  have hbytes : (marked (leBytes 4 v.toNat) p).map Prod.fst = leBytes 4 v.toNat := by
    simp [marked, Function.comp_def]
  rw [wordOf, hbytes, leNat_leBytes]
  exact BitVec.eq_of_toNat_eq (by rw [BitVec.toNat_ofNat]; have := v.isLt; omega)

@[simp] theorem anyPoison_marked (n : Nat) (p : Bool) : anyPoison (marked (leBytes 4 n) p) = p := by
  simp [anyPoison, marked, leBytes]

/-! ### A word at the crossbar (R9, R224) -/

/-- With every channel's ENABLE set that has a descriptor, no channel ends one (R136). -/
theorem Dev.chansAbort_of_noAbort {d : Dev} (h : noAbort d) : d.chansAbort = d := by
  have hc (c : Fin 8) : d.chanAbort c = d := by
    unfold Dev.chanAbort
    split
    · next j hj => rw [if_pos (h c (by rw [hj]; rfl))]
    · rfl
  have hl (l : List (Fin 8)) : l.foldl (fun x c => x.chanAbort c) d = d := by
    induction l with
    | nil => rfl
    | cons c l ih => rw [List.foldl_cons, hc, ih]
  exact hl _

theorem inCstWin_of_isRegAddr {a : Nat} (h : isRegAddr a = true) : inCstWin a = false := by
  rw [isRegAddr, decide_eq_true_eq] at h
  have hhi : ¬a < cstWinBase + 0x200000 := by rw [cstWinBase]; omega
  rw [inCstWin, decide_eq_false hhi, Bool.and_false]

theorem partLen_reg {a : Nat} (ha : a % 4 = 0) (hr : isRegAddr a = true) : partLen a 4 = 4 := by
  simp [partLen, hr, ha]

/-- A word that the access rules let pass to a register reaches it. -/
theorem Dev.busStore_reg {d : Dev} {e : BitVec 4} {m : Master} {a : Nat} {bs : List MByte} (ha : a % 4 = 0)
    (hr : isRegAddr a = true) (hlen : bs.length = 4) (hreach : d.reachCheck m .write a = (d, true))
    (hslave : d.slaveCheck e m false .write a = (d, .ok)) :
    d.busStore e m a bs = ((d.regStore e m a bs).chansAbort, .ok) := by
  have hpart : d.storePart e m a bs = (d.regStore e m a bs, .ok) := by
    simp [Dev.storePart, inCstWin_of_isRegAddr hr, hslave, hr, hlen, ha]
  have htake : bs.take 4 = bs := List.take_of_length_le hlen.le
  have hdrop : bs.drop 4 = [] := List.drop_of_length_le hlen.le
  have hne : bs.isEmpty = false := by cases bs <;> simp at hlen ⊢
  simp [Dev.busStore, Dev.rawStore, Dev.burstStore, hreach, Dev.storeParts, hne, hlen, partLen_reg ha hr, htake, hdrop, hpart]

/-- A word of an aligned register, read past the access rules. -/
theorem Dev.busLoad_reg {d : Dev} {m : Master} {a : Nat} (ha : a % 4 = 0) (hr : isRegAddr a = true)
    (hreach : d.reachCheck m .read a = (d, true)) (hslave : d.slaveCheck d.epoch m false .read a = (d, .ok)) :
    (d.busLoad m .read a 4).1 = ((d.aonComplete a).wordRead m a).1 := by
  have hpart : d.loadPart d.epoch m .read a 4 =
      (((d.aonComplete a).wordRead m a).1, .ok, ((d.aonComplete a).wordRead m a).2) := by
    simp [Dev.loadPart, hslave, hr, ha]
  simp [Dev.busLoad, Dev.busLoadAt, hreach, Dev.loadParts, partLen_reg ha hr, hpart]

/-! ### Stores to AON registers (R20) -/

/-- With no store on its way to the register, there is nothing to complete. -/
theorem Dev.aonComplete_of_none {d : Dev} {a : Nat} (h : ∀ x ∈ d.aonPend, x.addr ≠ a) : d.aonComplete a = d := by
  have hf : (d.aonPend.find? fun x => x.addr == a) = none :=
    List.find?_eq_none.2 fun x hx => by simpa using h x hx
  simp [Dev.aonComplete, hf]

/-- The oldest store on its way completes: it leaves the queue and has its effect. -/
theorem Dev.aonStoreCompleteOp_cons {d : Dev} {x : AonStore} {q : List AonStore} (hd : d.aonPend = x :: q)
    (hq : ∀ y ∈ q, y.addr ≠ x.addr) :
    d.aonStoreCompleteOp = Dev.regEffect { d with aonPend := q } x.master x.addr x.val := by
  have hfilter : q.filter (fun y => y.addr != x.addr) = q :=
    List.filter_eq_self.2 fun y hy => bne_iff_ne.2 (hq y hy)
  simp [Dev.aonStoreCompleteOp, hd, Dev.aonComplete, hfilter]

/-! ### A word's effect (R8, R20, R235) -/

theorem Dev.regStore_core {d : Dev} {e : BitVec 4} {m : Master} {a : Nat} {v : Word}
    (hcase : d.fieldCase m a v.toNat = false) (haon : isAonReg a = false) :
    d.regStore e m a (marked (leBytes 4 v.toNat) false) = d.regEffect m a v := by
  simp [Dev.regStore, Dev.regCheck, hcase, haon]

theorem Dev.regStore_aon {d : Dev} {e : BitVec 4} {m : Master} {a : Nat} {v : Word}
    (hcase : d.fieldCase m a v.toNat = false) (haon : isAonReg a = true) (hpend : ∀ x ∈ d.aonPend, x.addr ≠ a) :
    d.regStore e m a (marked (leBytes 4 v.toNat) false) = { d with aonPend := d.aonPend ++ [⟨a, v, m, e⟩] } := by
  simp [Dev.regStore, Dev.regCheck, hcase, haon, Dev.aonComplete_of_none hpend]

theorem Dev.regStore_poisoned (d : Dev) (e : BitVec 4) (m : Master) (a n : Nat) :
    d.regStore e m a (marked (leBytes 4 n) true) = d.regPoison m a := by
  simp [Dev.regStore]

/-! ### A poisoned word (R283) -/

/-- The reports of a poisoned word touch INTEG_STAT and EVT_TRBL alone. -/
theorem Dev.reg_poisonWrite (d : Dev) (b : Nat) (m : Master) {a : Nat} (h : a ≠ F.EVT_TRBL_TRBL.addr)
    (h' : a ≠ F.INTEG_STAT_POISON_WR.addr) : (d.poisonWrite b m).reg a = d.reg a := by
  unfold Dev.poisonWrite Dev.poisonBits
  rw [Dev.reg_event, Dev.reg_trouble_ne _ _ h]
  split
  · exact Dev.reg_put_ne _ _ _ h'
  · rfl

/-- A trouble bit that is set reads 1. -/
theorem Dev.trbl_trouble (d : Dev) {k : Nat} (hk : k < 19) : bitAt ((d.trouble k).get F.EVT_TRBL_TRBL) k = true := by
  unfold Dev.trouble
  rw [Dev.get_put_same _ _ _ rfl, bitAt]
  change ((_ ||| 2 ^ k) % 2 ^ 19).testBit k = true
  rw [Nat.testBit_mod_two_pow, Nat.testBit_or, Nat.testBit_two_pow_self, Bool.or_true, decide_eq_true hk]
  rfl

theorem Dev.trbl_poisonWrite (d : Dev) (b : Nat) (m : Master) :
    bitAt ((d.poisonWrite b m).get F.EVT_TRBL_TRBL) tPOISON = true := by
  unfold Dev.poisonWrite Dev.poisonBits
  rw [Dev.get_event]
  exact Dev.trbl_trouble _ (by decide)

theorem Dev.poisonWr_poisonWrite (d : Dev) (b : Nat) (m : Master) (h : d.on .core = true) :
    (d.poisonWrite b m).get F.INTEG_STAT_POISON_WR = 1 := by
  unfold Dev.poisonWrite Dev.poisonBits
  rw [Dev.get_event, if_pos h]
  unfold Dev.trouble
  rw [Dev.get_put_apart _ _ _ _ rfl rfl, Dev.get_put_same _ _ _ rfl]
  rfl

/-- It asks the core and the channels for nothing. -/
theorem Dev.poisonWrite_asks (d : Dev) (b : Nat) (m : Master) :
    (d.poisonWrite b m).coreResetReq = d.coreResetReq ∧ (d.poisonWrite b m).coreStopReq = d.coreStopReq ∧
      (d.poisonWrite b m).chans = d.chans := by
  unfold Dev.poisonWrite Dev.poisonBits
  split <;> simp

/-- What a poisoned word does beyond its reports: it leaves its mark with the buffer that it was meant for. -/
theorem Dev.regPoison_cases (d : Dev) (m : Master) (a : Nat) :
    d.regPoison m a = d.poisonWrite a m ∨
    (a ≠ F.FLASH_STAT_BUF_POISON.addr ∧ d.regPoison m a = (d.poisonWrite a m).put F.FLASH_STAT_BUF_POISON 1) ∨
    (∃ c, d.regPoison m a = { d.poisonWrite a m with cst := c }) ∨
    (∃ h, d.regPoison m a = (d.poisonWrite a m).setHp h) := by
  unfold Dev.regPoison
  dsimp only
  split_ifs with hflash
  · refine .inr (.inl ⟨?_, rfl⟩)
    rintro rfl
    exact absurd hflash (by decide)
  · exact .inr (.inr (.inl ⟨_, rfl⟩))
  · exact .inr (.inr (.inr ⟨_, rfl⟩))
  · exact .inl rfl

/-- A poisoned word for the register at `a` leaves every register as its reports leave it, but FLASH_STAT where the word
was for the flash buffer. -/
theorem Dev.reg_regPoison (d : Dev) (m : Master) {a b : Nat} (h : b = a ∨ b ≠ F.FLASH_STAT_BUF_POISON.addr) :
    (d.regPoison m a).reg b = (d.poisonWrite a m).reg b := by
  obtain e | ⟨ha, e⟩ | ⟨c, e⟩ | ⟨x, e⟩ := d.regPoison_cases m a <;> rw [e]
  · refine Dev.reg_put_ne _ _ _ ?_
    rcases h with rfl | h
    · exact ha
    · exact h
  · rfl
  · rfl

theorem Dev.get_regPoison (d : Dev) (m : Master) (a : Nat) {f : Fl} (h : f.addr ≠ F.FLASH_STAT_BUF_POISON.addr) :
    (d.regPoison m a).get f = (d.poisonWrite a m).get f := Dev.get_congr (d.reg_regPoison m (.inr h))

theorem Dev.regPoison_asks (d : Dev) (m : Master) (a : Nat) :
    (d.regPoison m a).coreResetReq = d.coreResetReq ∧ (d.regPoison m a).coreStopReq = d.coreStopReq ∧
      (d.regPoison m a).chans = d.chans := by
  have h := d.poisonWrite_asks a m
  have hcases := d.regPoison_cases m a
  generalize d.poisonWrite a m = x at h hcases
  obtain e | ⟨-, e⟩ | ⟨c, e⟩ | ⟨y, e⟩ := hcases <;> rw [e]
  · exact h
  · obtain ⟨hr, hs, hc⟩ := h
    exact ⟨(Dev.put_coreResetReq x _ _).trans hr, (Dev.put_coreStopReq x _ _).trans hs, (Dev.put_chans x _ _).trans hc⟩
  · exact h
  · exact h

theorem Dev.regPoison_calm {d : Dev} (m : Master) (a : Nat) (h : d.calm) : (d.regPoison m a).calm := by
  obtain ⟨hr, hs, -⟩ := d.regPoison_asks m a
  exact ⟨hr.trans h.1, hs.trans h.2⟩

theorem Dev.regPoison_noAbort {d : Dev} (m : Master) (a : Nat) (h : noAbort d) : noAbort (d.regPoison m a) := by
  intro c hc
  obtain ⟨-, -, hch⟩ := d.regPoison_asks m a
  rw [hch] at hc
  have hreg : (d.regPoison m a).reg (chField c F.CH_CTRL_ENABLE).addr = d.reg (chField c F.CH_CTRL_ENABLE).addr := by
    have hne {n : Nat} (hn : n % 0x20 ≠ 0 ∨ 0x40090000 ≤ n) : (chField c F.CH_CTRL_ENABLE).addr ≠ n := by
      simp only [chField, Fl.plus, F.CH_CTRL_ENABLE]
      omega
    rw [d.reg_regPoison m (.inr (hne (by decide))), d.reg_poisonWrite _ _ (hne (by decide)) (hne (by decide))]
  rw [← h c hc, Dev.flag, Dev.flag, Dev.get_congr hreg]


end Sys2Proof.Machine
end

section
/-! PROOFS. The high words that a load of a statistics count latches (R109), and the statement about register accesses. -/
namespace Sys2Proof.Machine
open Sys2Proof.Claims

/-! ### High words of the statistics counts (R83, R109) -/

theorem inCtx_iff {a : Nat} : inCtx a = true ↔ 0x40140000 ≤ a ∧ a < 0x40180000 := by
  simp only [inCtx, Bool.and_eq_true, decide_eq_true_eq]

theorem inCtx_ctxWord (i : Fin 1024) {off : Nat} (h : off < 0x100) : inCtx (ctxWord i off) = true := by
  rw [inCtx_iff, ctxWord]
  omega

/-- An address of the context table is none outside it. -/
theorem ne_of_inCtx {a n : Nat} (ha : inCtx a = true) (hn : inCtx n = false) : a ≠ n := by
  rintro rfl
  rw [ha] at hn
  exact Bool.noConfusion hn

/-- The words of the statistics counts share one row of the context's register table. -/
theorem canonAddr_ctxWord (i : Fin 1024) {off : Nat} (h : 0x80 ≤ off ∧ off < 0xCC) :
    canonAddr (ctxWord i off) = 0x40140080 := by
  have hlo : ctxWord i off % 0x10000 % 0x100 = off := by simp only [ctxWord]; omega
  have hblk : 0x4014 ≤ ctxWord i off / 0x10000 ∧ ctxWord i off / 0x10000 ≤ 0x4017 := by simp only [ctxWord]; omega
  generalize ctxWord i off = a at *
  unfold canonAddr
  dsimp only
  iterate 11 rw [if_neg (by omega)]
  rw [if_pos hblk, if_pos (by omega)]

/-- A count's word reads as it is stored. -/
theorem Dev.regView_count (d : Dev) (m : Master) (i : Fin 1024) {off : Nat} (h : 0x80 ≤ off ∧ off < 0xCC) :
    d.regView m (ctxWord i off) = d.reg (ctxWord i off) := by
  have hctx : inCtx (ctxWord i off) = true := inCtx_ctxWord i (by omega)
  have hrow : inCtx 0x40140080 = true := by decide
  unfold Dev.regView
  dsimp only
  rw [canonAddr_ctxWord i h]
  generalize ctxWord i off = a at *
  iterate 28 rw [if_neg (ne_of_inCtx (by assumption) (by decide))]

theorem latchesNext_count (i : Fin 1024) : latchesNext (ctxWord i 0x80) = true := by
  have hctx := inCtx_iff.1 (inCtx_ctxWord i (off := 0x80) (by decide))
  have hlow : ctxWord i 0x80 % 0x100 = 0x80 := by simp only [ctxWord]; omega
  simp [latchesNext, hctx, hlow]

theorem latchesNext_high (i : Fin 1024) : latchesNext (ctxWord i 0x84) = false := by
  have hctx := inCtx_ctxWord i (off := 0x84) (by decide)
  have hlow : ctxWord i 0x84 % 0x100 = 0x84 := by simp only [ctxWord]; omega
  have hval : ctxWord i 0x84 ≠ F.CST_VAL_LO_VAL.addr := ne_of_inCtx hctx (by decide)
  have hesn : ctxWord i 0x84 ≠ F.EVT_ESN_LO_ESN.addr := ne_of_inCtx hctx (by decide)
  simp [latchesNext, canonAddr_ctxWord i (off := 0x84) (by decide), hlow, hval, hesn, F.CE_SLOT_INV_LO_INV]

/-- The word latched last is the one found. -/
@[simp] theorem Dev.highOf_latch (d : Dev) (m : Master) (a : Nat) (w : Word) : (d.latch m a w).highOf m a = some w := by
  simp [Dev.highOf, Dev.latch]

@[simp] theorem Dev.highOf_unlatch (d : Dev) (m : Master) (a : Nat) : (d.unlatch m a).highOf m a = none := by
  simp only [Dev.highOf, Dev.unlatch, Option.map_eq_none_iff, List.find?_eq_none, List.mem_filter]
  rintro x ⟨-, hx⟩
  simpa [imp_iff_not_or] using hx

/-- A load of a count's low word latches the high word as it is stored. -/
theorem Dev.regRead_count (d : Dev) (m : Master) (i : Fin 1024) (hclean : d.ctxPoisoned (ctxWord i 0x84) = false) :
    (d.regRead m (ctxWord i 0x80)).1 = d.latch m (ctxWord i 0x84) (d.reg (ctxWord i 0x84)) := by
  have hctx := inCtx_ctxWord i (off := 0x80) (by decide)
  have hnext : ctxWord i 0x80 + 4 = ctxWord i 0x84 := rfl
  unfold Dev.regRead
  rw [if_neg (ne_of_inCtx hctx (by decide)), if_neg (ne_of_inCtx hctx (by decide)), if_pos (latchesNext_count i), hnext,
    if_neg (by simp [hclean]), Dev.regView_count d m i (by decide)]

/-- A load of a count's high word reads the word latched for its master, once. -/
theorem Dev.regRead_high (d : Dev) (m : Master) (i : Fin 1024) {w : Word} (h : d.highOf m (ctxWord i 0x84) = some w) :
    d.regRead m (ctxWord i 0x84) = (d.unlatch m (ctxWord i 0x84), w) := by
  have hctx := inCtx_ctxWord i (off := 0x84) (by decide)
  have hsec : ¬(ctxWord i 0x84 = F.TIME_NOW_SEC_LO_SEC.addr ∨ ctxWord i 0x84 = F.TIME_NOW_SEC_HI_SEC.addr) :=
    not_or.2 ⟨ne_of_inCtx hctx (by decide), ne_of_inCtx hctx (by decide)⟩
  unfold Dev.regRead
  rw [if_neg (ne_of_inCtx hctx (by decide)), if_neg (ne_of_inCtx hctx (by decide)),
    if_neg (by simp [latchesNext_high i]), h]
  simp only [if_neg hsec]

/-- Words with no check bit wrong are read without a record or a write-back (R273). -/
theorem Dev.ctxReads_clean {d : Dev} {m : Master} {a n : Nat} (h : ∀ k, k < 4 * n → d.ctxChk (a + k) = 0) :
    d.ctxReads m a n = d := by
  induction n generalizing a with
  | zero => rfl
  | succ n ih =>
    have hread : d.ctxRead m a = d := by
      unfold Dev.ctxRead
      refine if_pos ?_
      simp only [List.all_map, List.all_eq_true, List.mem_range, Function.comp_apply, beq_iff_eq]
      exact fun k hk => h k (by omega)
    rw [Dev.ctxReads, hread]
    exact ih fun k hk => by rw [Nat.add_assoc]; exact h (4 + k) (by omega)

theorem Dev.ctxPoisoned_clean {d : Dev} {a : Nat} (h : ∀ k, k < 4 → d.ctxChk (a + k) = 0) :
    d.ctxPoisoned a = false := by
  simp only [Dev.ctxPoisoned, List.any_eq_false, List.mem_range]
  intro k hk
  rw [h k hk]
  decide

/-- A load of a count's low word, its check bits right, latches the high word. -/
theorem Dev.wordRead_count {d : Dev} (m : Master) (i : Fin 1024) (h : ∀ k, k < 8 → d.ctxChk (ctxWord i 0x80 + k) = 0) :
    (d.wordRead m (ctxWord i 0x80)).1 = d.latch m (ctxWord i 0x84) (d.reg (ctxWord i 0x84)) := by
  have hclean : d.ctxPoisoned (ctxWord i 0x84) = false :=
    Dev.ctxPoisoned_clean fun k hk => by
      have := h (4 + k) (by omega)
      rwa [← Nat.add_assoc] at this
  unfold Dev.wordRead
  rw [if_pos (inCtx_ctxWord i (by decide)), if_pos (latchesNext_count i), Dev.ctxReads_clean h]
  exact d.regRead_count m i hclean

/-! ### The statement -/

/-- A store on its way asks the core and the channels for nothing. -/
theorem Dev.aonPend_asks {d : Dev} (q : List AonStore) (hc : d.calm) (ha : noAbort d) :
    ({ d with aonPend := q } : Dev).calm ∧ noAbort { d with aonPend := q } := ⟨hc, ha⟩

/-- A command on the device alone that leaves the core nothing to do. -/
theorem State.onDev_eq {s : State} {f : Dev → Dev} {e : Dev} (hf : f s.dev = e) (he : e.calm) :
    s.onDev f = .next (became s s.core e) := by
  subst hf
  exact State.onDev_of_calm s f he

theorem exec_registerWrite (m : Master) (a v : Word) (p : Bool) (s : State) : exec (.registerWrite m a v p) s =
    s.onDev fun d => (d.busStore d.epoch m a.toNat (marked (leBytes 4 v.toNat) p)).1 := rfl

theorem exec_counterLatchRead (m : Master) (a : Word) (s : State) :
    exec (.counterLatchRead m a) s = s.onDev fun d => (d.busLoad m .read a.toNat 4).1 := rfl

theorem exec_aonStoreComplete (s : State) : exec .aonStoreComplete s = s.onDev fun d => d.aonStoreCompleteOp := rfl

/-- Settles O26: a word that passes the access rules reaches the register whole, so each clause is what the register, the
AON queue or the latch does with it. -/
theorem registerAccess : Obligations.RegisterAccess := by
  unfold Obligations.RegisterAccess
  intro s m a v
  refine ⟨fun ha hr harr => ?_, fun x q hpend hq hcalm => ?_, fun i hi hcalm hpend hchk hreach hslave => ?_⟩
  · obtain ⟨hcalm, hab, hreach, hslave, -, hcase⟩ := harr
    have hbus (p : Bool) := Dev.busStore_reg (bs := marked (leBytes 4 v.toNat) p) ha hr rfl hreach hslave
    simp only [exec_registerWrite]
    refine ⟨fun haon hab' hcalm' => ?_, fun haon hpend => ?_, became s s.core (s.dev.regPoison m a.toNat), ?_, rfl, rfl, ?_⟩
    · refine State.onDev_eq ?_ hcalm'
      rw [hbus, Dev.regStore_core hcase haon, Dev.chansAbort_of_noAbort hab']
    · obtain ⟨hcalm', hab'⟩ := Dev.aonPend_asks (s.dev.aonPend ++ [⟨a.toNat, v, m, s.dev.epoch⟩]) hcalm hab
      refine State.onDev_eq ?_ hcalm'
      rw [hbus, Dev.regStore_aon hcase haon hpend, Dev.chansAbort_of_noAbort hab']
    · refine State.onDev_eq ?_ (Dev.regPoison_calm m _ hcalm)
      rw [hbus, Dev.regStore_poisoned, Dev.chansAbort_of_noAbort (Dev.regPoison_noAbort m _ hab)]
    · refine ⟨?_, fun hon => ?_, fun h1 h2 => ?_⟩
      · rw [became, Dev.get_regPoison _ _ _ (by decide)]
        exact s.dev.trbl_poisonWrite _ m
      · rw [became, Dev.get_regPoison _ _ _ (by decide)]
        exact s.dev.poisonWr_poisonWrite _ m hon
      · rw [became, Dev.reg_regPoison _ _ (.inl rfl)]
        exact s.dev.reg_poisonWrite _ m h1 h2
  · rw [exec_aonStoreComplete]
    exact State.onDev_eq (Dev.aonStoreCompleteOp_cons hpend hq) hcalm
  · have ha : ctxWord i 0x80 % 4 = 0 := by simp only [ctxWord]; omega
    have hr : isRegAddr (ctxWord i 0x80) = true := by rw [isRegAddr, decide_eq_true_eq, ctxWord]; omega
    rw [hi] at hpend hchk hreach hslave
    have hlatched (w : Word) : (s.dev.latch m (ctxWord i 0x84) w).highOf m (ctxWord i 0x84) = some w :=
      Dev.highOf_latch _ _ _ _
    have hhigh (w : Word) := Dev.regRead_high _ m i (hlatched w)
    rw [exec_counterLatchRead]
    refine ⟨became s s.core (s.dev.latch m (ctxWord i 0x84) (s.dev.reg (ctxWord i 0x84))), ?_, rfl, rfl, hlatched _, rfl,
      congrArg Prod.snd (hhigh _), ?_⟩
    · refine State.onDev_eq ?_ hcalm
      rw [hi, Dev.busLoad_reg ha hr hreach hslave, Dev.aonComplete_of_none hpend, Dev.wordRead_count m i hchk]
    · rw [became, hhigh]
      exact Dev.highOf_unlatch _ _ _

end Sys2Proof.Machine
end

section
/-! PROOFS. The counterexample to the statement about resets: a claim that a core reset does not leave. -/
namespace Sys2Proof.Machine
open Sys2Proof.Claims

/-! ### A core reset takes a claim of Handpump's (R35, R352) -/

/-- A device in HOST, its domains on and filled: a command of the reader is with firmware (R352), and Handpump, master 12,
holds the Cistern port, which Vault may claim on its behalf (R33). -/
def portHeldForHandpump : Dev :=
  { Dev.reset with
    dom := 0xFF
    filled := Vector.replicate 3 true
    xtal := true
    pll := true
    regs := [(F.SYS_STATE.addr, 3), (F.WH_STAT_HOST_GOOD.addr, 1), (F.RFIF_FW_CMD_VALID.addr, 0x80000000)]
    own := [(0x40, 12)]
    hp := { Hp.reset with loaded := true, fw := some ⟨⟨0, 0xCA, 0, 0, [], 256, false⟩, [], 0, 0⟩ } }

theorem portHeldForHandpump_arrives : Arrives portHeldForHandpump 2 F.SYS_CORE_RESET_KEY.addr 0xA55A := by decide

/-- The write of CORE_RESET asks for the core's reset and leaves the owners alone. -/
theorem portHeldForHandpump_written :
    portHeldForHandpump.write 2 F.SYS_CORE_RESET_KEY.addr 0xA55A = { portHeldForHandpump with coreResetReq := true } := by
  decide

/-- The core follows: its reset answers the command that is with firmware, and the answer's end gives the port back. -/
theorem portHeldForHandpump_lost :
    (State.settle { State.reset with dev := { portHeldForHandpump with coreResetReq := true } }).dev.owner 0x40 =
      ownFree := by
  decide +kernel

theorem exec_coreReset (m : Master) (v : Word) (s : State) :
    exec (.coreReset m v) s = s.onDev fun d => d.write m F.SYS_CORE_RESET_KEY.addr v := rfl

/-- Refutes O23: a core reset ends the command that is with firmware, and the end of a command gives back the Cistern port
where Handpump, master 12, holds it. The statement has every claim but those of masters 0 to 2 persist. -/
theorem not_resets : ¬Obligations.Resets := by
  unfold Obligations.Resets
  intro h
  obtain ⟨t, ht, -, -, -, -, -, -, -, -, -, -, howner⟩ :=
    (h { State.reset with dev := portHeldForHandpump } 2).1 portHeldForHandpump_arrives rfl
  have hheld : portHeldForHandpump.owner 0x40 = 12 := by decide
  have hkept : t.dev.owner 0x40 = 12 := (howner 0x40 (by decide)).trans (by rw [hheld]; decide)
  have hlost : t.dev.owner 0x40 = ownFree := by
    rw [exec_coreReset, State.onDev, portHeldForHandpump_written] at ht
    rw [← Host.Outcome.next.inj ht]
    exact portHeldForHandpump_lost
  rw [hkept] at hlost
  exact absurd hlost (by decide)

end Sys2Proof.Machine
end

section
/-! PROOFS. The state after reset, and the counterexample to the statement about events and the watchdog: a store that waits
in the store buffer when the watchdog expires. -/
namespace Sys2Proof.Machine
open Sys2Proof.Claims

/-- Settles O19: every register of the core is at its Reset value, and nothing has been asked of it. -/
theorem resetIsLegal : Obligations.ResetIsLegal := by
  unfold Obligations.ResetIsLegal
  have hlegal : CoreLegal State.reset.core := by decide
  have hsettled : Settled State.reset := by decide
  exact ⟨hlegal, hsettled, rfl, by decide, rfl, rfl, by decide, by decide⟩

/-! ### The watchdog expires while a store waits (R193, R389, R416) -/

/-- A device in HOST, its domains on and filled, whose watchdog has counted out its 9 ms (R388); a word that Vault has
stored to SRAM bank 0 waits in the store buffer. -/
def expiredWithStore : Dev :=
  { Dev.reset with
    dom := 0xFF
    filled := Vector.replicate 3 true
    xtal := true
    pll := true
    regs := [(F.SYS_STATE.addr, 3), (F.WH_STAT_HOST_GOOD.addr, 1), (F.WDOG_CTL_EN.addr, 0x80000009)]
    wdog := ⟨9003907, none⟩
    sbuf := [⟨0x10004000, 4, 0x12345678, 0, 2, 0⟩] }

theorem expiredWithStore_expired :
    expiredWithStore.calm ∧ expiredWithStore.wdogExpired = true ∧ wdogCounts expiredWithStore.opState = true ∧
      expiredWithStore.flag F.WDOG_STAT_ESCALATE = false ∧ expiredWithStore.filled[0] = true := by
  decide

/-- The expiry resets the core, and a core reset performs the stores that wait before it: the word is in memory. -/
theorem expiredWithStore_stored :
    (State.settle ⟨Core.reset, expiredWithStore.wdogExpiryOp, []⟩).dev.ram ≠ expiredWithStore.ram := by
  decide +kernel

theorem exec_wdogExpiry (s : State) : exec .wdogExpiry s = s.onDev fun d => d.wdogExpiryOp := rfl

/-- Refutes O53: the watchdog's first expiry resets the core, which first performs the stores that wait in the store buffer.
The statement has the RAM unchanged. -/
theorem not_eventsAndWatchdog : ¬Obligations.EventsAndWatchdog := by
  unfold Obligations.EventsAndWatchdog
  rintro ⟨-, hwdog, -⟩
  obtain ⟨-, -, hexpiry⟩ := hwdog ⟨Core.reset, expiredWithStore, []⟩
  obtain ⟨hcalm, hexp, hcounts, hesc, hfilled⟩ := expiredWithStore_expired
  obtain ⟨t, ht, ⟨-, hram⟩, -⟩ := (hexpiry hcalm hexp hcounts).2 hesc hfilled
  rw [exec_wdogExpiry, State.onDev] at ht
  rw [← Host.Outcome.next.inj ht] at hram
  dsimp only at hram
  exact expiredWithStore_stored hram

end Sys2Proof.Machine
end

section
/-! PROOFS. A word that arrives at a register of CORE (R8, R224, R235), and the statement about ownership. -/
namespace Sys2Proof.Machine
open Sys2Proof.Claims

/-! ### Which fields a word that arrives reaches (R235) -/

/-- In a write that is no FIELD case the writer reaches every field that the word means to change. -/
theorem Dev.reached_of_meant {d : Dev} {m : Master} {a w : Nat} {f : Fld} (h : d.fieldCase m a w = false)
    (hf : f ∈ fieldsAt a) (hw : f.owner ≠ .hw) (hmeant : d.fieldMeant a w f = true) :
    f.owner.reached (masterLevel m) = true := by
  have hnot := List.any_eq_false.1 h f hf
  simpa [hw, hmeant] using hnot

theorem Dev.writeField_wo (d : Dev) (m : Master) (a w : Nat) (x : Dev × Nat) {f : Fld} (h : f.acc = .wo)
    (hr : f.owner.reached (masterLevel m) = true) :
    d.writeField m a w x f = (x.1, x.2 + bitsOf w f.hi f.lo <<< f.lo) := by
  simp [Dev.writeField, h, hr]

/-! ### The channels and the core are asked for nothing (R136) -/

/-- Ends of descriptors follow from the channels and their CH_CTRL registers alone. -/
theorem noAbort_of_eq {d e : Dev} (h : noAbort d) (hchans : e.chans = d.chans)
    (hreg : ∀ a, a / 0x10000 = 0x4008 → e.reg a = d.reg a) : noAbort e := by
  intro c hc
  rw [hchans] at hc
  have hblock : (chField c F.CH_CTRL_ENABLE).addr / 0x10000 = 0x4008 := by
    simp only [chField, Fl.plus, F.CH_CTRL_ENABLE]
    omega
  rw [← h c hc, Dev.flag, Dev.flag, Dev.get_congr (hreg _ hblock)]

/-- A word that arrives at a register of CORE has the register's effect; nothing else happens where that asks neither the
core nor a channel for anything. -/
theorem Dev.write_of_arrives {d e : Dev} {m : Master} {a : Nat} {v : Word} (h : Arrives d m a v.toNat) (ha : a % 4 = 0)
    (hr : isRegAddr a = true) (haon : isAonReg a = false) (he : d.regEffect m a v = e) (hab : noAbort e) :
    d.write m a v = e := by
  obtain ⟨-, -, hreach, hslave, -, hcase⟩ := h
  rw [Dev.write, Dev.busStore_reg ha hr rfl hreach hslave, Dev.regStore_core hcase haon, he, Dev.chansAbort_of_noAbort hab]

/-- The effect of a word that no rule of the register turns away. -/
theorem Dev.regEffect_of_gate {d : Dev} {m : Master} {a : Nat} {v : Word} {x : Dev × Nat} (h : d.writeGate m a = none)
    (hx : (fieldsAt a).reverse.foldl (d.writeField m a v.toNat) (d, 0) = x) :
    d.regEffect m a v = x.1.regWritten m a (d.reg a).toNat x.2 := by
  subst hx
  rw [Dev.regEffect, h]

/-! ### Owners (R33 to R38) -/

theorem Dev.owner_eq {d e : Dev} (h : e.own = d.own) (i : Nat) : e.owner i = d.owner i := by
  rw [Dev.owner, Dev.owner, h]

/-- A change of owner changes no other owner. -/
theorem Dev.owner_changeOwner (d : Dev) (i j : Nat) (o : BitVec 5) :
    (d.changeOwner i o).owner j = if j = i then o else d.owner j := by
  by_cases hsame : d.owner i = o
  · rw [Dev.changeOwner, if_pos hsame]
    split_ifs with hj
    · rw [hj, hsame]
    · rfl
  · have hown : (d.changeOwner i o).own = (d.setOwner i o).own := by
      rw [Dev.changeOwner, if_neg hsame]
      dsimp only
      split_ifs <;> rfl
    rw [Dev.owner_eq hown]
    split_ifs with hj
    · rw [hj, Dev.owner_setOwner_same]
    · exact Dev.owner_setOwner_ne d o hj

/-- Beside the owner, a change of owner touches the time unit's PPS enables and the Cistern port's buffers (R155, R323). -/
theorem Dev.changeOwner_eq (d : Dev) (i : Nat) (o : BitVec 5) :
    d.changeOwner i o = { d with own := (d.changeOwner i o).own, regs := (d.changeOwner i o).regs
                                 tu := (d.changeOwner i o).tu
                                 cst := { d.cst with clearDue := (d.changeOwner i o).cst.clearDue } } := by
  unfold Dev.changeOwner
  dsimp only
  split_ifs <;> rfl

theorem Dev.reg_changeOwner (d : Dev) (i : Nat) (o : BitVec 5) {a : Nat} (h : a ≠ F.TIME_PPS_CFG_IN_EN.addr) :
    (d.changeOwner i o).reg a = d.reg a := by
  unfold Dev.changeOwner
  dsimp only
  split_ifs
  · rfl
  · exact Dev.reg_put_ne _ _ _ h
  · exact Dev.reg_put_ne (d.setOwner i o) _ _ h
  · rfl
  · rfl

theorem Dev.claimConflict_eq (d : Dev) (i q : Nat) :
    d.claimConflict i q = { d with regs := (d.claimConflict i q).regs, evt := (d.claimConflict i q).evt } := by
  unfold Dev.claimConflict Dev.event
  split <;> rfl

theorem Dev.reg_claimConflict (d : Dev) (i q : Nat) {a : Nat} (h : a ≠ F.EVT_TRBL_TRBL.addr) :
    (d.claimConflict i q).reg a = d.reg a := by
  rw [Dev.claimConflict, Dev.reg_event, Dev.reg_trouble_ne _ _ h]

theorem Dev.trbl_claimConflict (d : Dev) (i q : Nat) :
    bitAt ((d.claimConflict i q).get F.EVT_TRBL_TRBL) tCLAIM = true := by
  rw [Dev.claimConflict, Dev.get_event]
  exact Dev.trbl_trouble _ (by decide)

/-- Neither asks the core or a channel for anything. -/
theorem Dev.changeOwner_asks {d : Dev} (i : Nat) (o : BitVec 5) (hcalm : d.calm) (hab : noAbort d) :
    (d.changeOwner i o).calm ∧ noAbort (d.changeOwner i o) := by
  refine ⟨?_, noAbort_of_eq hab (by rw [Dev.changeOwner_eq]) fun a ha => Dev.reg_changeOwner _ _ _ ?_⟩
  · rw [Dev.changeOwner_eq]
    exact hcalm
  · rintro rfl
    exact absurd ha (by decide)

theorem Dev.claimConflict_asks {d : Dev} (i q : Nat) (hcalm : d.calm) (hab : noAbort d) :
    (d.claimConflict i q).calm ∧ noAbort (d.claimConflict i q) := by
  refine ⟨?_, noAbort_of_eq hab (by rw [Dev.claimConflict_eq]) fun a ha => Dev.reg_claimConflict _ _ _ ?_⟩
  · rw [Dev.claimConflict_eq]
    exact hcalm
  · rintro rfl
    exact absurd ha (by decide)

theorem Dev.regView_ownResult (d : Dev) (m : Master) :
    d.regView m F.SYS_OWN_RESULT_STATUS.addr = Sparse.get (fun _ => 0x1F0000) m.val d.ownResult := by
  unfold Dev.regView
  dsimp only
  rw [if_neg (by decide), if_pos rfl]

/-! ### A request at OWN_CLAIM (R33, R38) -/

/-- The word of a request: the master that it is for, the operation and the resource. -/
def ownRequest (owner op res : Nat) : Nat := owner * 2 ^ 16 + op * 2 ^ 8 + res

theorem ownRequest_bits {owner op res : Nat} (ho : owner < 32) (hop : op < 4) (hres : res < 256) :
    bitsOf (ownRequest owner op res) 20 16 = owner ∧ bitsOf (ownRequest owner op res) 9 8 = op ∧
      ownRequest owner op res % 256 = res := by
  simp only [bitsOf_eq, ownRequest]
  omega

/-- A request that arrives reaches all three fields of OWN_CLAIM. -/
theorem Dev.ownClaim_fields {d : Dev} {m : Master} {owner op res : Nat} (ho : owner < 32) (hop : op < 4) (hop0 : op ≠ 0)
    (hres : res < 256) (hcase : d.fieldCase m F.SYS_OWN_CLAIM_RES.addr (ownRequest owner op res) = false) :
    (fieldsAt F.SYS_OWN_CLAIM_RES.addr).reverse.foldl
      (d.writeField m F.SYS_OWN_CLAIM_RES.addr (ownRequest owner op res)) (d, 0) = (d, ownRequest owner op res) := by
  obtain ⟨hbo, hbop, hbres⟩ := ownRequest_bits ho hop hres
  have hfields : fieldsAt F.SYS_OWN_CLAIM_RES.addr =
      [⟨0x40000020, 20, 16, .wo, 0x1f, .keep, .supervisor⟩, ⟨0x40000020, 9, 8, .wo, 0x0, .keep, .supervisor⟩,
        ⟨0x40000020, 7, 0, .wo, 0x0, .keep, .supervisor⟩] := by decide
  have hreached : Owner.supervisor.reached (masterLevel m) = true := by
    refine Dev.reached_of_meant (f := ⟨0x40000020, 9, 8, .wo, 0x0, .keep, .supervisor⟩) hcase (by rw [hfields]; simp)
      nofun ?_
    have hval : woIgnored ⟨0x40000020, 9, 8, .wo, 0x0, .keep, .supervisor⟩ op = false := rfl
    simp [Dev.fieldMeant, hbop, hop0, hval]
  have hbres' : bitsOf (ownRequest owner op res) 7 0 = res := by rw [bitsOf_eq]; simpa using hbres
  rw [hfields]
  simp only [List.reverse_cons, List.reverse_nil, List.nil_append, List.cons_append, List.foldl_cons, List.foldl_nil]
  iterate 3 rw [Dev.writeField_wo d m _ _ _ rfl hreached]
  simp only [hbo, hbop, hbres', Nat.shiftLeft_eq, Prod.mk.injEq, true_and]
  rw [ownRequest]
  omega

/-- The device with the outcome of a request in OWN_RESULT. -/
def Dev.ownAnswered (d : Dev) (m : Master) (st res : Nat) : Dev :=
  { d with ownResult := Sparse.ins m.val (ownResultWord st res (if st = 3 then ownFree else d.owner res)) d.ownResult }

/-- What a request does: it changes the owner, reports the conflict, or leaves its outcome alone. -/
theorem Dev.ownClaimWritten_eq (d : Dev) (m : Master) {owner op res : Nat} (ho : owner < 32) (hop : op < 4) (hop0 : op ≠ 0)
    (hres : res < 256) :
    let me := if owner = 0x1F then BitVec.ofNat 5 m.val else BitVec.ofNat 5 owner
    let st := d.ownStatus m op owner res
    d.ownClaimWritten m (ownRequest owner op res) =
      if st = 0 then (d.ownAnswered m st res).changeOwner res (if op = 1 then me else ownFree)
      else if st = 1 then (d.ownAnswered m st res).claimConflict res me.toNat
      else d.ownAnswered m st res := by
  obtain ⟨hbo, hbop, hbres⟩ := ownRequest_bits ho hop hres
  dsimp only
  rw [Dev.ownClaimWritten]
  simp only [hbo, hbop, hbres, if_neg hop0]
  rfl

/-- What a request leaves for the bus: the core and the channels are asked for nothing. -/
theorem Dev.ownClaimWritten_asks {d : Dev} (m : Master) {owner op res : Nat} (ho : owner < 32) (hop : op < 4) (hop0 : op ≠ 0)
    (hres : res < 256) (hcalm : d.calm) (hab : noAbort d) :
    (d.ownClaimWritten m (ownRequest owner op res)).calm ∧ noAbort (d.ownClaimWritten m (ownRequest owner op res)) := by
  have hans (st : Nat) : (d.ownAnswered m st res).calm ∧ noAbort (d.ownAnswered m st res) := ⟨hcalm, hab⟩
  have h := d.ownClaimWritten_eq m ho hop hop0 hres
  dsimp only at h
  rw [h]
  obtain ⟨hcalm', hab'⟩ := hans (d.ownStatus m op owner res)
  split
  · exact Dev.changeOwner_asks _ _ hcalm' hab'
  · split
    · exact Dev.claimConflict_asks _ _ hcalm' hab'
    · exact ⟨hcalm', hab'⟩

/-- The status of a request stands in the requester's OWN_RESULT. -/
theorem Dev.regView_ownClaimWritten (d : Dev) (m : Master) {owner op res : Nat} (ho : owner < 32) (hop : op < 4)
    (hop0 : op ≠ 0) (hres : res < 256) :
    (d.ownClaimWritten m (ownRequest owner op res)).regView m F.SYS_OWN_RESULT_STATUS.addr =
      ownResultWord (d.ownStatus m op owner res) res
        (if d.ownStatus m op owner res = 3 then ownFree else d.owner res) := by
  have hans (st : Nat) : Sparse.get (fun _ => 0x1F0000) m.val (d.ownAnswered m st res).ownResult =
      ownResultWord st res (if st = 3 then ownFree else d.owner res) := Sparse.get_ins_same _ _ _ _
  have h := d.ownClaimWritten_eq m ho hop hop0 hres
  dsimp only at h
  rw [Dev.regView_ownResult, h, ← hans]
  split
  · rw [Dev.changeOwner_eq]
  · split
    · rw [Dev.claimConflict_eq]
    · rfl

/-- A request changes the owner of its resource at most, and only where it is granted. -/
theorem Dev.owner_ownClaimWritten (d : Dev) (m : Master) {owner op res : Nat} (ho : owner < 32) (hop : op < 4)
    (hop0 : op ≠ 0) (hres : res < 256) (i : Nat) :
    (d.ownClaimWritten m (ownRequest owner op res)).owner i =
      if i = res then
        if d.ownStatus m op owner res = 0 then
          if op = 1 then if owner = 0x1F then BitVec.ofNat 5 m.val else BitVec.ofNat 5 owner else ownFree
        else d.owner res
      else d.owner i := by
  have h := d.ownClaimWritten_eq m ho hop hop0 hres
  dsimp only at h
  rw [h]
  have hsame : d.owner i = if i = res then d.owner res else d.owner i := by
    split_ifs with hi
    · rw [hi]
    · rfl
  split
  · exact Dev.owner_changeOwner _ _ _ _
  · split
    · rw [Dev.owner_eq (e := Dev.claimConflict _ _ _) (by rw [Dev.claimConflict_eq])]
      exact hsame
    · exact hsame

theorem Dev.trbl_ownClaimWritten {d : Dev} {m : Master} {owner op res : Nat} (ho : owner < 32) (hop : op < 4)
    (hop0 : op ≠ 0) (hres : res < 256) (hst : d.ownStatus m op owner res = 1) :
    bitAt ((d.ownClaimWritten m (ownRequest owner op res)).get F.EVT_TRBL_TRBL) tCLAIM = true := by
  have h := d.ownClaimWritten_eq m ho hop hop0 hres
  dsimp only at h
  rw [h, if_neg (by omega), if_pos hst]
  exact Dev.trbl_claimConflict _ _ _

/-- A request that arrives is served. -/
theorem State.ownRequest_served {s : State} {m : Master} {owner op res : Nat} {w : Word} (ho : owner < 32) (hop : op < 4)
    (hop0 : op ≠ 0) (hres : res < 256) (hw : w.toNat = ownRequest owner op res)
    (h : Arrives s.dev m F.SYS_OWN_CLAIM_RES.addr (ownRequest owner op res)) :
    (s.onDev fun d => d.write m F.SYS_OWN_CLAIM_RES.addr w) =
      .next (became s s.core (s.dev.ownClaimWritten m (ownRequest owner op res))) := by
  obtain ⟨hcalm, hab, -, -, hgate, hcase⟩ := id h
  obtain ⟨hcalm', hab'⟩ := Dev.ownClaimWritten_asks m ho hop hop0 hres hcalm hab
  rw [← hw] at h
  refine State.onDev_eq (Dev.write_of_arrives h rfl rfl rfl ?_ hab') hcalm'
  have hfields := Dev.ownClaim_fields ho hop hop0 hres hcase
  rw [← hw] at hfields
  rw [Dev.regEffect_of_gate hgate hfields, hw]
  rfl

/-- What a served request leaves: the core and the queue as they were, the result, and the owners. -/
theorem State.ownRequest_after {s : State} {m : Master} {owner op res st : Nat} {o : BitVec 5} (ho : owner < 32)
    (hop : op < 4) (hop0 : op ≠ 0) (hres : res < 256) (hst : s.dev.ownStatus m op owner res = st)
    (hown : (if st = 0 then
        if op = 1 then if owner = 0x1F then BitVec.ofNat 5 m.val else BitVec.ofNat 5 owner else ownFree
      else s.dev.owner res) = o) :
    let t := became s s.core (s.dev.ownClaimWritten m (ownRequest owner op res))
    t.core = (became s s.core t.dev).core ∧ t.pending = s.pending ∧
      t.dev.regView m F.SYS_OWN_RESULT_STATUS.addr =
        ownResultWord st res (if st = 3 then ownFree else s.dev.owner res) ∧
      ∀ i, i < 256 → t.dev.owner i = if i = res then o else s.dev.owner i := by
  subst hst hown
  exact ⟨rfl, rfl, s.dev.regView_ownClaimWritten m ho hop hop0 hres,
    fun i _ => s.dev.owner_ownClaimWritten m ho hop hop0 hres i⟩

/-! ### The table of R33: the status of a request -/

section
variable {d : Dev} {m : Master} {op owner res : Nat}

theorem Dev.ownStatus_unused (h : resourceInit res = none) : d.ownStatus m op owner res = 3 := by
  simp [Dev.ownStatus, h]

/-- A claim for oneself is granted where the resource is free or one's own. -/
theorem Dev.ownStatus_claim (h : resourceInit res ≠ none) :
    d.ownStatus m 1 0x1F res = if d.owner res = ownFree ∨ d.owner res = BitVec.ofNat 5 m.val then 0 else 1 := by
  obtain ⟨⟨o, rel⟩, h⟩ := Option.ne_none_iff_exists'.1 h
  have hme : d.owner res = BitVec.ofNat 5 m.val ↔ (d.owner res).toNat = m.val := by
    rw [← BitVec.toNat_inj, BitVec.toNat_ofNat, Nat.mod_eq_of_lt (by omega)]
  simp [Dev.ownStatus, h, hme]

/-- A release by oneself: the permanent resources refuse it, and another's is not one's own to release. -/
theorem Dev.ownStatus_release {o : BitVec 5} {rel : Bool} (h : resourceInit res = some (o, rel)) :
    d.ownStatus m 2 0x1F res =
      if rel = false then 4 else if d.owner res = BitVec.ofNat 5 m.val then 0 else 2 := by
  have hme : d.owner res = BitVec.ofNat 5 m.val ↔ (d.owner res).toNat = m.val := by
    rw [← BitVec.toNat_inj, BitVec.toNat_ofNat, Nat.mod_eq_of_lt (by omega)]
  simp [Dev.ownStatus, h, hme]

/-- A forced release is Vault's alone. -/
theorem Dev.ownStatus_force {o : BitVec 5} {rel : Bool} (h : resourceInit res = some (o, rel)) :
    d.ownStatus m 3 0x1F res = if m.val ≠ 2 ∨ rel = false then 4 else 0 := by
  by_cases hm : m.val = 2 <;> simp [Dev.ownStatus, h, hm]

/-- A claim on another master's behalf is Vault's alone, for the masters that are not the core's. -/
theorem Dev.ownStatus_claim_for {o : BitVec 5} (h : resourceInit res ≠ none) (ho : o ≠ 0x1F) :
    d.ownStatus m 1 o.toNat res =
      if m.val ≠ 2 ∨ o.toNat < 3 ∨ 0x10 < o.toNat then 4 else if d.owner res = ownFree ∨ d.owner res = o then 0 else 1 := by
  obtain ⟨⟨o', rel⟩, h⟩ := Option.ne_none_iff_exists'.1 h
  have ho' : o.toNat ≠ 0x1F := fun e => ho (BitVec.eq_of_toNat_eq e)
  have hme : d.owner res = o ↔ (d.owner res).toNat = o.toNat := BitVec.toNat_inj.symm
  by_cases hm : m.val = 2
  · simp [Dev.ownStatus, h, hm, hme, ho']
  · simp [Dev.ownStatus, h, hm, ho']

end

theorem exec_claim (m : Master) (o : BitVec 5) (res : Byte) (s : State) : exec (.claim m o res) s =
    s.onDev fun d => d.write m F.SYS_OWN_CLAIM_RES.addr (BitVec.ofNat 32 (ownRequest o.toNat 1 res.toNat)) := rfl

theorem exec_release (m : Master) (o : BitVec 5) (res : Byte) (s : State) : exec (.release m o res) s =
    s.onDev fun d => d.write m F.SYS_OWN_CLAIM_RES.addr (BitVec.ofNat 32 (ownRequest o.toNat 2 res.toNat)) := rfl

theorem exec_forceRelease (m : Master) (o : BitVec 5) (res : Byte) (s : State) : exec (.forceRelease m o res) s =
    s.onDev fun d => d.write m F.SYS_OWN_CLAIM_RES.addr (BitVec.ofNat 32 (ownRequest o.toNat 3 res.toNat)) := rfl

/-- Settles O24: a request that arrives reaches all three fields of OWN_CLAIM, and its status decides what it does. -/
theorem ownership : Obligations.Ownership := by
  unfold Obligations.Ownership
  intro s m res
  have hres : res.toNat < 256 := res.isLt
  have hserved (owner op : Nat) (ho : owner < 32) (hop : op < 4) (hop0 : op ≠ 0) :=
    State.ownRequest_served (s := s) (m := m) (w := BitVec.ofNat 32 (ownRequest owner op res.toNat)) ho hop hop0 hres
      (by rw [BitVec.toNat_ofNat, Nat.mod_eq_of_lt]; rw [ownRequest]; omega)
  have hafter (owner op st : Nat) (o : BitVec 5) (ho : owner < 32) (hop : op < 4) (hop0 : op ≠ 0) :=
    State.ownRequest_after (s := s) (m := m) (st := st) (o := o) ho hop hop0 hres
  have htrbl (owner op : Nat) (ho : owner < 32) (hop : op < 4) (hop0 : op ≠ 0) :=
    Dev.trbl_ownClaimWritten (d := s.dev) (m := m) ho hop hop0 hres
  refine ⟨fun h => ⟨became s s.core (s.dev.ownClaimWritten m (ownRequest 31 1 res.toNat)), ?_, ?_, ?_, ?_⟩,
    fun h => ⟨became s s.core (s.dev.ownClaimWritten m (ownRequest 31 2 res.toNat)), ?_, ?_, ?_, ?_, ?_⟩,
    fun h => ⟨became s s.core (s.dev.ownClaimWritten m (ownRequest 31 3 res.toNat)), ?_, ?_, ?_, ?_⟩,
    fun o ho h => ⟨became s s.core (s.dev.ownClaimWritten m (ownRequest o.toNat 1 res.toNat)), ?_, ?_, ?_, ?_⟩⟩
  · exact hserved 31 1 (by decide) (by decide) (by decide) h
  · intro hnone
    exact hafter 31 1 3 _ (by decide) (by decide) (by decide) (Dev.ownStatus_unused hnone) rfl
  · intro hsome hfree
    refine hafter 31 1 0 _ (by decide) (by decide) (by decide) ?_ rfl
    rw [Dev.ownStatus_claim hsome, if_pos hfree]
  · intro hsome hfree hme
    have hst : s.dev.ownStatus m 1 31 res.toNat = 1 := by
      rw [Dev.ownStatus_claim hsome, if_neg (not_or.2 ⟨hfree, hme⟩)]
    exact ⟨hafter 31 1 1 _ (by decide) (by decide) (by decide) hst rfl,
      htrbl 31 1 (by decide) (by decide) (by decide) hst⟩
  · exact hserved 31 2 (by decide) (by decide) (by decide) h
  · intro hnone
    exact hafter 31 2 3 _ (by decide) (by decide) (by decide) (Dev.ownStatus_unused hnone) rfl
  · intro o hinit
    refine hafter 31 2 4 _ (by decide) (by decide) (by decide) ?_ rfl
    rw [Dev.ownStatus_release hinit, if_pos rfl]
  · intro o hinit hme
    refine hafter 31 2 0 _ (by decide) (by decide) (by decide) ?_ rfl
    rw [Dev.ownStatus_release hinit, if_neg nofun, if_pos hme]
  · intro o hinit hme
    refine hafter 31 2 2 _ (by decide) (by decide) (by decide) ?_ rfl
    rw [Dev.ownStatus_release hinit, if_neg nofun, if_neg hme]
  · exact hserved 31 3 (by decide) (by decide) (by decide) h
  · intro hnone
    exact hafter 31 3 3 _ (by decide) (by decide) (by decide) (Dev.ownStatus_unused hnone) rfl
  · intro o rel hinit hrefused
    refine hafter 31 3 4 _ (by decide) (by decide) (by decide) ?_ rfl
    rw [Dev.ownStatus_force hinit, if_pos hrefused]
  · intro o hinit hm
    refine hafter 31 3 0 _ (by decide) (by decide) (by decide) ?_ rfl
    rw [Dev.ownStatus_force hinit, if_neg (by simp [hm])]
  · exact hserved o.toNat 1 o.isLt (by decide) (by decide) h
  · intro hnone
    exact hafter o.toNat 1 3 _ o.isLt (by decide) (by decide) (Dev.ownStatus_unused hnone) rfl
  · intro hsome hm
    refine hafter o.toNat 1 4 _ o.isLt (by decide) (by decide) ?_ rfl
    rw [Dev.ownStatus_claim_for hsome ho, if_pos (.inl hm)]
  · intro hsome hm hlo hhi
    have hst := Dev.ownStatus_claim_for (d := s.dev) (m := m) hsome ho
    rw [if_neg (by omega)] at hst
    have hne : o.toNat ≠ 31 := fun e => ho (BitVec.eq_of_toNat_eq e)
    refine ⟨fun hfree => ?_, fun hfree hme => ?_⟩
    · rw [if_pos hfree] at hst
      exact hafter o.toNat 1 0 _ o.isLt (by decide) (by decide) hst
        (by rw [if_pos rfl, if_pos rfl, if_neg hne, BitVec.ofNat_toNat, BitVec.setWidth_eq])
    · rw [if_neg (not_or.2 ⟨hfree, hme⟩)] at hst
      exact ⟨hafter o.toNat 1 1 _ o.isLt (by decide) (by decide) hst rfl,
        htrbl o.toNat 1 o.isLt (by decide) (by decide) hst⟩

end Sys2Proof.Machine
end

section
/-! PROOFS. What the operations of the state controller leave alone (R13, R16, R22, R25): the supplies' levels, the
non-volatile arrays, the keys, the event issuer, the Cistern's job, and the registers that the controller looks at. -/
namespace Sys2Proof.Machine
open Sys2Proof.Claims

/-! ### The relation -/

/-- The registers that the state controller reads and writes: STATE, the supplies, the event classes, the trouble bits and
the last reset's cause. -/
def powerRegs : List Nat :=
  [F.SYS_STATE.addr, F.WH_STAT_MARK.addr, F.EVT_CFG_CLASS_EN.addr, F.EVT_TRBL_TRBL.addr, F.EVT_RESET_CAUSE.addr]

/-- The device with other domains on. -/
def Dev.withDom (d : Dev) (x : BitVec 8) : Dev := { d with dom := x }

/-- `e` is as `d` in all that a transition of the state controller depends on or keeps, and in the registers of `L`. -/
structure Dev.Steady (L : List Nat) (d e : Dev) : Prop where
  env : e.env = d.env
  dom : e.dom = d.dom
  flash : e.flash = d.flash
  cstArray : e.cstArray = d.cstArray
  slots : e.slots = d.slots
  esn : e.evt.esn = d.evt.esn
  queue : e.evt.queue = d.evt.queue
  job : d.cst.job = none → e.cst.job = none
  resetReq : e.coreResetReq = d.coreResetReq
  stopReq : e.coreStopReq = d.coreStopReq
  sbuf : e.sbuf = d.sbuf
  reg : ∀ a ∈ L, e.reg a = d.reg a

namespace Dev.Steady
variable {L : List Nat} {d e g : Dev}

theorem refl (L : List Nat) (d : Dev) : Dev.Steady L d d :=
  ⟨rfl, rfl, rfl, rfl, rfl, rfl, rfl, id, rfl, rfl, rfl, fun _ _ => rfl⟩

theorem trans (h : Dev.Steady L d e) (h' : Dev.Steady L e g) : Dev.Steady L d g :=
  ⟨h'.env.trans h.env, h'.dom.trans h.dom, h'.flash.trans h.flash, h'.cstArray.trans h.cstArray, h'.slots.trans h.slots,
    h'.esn.trans h.esn, h'.queue.trans h.queue, h'.job ∘ h.job, h'.resetReq.trans h.resetReq,
    h'.stopReq.trans h.stopReq, h'.sbuf.trans h.sbuf, fun a ha => (h'.reg a ha).trans (h.reg a ha)⟩

theorem mono {L' : List Nat} (h : Dev.Steady L d e) (hL : ∀ a ∈ L', a ∈ L) : Dev.Steady L' d e :=
  { h with reg := fun a ha => h.reg a (hL a ha) }

/-- The same domains go off on both sides. -/
theorem maskDom (h : Dev.Steady L d e) (x : BitVec 8) :
    Dev.Steady L (d.withDom (d.dom &&& x)) (e.withDom (e.dom &&& x)) :=
  { h with dom := congrArg (· &&& x) h.dom }

/-- The same domains come on on both sides. -/
theorem joinDom (h : Dev.Steady L d e) (x : BitVec 8) :
    Dev.Steady L (d.withDom (d.dom ||| x)) (e.withDom (e.dom ||| x)) :=
  { h with dom := congrArg (· ||| x) h.dom }

theorem put (f : Fl) (v : Nat) (hf : f.addr ∉ L) : Dev.Steady L d (d.put f v) :=
  { refl L d with reg := fun a ha => Dev.reg_put_ne _ _ _ (by rintro rfl; exact hf ha) }

theorem dropRegs (p : Nat → Bool) (hp : ∀ a ∈ L, p a = false) : Dev.Steady L d (d.dropRegs p) :=
  { refl L d with reg := fun a ha => by rw [Dev.reg_dropRegs, hp a ha]; rfl }

theorem get (h : Dev.Steady L d e) {f : Fl} (hf : f.addr ∈ L) : e.get f = d.get f := Dev.get_congr (h.reg _ hf)

end Dev.Steady

/-! ### The contactless side, owners and flash -/

theorem Dev.steady_changeOwner (d : Dev) (i : Nat) (o : BitVec 5) : Dev.Steady powerRegs d (d.changeOwner i o) := by
  rw [Dev.changeOwner_eq]
  exact { Dev.Steady.refl powerRegs d with
          reg := fun a ha => Dev.reg_changeOwner d i o (by rintro rfl; exact absurd ha (by decide)) }

theorem Dev.steady_portRelease (d : Dev) : Dev.Steady powerRegs d d.portRelease := by
  unfold Dev.portRelease
  split
  · exact d.steady_changeOwner _ _
  · exact .refl _ d

theorem Dev.steady_setHp (d : Dev) (h : Hp) : Dev.Steady powerRegs d (d.setHp h) :=
  { Dev.Steady.refl powerRegs d with }

theorem Dev.steady_sendNext (d : Dev) (bump : Bool) : Dev.Steady powerRegs d (d.sendNext bump) :=
  (d.steady_setHp _).trans (Dev.steady_setHp _ _)

/-- A response replaces what the contactless side sends, and gives back the Cistern port. -/
theorem Dev.steady_answer (d : Dev) (bs : Bytes) (bump : Bool) : Dev.Steady powerRegs d (d.answer bs bump) := by
  have hport := d.steady_portRelease
  have hend : Dev.Steady powerRegs d d.apduEnd := hport.trans (Dev.steady_setHp _ _)
  unfold Dev.answer
  dsimp only
  split
  · exact hend.trans (Dev.steady_setHp _ _)
  · exact hend.trans ((Dev.steady_setHp _ _).trans (Dev.steady_sendNext _ _))

theorem Dev.steady_status (d : Dev) (a : Apdu) (sw : Nat) : Dev.Steady powerRegs d (d.status a sw) := by
  unfold Dev.status Dev.respond
  split <;> exact d.steady_answer _ _

theorem Dev.steady_fwReset (d : Dev) : Dev.Steady powerRegs d d.fwReset := by
  unfold Dev.fwReset
  split
  · exact .refl _ d
  · have hend : Dev.Steady powerRegs d d.fwEnd :=
      (d.steady_setHp _).trans (.put F.RFIF_FW_CMD_VALID 0 (by decide))
    exact (hend.trans (.put F.RFIF_ERR_FW_LOST 1 (by decide))).trans (Dev.steady_status _ _ _)

theorem Dev.steady_fwLost (d : Dev) : Dev.Steady powerRegs d d.fwLost := by
  unfold Dev.fwLost
  split
  · exact ((d.steady_setHp _).trans (.put F.RFIF_FW_CMD_VALID 0 (by decide))).trans
      (.put F.RFIF_ERR_FW_LOST 1 (by decide))
  · exact .refl _ d

theorem Dev.steady_endSession (d : Dev) : Dev.Steady powerRegs d d.endSession :=
  (d.steady_setHp _).trans (.put F.RFIF_STAT_SESSION 0 (by decide))

theorem Dev.steady_dropOut (d : Dev) : Dev.Steady powerRegs d d.dropOut :=
  { Dev.Steady.refl powerRegs d with }

theorem Dev.steady_endProtocol (d : Dev) (layer : Nat) : Dev.Steady powerRegs d (d.endProtocol layer) := by
  have hport : Dev.Steady powerRegs d d.fwLost.endSession.dropOut.portRelease :=
    ((d.steady_fwLost.trans (Dev.steady_endSession _)).trans (Dev.steady_dropOut _)).trans (Dev.steady_portRelease _)
  have hlayer (x : Dev) : Dev.Steady powerRegs x ((x.setLayer layer).put F.RFIF_STAT_RATE 0) :=
    .trans (.put F.RFIF_STAT_LAYER layer (by decide)) (.put F.RFIF_STAT_RATE 0 (by decide))
  unfold Dev.endProtocol
  dsimp only
  split
  · exact (hport.trans ((Dev.steady_setHp _ _).trans (hlayer _))).trans (.put F.RFIF_STAT_PROTO 0 (by decide))
  · exact hport.trans ((Dev.steady_setHp _ _).trans (hlayer _))

/-- An interrupted flash operation leaves torn words; the words that are stored stay. -/
theorem Dev.steady_tear (d : Dev) (cst erase : Bool) (first words : Nat) :
    Dev.Steady powerRegs d (d.tear cst erase first words) :=
  { Dev.Steady.refl powerRegs d with }

theorem Dev.steady_tears (d : Dev) (page : Nat) (l : List Nat) :
    Dev.Steady powerRegs d (l.foldl (fun y k => y.tear false true (512 * (page / 4) + 128 * k) 128) d) := by
  induction l generalizing d with
  | nil => exact .refl _ d
  | cons k l ih => exact (d.steady_tear _ _ _ _).trans (ih _)

theorem Dev.steady_flashStop (d : Dev) : Dev.Steady powerRegs d d.flashStop := by
  have hjob : Dev.Steady powerRegs d { d with flashJob := none } := { Dev.Steady.refl powerRegs d with }
  unfold Dev.flashStop
  split
  · dsimp only
    split
    · exact hjob.trans (Dev.steady_tears _ _ _)
    · exact hjob.trans (Dev.steady_tear _ _ _ _ _)
  · exact .refl _ d

/-- With no burst under way, ISLE's loss of supply leaves the Cistern's array alone (R25). -/
theorem Dev.steady_cstPowerDown {d : Dev} (h : d.cst.job = none) : Dev.Steady powerRegs d d.cstPowerDown := by
  unfold Dev.cstPowerDown
  rw [h]
  exact { Dev.Steady.refl powerRegs d with job := fun _ => rfl }

/-! ### Domains and resets -/

/-- The core is asked to reset, its store buffer gone with its supply (R20, R26). -/
def Dev.coreLost (d : Dev) : Dev := { d with coreResetReq := true, coreStopReq := false, sbuf := [] }

theorem powerRegs_kept : ∀ a ∈ powerRegs,
    (resetKind a == .device && !inWell a && a / 0x10000 != 0x4009 && !isleFw a) = false ∧
      (resetKind a == .isle || isleFw a) = false ∧ (a / 0x10000 == 0x400D) = false ∧ (a / 0x10000 == 0x400B) = false ∧
      (a / 0x10000 == 0x4020) = false ∧ (a / 0x10000 == 0x4021) = false := by
  decide

theorem Dev.steady_coreLose (d : Dev) : Dev.Steady powerRegs d.coreLost d.coreLose := by
  have hstop : Dev.Steady powerRegs d d.fwReset.flashStop := d.steady_fwReset.trans (Dev.steady_flashStop _)
  have hport : Dev.Steady powerRegs d
      (if d.fwReset.flashStop.owner 0x40 = 12 then d.fwReset.flashStop
        else d.fwReset.flashStop.changeOwner 0x40 ownFree) := by
    split
    · exact hstop
    · exact hstop.trans (Dev.steady_changeOwner _ _ _)
  have hregs := hport.trans (.dropRegs _ fun a ha => (powerRegs_kept a ha).1)
  exact { hregs with resetReq := rfl, stopReq := rfl, sbuf := rfl }

theorem Dev.steady_coreDown (d : Dev) : Dev.Steady powerRegs (d.coreLost.withDom (d.dom &&& 0x07)) d.coreDown :=
  { d.steady_coreLose.maskDom 0x07 with }

theorem Dev.setDom_eq_on (d : Dev) (x : Dom) : d.setDom x true = d.withDom (d.dom ||| BitVec.ofNat 8 (2 ^ x.bit)) := rfl

theorem Dev.setDom_eq_off (d : Dev) (x : Dom) : d.setDom x false = d.withDom (d.dom &&& ~~~BitVec.ofNat 8 (2 ^ x.bit)) := rfl

/-- A domain that is on stays as it is when it is switched on again. -/
theorem Dev.withDom_on {d : Dev} {x : Dom} (h : d.on x = true) : d.withDom (d.dom ||| BitVec.ofNat 8 (2 ^ x.bit)) = d := by
  have hb (b : BitVec 8) : b.getLsbD x.bit = true → b ||| BitVec.ofNat 8 (2 ^ x.bit) = b := by
    cases x <;> revert b <;> decide
  unfold Dev.withDom
  rw [hb d.dom h]

theorem Dev.withDom_off {d : Dev} {x : Dom} (h : d.on x = false) :
    d.withDom (d.dom &&& ~~~BitVec.ofNat 8 (2 ^ x.bit)) = d := by
  have hb (b : BitVec 8) : b.getLsbD x.bit = false → b &&& ~~~BitVec.ofNat 8 (2 ^ x.bit) = b := by
    cases x <;> revert b <;> decide
  unfold Dev.withDom
  rw [hb d.dom h]

theorem Dev.steady_powerIsle (d : Dev) :
    Dev.Steady powerRegs (d.withDom (d.dom ||| 0x04)) d.powerIsle := by
  unfold Dev.powerIsle
  split
  · next hon =>
    rw [show d.withDom (d.dom ||| 0x04) = d from Dev.withDom_on hon]
    exact .refl _ d
  · have hregs : Dev.Steady powerRegs (d.setDom .isle true)
        ((d.setDom .isle true).dropRegs fun a => resetKind a == .isle || isleFw a) :=
      .dropRegs _ fun a ha => (powerRegs_kept a ha).2.1
    exact { hregs with job := fun _ => rfl }

theorem Dev.steady_isleDown {d : Dev} (h : d.cst.job = none) :
    Dev.Steady powerRegs (d.withDom (d.dom &&& 0xFB)) d.isleDown := by
  unfold Dev.isleDown
  split
  · have hend := (Dev.steady_cstPowerDown h).trans ((Dev.steady_fwLost _).trans (Dev.steady_endProtocol _ lyIDLE))
    exact (hend.maskDom 0xFB).trans (Dev.steady_setHp _ _)
  · next hoff =>
    rw [show d.withDom (d.dom &&& 0xFB) = d from Dev.withDom_off (by simpa using hoff)]
    exact .refl _ d

/-! ### The links -/

theorem portField_addr (p : Port) (f : Fl) : (portField p f).addr = f.addr + match p with | .a => 0 | .b => 0x10000 := by
  cases p <;> rfl

/-- The fields of LINKx_STAT. -/
theorem Dev.steady_linkPut (d : Dev) (p : Port) {f : Fl} (v : Nat) (h : f.addr = F.LINK_STAT_LINK_UP.addr) :
    Dev.Steady powerRegs d (d.linkPut p f v) := by
  have hf : (portField p f).addr ∉ powerRegs := by
    rw [portField_addr, h]
    cases p <;> decide
  unfold Dev.linkPut
  split
  · exact .refl _ d
  · have hput : Dev.Steady powerRegs d (d.put (portField p f) v) := .put _ _ hf
    exact { hput with }

theorem Dev.steady_setLink (d : Dev) (p : Port) (x : Link) : Dev.Steady powerRegs d (d.setLink p x) := by
  cases p <;> exact { Dev.Steady.refl powerRegs d with }

theorem Dev.steady_linkFall (d : Dev) (p : Port) : Dev.Steady powerRegs d (d.linkFall p) :=
  ((d.steady_linkPut p (f := F.LINK_STAT_LINK_UP) 0 rfl).trans
    (Dev.steady_linkPut _ p (f := F.LINK_STAT_AN_DONE) 0 rfl)).trans
    (Dev.steady_linkPut _ p (f := F.LINK_STAT_SPEED) speedNone rfl)

theorem Dev.steady_linkFromSerdes (d : Dev) (p : Port) : Dev.Steady powerRegs d (d.linkFromSerdes p) :=
  (((d.steady_linkFall p).trans (Dev.steady_linkPut _ p (f := F.LINK_STAT_SYNC) 0 rfl)).trans
    (Dev.steady_linkPut _ p (f := F.LINK_STAT_HDX_REFUSED) 0 rfl)).trans (Dev.steady_setLink _ p _)

theorem Dev.steady_linkPowerOn (d : Dev) (p : Port) :
    Dev.Steady powerRegs (d.withDom (d.dom ||| BitVec.ofNat 8 (2 ^ p.dom.bit))) (d.linkPowerOn p) := by
  have hregs (x : Dev) : Dev.Steady powerRegs x
      (x.dropRegs fun a => a / 0x10000 == match p with | .a => 0x4020 | .b => 0x4021) :=
    .dropRegs _ fun a ha => by cases p <;> [exact (powerRegs_kept a ha).2.2.2.2.1; exact (powerRegs_kept a ha).2.2.2.2.2]
  exact ((hregs (d.withDom _)).trans (Dev.steady_setLink _ p _)).trans (Dev.steady_linkFromSerdes _ p)

/-- HOST has every domain but AON and WELL, which keep what they are. -/
theorem Dev.steady_hostOn (d : Dev) : Dev.Steady powerRegs (d.withDom (d.dom ||| 0xFC)) d.hostOn := by
  have hisle : Dev.Steady powerRegs (d.withDom (((d.dom ||| 0x08) ||| 0x10) ||| 0x80 ||| 0x04))
      (((d.setDom .core true).setDom .pump true).setDom .flash true).powerIsle :=
    Dev.steady_powerIsle (((d.setDom .core true).setDom .pump true).setDom .flash true)
  have hlinkA := (hisle.joinDom 0x20).trans (Dev.steady_linkPowerOn _ .a)
  have hlinkB := (hlinkA.joinDom 0x40).trans (Dev.steady_linkPowerOn _ .b)
  have hdom : d.dom ||| 0xFC = (((((d.dom ||| 0x08) ||| 0x10) ||| 0x80) ||| 0x04) ||| 0x20) ||| 0x40 := by
    generalize d.dom = b
    revert b
    decide
  rw [hdom]
  exact hlinkB

end Sys2Proof.Machine
end

section
/-! PROOFS. The transitions of the state controller (R22): the record they leave, and what a device reset keeps. -/
namespace Sys2Proof.Machine
open Sys2Proof.Claims

/-! ### The core follows what a command has asked of it -/

/-- The claims of master IDs 0 to 2 are released. -/
theorem Dev.steady_releaseCore (d : Dev) : Dev.Steady powerRegs d d.releaseCore := by
  have hfold (l : List Nat) (x : Dev) : Dev.Steady powerRegs x (l.foldl (fun y i =>
      if (resourceInit i).isSome ∧ (y.owner i).toNat < 3 then y.changeOwner i ownFree else y) x) := by
    induction l generalizing x with
    | nil => exact .refl _ x
    | cons i l ih =>
      refine .trans ?_ (ih _)
      dsimp only
      split
      · exact x.steady_changeOwner i ownFree
      · exact .refl _ x
  exact hfold _ d

/-- The device as it is once the core has followed a request for its reset. -/
def Dev.followed (d : Dev) : Dev := { d with coreResetReq := false }

theorem Dev.steady_coreResetDev (d : Dev) : Dev.Steady powerRegs d.followed d.coreResetDev := by
  have hport : Dev.Steady powerRegs d d.releaseCore.fwReset := d.steady_releaseCore.trans (Dev.steady_fwReset _)
  have hregs := hport.trans (.dropRegs (fun a => a / 0x10000 == 0x400D) fun a ha => (powerRegs_kept a ha).2.2.1)
  have hfields := (hregs.trans (.put F.INTEG_TEST_CTL_EN 0 (by decide))).trans (.put F.RFIF_CTL_FW_READY 0 (by decide))
  have hpresent (x : Dev) (c : Nat) : Dev.Steady powerRegs x (x.present c false) := .put F.WC_STAT_PRESENT _ (by decide)
  have hall := (hfields.trans (hpresent _ 7)).trans (hpresent _ 8)
  have hclear (x : Dev) (h : Dev.Steady powerRegs d x) : Dev.Steady powerRegs d.followed
      { x with irq := 0, impStore := none, coreResetReq := false, boot := .fresh } := { h with resetReq := rfl }
  exact hclear _ hall

theorem Dev.drainAll_empty {d : Dev} (h : d.sbuf = []) : d.drainAll = d := by
  rw [Dev.drainAll, h]
  rfl

/-- With no stop asked for, and no store waiting where a reset is asked for, the core's following leaves the power state
alone. -/
theorem State.settle_steady {s : State} (hstop : s.dev.coreStopReq = false)
    (hreset : s.dev.coreResetReq = true → s.dev.sbuf = []) :
    Dev.Steady powerRegs s.dev.followed s.settle.dev ∧ s.settle.pending = s.pending := by
  by_cases hreq : s.dev.coreResetReq = true
  · have hdev : s.resetIfAsked.dev = s.dev.coreResetDev := by
      rw [State.resetIfAsked, if_pos hreq, Dev.drainAll_empty (hreset hreq)]
    have hpend : s.resetIfAsked.pending = s.pending := by rw [State.resetIfAsked, if_pos hreq]
    have hsteady := s.dev.steady_coreResetDev
    have hstays : s.resetIfAsked.dev.coreStopReq = false := by
      rw [hdev]
      exact hsteady.stopReq.trans hstop
    have hsettle : s.settle.dev = s.resetIfAsked.dev ∧ s.settle.pending = s.resetIfAsked.pending := by
      simp [State.settle, State.stopIfAsked, hstays]
    rw [hsettle.1, hsettle.2, hdev]
    exact ⟨hsteady, hpend⟩
  · have hcalm : s.dev.calm := ⟨by simpa using hreq, hstop⟩
    rw [State.settle_of_calm s hcalm]
    exact ⟨{ Dev.Steady.refl powerRegs s.dev with resetReq := hcalm.1 }, rfl⟩

/-- What the core has been asked can be followed without a store: no stop, and no waiting store where a reset is. -/
abbrev Dev.quiet (d : Dev) : Prop := d.coreStopReq = false ∧ (d.coreResetReq = true → d.sbuf = [])

theorem Dev.quiet_of_calm {d : Dev} (h : d.calm) : d.quiet := ⟨h.2, fun hr => absurd (hr.symm.trans h.1) (by decide)⟩

theorem Dev.Steady.quiet {L : List Nat} {d e : Dev} (h : Dev.Steady L d e) (hd : d.quiet) : e.quiet :=
  ⟨h.stopReq.trans hd.1, fun hr => h.sbuf.trans (hd.2 (h.resetReq.symm.trans hr))⟩

theorem Dev.quiet_coreLost (d : Dev) : d.coreLost.quiet := ⟨rfl, fun _ => rfl⟩

/-! ### The record of a transition -/

/-- What a transition writes to SYS_STATE. -/
def Dev.stateRecord (d : Dev) (st cause : Nat) : Dev :=
  (((d.put F.SYS_PREV d.opState).put F.SYS_CAUSE cause).put F.SYS_STATE st).put F.SYS_RUNLOW 0

theorem Dev.stateRecord_reg (d : Dev) (st cause : Nat) {a : Nat} (ha : a ≠ F.SYS_STATE.addr) :
    (d.stateRecord st cause).reg a = d.reg a :=
  (((Dev.reg_put_ne _ F.SYS_RUNLOW 0 ha).trans (Dev.reg_put_ne _ F.SYS_STATE st ha)).trans
    (Dev.reg_put_ne _ F.SYS_CAUSE cause ha)).trans (Dev.reg_put_ne _ F.SYS_PREV _ ha)

theorem Dev.opState_lt (d : Dev) : d.opState < 8 := bitsOf_lt _ _ _

theorem Dev.stateRecord_fields (d : Dev) {st cause : Nat} (hst : st < 8) (hcause : cause < 16) :
    (d.stateRecord st cause).opState = st ∧ (d.stateRecord st cause).get F.SYS_PREV = d.opState ∧
      (d.stateRecord st cause).get F.SYS_CAUSE = cause ∧ (d.stateRecord st cause).get F.SYS_RUNLOW = 0 := by
  refine ⟨?_, ?_, ?_, ?_⟩
  · refine (Dev.get_put_apart _ F.SYS_RUNLOW F.SYS_STATE 0 (by decide) (by decide)).trans ?_
    exact (Dev.get_put_same _ F.SYS_STATE st (by decide)).trans (Nat.mod_eq_of_lt hst)
  · refine (Dev.get_put_apart _ F.SYS_RUNLOW F.SYS_PREV 0 (by decide) (by decide)).trans ?_
    refine (Dev.get_put_apart _ F.SYS_STATE F.SYS_PREV st (by decide) (by decide)).trans ?_
    refine (Dev.get_put_apart _ F.SYS_CAUSE F.SYS_PREV cause (by decide) (by decide)).trans ?_
    exact (Dev.get_put_same _ F.SYS_PREV _ (by decide)).trans (Nat.mod_eq_of_lt d.opState_lt)
  · refine (Dev.get_put_apart _ F.SYS_RUNLOW F.SYS_CAUSE 0 (by decide) (by decide)).trans ?_
    refine (Dev.get_put_apart _ F.SYS_STATE F.SYS_CAUSE st (by decide) (by decide)).trans ?_
    exact (Dev.get_put_same _ F.SYS_CAUSE cause (by decide)).trans (Nat.mod_eq_of_lt hcause)
  · exact Dev.get_put_same _ F.SYS_RUNLOW 0 (by decide)

/-- An event that is requested waits behind the others; it changes nothing else. -/
theorem Dev.event_eq (d : Dev) (src code cls : Nat) (arg0 arg1 : Word) :
    ∃ q, d.event src code cls arg0 arg1 = { d with evt := { d.evt with queue := q } } := by
  unfold Dev.event
  split
  · exact ⟨_, rfl⟩
  · exact ⟨d.evt.queue, rfl⟩

theorem Dev.setState_def (d : Dev) (st cause : Nat) : d.setState st cause =
    (((d.stateRecord st cause).event 0 1 clsState ((d.stateRecord st cause).reg F.SYS_STATE.addr) 0).latchIrq 0).wdogState :=
  rfl

/-- After the record, the event, the interrupt and the watchdog's hold: nothing else changes. -/
theorem Dev.setState_eq (d : Dev) (st cause : Nat) : ∃ q w i, d.setState st cause =
    { d.stateRecord st cause with evt := { (d.stateRecord st cause).evt with queue := q }, wdog := w, irq := i } := by
  rw [Dev.setState_def]
  generalize (d.stateRecord st cause) = r
  obtain ⟨q, hq⟩ := r.event_eq 0 1 clsState (r.reg F.SYS_STATE.addr) 0
  rw [hq]
  exact ⟨q, _, _, rfl⟩

theorem Dev.reg_setState (d : Dev) (st cause a : Nat) : (d.setState st cause).reg a = (d.stateRecord st cause).reg a := by
  obtain ⟨q, w, i, h⟩ := d.setState_eq st cause
  rw [h]
  rfl

theorem Dev.get_setState (d : Dev) (st cause : Nat) (f : Fl) : (d.setState st cause).get f = (d.stateRecord st cause).get f :=
  Dev.get_congr (Dev.reg_setState d st cause _)

theorem Dev.stateRecord_steady (d : Dev) (st cause : Nat) : Dev.Steady [F.EVT_CFG_CLASS_EN.addr] d (d.stateRecord st cause) :=
  (((Dev.Steady.put F.SYS_PREV d.opState (by decide)).trans (.put F.SYS_CAUSE cause (by decide))).trans
    (.put F.SYS_STATE st (by decide))).trans (.put F.SYS_RUNLOW 0 (by decide))

/-- Apart from its record and its event, a transition keeps what the others rely on. -/
theorem Dev.setState_kept (d : Dev) (st cause : Nat) :
    (d.setState st cause).dom = d.dom ∧ (d.setState st cause).flash = d.flash ∧
      (d.setState st cause).cstArray = d.cstArray ∧ (d.setState st cause).slots = d.slots ∧
      (d.setState st cause).evt.esn = d.evt.esn ∧ (d.quiet → (d.setState st cause).quiet) := by
  have hrec := d.stateRecord_steady st cause
  obtain ⟨q, w, i, h⟩ := d.setState_eq st cause
  rw [h]
  generalize d.stateRecord st cause = r at hrec ⊢
  exact ⟨hrec.dom, hrec.flash, hrec.cstArray, hrec.slots, hrec.esn, hrec.quiet⟩

/-- The transition's event waits behind the others (R22, R382), where its class is enabled. -/
theorem Dev.setState_event (d : Dev) (st cause : Nat) (h : bitAt (d.get F.EVT_CFG_CLASS_EN) clsState = true) :
    (d.setState st cause).evt.queue.getLast?.map (fun e => (e.src, e.code, e.cls, e.arg0)) =
      some (0, 1, clsState, (d.stateRecord st cause).reg F.SYS_STATE.addr) := by
  have hclass : (d.stateRecord st cause).get F.EVT_CFG_CLASS_EN = d.get F.EVT_CFG_CLASS_EN :=
    Dev.get_congr (d.stateRecord_reg st cause (by decide))
  rw [Dev.setState_def]
  generalize d.stateRecord st cause = r at hclass ⊢
  have hclock (x : Dev) : (x.latchIrq 0).wdogState.evt = x.evt := rfl
  have hon : bitAt (r.get F.EVT_CFG_CLASS_EN) clsState = true := by rwa [hclass]
  rw [hclock, Dev.event, if_pos (Or.inr hon)]
  simp

/-! ### A transition from the state in which it is taken to the state in which it leaves the device -/

/-- What a transition leaves as it is until it writes its record. -/
structure Dev.Kept (d e : Dev) : Prop where
  opState : e.opState = d.opState
  flash : e.flash = d.flash
  cstArray : e.cstArray = d.cstArray
  slots : e.slots = d.slots
  esn : e.evt.esn = d.evt.esn

theorem Dev.Steady.kept {L : List Nat} {d e : Dev} (h : Dev.Steady L d e) (hL : F.SYS_STATE.addr ∈ L) : Dev.Kept d e :=
  ⟨h.get hL, h.flash, h.cstArray, h.slots, h.esn⟩

/-- The transition that ends in `setState`: its record and event, and what it leaves. -/
theorem moved_settle {s : State} {e : Dev} {st cause : Nat} (hst : st < 8) (hcause : cause < 16)
    (hkept : Dev.Kept s.dev e) (hquiet : e.quiet) :
    let t := State.settle { s with dev := e.setState st cause }
    moved s t st cause ∧ t.dev.dom = e.dom ∧ ∀ a ∈ powerRegs, a ≠ F.SYS_STATE.addr → t.dev.reg a = e.reg a := by
  obtain ⟨hdom, hflash, hcst, hslots, hesn, hask⟩ := e.setState_kept st cause
  have hask := hask hquiet
  obtain ⟨hsteady, hpend⟩ := State.settle_steady (s := { s with dev := e.setState st cause }) hask.1 hask.2
  obtain ⟨hstate, hprev, hwhy, hlow⟩ := e.stateRecord_fields hst hcause
  have hreg (a : Nat) (ha : a ∈ powerRegs) :
      (State.settle { s with dev := e.setState st cause }).dev.reg a = (e.stateRecord st cause).reg a :=
    (hsteady.reg a ha).trans (e.reg_setState st cause a)
  have hget {g : Fl} (hg : g.addr ∈ powerRegs) :
      (State.settle { s with dev := e.setState st cause }).dev.get g = (e.stateRecord st cause).get g :=
    Dev.get_congr (hreg _ hg)
  have hother (a : Nat) (ha : a ∈ powerRegs) (hne : a ≠ F.SYS_STATE.addr) :
      (State.settle { s with dev := e.setState st cause }).dev.reg a = e.reg a :=
    (hreg a ha).trans (e.stateRecord_reg st cause hne)
  have hevent (h : bitAt ((State.settle { s with dev := e.setState st cause }).dev.get F.EVT_CFG_CLASS_EN) clsState = true) :
      (State.settle { s with dev := e.setState st cause }).dev.evt.queue.getLast?.map
        (fun x => (x.src, x.code, x.cls, x.arg0)) = some (0, 1, clsState,
          (State.settle { s with dev := e.setState st cause }).dev.reg F.SYS_STATE.addr) := by
    rw [hsteady.queue, hreg _ (by decide)]
    exact e.setState_event st cause (Dev.get_congr (hother F.EVT_CFG_CLASS_EN.addr (by decide) (by decide)) ▸ h)
  exact ⟨⟨(hget (by decide)).trans hstate, ((hget (by decide)).trans hprev).trans hkept.opState,
    (hget (by decide)).trans hwhy, (hget (by decide)).trans hlow, hpend,
    (hsteady.flash.trans hflash).trans hkept.flash, (hsteady.cstArray.trans hcst).trans hkept.cstArray,
    (hsteady.slots.trans hslots).trans hkept.slots, (hsteady.esn.trans hesn).trans hkept.esn, hevent⟩,
    hsteady.dom.trans hdom, hother⟩

/-- A command whose operation ends in `setState` moves the state controller. -/
theorem moves {s : State} {f : Dev → Dev} {e : Dev} {st cause : Nat} (hf : f s.dev = e.setState st cause)
    (hst : st < 8) (hcause : cause < 16) (hkept : Dev.Kept s.dev e) (hquiet : e.quiet) :
    ∃ t, s.onDev f = .next t ∧ moved s t st cause ∧ t.dev.dom = e.dom ∧
      ∀ a ∈ powerRegs, a ≠ F.SYS_STATE.addr → t.dev.reg a = e.reg a := by
  refine ⟨_, ?_, moved_settle hst hcause hkept hquiet⟩
  rw [State.onDev, hf]

end Sys2Proof.Machine
end

section
/-! PROOFS. The rows of the transition table of the state controller (R22). -/
namespace Sys2Proof.Machine
open Sys2Proof.Claims

/-! ### A device reset (R13, R387, R397, R417) -/

theorem Dev.steady_updateSource {L : List Nat} (d : Dev) (h : F.WH_STAT_AON_SRC.addr ∉ L) :
    Dev.Steady L d d.updateSource :=
  .put F.WH_STAT_AON_SRC _ h

/-- WELL's registers after a reset: the comparators, and the source that they select. -/
def Dev.wellSampled (d : Dev) : Dev :=
  (((d.dropRegs inWell).put F.WH_STAT_MARK (d.get F.WH_STAT_MARK)).put F.WH_STAT_HOST_GOOD
    (d.get F.WH_STAT_HOST_GOOD)).updateSource

theorem Dev.wellReset_eq (d : Dev) : d.wellReset = { d.wellSampled with
    well := { d.wellSampled.well with cstRefused := 0, pmode := 1, pmodeTo := none, pmRead := false, pm := [] } } := rfl

theorem Dev.steady_wellReset (d : Dev) : Dev.Steady [F.SYS_STATE.addr] d d.wellReset := by
  have hregs : Dev.Steady [F.SYS_STATE.addr] d (d.dropRegs inWell) := .dropRegs _ (by decide)
  have hlive := (hregs.trans (.put F.WH_STAT_MARK (d.get F.WH_STAT_MARK) (by decide))).trans
    (.put F.WH_STAT_HOST_GOOD (d.get F.WH_STAT_HOST_GOOD) (by decide))
  have hsource : Dev.Steady [F.SYS_STATE.addr] d d.wellSampled := hlive.trans (Dev.steady_updateSource _ (by decide))
  rw [Dev.wellReset_eq]
  generalize d.wellSampled = e at hsource ⊢
  exact { hsource with }

theorem Dev.steady_bump {L : List Nat} (d : Dev) (f : Fl) (k : Nat) (h : f.addr ∉ L) : Dev.Steady L d (d.bump f k) :=
  .put f _ h

theorem Dev.steady_trouble {L : List Nat} (d : Dev) (k : Nat) (h : F.EVT_TRBL_TRBL.addr ∉ L) :
    Dev.Steady L d (d.trouble k) :=
  .put F.EVT_TRBL_TRBL _ h

/-- A device reset after its registers have gone: the count and the cause of EVT_RESET, and the trouble bit. -/
def Dev.resetNamed (d : Dev) (cause : Nat) : Dev :=
  let d2 := (d.bump F.EVT_RESET_COUNT 1).put F.EVT_RESET_CAUSE cause
  if 2 ≤ cause then d2.trouble tRESET else d2

/-- What a device reset drops of the event block and of Handpump's registers. -/
def resetDrops (a : Nat) : Bool := (a / 0x10000 == 0x4009 && resetKind a == .device) || isleFw a

theorem Dev.deviceReset_eq (d : Dev) (cause : Nat) : d.deviceReset cause =
    let e := (d.coreLose.wellReset.dropRegs resetDrops).resetNamed cause
    { e with resetReq := none, evt := { e.evt with open_ := [] }, wdog := ⟨0, none⟩ } := rfl

theorem Dev.steady_resetNamed {L : List Nat} (d : Dev) (cause : Nat) (hreset : F.EVT_RESET_CAUSE.addr ∉ L)
    (htrbl : F.EVT_TRBL_TRBL.addr ∉ L) : Dev.Steady L d (d.resetNamed cause) := by
  have hput : Dev.Steady L d ((d.bump F.EVT_RESET_COUNT 1).put F.EVT_RESET_CAUSE cause) :=
    (d.steady_bump F.EVT_RESET_COUNT 1 hreset).trans (.put F.EVT_RESET_CAUSE cause hreset)
  unfold Dev.resetNamed
  dsimp only
  split
  · exact hput.trans (Dev.steady_trouble _ _ htrbl)
  · exact hput

/-- A device reset drops its registers as a loss of CORE does, and WELL's; STATE stays (R13). -/
theorem Dev.steady_deviceReset (d : Dev) (cause : Nat) : Dev.Steady [F.SYS_STATE.addr] d.coreLost (d.deviceReset cause) := by
  have hlose : Dev.Steady [F.SYS_STATE.addr] d.coreLost d.coreLose := d.steady_coreLose.mono (by decide)
  have hregs := (hlose.trans (Dev.steady_wellReset _)).trans (.dropRegs resetDrops (by decide))
  have hnamed := hregs.trans (Dev.steady_resetNamed _ cause (by decide) (by decide))
  rw [Dev.deviceReset_eq]
  generalize (d.coreLose.wellReset.dropRegs resetDrops).resetNamed cause = e at hnamed ⊢
  exact { hnamed with }

theorem Dev.resetNamed_cause (d : Dev) {cause : Nat} (h : cause < 16) :
    (d.resetNamed cause).get F.EVT_RESET_CAUSE = cause := by
  have hput : ((d.bump F.EVT_RESET_COUNT 1).put F.EVT_RESET_CAUSE cause).get F.EVT_RESET_CAUSE = cause :=
    (Dev.get_put_same _ F.EVT_RESET_CAUSE cause (by decide)).trans (Nat.mod_eq_of_lt h)
  unfold Dev.resetNamed
  dsimp only
  split
  · exact (Dev.get_put_apart _ F.EVT_TRBL_TRBL F.EVT_RESET_CAUSE _ (by decide) (by decide)).trans hput
  · exact hput

theorem Dev.deviceReset_cause (d : Dev) {cause : Nat} (h : cause < 16) :
    (d.deviceReset cause).get F.EVT_RESET_CAUSE = cause :=
  Dev.resetNamed_cause _ h

/-! ### The rows -/

theorem Dev.free_of_not_alarming {d : Dev} (h : d.alarming = false) : d.opState ≠ stAlarm := by
  rintro hst
  simp [Dev.alarming, hst] at h

theorem exec_fieldOn (s : State) : exec .fieldOn s = s.onDev fun d => d.fieldOnOp := rfl
theorem exec_fieldOff (s : State) : exec .fieldOff s = s.onDev fun d => d.fieldOffOp := rfl
theorem exec_runReached (s : State) : exec .runReached s = s.onDev fun d => d.runReachedOp := rfl
theorem exec_runLost (s : State) : exec .runLost s = s.onDev fun d => d.runLostOp := rfl
theorem exec_hostGood (s : State) : exec .hostGood s = s.onDev fun d => d.hostGoodOp := rfl
theorem exec_hostLoss (s : State) : exec .hostLoss s = s.onDev fun d => d.hostLossOp := rfl

/-- With the host's supply seen, only the host's rows act (R22, R23). -/
theorem Dev.rows_hostSeen {d : Dev} (h : d.hostSeen = true) :
    d.fieldOnOp = d ∧ d.fieldOffOp = d ∧ d.runReachedOp = d ∧ d.runLostOp = d := by
  simp [Dev.fieldOnOp, Dev.fieldOffOp, Dev.runReachedOp, Dev.runLostOp, h]

/-- RUN_LOST goes before the field's fall (R23). -/
theorem Dev.fieldOffOp_yields {d : Dev} (hst : d.opState = stPassiveRun) (hlo : 1700 ≤ d.env.vhold)
    (hhi : d.env.vhold < 2800) : d.fieldOffOp = d := by
  rw [Dev.fieldOffOp]
  simp [hst, hhi, Nat.not_lt.mpr hlo]

theorem Dev.kept_withDom (d : Dev) (x : BitVec 8) : Dev.Kept d (d.withDom x) := ⟨rfl, rfl, rfl, rfl, rfl⟩

theorem Dev.kept_coreLost (d : Dev) : Dev.Kept d d.coreLost := ⟨rfl, rfl, rfl, rfl, rfl⟩

theorem Dev.Kept.trans {d e g : Dev} (h : Dev.Kept d e) (h' : Dev.Kept e g) : Dev.Kept d g :=
  ⟨h'.opState.trans h.opState, h'.flash.trans h.flash, h'.cstArray.trans h.cstArray, h'.slots.trans h.slots,
    h'.esn.trans h.esn⟩

/-- With domains switched and nothing lost: what the core has been asked is as before. -/
theorem Dev.Steady.ready {L : List Nat} {d e : Dev} {x : BitVec 8} (h : Dev.Steady L (d.withDom x) e)
    (hL : F.SYS_STATE.addr ∈ L) (hd : d.quiet) : Dev.Kept d e ∧ e.quiet :=
  ⟨(d.kept_withDom x).trans (h.kept hL), h.quiet hd⟩

/-- With CORE's content lost: the core is asked to reset, and no store waits. -/
theorem Dev.Steady.ready_lost {L : List Nat} {d e : Dev} {x : BitVec 8} (h : Dev.Steady L (d.coreLost.withDom x) e)
    (hL : F.SYS_STATE.addr ∈ L) : Dev.Kept d e ∧ e.quiet :=
  ⟨(d.kept_coreLost.trans (d.coreLost.kept_withDom x)).trans (h.kept hL), h.quiet d.quiet_coreLost⟩

/-- CORE's side and ISLE go off together. -/
theorem Dev.steady_bothDown {d : Dev} (h : d.cst.job = none) :
    Dev.Steady powerRegs (d.coreLost.withDom (d.dom &&& 0x03)) d.coreDown.isleDown := by
  have hcore := d.steady_coreDown
  have hdom : d.dom &&& 0x03 = (d.dom &&& 0x07) &&& 0xFB := by
    generalize d.dom = b
    revert b
    decide
  rw [hdom]
  exact (hcore.maskDom 0xFB).trans (Dev.steady_isleDown (hcore.job h))

/-- The device reset of HOST_GOOD: the PLL is to lock anew. -/
def Dev.hostReset (d : Dev) (cause : Nat) : Dev := { d.deviceReset cause with pll := false }

theorem Dev.hostGoodOp_eq (d : Dev) : d.hostGoodOp =
    if d.opState < stHost ∧ d.hostSeen ∧ !d.alarming then (d.hostReset 1).hostOn.setState stHost 1 else d := by
  rw [Dev.hostGoodOp, ← Dev.hostReset]

theorem Dev.hostReset_cause (d : Dev) {cause : Nat} (h : cause < 16) : (d.hostReset cause).get F.EVT_RESET_CAUSE = cause :=
  d.deviceReset_cause h

/-- A device reset and then the domains of HOST. -/
theorem Dev.steady_hostReset (d : Dev) (cause : Nat) : Dev.Steady [F.SYS_STATE.addr]
    (d.coreLost.withDom (d.dom ||| 0xFC)) (d.hostReset cause).hostOn := by
  have hpll : Dev.Steady [F.SYS_STATE.addr] d.coreLost (d.hostReset cause) := { d.steady_deviceReset cause with }
  exact (hpll.joinDom 0xFC).trans ((Dev.steady_hostOn _).mono (by decide))

theorem Dev.hostStart_cause (d : Dev) {cause : Nat} (h : cause < 16) :
    (d.hostReset cause).hostOn.get F.EVT_RESET_CAUSE = cause := by
  have hreset := d.hostReset_cause h
  generalize d.hostReset cause = e at hreset ⊢
  exact (e.steady_hostOn.get (by decide)).trans hreset

section rows
variable {s : State} (halarm : s.dev.alarming = false)
include halarm

theorem row_fieldOn (hst : s.dev.opState = stDormant) (haon : s.dev.on .aon = true) (hcar : s.dev.env.carrier = true)
    (hmark : 1 ≤ s.dev.mark) (hcalm : s.dev.calm) (hseen : s.dev.hostSeen = false) :
    ∃ t, exec .fieldOn s = .next t ∧ moved s t stPassiveRead 3 ∧ t.dev.dom = s.dev.dom ||| 0x04 := by
  have hop : s.dev.fieldOnOp = s.dev.powerIsle.setState stPassiveRead 3 := by
    simp [Dev.fieldOnOp, hst, haon, hcar, hmark, halarm, hseen]
  have hisle := s.dev.steady_powerIsle
  obtain ⟨hkept, hquiet⟩ := hisle.ready (by decide) (Dev.quiet_of_calm hcalm)
  obtain ⟨t, ht, hmoved, hdom, -⟩ := moves (s := s) (f := fun d => d.fieldOnOp) hop (by decide) (by decide) hkept hquiet
  exact ⟨t, ht, hmoved, hdom.trans hisle.dom⟩

theorem row_fieldOff_read (hst : s.dev.opState = stPassiveRead)
    (hgone : s.dev.env.carrier = false ∨ s.dev.env.vhold < 1700) (hjob : s.dev.cst.job = none) (hcalm : s.dev.calm)
    (hseen : s.dev.hostSeen = false) :
    ∃ t, exec .fieldOff s = .next t ∧ moved s t stDormant 4 ∧ t.dev.dom = s.dev.dom &&& 0xFB := by
  have hop : s.dev.fieldOffOp = s.dev.isleDown.setState stDormant 4 := by
    simp [Dev.fieldOffOp, hst, hgone, halarm, hseen, stPassiveRead, stPassiveRun]
  have hisle := Dev.steady_isleDown hjob
  obtain ⟨hkept, hquiet⟩ := hisle.ready (by decide) (Dev.quiet_of_calm hcalm)
  obtain ⟨t, ht, hmoved, hdom, -⟩ := moves (s := s) (f := fun d => d.fieldOffOp) hop (by decide) (by decide) hkept hquiet
  exact ⟨t, ht, hmoved, hdom.trans hisle.dom⟩

theorem row_fieldOff_run (hst : s.dev.opState = stPassiveRun)
    (hgone : (s.dev.env.carrier = false ∧ 2800 ≤ s.dev.env.vhold) ∨ s.dev.env.vhold < 1700) (hjob : s.dev.cst.job = none)
    (hseen : s.dev.hostSeen = false) :
    ∃ t, exec .fieldOff s = .next t ∧ moved s t stDormant 4 ∧ t.dev.dom = s.dev.dom &&& 0x03 := by
  have hop : s.dev.fieldOffOp = s.dev.coreDown.isleDown.setState stDormant 4 := by
    simp [Dev.fieldOffOp, hst, hgone, halarm, hseen]
  have hdown := Dev.steady_bothDown hjob
  obtain ⟨hkept, hquiet⟩ := hdown.ready_lost (by decide)
  obtain ⟨t, ht, hmoved, hdom, -⟩ := moves (s := s) (f := fun d => d.fieldOffOp) hop (by decide) (by decide) hkept hquiet
  exact ⟨t, ht, hmoved, hdom.trans hdown.dom⟩

theorem row_runReached (hst : s.dev.opState = stPassiveRead) (hmark : 5 ≤ s.dev.mark) (hseen : s.dev.hostSeen = false) :
    ∃ t, exec .runReached s = .next t ∧ moved s t stPassiveRun 5 ∧ t.dev.dom = s.dev.dom ||| 0x88 := by
  have hop : s.dev.runReachedOp = ((s.dev.coreLose.setDom .core true).setDom .flash true).setState stPassiveRun 5 := by
    simp [Dev.runReachedOp, hst, hmark, halarm, hseen]
  have hon : Dev.Steady powerRegs (s.dev.coreLost.withDom ((s.dev.dom ||| 0x08) ||| 0x80))
      ((s.dev.coreLose.setDom .core true).setDom .flash true) :=
    (s.dev.steady_coreLose.joinDom 0x08).joinDom 0x80
  obtain ⟨hkept, hquiet⟩ := hon.ready_lost (by decide)
  obtain ⟨t, ht, hmoved, hdom, -⟩ := moves (s := s) (f := fun d => d.runReachedOp) hop (by decide) (by decide) hkept hquiet
  refine ⟨t, ht, hmoved, (hdom.trans hon.dom).trans ?_⟩
  exact BitVec.or_assoc s.dev.dom 0x08 0x80

theorem row_runLost (hst : s.dev.opState = stPassiveRun) (hlow : s.dev.env.vhold < 2800) (hseen : s.dev.hostSeen = false) :
    ∃ t, exec .runLost s = .next t ∧ moved s t stPassiveRead 6 ∧ t.dev.dom = s.dev.dom &&& 0x07 := by
  have hop : s.dev.runLostOp = s.dev.coreDown.setState stPassiveRead 6 := by
    simp [Dev.runLostOp, hst, hlow, halarm, hseen]
  have hdown := s.dev.steady_coreDown
  obtain ⟨hkept, hquiet⟩ := hdown.ready_lost (by decide)
  obtain ⟨t, ht, hmoved, hdom, -⟩ := moves (s := s) (f := fun d => d.runLostOp) hop (by decide) (by decide) hkept hquiet
  exact ⟨t, ht, hmoved, hdom.trans hdown.dom⟩

theorem row_hostGood (hst : s.dev.opState < stHost) (hseen : s.dev.hostSeen = true) :
    ∃ t, exec .hostGood s = .next t ∧ moved s t stHost 1 ∧ t.dev.dom = s.dev.dom ||| 0xFC ∧
      t.dev.get F.EVT_RESET_CAUSE = 1 := by
  have hop : s.dev.hostGoodOp = (s.dev.hostReset 1).hostOn.setState stHost 1 := by
    rw [Dev.hostGoodOp_eq]
    exact if_pos ⟨hst, hseen, by rw [halarm]; rfl⟩
  have hon := s.dev.steady_hostReset 1
  obtain ⟨hkept, hquiet⟩ := hon.ready_lost (by decide)
  obtain ⟨t, ht, hmoved, hdom, hregs⟩ :=
    moves (s := s) (f := fun d => d.hostGoodOp) hop (by decide) (by decide) hkept hquiet
  have hend : t.dev.get F.EVT_RESET_CAUSE = (s.dev.hostReset 1).hostOn.get F.EVT_RESET_CAUSE :=
    Dev.get_congr (hregs _ (by decide) (by decide))
  exact ⟨t, ht, hmoved, hdom.trans hon.dom, hend.trans (s.dev.hostStart_cause (by decide))⟩

/-- The host's loss with CORE still on. -/
theorem row_hostLoss_read (hst : s.dev.opState = stHost) (hseen : s.dev.hostSeen = false) (hcore : s.dev.on .core = true)
    (hcar : s.dev.env.carrier = true) (hmark : 1 ≤ s.dev.mark) :
    ∃ t, exec .hostLoss s = .next t ∧ moved s t stPassiveRead 2 ∧ t.dev.dom = s.dev.dom &&& 0x07 := by
  have hdown := s.dev.steady_coreDown
  have hcar' : s.dev.coreDown.env.carrier = true := hdown.env ▸ hcar
  have hmark' : 1 ≤ s.dev.coreDown.mark := le_of_le_of_eq hmark (hdown.get (f := F.WH_STAT_MARK) (by decide)).symm
  have hop : s.dev.hostLossOp = s.dev.coreDown.setState stPassiveRead 2 := by
    simp [Dev.hostLossOp, hst, halarm, hseen, hcore, hcar', hmark']
  obtain ⟨hkept, hquiet⟩ := hdown.ready_lost (by decide)
  obtain ⟨t, ht, hmoved, hdom, -⟩ := moves (s := s) (f := fun d => d.hostLossOp) hop (by decide) (by decide) hkept hquiet
  exact ⟨t, ht, hmoved, hdom.trans hdown.dom⟩

theorem row_hostLoss_dormant (hst : s.dev.opState = stHost) (hseen : s.dev.hostSeen = false)
    (hcore : s.dev.on .core = true) (hjob : s.dev.cst.job = none)
    (hgone : s.dev.env.carrier = false ∨ s.dev.mark < 1) :
    ∃ t, exec .hostLoss s = .next t ∧ moved s t stDormant 2 ∧ t.dev.dom = s.dev.dom &&& 0x03 := by
  have hcore' := s.dev.steady_coreDown
  have hgone' : ¬(s.dev.coreDown.env.carrier = true ∧ 1 ≤ s.dev.coreDown.mark) := by
    have hmark : s.dev.coreDown.mark = s.dev.mark := hcore'.get (f := F.WH_STAT_MARK) (by decide)
    rw [hcore'.env, hmark]
    rintro ⟨hcar, hle⟩
    exact hgone.elim (fun h => absurd (h.symm.trans hcar) (by decide)) (fun h => absurd h (Nat.not_lt.mpr hle))
  have hop : s.dev.hostLossOp = s.dev.coreDown.isleDown.setState stDormant 2 := by
    simp [Dev.hostLossOp, hst, halarm, hseen, hcore, hgone']
  have hdown := Dev.steady_bothDown hjob
  obtain ⟨hkept, hquiet⟩ := hdown.ready_lost (by decide)
  obtain ⟨t, ht, hmoved, hdom, -⟩ := moves (s := s) (f := fun d => d.hostLossOp) hop (by decide) (by decide) hkept hquiet
  exact ⟨t, ht, hmoved, hdom.trans hdown.dom⟩

end rows

/-- With the host's supply seen, the passive rows leave the device as it is. -/
theorem rows_yield_to_host {s : State} (hseen : s.dev.hostSeen = true) (hcalm : s.dev.calm) (i : Instr)
    (hi : i = .fieldOn ∨ i = .fieldOff ∨ i = .runReached ∨ i = .runLost) :
    exec i s = .next (became s s.core s.dev) := by
  obtain ⟨hon, hoff, hrun, hlost⟩ := Dev.rows_hostSeen hseen
  obtain rfl | rfl | rfl | rfl := hi
  · exact State.onDev_eq (f := fun d => d.fieldOnOp) hon hcalm
  · exact State.onDev_eq (f := fun d => d.fieldOffOp) hoff hcalm
  · exact State.onDev_eq (f := fun d => d.runReachedOp) hrun hcalm
  · exact State.onDev_eq (f := fun d => d.runLostOp) hlost hcalm

/-- Settles O20: each row is its domains' change and `setState`. -/
theorem stateTransitions : Obligations.StateTransitions := by
  unfold Obligations.StateTransitions
  intro s halarm
  refine ⟨?_, ?_, ?_, ?_, ?_, ?_, ?_, ?_, ?_, ?_⟩
  · intro hst haon hcar hmark hcalm hseen _
    exact row_fieldOn halarm hst haon hcar hmark hcalm hseen
  · intro hst hgone hjob hcalm hseen _
    exact row_fieldOff_read halarm hst hgone hjob hcalm hseen
  · intro hst hgone hjob hseen _
    exact row_fieldOff_run halarm hst hgone hjob hseen
  · exact row_runReached halarm
  · exact row_runLost halarm
  · exact row_hostGood halarm
  · exact row_hostLoss_read halarm
  · intro hst hseen hcore _ hjob hgone
    exact row_hostLoss_dormant halarm hst hseen hcore hjob hgone
  · exact rows_yield_to_host
  · intro hst hlo hhi hcalm
    exact State.onDev_eq (f := fun d => d.fieldOffOp) (Dev.fieldOffOp_yields hst hlo hhi) hcalm

end Sys2Proof.Machine
end

section
/-! PROOFS. The power of the links (R16, R17, R43): what a change of LINKx_STAT, a port's power-up and its power-down do. -/
namespace Sys2Proof.Machine
open Sys2Proof.Claims

/-! ### A field of LINKx_STAT -/

/-- The register LINKx_STAT of a port. -/
def linkStat (p : Port) : Nat := (portField p F.LINK_STAT_LINK_UP).addr

/-- A change of LINKx_STAT writes its register and latches the port's interrupt. -/
theorem Dev.linkPut_cases (d : Dev) (p : Port) {f : Fl} (v : Nat) (h : f.addr = F.LINK_STAT_LINK_UP.addr) :
    d.linkPut p f v = d ∨
      ∃ w, d.linkPut p f v = { d with regs := Sparse.set regReset (linkStat p) w d.regs
                                      irq := d.irq ||| BitVec.ofNat 192 (2 ^ portIrq p) } := by
  have haddr : (portField p f).addr = linkStat p := by rw [linkStat, portField_addr, portField_addr, h]
  have hcodes : d.codes.written (linkStat p) = d.codes := by cases p <;> rfl
  unfold Dev.linkPut
  split
  · exact .inl rfl
  · refine .inr ⟨BitVec.ofNat 32 (withBits (d.reg (linkStat p)).toNat (portField p f).hi (portField p f).lo v), ?_⟩
    unfold Dev.put Dev.setReg Dev.latchIrq
    rw [haddr, hcodes]

/-- `e` is as `d` but for the ports' status registers, the interrupts and the record of port `p`. -/
structure Dev.LinkOnly (p : Port) (d e : Dev) : Prop where
  same : e = { d with dom := e.dom, regs := e.regs, irq := e.irq, linkA := e.linkA, linkB := e.linkB }
  other : ∀ q, q ≠ p → e.link q = d.link q
  otherOn : ∀ q : Port, q ≠ p → e.on q.dom = d.on q.dom
  reg : ∀ a, a / 0x10000 ≠ 0x4020 → a / 0x10000 ≠ 0x4021 → e.reg a = d.reg a
  irq : ∀ i, d.irq.getLsbD i = true → e.irq.getLsbD i = true

namespace Dev.LinkOnly
variable {p : Port} {d e g : Dev}

theorem refl (p : Port) (d : Dev) : Dev.LinkOnly p d d :=
  ⟨rfl, fun _ _ => rfl, fun _ _ => rfl, fun _ _ _ => rfl, fun _ h => h⟩

theorem trans (h : Dev.LinkOnly p d e) (h' : Dev.LinkOnly p e g) : Dev.LinkOnly p d g where
  same := by
    rw [h'.same, h.same]
  other q hq := (h'.other q hq).trans (h.other q hq)
  otherOn q hq := (h'.otherOn q hq).trans (h.otherOn q hq)
  reg a ha hb := (h'.reg a ha hb).trans (h.reg a ha hb)
  irq i hi := h'.irq i (h.irq i hi)

end Dev.LinkOnly

theorem linkStat_block (p : Port) : linkStat p / 0x10000 = 0x4020 ∨ linkStat p / 0x10000 = 0x4021 := by
  cases p <;> decide

theorem Dev.linkOnly_linkPut (d : Dev) (p q : Port) {f : Fl} (v : Nat) (h : f.addr = F.LINK_STAT_LINK_UP.addr) :
    Dev.LinkOnly q d (d.linkPut p f v) := by
  obtain hsame | ⟨w, hput⟩ := d.linkPut_cases p v h
  · rw [hsame]
    exact .refl q d
  · rw [hput]
    refine ⟨rfl, fun r _ => by cases r <;> rfl, fun _ _ => rfl, fun a ha hb => ?_, fun i hi => ?_⟩
    · have hne : a ≠ linkStat p := by
        rintro rfl
        exact (linkStat_block p).elim ha hb
      exact Sparse.get_set_ne _ _ _ hne
    · simp [hi]

/-- The interrupt of a port is latched by a change of its status (R222). -/
theorem Dev.linkPut_latches {d : Dev} {p : Port} {f : Fl} {v : Nat} (h : d.linkGet p f ≠ v) :
    (d.linkPut p f v).irq.getLsbD (portIrq p) = true := by
  rw [Dev.linkPut, if_neg h]
  cases p <;> simp [Dev.latchIrq, portIrq]

theorem Dev.link_linkPut (d : Dev) (p q : Port) {f : Fl} (v : Nat) (h : f.addr = F.LINK_STAT_LINK_UP.addr) :
    (d.linkPut p f v).link q = d.link q ∧ (d.linkPut p f v).dom = d.dom := by
  obtain hsame | ⟨w, hput⟩ := d.linkPut_cases p v h
  · rw [hsame]
    exact ⟨rfl, rfl⟩
  · rw [hput]
    exact ⟨by cases q <;> rfl, rfl⟩

theorem Dev.linkOnly_linkFall (d : Dev) (p q : Port) : Dev.LinkOnly q d (d.linkFall p) :=
  ((d.linkOnly_linkPut p q (f := F.LINK_STAT_LINK_UP) 0 rfl).trans
    (Dev.linkOnly_linkPut _ p q (f := F.LINK_STAT_AN_DONE) 0 rfl)).trans
    (Dev.linkOnly_linkPut _ p q (f := F.LINK_STAT_SPEED) speedNone rfl)

theorem Dev.link_linkFall (d : Dev) (p q : Port) : (d.linkFall p).link q = d.link q ∧ (d.linkFall p).dom = d.dom := by
  obtain ⟨hup, hupDom⟩ := d.link_linkPut p q (f := F.LINK_STAT_LINK_UP) 0 rfl
  obtain ⟨hdone, hdoneDom⟩ := (d.linkPut p F.LINK_STAT_LINK_UP 0).link_linkPut p q (f := F.LINK_STAT_AN_DONE) 0 rfl
  obtain ⟨hspeed, hspeedDom⟩ := ((d.linkPut p F.LINK_STAT_LINK_UP 0).linkPut p F.LINK_STAT_AN_DONE 0).link_linkPut p q
    (f := F.LINK_STAT_SPEED) speedNone rfl
  exact ⟨hspeed.trans (hdone.trans hup), hspeedDom.trans (hdoneDom.trans hupDom)⟩

/-- A link that was up falls with its port's interrupt. -/
theorem Dev.linkFall_latches {d : Dev} {p : Port} (h : d.linkGet p F.LINK_STAT_LINK_UP ≠ 0) :
    (d.linkFall p).irq.getLsbD (portIrq p) = true :=
  (Dev.linkOnly_linkPut _ p p (f := F.LINK_STAT_SPEED) speedNone rfl).irq _
    ((Dev.linkOnly_linkPut _ p p (f := F.LINK_STAT_AN_DONE) 0 rfl).irq _ (Dev.linkPut_latches h))

/-! ### The record of a port, and its domain -/

@[simp] theorem Dev.link_setLink (d : Dev) (p : Port) (x : Link) : (d.setLink p x).link p = x := by
  cases p <;> rfl

theorem Dev.link_setLink_ne (d : Dev) {p q : Port} (x : Link) (h : q ≠ p) : (d.setLink p x).link q = d.link q := by
  cases p <;> cases q <;> first | rfl | exact absurd rfl h

@[simp] theorem Dev.dom_setLink (d : Dev) (p : Port) (x : Link) : (d.setLink p x).dom = d.dom := by
  cases p <;> rfl

theorem Dev.linkOnly_setLink (d : Dev) (p : Port) (x : Link) : Dev.LinkOnly p d (d.setLink p x) := by
  refine ⟨by cases p <;> rfl, fun q hq => d.link_setLink_ne x hq, fun q _ => ?_, fun a _ _ => by cases p <;> rfl, ?_⟩
  · rw [Dev.on, Dev.on, Dev.dom_setLink]
  · cases p <;> exact fun _ h => h

theorem dom_bits (b : BitVec 8) (p : Port) :
    (b ||| BitVec.ofNat 8 (2 ^ p.dom.bit)).getLsbD p.dom.bit = true ∧
      (b &&& ~~~BitVec.ofNat 8 (2 ^ p.dom.bit)).getLsbD p.dom.bit = false ∧
      ∀ q : Port, q ≠ p → (b ||| BitVec.ofNat 8 (2 ^ p.dom.bit)).getLsbD q.dom.bit = b.getLsbD q.dom.bit ∧
        (b &&& ~~~BitVec.ofNat 8 (2 ^ p.dom.bit)).getLsbD q.dom.bit = b.getLsbD q.dom.bit := by
  refine ⟨?_, ?_, fun q hq => ?_⟩
  · cases p <;> revert b <;> decide
  · cases p <;> revert b <;> decide
  · cases p <;> cases q <;> first | exact absurd rfl hq | (revert b; decide)

/-! ### A port powers up, and goes off -/

theorem Dev.linkOnly_linkFromSerdes (d : Dev) (p : Port) : Dev.LinkOnly p d (d.linkFromSerdes p) :=
  (((d.linkOnly_linkFall p p).trans (Dev.linkOnly_linkPut _ p p (f := F.LINK_STAT_SYNC) 0 rfl)).trans
    (Dev.linkOnly_linkPut _ p p (f := F.LINK_STAT_HDX_REFUSED) 0 rfl)).trans (Dev.linkOnly_setLink _ p _)

theorem Dev.linkFromSerdes_starts (d : Dev) (p : Port) : ((d.linkFromSerdes p).link p).step = .serdes ∧
    ((d.linkFromSerdes p).link p).offPending = (d.link p).offPending ∧ (d.linkFromSerdes p).dom = d.dom := by
  obtain ⟨hfall, hfallDom⟩ := d.link_linkFall p p
  obtain ⟨hsync, hsyncDom⟩ := (d.linkFall p).link_linkPut p p (f := F.LINK_STAT_SYNC) 0 rfl
  obtain ⟨hhdx, hhdxDom⟩ := ((d.linkFall p).linkPut p F.LINK_STAT_SYNC 0).link_linkPut p p
    (f := F.LINK_STAT_HDX_REFUSED) 0 rfl
  unfold Dev.linkFromSerdes Dev.linkStep
  rw [Dev.link_setLink, Dev.dom_setLink]
  have hoff := congrArg Link.offPending (hhdx.trans (hsync.trans hfall))
  exact ⟨rfl, hoff, hhdxDom.trans (hsyncDom.trans hfallDom)⟩

/-- A port's domain on, its registers as at reset. -/
def Dev.linkPowered (d : Dev) (p : Port) : Dev :=
  (d.withDom (d.dom ||| BitVec.ofNat 8 (2 ^ p.dom.bit))).dropRegs
    fun a => a / 0x10000 == match p with | .a => 0x4020 | .b => 0x4021

theorem Dev.linkPowerOn_eq (d : Dev) (p : Port) : d.linkPowerOn p =
    ((d.linkPowered p).setLink p { (d.linkPowered p).link p with offPending := false }).linkFromSerdes p := rfl

theorem Dev.linkOnly_linkPowered (d : Dev) (p : Port) : Dev.LinkOnly p d (d.linkPowered p) := by
  refine ⟨rfl, fun q _ => by cases q <;> rfl, fun q hq => ((dom_bits d.dom p).2.2 q hq).1, fun a ha hb => ?_, fun _ hi => hi⟩
  unfold Dev.linkPowered
  rw [Dev.reg_dropRegs]
  cases p <;> simp [ha, hb] <;> rfl

theorem Dev.linkOnly_linkPowerOn (d : Dev) (p : Port) : Dev.LinkOnly p d (d.linkPowerOn p) := by
  rw [Dev.linkPowerOn_eq]
  exact ((d.linkOnly_linkPowered p).trans (Dev.linkOnly_setLink _ p _)).trans (Dev.linkOnly_linkFromSerdes _ p)

theorem Dev.linkPowerOn_starts (d : Dev) (p : Port) : (d.linkPowerOn p).on p.dom = true ∧
    ((d.linkPowerOn p).link p).step = .serdes ∧ ((d.linkPowerOn p).link p).offPending = false := by
  rw [Dev.linkPowerOn_eq]
  dsimp only
  obtain ⟨hstep, hoff, hdom⟩ := Dev.linkFromSerdes_starts _ p
  refine ⟨?_, hstep, ?_⟩
  · rw [Dev.on, hdom, Dev.dom_setLink]
    exact (dom_bits d.dom p).1
  · rw [hoff, Dev.link_setLink]

end Sys2Proof.Machine
end

section
/-! PROOFS. Clocks, fills and supplies (R17, R18, R26, R281, R356, R357, R432, R433), and the power requests of the links. -/
namespace Sys2Proof.Machine
open Sys2Proof.Claims

/-! ### Clocks and fills -/

theorem exec_runlow (s : State) : exec .runlow s = s.onDev fun d => d.runlowOp := rfl
theorem exec_pllLock (s : State) : exec .pllLock s = s.onDev fun d => d.pllLockOp := rfl
theorem exec_aonPowerUp (s : State) : exec .aonPowerUp s = s.onDev fun d => d.aonPowerUpOp := rfl
theorem exec_aonXtalSwitch (s : State) : exec .aonXtalSwitch s = s.onDev fun d => d.aonXtalSwitchOp := rfl
theorem exec_fillDone (s : State) (mem : FillMem) : exec (.fillDone mem) s = s.onDev fun d => d.fillDoneOp mem := rfl

theorem Dev.calm_put {d : Dev} (f : Fl) (v : Nat) (h : d.calm) : (d.put f v).calm := by
  rw [Dev.calm, Dev.put_coreResetReq, Dev.put_coreStopReq]
  exact h

theorem Dev.aonXtalSwitchOp_eq {d : Dev} (h : d.on .aon = true) : d.aonXtalSwitchOp =
    { d with xtal := true }.put F.WC_STAT_PRESENT (withBits (d.get F.WC_STAT_PRESENT) 5 5 0) := by
  have hpresent (x : Dev) : x.present 5 false = x.put F.WC_STAT_PRESENT (withBits (x.get F.WC_STAT_PRESENT) 5 5 0) := rfl
  have hget : ({ d with xtal := true } : Dev).get F.WC_STAT_PRESENT = d.get F.WC_STAT_PRESENT := rfl
  rw [Dev.aonXtalSwitchOp, if_pos h, hpresent, hget]

theorem clocksAndFills : ClocksAndFills := by
  intro s hcalm
  refine ⟨fun hst hlow => ?_, fun hpump => ?_, fun haon => ?_, fun haon => ?_, fun hcore hpll => ?_, fun hpump hpll => ?_,
    fun hisle => ?_⟩
  · exact State.onDev_eq (f := fun d => d.runlowOp) (if_pos ⟨hst, hlow⟩) (Dev.calm_put _ _ hcalm)
  · exact State.onDev_eq (f := fun d => d.pllLockOp) (if_pos hpump) hcalm
  · exact State.onDev_eq (f := fun d => d.aonPowerUpOp) (if_neg (by rw [haon]; decide)) hcalm
  · exact State.onDev_eq (f := fun d => d.aonXtalSwitchOp) (Dev.aonXtalSwitchOp_eq haon) (Dev.calm_put _ _ hcalm)
  · have hclock : !s.dev.on .pump ∨ s.dev.pll = true := by
      cases hp : s.dev.on .pump
      · exact .inl rfl
      · exact .inr (hpll hp)
    exact State.onDev_eq (f := fun d => d.fillDoneOp .coreAndPump) (if_pos ⟨hcore, hclock⟩) hcalm
  · exact State.onDev_eq (f := fun d => d.fillDoneOp .buckets) (if_pos ⟨hpump, hpll⟩) hcalm
  · exact State.onDev_eq (f := fun d => d.fillDoneOp .bank0) (if_pos hisle) hcalm

/-! ### Supplies -/

/-- The supplies and the classes of the I/O banks, as the detector has sensed them (R357, R427). -/
def Dev.supplied (d : Dev) (core sd io0 io1 io2 : Nat) : Dev :=
  { d with
    env := { d.env with vddCore := core, vddSd := sd, vddIo0 := io0, vddIo1 := io1, vddIo2 := io2 }
    ioClass := #v[decide (2500 ≤ io0), decide (2500 ≤ io1), decide (2500 ≤ io2)] }

theorem Dev.aonSource_host {d : Dev} (h : d.flag F.WH_STAT_HOST_GOOD = true) : d.aonSource = 3 := if_pos h

theorem Dev.hostGood_put (d : Dev) (v : Nat) : (d.put F.WH_STAT_HOST_GOOD v).flag F.WH_STAT_HOST_GOOD = (v % 2 != 0) := by
  rw [Dev.flag, Dev.get_put_same _ _ _ (by decide)]
  rfl

/-- HOST_GOOD's rise selects the host's supply for AON (R356). -/
theorem hostGoodQualified_becomes {s : State} {core sd io0 : Nat} (io1 io2 : Nat) (hcalm : s.dev.calm)
    (hwell : s.dev.on .well = true) (hcore : 680 ≤ core) (hsd : 950 ≤ sd) (hio : 1620 ≤ io0)
    (hgood : s.dev.flag F.WH_STAT_HOST_GOOD = false) :
    exec (.hostGoodQualified core sd io0 io1 io2) s = .next (became s s.core
      (((s.dev.supplied core sd io0 io1 io2).put F.WH_STAT_HOST_GOOD 1).put F.WH_STAT_AON_SRC 3)) := by
  have hop : s.dev.hostGoodQualifiedOp core sd io0 io1 io2 =
      ((s.dev.supplied core sd io0 io1 io2).put F.WH_STAT_HOST_GOOD 1).updateSource :=
    if_pos ⟨hwell, hcore, hsd, hio, by rw [hgood]; rfl⟩
  rw [Dev.updateSource, Dev.aonSource_host (Dev.hostGood_put _ 1)] at hop
  exact State.onDev_eq (f := fun d => d.hostGoodQualifiedOp core sd io0 io1 io2) hop hcalm

/-- The supplies as the detector finds them when one has fallen. -/
def Dev.sagged (d : Dev) (core sd io0 : Nat) : Dev :=
  { d with env := { d.env with vddCore := core, vddSd := sd, vddIo0 := io0 } }

/-- The clamp of the host's domains, where CORE is on (R26). -/
def Dev.clamped (d : Dev) (core sd io0 : Nat) : Dev :=
  if (d.sagged core sd io0).on .core then (d.sagged core sd io0).coreDown else d.sagged core sd io0

theorem Dev.hostSupplyLossOp_eq {d : Dev} {core sd io0 : Nat} (hgood : d.flag F.WH_STAT_HOST_GOOD = true)
    (hlow : core < 660 ∨ sd < 920 ∨ io0 < 1550) :
    d.hostSupplyLossOp core sd io0 = ((d.clamped core sd io0).put F.WH_STAT_HOST_GOOD 0).updateSource := by
  rw [Dev.hostSupplyLossOp, if_pos ⟨hgood, hlow⟩]
  rfl

theorem Dev.clamped_state {d : Dev} (core sd io0 : Nat) (hcalm : d.calm) :
    (d.clamped core sd io0).quiet ∧ (d.clamped core sd io0).opState = d.opState ∧
      (d.clamped core sd io0).dom = if d.on .core = false then d.dom else d.dom &&& 0x07 := by
  unfold Dev.clamped
  split
  · next hon =>
    have hon' : ¬d.on .core = false := fun h => absurd (h.symm.trans hon) (by decide)
    have hdown := (d.sagged core sd io0).steady_coreDown
    obtain ⟨hkept, hquiet⟩ := hdown.ready_lost (by decide)
    rw [if_neg hon']
    exact ⟨hquiet, hkept.opState, hdown.dom⟩
  · next hoff =>
    have hoff' : d.on .core = false := Bool.eq_false_iff.mpr hoff
    rw [if_pos hoff']
    exact ⟨Dev.quiet_of_calm (d := d) hcalm, rfl, rfl⟩

theorem hostSupplyLoss_clamps {s : State} {core sd io0 : Nat} (hcalm : s.dev.calm)
    (hgood : s.dev.flag F.WH_STAT_HOST_GOOD = true) (hlow : core < 660 ∨ sd < 920 ∨ io0 < 1550) :
    ∃ t, exec (.hostSupplyLoss core sd io0) s = .next t ∧ t.dev.flag F.WH_STAT_HOST_GOOD = false ∧
      t.dev.opState = s.dev.opState ∧ t.pending = s.pending ∧
      t.dev.dom = if s.dev.on .core = false then s.dev.dom else s.dev.dom &&& 0x07 := by
  obtain ⟨hquiet, hstate, hdom⟩ := Dev.clamped_state core sd io0 hcalm
  obtain ⟨e, he⟩ : ∃ e, e = ((s.dev.clamped core sd io0).put F.WH_STAT_HOST_GOOD 0).updateSource := ⟨_, rfl⟩
  have hfields : Dev.Steady [F.SYS_STATE.addr] (s.dev.clamped core sd io0) e := by
    rw [he]
    exact (Dev.Steady.put F.WH_STAT_HOST_GOOD 0 (by decide)).trans (Dev.steady_updateSource _ (by decide))
  have hflag : e.flag F.WH_STAT_HOST_GOOD = false := by
    rw [he, Dev.updateSource, Dev.flag, Dev.get_put_apart _ _ _ _ (by decide) (by decide)]
    exact Dev.hostGood_put _ 0
  have hask := hfields.quiet hquiet
  obtain ⟨hsettle, hpend⟩ := State.settle_steady (s := { s with dev := e }) hask.1 hask.2
  refine ⟨State.settle { s with dev := e }, ?_, ?_, ?_, hpend, ?_⟩
  · rw [he, ← Dev.hostSupplyLossOp_eq hgood hlow]
    rfl
  · rw [Dev.flag, hsettle.get (by decide)]
    exact hflag
  · exact (hsettle.get (by decide)).trans ((hfields.get (by decide)).trans hstate)
  · exact hsettle.dom.trans (hfields.dom.trans hdom)

theorem exec_aonUnpowered (s : State) : exec .aonUnpowered s = s.onDev fun d => d.aonUnpoweredOp := rfl

/-- Without a source everything but the non-volatile arrays is lost (R356). -/
def Dev.unpowered (d : Dev) : Dev :=
  { Dev.reset with
    now := d.now
    freeCount := d.freeCount
    env := { d.env with vbat := 0 }
    flash := d.flash
    cstArray := d.cstArray
    torn := d.torn
    codes := { d.codes with ctx := [] }
    cst := d.cst
    dom := 0 }

theorem Dev.aonUnpoweredOp_eq {d : Dev} (haon : d.on .aon = true) (hsource : d.aonSource = 0) (hisle : d.on .isle = false)
    (hflash : d.flashJob = none) : d.aonUnpoweredOp = d.unpowered := by
  have hdown : d.isleDown = d := if_neg (by rw [hisle]; decide)
  have hstop : d.flashStop = d := by
    unfold Dev.flashStop
    rw [hflash]
  rw [Dev.aonUnpoweredOp, if_pos ⟨haon, hsource⟩]
  dsimp only
  rw [hdown, hstop]
  rfl

/-! ### A link's power goes off between frames -/

theorem exec_linkPowerOff (s : State) (p : Port) : exec (.linkPowerOff p) s = s.onDev fun d => d.linkPowerOffOp p := rfl

theorem Dev.linkPowerOffOp_inFrame {d : Dev} {p : Port} (h : d.now < (d.link p).rxUntil) : d.linkPowerOffOp p = d :=
  if_neg fun ⟨_, _, _, hrx⟩ => absurd hrx (Nat.not_le.mpr h)

theorem Dev.linkPowerOffOp_free {d : Dev} {p : Port} (hoff : (d.link p).offPending = true) (hon : d.on p.dom = true)
    (hfree : d.egress p = none) (hrx : (d.link p).rxUntil ≤ d.now) : d.linkPowerOffOp p = d.linkPowerDown p :=
  if_pos ⟨hoff, hon, by rw [hfree]; rfl, hrx⟩

theorem Dev.linkPowerDown_eq {d : Dev} {p : Port} (h : d.egress p = none) : d.linkPowerDown p =
    ((d.linkFall p).setLink p { (d.linkFall p).link p with step := .off, offPending := false }).withDom
      ((d.linkFall p).dom &&& ~~~BitVec.ofNat 8 (2 ^ p.dom.bit)) := by
  have hlost : d.linkLost p = d := by
    unfold Dev.linkLost
    rw [h]
  unfold Dev.linkPowerDown
  rw [hlost]
  rfl

/-- The record of a port that is off. -/
def Link.down (x : Link) : Link := { x with step := .off, offPending := false }

theorem Dev.linkPowerDown_falls {d : Dev} {p : Port} (h : d.egress p = none) :
    (d.linkPowerDown p).dom = d.dom &&& ~~~(BitVec.ofNat 8 (2 ^ p.dom.bit)) ∧
      (d.linkPowerDown p).link p = (d.link p).down ∧ (d.linkPowerDown p).irq = (d.linkFall p).irq ∧
      Dev.LinkOnly p d (d.linkPowerDown p) := by
  obtain ⟨hlink, hdom⟩ := d.link_linkFall p p
  have hfall := (d.linkOnly_linkFall p p).trans (Dev.linkOnly_setLink _ p (d.link p).down)
  have hset : ((d.linkFall p).setLink p (d.link p).down).dom = d.dom := (Dev.dom_setLink _ _ _).trans hdom
  have heq : d.linkPowerDown p = ((d.linkFall p).setLink p (d.link p).down).withDom
      (d.dom &&& ~~~BitVec.ofNat 8 (2 ^ p.dom.bit)) := by
    rw [Dev.linkPowerDown_eq h, hlink, hdom]
    rfl
  rw [heq]
  generalize hx : (d.linkFall p).setLink p (d.link p).down = x at hfall hset ⊢
  refine ⟨rfl, ?_, ?_, hfall.trans ⟨rfl, fun q _ => by cases q <;> rfl, fun q hq => ?_, fun _ _ _ => rfl, fun _ hi => hi⟩⟩
  · have hsame : (x.withDom (d.dom &&& ~~~BitVec.ofNat 8 (2 ^ p.dom.bit))).link p = x.link p := by cases p <;> rfl
    rw [hsame, ← hx, Dev.link_setLink]
  · rw [← hx]
    cases p <;> rfl
  · rw [Dev.on, Dev.on, hset]
    exact ((dom_bits d.dom p).2.2 q hq).2

/-- A port's interrupt source is its latch. -/
theorem Dev.source_port (d : Dev) (p : Port) : d.source (portIrq p) = d.irq.getLsbD (portIrq p) := by
  cases p <;> rfl

theorem linkPowerOff_goes {s : State} {p : Port} (hcalm : s.dev.calm) (hoff : (s.dev.link p).offPending = true)
    (hon : s.dev.on p.dom = true) (hfree : s.dev.egress p = none) (hrx : (s.dev.link p).rxUntil ≤ s.dev.now) :
    ∃ t, exec (.linkPowerOff p) s = .next t ∧ t.core = (became s s.core t.dev).core ∧ t.pending = s.pending ∧
      t.dev.dom = s.dev.dom &&& ~~~(BitVec.ofNat 8 (2 ^ p.dom.bit)) ∧
      t.dev.link p = { s.dev.link p with step := .off, offPending := false } ∧ t.dev.linkUp p = false ∧
      (s.dev.linkUp p = true → t.dev.source (portIrq p) = true) ∧
      t.dev = { s.dev with dom := t.dev.dom, regs := t.dev.regs, irq := t.dev.irq,
                           linkA := t.dev.linkA, linkB := t.dev.linkB } := by
  obtain ⟨hdom, hlink, hirq, honly⟩ := Dev.linkPowerDown_falls (d := s.dev) hfree
  have hcalm' : (s.dev.linkPowerDown p).calm := by
    rw [honly.same]
    exact hcalm
  refine ⟨_, State.onDev_eq (f := fun d => d.linkPowerOffOp p) (Dev.linkPowerOffOp_free hoff hon hfree hrx) hcalm', rfl, rfl,
    hdom, hlink, ?_, fun hup => ?_, honly.same⟩
  · have hoff : (s.dev.linkPowerDown p).on p.dom = false := by
      rw [Dev.on, hdom]
      exact (dom_bits s.dev.dom p).2.1
    show ((s.dev.linkPowerDown p).on p.dom && _) = false
    rw [hoff, Bool.false_and]
  · have hfield : s.dev.linkGet p F.LINK_STAT_LINK_UP ≠ 0 := by
      rw [Dev.linkUp, Bool.and_eq_true, beq_iff_eq] at hup
      rw [hup.2]
      decide
    show (s.dev.linkPowerDown p).source (portIrq p) = true
    rw [Dev.source_port, hirq]
    exact Dev.linkFall_latches hfield

theorem supplies : Supplies := by
  intro s core sd io0 io1 io2 hcalm
  refine ⟨fun hwell hcore hsd hio hgood => ?_, hostSupplyLoss_clamps hcalm, fun haon hsource hisle hflash => ?_,
    fun p hoff hon hfree => ⟨fun hrx => ?_, linkPowerOff_goes hcalm hoff hon hfree⟩⟩
  · exact hostGoodQualified_becomes io1 io2 hcalm hwell hcore hsd hio hgood
  · have hcalm' : s.dev.unpowered.calm := ⟨rfl, rfl⟩
    exact ⟨_, State.onDev_eq (f := fun d => d.aonUnpoweredOp) (Dev.aonUnpoweredOp_eq haon hsource hisle hflash) hcalm',
      rfl, rfl, rfl, rfl, rfl, rfl, rfl, rfl, rfl⟩
  · exact State.onDev_eq (f := fun d => d.linkPowerOffOp p) (Dev.linkPowerOffOp_inFrame hrx) hcalm

/-! ### Power requests (R17) -/

theorem exec_pwrReqWrite (s : State) (m : Master) (v : Word) :
    exec (.pwrReqWrite m v) s = s.onDev fun d => d.write m F.SYS_PWR_REQ_LINKA_ON.addr v := rfl

/-- The request for one port. -/
def Dev.portRequest (d : Dev) (p : Port) (want : Bool) : Dev :=
  if want then
    if d.on p.dom then d.setLink p { d.link p with offPending := false }
    else if d.opState = stHost then d.linkPowerOn p else d
  else if d.on p.dom then d.setLink p { d.link p with offPending := true }
  else d

theorem Dev.pwrReqWritten_eq (d : Dev) : d.pwrReqWritten =
    (d.portRequest .a (d.flag F.SYS_PWR_REQ_LINKA_ON)).portRequest .b (d.flag F.SYS_PWR_REQ_LINKB_ON) := rfl

/-- What R17 says of a request for port `p`: the port as it was in `d`, and as it is in `e`. -/
def PortAsked (d e : Dev) (p : Port) (want : Bool) : Prop :=
  (d.on p.dom = true → e.on p.dom = true ∧ e.link p = { d.link p with offPending := !want }) ∧
    (d.on p.dom = false → (want = false ∨ d.opState ≠ stHost) → e.on p.dom = false ∧ e.link p = d.link p) ∧
    (d.on p.dom = false → want = true → d.opState = stHost →
      e.on p.dom = true ∧ (e.link p).step = .serdes ∧ (e.link p).offPending = false)

theorem Dev.linkOnly_portRequest (d : Dev) (p : Port) (want : Bool) : Dev.LinkOnly p d (d.portRequest p want) := by
  unfold Dev.portRequest
  split_ifs
  · exact d.linkOnly_setLink p _
  · exact d.linkOnly_linkPowerOn p
  · exact .refl p d
  · exact d.linkOnly_setLink p _
  · exact .refl p d

theorem Dev.portRequest_asked (d : Dev) (p : Port) (want : Bool) : PortAsked d (d.portRequest p want) p want := by
  refine ⟨fun hon => ?_, fun hoff hnot => ?_, fun hoff hwant hst => ?_⟩
  · have hset : d.portRequest p want = d.setLink p { d.link p with offPending := !want } := by
      cases want <;> simp [Dev.portRequest, hon]
    rw [hset, Dev.link_setLink, Dev.on, Dev.dom_setLink]
    exact ⟨hon, rfl⟩
  · have hsame : d.portRequest p want = d := by
      obtain rfl | hst := hnot
      · simp [Dev.portRequest, hoff]
      · simp [Dev.portRequest, hoff, hst]
    rw [hsame]
    exact ⟨hoff, rfl⟩
  · have hpow : d.portRequest p want = d.linkPowerOn p := by simp [Dev.portRequest, hoff, hwant, hst]
    rw [hpow]
    exact d.linkPowerOn_starts p

/-- `PortAsked` looks at the port's domain and record alone, and at STATE before. -/
theorem PortAsked.congr {d e d' e' : Dev} {p : Port} {want : Bool} (h : PortAsked d e p want)
    (hon : d'.on p.dom = d.on p.dom) (hlink : d'.link p = d.link p) (hst : d'.opState = d.opState)
    (hon' : e'.on p.dom = e.on p.dom) (hlink' : e'.link p = e.link p) : PortAsked d' e' p want := by
  unfold PortAsked
  rw [hon, hlink, hst, hon', hlink']
  exact h

theorem Dev.LinkOnly.calm {p : Port} {d e : Dev} (h : Dev.LinkOnly p d e) (hd : d.calm) : e.calm := by
  rw [h.same]
  exact hd

theorem Dev.LinkOnly.chans {p : Port} {d e : Dev} (h : Dev.LinkOnly p d e) : e.chans = d.chans := by
  rw [h.same]

theorem Dev.LinkOnly.get {p : Port} {d e : Dev} (h : Dev.LinkOnly p d e) {f : Fl} (ha : f.addr / 0x10000 ≠ 0x4020)
    (hb : f.addr / 0x10000 ≠ 0x4021) : e.get f = d.get f :=
  Dev.get_congr (h.reg _ ha hb)

/-- The two fields of PWR_REQ. -/
def pwrReqField (k : Nat) : Fld := ⟨F.SYS_PWR_REQ_LINKA_ON.addr, k, k, .rw, 0x1, .reset, .supervisor⟩

theorem fieldsAt_pwrReq : fieldsAt F.SYS_PWR_REQ_LINKA_ON.addr = [pwrReqField 1, pwrReqField 0] := by
  decide

/-- A field of PWR_REQ is neither fixed nor locked. -/
theorem Dev.pwrReq_open (d : Dev) (k : Nat) :
    d.fieldFixed F.SYS_PWR_REQ_LINKA_ON.addr (pwrReqField k) = false ∧
      d.fieldLocked F.SYS_PWR_REQ_LINKA_ON.addr (pwrReqField k) = false :=
  ⟨rfl, rfl⟩

/-- It takes the bit that is written. -/
theorem Dev.writeField_pwrReq (d : Dev) (m : Master) (w : Nat) (x : Dev × Nat) (k : Nat)
    (hr : Owner.supervisor.reached (masterLevel m) = true) :
    d.writeField m F.SYS_PWR_REQ_LINKA_ON.addr w x (pwrReqField k) =
      (x.1.put ⟨F.SYS_PWR_REQ_LINKA_ON.addr, k, k⟩ (bitsOf w k k), x.2) := by
  obtain ⟨hfix, hlock⟩ := d.pwrReq_open k
  have hclamp (v : Nat) : d.fieldClamp F.SYS_PWR_REQ_LINKA_ON.addr w (pwrReqField k) v = v := rfl
  have hstore (v : Nat) : fieldStore F.SYS_PWR_REQ_LINKA_ON.addr (pwrReqField k) v = v := rfl
  have hr' : (pwrReqField k).owner.reached (masterLevel m) = true := hr
  rw [Dev.writeField, hr', hfix, hlock]
  simp only [hclamp, hstore]
  rfl

/-- The write of PWR_REQ's two bits. -/
def Dev.pwrReqStored (d : Dev) (w : Nat) : Dev :=
  (d.put F.SYS_PWR_REQ_LINKA_ON (bitsOf w 0 0)).put F.SYS_PWR_REQ_LINKB_ON (bitsOf w 1 1)

/-- A word that arrives at PWR_REQ is stored, by a writer who reaches the register; another one's holds the bits that
are there. -/
theorem Dev.pwrReq_fields {d : Dev} {m : Master} {w : Nat} (h : d.fieldCase m F.SYS_PWR_REQ_LINKA_ON.addr w = false) :
    ∃ e, (fieldsAt F.SYS_PWR_REQ_LINKA_ON.addr).reverse.foldl (d.writeField m F.SYS_PWR_REQ_LINKA_ON.addr w) (d, 0) = (e, 0) ∧
      (e = d.pwrReqStored w ∨ e = d) ∧ e.get F.SYS_PWR_REQ_LINKA_ON = bitsOf w 0 0 ∧
      e.get F.SYS_PWR_REQ_LINKB_ON = bitsOf w 1 1 := by
  cases hr : Owner.supervisor.reached (masterLevel m) with
  | true =>
    refine ⟨d.pwrReqStored w, ?_, .inl rfl, ?_, ?_⟩
    · rw [fieldsAt_pwrReq]
      simp only [List.reverse_cons, List.reverse_nil, List.nil_append, List.cons_append, List.foldl_cons, List.foldl_nil]
      rw [Dev.writeField_pwrReq d m w _ 0 hr, Dev.writeField_pwrReq d m w _ 1 hr]
      rfl
    · refine (Dev.get_put_apart _ F.SYS_PWR_REQ_LINKB_ON F.SYS_PWR_REQ_LINKA_ON _ (by decide) (by decide)).trans ?_
      refine (Dev.get_put_same _ F.SYS_PWR_REQ_LINKA_ON _ (by decide)).trans ?_
      exact Nat.mod_eq_of_lt (bitsOf_lt w 0 0)
    · refine (Dev.get_put_same _ F.SYS_PWR_REQ_LINKB_ON _ (by decide)).trans ?_
      exact Nat.mod_eq_of_lt (bitsOf_lt w 1 1)
  | false =>
    have hkept (k : Nat) (hf : pwrReqField k ∈ fieldsAt F.SYS_PWR_REQ_LINKA_ON.addr) :
        d.get ⟨F.SYS_PWR_REQ_LINKA_ON.addr, k, k⟩ = bitsOf w k k := by
      by_contra hne
      have hmeant : d.fieldMeant F.SYS_PWR_REQ_LINKA_ON.addr w (pwrReqField k) = true := by
        obtain ⟨hfix, hlock⟩ := d.pwrReq_open k
        have hwritten : bitsOf w (pwrReqField k).hi (pwrReqField k).lo ≠ d.get ((pwrReqField k).at F.SYS_PWR_REQ_LINKA_ON.addr) := Ne.symm hne
        have hrw : (pwrReqField k).acc = .rw := rfl
        simp only [Dev.fieldMeant, hrw, hfix, hlock]
        simpa using hwritten
      exact absurd (hr.symm.trans (Dev.reached_of_meant h hf nofun hmeant)) (by decide)
    refine ⟨d, ?_, .inr rfl, hkept 0 (by rw [fieldsAt_pwrReq]; simp), hkept 1 (by rw [fieldsAt_pwrReq]; simp)⟩
    rw [fieldsAt_pwrReq]
    simp only [List.reverse_cons, List.reverse_nil, List.nil_append, List.cons_append, List.foldl_cons, List.foldl_nil]
    rw [Dev.writeField_of_not_reached d m _ w _ (by exact hr), Dev.writeField_of_not_reached d m _ w _ (by exact hr)]

/-- The stored word leaves the ports, their domains, STATE and what the core and the channels are asked as they are. -/
theorem Dev.pwrReqStored_keeps {d e : Dev} {w : Nat} (h : e = d.pwrReqStored w ∨ e = d) :
    e.calm = d.calm ∧ e.dom = d.dom ∧ e.linkA = d.linkA ∧ e.linkB = d.linkB ∧ e.chans = d.chans ∧ e.opState = d.opState ∧
      ∀ a, a ≠ F.SYS_PWR_REQ_LINKA_ON.addr → e.reg a = d.reg a := by
  obtain rfl | rfl := h
  · have hreg (a : Nat) (ha : a ≠ F.SYS_PWR_REQ_LINKA_ON.addr) : (d.pwrReqStored w).reg a = d.reg a :=
      (Dev.reg_put_ne _ F.SYS_PWR_REQ_LINKB_ON _ ha).trans (Dev.reg_put_ne _ F.SYS_PWR_REQ_LINKA_ON _ ha)
    exact ⟨rfl, rfl, rfl, rfl, rfl, Dev.get_congr (hreg F.SYS_STATE.addr (by decide)), hreg⟩
  · exact ⟨rfl, rfl, rfl, rfl, rfl, rfl, fun _ _ => rfl⟩

/-- The device once the two ports' requests have been served. -/
def Dev.portsRequested (d : Dev) (v : Word) : Dev := (d.portRequest .a (v.getLsbD 0)).portRequest .b (v.getLsbD 1)

theorem bit_flag {d : Dev} {f : Fl} {v : Word} {k : Nat} (h : d.get f = bitsOf v.toNat k k) : d.flag f = v.getLsbD k ∧
    d.get f = b2n (v.getLsbD k) := by
  have hbit : bitsOf v.toNat k k = b2n (v.getLsbD k) := by
    rw [bitsOf_eq, BitVec.getLsbD, Nat.testBit_eq_decide_div_mod_eq, Nat.add_sub_cancel_left]
    have hlt := Nat.mod_lt (v.toNat / 2 ^ k) (y := 2) (by decide)
    rw [b2n]
    split <;> simp_all
  rw [Dev.flag, h, hbit]
  cases v.getLsbD k <;> decide

theorem powerRequests : PowerRequests := by
  intro s m v harr
  obtain ⟨hcalm, hab, -, -, hgate, hcase⟩ := id harr
  obtain ⟨e, he, hstored, hA, hB⟩ := Dev.pwrReq_fields hcase
  obtain ⟨hecalm, hedom, helinkA, helinkB, hechans, hest, hereg⟩ := Dev.pwrReqStored_keeps hstored
  obtain ⟨hflagA, hbitA⟩ := bit_flag hA
  obtain ⟨hflagB, hbitB⟩ := bit_flag hB
  have hports := e.linkOnly_portRequest .a (v.getLsbD 0)
  have hports' := (e.portRequest .a (v.getLsbD 0)).linkOnly_portRequest .b (v.getLsbD 1)
  have hreg (a : Nat) (ha : a / 0x10000 ≠ 0x4020) (hb : a / 0x10000 ≠ 0x4021) : (e.portsRequested v).reg a = e.reg a :=
    (hports'.reg a ha hb).trans (hports.reg a ha hb)
  have heffect : s.dev.regEffect m F.SYS_PWR_REQ_LINKA_ON.addr v = e.portsRequested v := by
    rw [Dev.regEffect_of_gate hgate he, Dev.regWritten]
    dsimp only
    rw [if_pos rfl, Dev.pwrReqWritten_eq, hflagA, hflagB]
    rfl
  have hcalm' : (e.portsRequested v).calm := hports'.calm (hports.calm (hecalm ▸ hcalm))
  have hab' : noAbort (e.portsRequested v) := by
    refine noAbort_of_eq hab (hports'.chans.trans (hports.chans.trans hechans)) fun a ha => ?_
    have hother : a ≠ F.SYS_PWR_REQ_LINKA_ON.addr := by
      rintro rfl
      exact absurd ha (by decide)
    exact (hreg a (by omega) (by omega)).trans (hereg a hother)
  have hwrite := Dev.write_of_arrives harr (by decide) (by decide) (by decide) heffect hab'
  refine ⟨_, State.onDev_eq (f := fun d => d.write m F.SYS_PWR_REQ_LINKA_ON.addr v) hwrite hcalm', rfl, rfl, ?_, ?_, ?_⟩
  · exact (Dev.get_congr (hreg _ (by decide) (by decide))).trans hbitA
  · exact (Dev.get_congr (hreg _ (by decide) (by decide))).trans hbitB
  · have hst (x : Dev) (h : Dev.LinkOnly .a e x) : s.dev.opState = x.opState :=
      hest.symm.trans (h.get (f := F.SYS_STATE) (by decide) (by decide)).symm
    have hdom (q : Port) : s.dev.on q.dom = e.on q.dom := by rw [Dev.on, Dev.on, hedom]
    rintro (_ | _)
    · exact (e.portRequest_asked .a _).congr (hdom _) helinkA.symm (hst e (.refl .a e))
        (hports'.otherOn .a nofun) (hports'.other .a nofun)
    · exact (Dev.portRequest_asked _ .b _).congr ((hdom _).trans (hports.otherOn .b nofun).symm)
        (helinkB.symm.trans (hports.other .b nofun).symm) (hst _ hports) rfl rfl

/-- Settles O22: the clocks and the supplies are single updates, a loss is `coreDown`, and PWR_REQ is two port requests. -/
theorem clocksAndSupplies : Obligations.ClocksAndSupplies := by
  unfold Obligations.ClocksAndSupplies
  exact ⟨clocksAndFills, supplies, powerRequests⟩

end Sys2Proof.Machine
end

section
/-! PROOFS. The flash array (R278 to R280, R418): what an erased and a programmed page read as, and that no other page
changes. -/
namespace Sys2Proof.Machine
open Sys2Proof.Claims

/-! ### Torn ranges -/

/-- A list's first match, when each element is replaced by pieces of which one stands for it exactly where it matched. -/
theorem List.find?_flatMap_bind {α β : Type} {f : α → List α} {h : α → Bool} {g : α → Option β} (l : List α)
    (hno : ∀ t, h t = false → (f t).find? h = none)
    (hyes : ∀ t, h t = true → ∃ u, (f t).find? h = some u ∧ g u = g t) :
    ((l.flatMap f).find? h).bind g = (l.find? h).bind g := by
  induction l with
  | nil => rfl
  | cons t l ih =>
    rw [List.flatMap_cons, List.find?_append, List.find?_cons]
    cases ht : h t with
    | false =>
      rw [hno t ht, Option.none_or]
      exact ih
    | true =>
      obtain ⟨u, hu, hg⟩ := hyes t ht
      rw [hu]
      exact hg

/-- The piece of a torn range before the words that are erased or programmed. -/
def Torn.before (t : Torn) (first : Nat) : Torn := { t with words := min (t.first + t.words) first - t.first }

/-- The piece behind them. -/
def Torn.behind (t : Torn) (past : Nat) : Torn :=
  { t with first := max t.first past, words := t.first + t.words - max t.first past }

theorem Torn.outside_eq (t : Torn) (first words : Nat) :
    t.outside first words = [t.before first, t.behind (first + words)].filter fun x => x.words != 0 := rfl

theorem Torn.holds_iff (t : Torn) (cst : Bool) (i : Nat) :
    t.holds cst i = true ↔ t.cst = cst ∧ t.first ≤ i ∧ i < t.first + t.words := by
  simp [Torn.holds, and_assoc]

theorem Torn.holds_before (t : Torn) (cst : Bool) (first i : Nat) :
    (t.before first).holds cst i = true ↔ t.holds cst i = true ∧ i < first := by
  simp only [Torn.holds_iff, Torn.before, and_assoc]
  exact and_congr_right fun _ => by omega

theorem Torn.holds_behind (t : Torn) (cst : Bool) (past i : Nat) :
    (t.behind past).holds cst i = true ↔ t.holds cst i = true ∧ past ≤ i := by
  simp only [Torn.holds_iff, Torn.behind, and_assoc]
  exact and_congr_right fun _ => by omega

/-- A piece without words holds none. -/
theorem Torn.find_outside (t : Torn) (cst : Bool) (first words i : Nat) :
    (t.outside first words).find? (fun x => x.holds cst i) =
      if (t.before first).holds cst i then some (t.before first)
      else if (t.behind (first + words)).holds cst i then some (t.behind (first + words)) else none := by
  have hempty (x : Torn) : (decide ((x.words != 0) = true ∧ x.holds cst i = true)) = x.holds cst i := by
    rw [Bool.eq_iff_iff, decide_eq_true_eq]
    refine ⟨And.right, fun h => ⟨?_, h⟩⟩
    have hin := (x.holds_iff cst i).1 h
    simp only [bne_iff_ne]
    omega
  rw [Torn.outside_eq, List.find?_filter]
  simp only [hempty, List.find?_cons, List.find?_nil]
  split <;> split <;> simp_all

/-- A word outside the words that are erased or programmed lies in a piece exactly where it lay in the range, and the piece
ends where the range did, or before the words. -/
theorem Torn.find_outside_apart {t : Torn} {cst : Bool} {first words i : Nat} (hi : i < first ∨ first + words ≤ i) :
    (t.holds cst i = false → (t.outside first words).find? (fun x => x.holds cst i) = none) ∧
      (t.holds cst i = true → ∃ u, (t.outside first words).find? (fun x => x.holds cst i) = some u ∧ u.draw = t.draw ∧
        ∀ e, (i < first → e ≤ first) → (e ≤ u.first + u.words ↔ e ≤ t.first + t.words)) := by
  rw [Torn.find_outside]
  refine ⟨fun h => ?_, fun h => ?_⟩
  · rw [if_neg (by rw [Torn.holds_before, h]; simp), if_neg (by rw [Torn.holds_behind, h]; simp)]
  · have hin := (t.holds_iff cst i).1 h
    by_cases hlt : i < first
    · rw [if_pos ((t.holds_before cst first i).2 ⟨h, hlt⟩)]
      refine ⟨_, rfl, rfl, fun e he => ?_⟩
      have := he hlt
      simp only [Torn.before]
      omega
    · rw [if_neg (by rw [Torn.holds_before]; exact fun hb => hlt hb.2),
        if_pos ((t.holds_behind cst _ i).2 ⟨h, by omega⟩)]
      refine ⟨_, rfl, rfl, fun e _ => ?_⟩
      simp only [Torn.behind]
      omega

/-- Words that are erased or programmed are torn no longer. -/
theorem Dev.untear_inside (d : Dev) (cst : Bool) {first words i : Nat} (hlo : first ≤ i) (hhi : i < first + words) :
    (d.untear cst first words).tornAt cst i = none := by
  refine List.find?_eq_none.2 fun x hx => ?_
  obtain ⟨t, -, hxt⟩ := List.mem_flatMap.1 hx
  split at hxt
  · have hnone : (t.outside first words).find? (fun x => x.holds cst i) = none := by
      rw [Torn.find_outside, if_neg, if_neg]
      · rw [Torn.holds_behind]
        omega
      · rw [Torn.holds_before]
        omega
    exact List.find?_eq_none.1 hnone x hxt
  · next hne =>
    rw [List.mem_singleton.1 hxt, Torn.holds_iff]
    exact fun h => hne h.1

/-- What a torn word or spare area reads is told by the range's free value, and by whether the range covers the page. -/
def Torn.reads (e : Nat) (t : Torn) : Option Nat := if e ≤ t.first + t.words then some t.draw else none

theorem Dev.untear_reads (d : Dev) {first words i : Nat} (e : Nat) (hi : i < first ∨ first + words ≤ i)
    (he : i < first → e ≤ first) :
    ((d.untear false first words).tornAt false i).bind (Torn.reads e) = (d.tornAt false i).bind (Torn.reads e) := by
  refine List.find?_flatMap_bind d.torn (fun t ht => ?_) (fun t ht => ?_)
  · split
    · exact (Torn.find_outside_apart hi).1 ht
    · simp [ht]
  · split
    · obtain ⟨u, hu, hdraw, hend⟩ := (Torn.find_outside_apart hi).2 ht
      refine ⟨u, hu, ?_⟩
      simp only [Torn.reads, hdraw, hend e he]
    · exact ⟨t, by simp [ht], rfl⟩

theorem Torn.reads_zero : Torn.reads 0 = fun t => some t.draw := by
  funext t
  simp [Torn.reads]

/-! ### What a word of flash reads depends on its page alone -/

/-- What a word reads is told by the free value of its torn range, its contents and its light codes. -/
theorem Dev.nvmRaw_congr {d e : Dev} {i : Nat}
    (htorn : (e.tornAt false i).bind (Torn.reads 0) = (d.tornAt false i).bind (Torn.reads 0))
    (hdata : e.flash.find? (fun x => x.1 == i) = d.flash.find? (fun x => x.1 == i))
    (hlight : Sparse.get lightDflt i e.codes.flashLight = Sparse.get lightDflt i d.codes.flashLight) :
    e.nvmRaw false i = d.nvmRaw false i := by
  rw [Torn.reads_zero] at htorn
  unfold Dev.nvmRaw
  rcases hd : d.tornAt false i with _ | t <;> rcases he : e.tornAt false i with _ | u <;> rw [hd, he] at htorn
  · simp only [Bool.false_eq_true, if_false, hdata, hlight]
  · exact absurd htorn nofun
  · exact absurd htorn nofun
  · have hdraw : u.draw = t.draw := Option.some.inj htorn
    simp only [hdraw]

/-- Page `p` of flash reads in `e` as it does in `d`: its words, and its spare area. -/
structure Dev.PageKept (p : Nat) (d e : Dev) : Prop where
  raw : ∀ i, i / 128 = p → e.nvmRaw false i = d.nvmRaw false i
  spare : e.spare false p = d.spare false p

theorem Dev.PageKept.refl (p : Nat) (d : Dev) : Dev.PageKept p d d := ⟨fun _ _ => rfl, rfl⟩

theorem Dev.PageKept.trans {p : Nat} {d e g : Dev} (h : Dev.PageKept p d e) (h' : Dev.PageKept p e g) : Dev.PageKept p d g :=
  ⟨fun i hi => (h'.raw i hi).trans (h.raw i hi), h'.spare.trans h.spare⟩

theorem Dev.pageData_congr {p : Nat} {d e : Dev} (h : ∀ i, i / 128 = p → e.nvmRaw false i = d.nvmRaw false i) :
    e.pageData false p = d.pageData false p := by
  unfold Dev.pageData
  refine List.flatMap_congr fun k hk => ?_
  have hlt := List.mem_range.1 hk
  rw [h (128 * p + k) (by omega)]

theorem Dev.PageKept.word {p i : Nat} {d e : Dev} (h : Dev.PageKept p d e) (hi : i / 128 = p) :
    e.nvmWord false i = d.nvmWord false i := by
  have hdecode : e.pageDecode false p = d.pageDecode false p := by
    unfold Dev.pageDecode
    rw [h.spare, Dev.pageData_congr h.raw]
  unfold Dev.nvmWord
  rw [h.raw _ hi, hi, hdecode]

theorem Dev.PageKept.byte {p a : Nat} {d e : Dev} (h : Dev.PageKept p d e) (ha : a / 1024 = p) :
    e.nvmByte false a = d.nvmByte false a := by
  unfold Dev.nvmByte
  rw [h.word (i := a / 8) (by omega)]

theorem Dev.nvmErased_congr {d e : Dev} (h : ∀ p, Dev.PageKept p d e) (a n : Nat) :
    e.nvmErased false a n = d.nvmErased false a n := by
  unfold Dev.nvmErased
  simp only [fun i => (h (i / 128)).word rfl]

/-- A spare area reads by the torn range that covers its page, what it holds, and the page's data. -/
theorem Dev.spare_congr {p : Nat} {d e : Dev}
    (htorn : (e.tornAt false (128 * p)).bind (Torn.reads (128 * p + 128)) =
      (d.tornAt false (128 * p)).bind (Torn.reads (128 * p + 128)))
    (hspare : e.codes.flashSpare.find? (fun x => x.1 == p) = d.codes.flashSpare.find? (fun x => x.1 == p))
    (hdata : e.pageData false p = d.pageData false p) : e.spare false p = d.spare false p := by
  have hcover (x : Dev) : ((x.tornAt false (128 * p)).filter fun t => decide (128 * p + 128 ≤ t.first + t.words)).map
      Torn.draw = (x.tornAt false (128 * p)).bind (Torn.reads (128 * p + 128)) := by
    cases x.tornAt false (128 * p) with
    | none => rfl
    | some t => by_cases h : 128 * p + 128 ≤ t.first + t.words <;> simp [Torn.reads, h, Nat.lt_of_not_le]
  rw [← hcover, ← hcover] at htorn
  unfold Dev.spare
  generalize (e.tornAt false (128 * p)).filter _ = u at htorn
  generalize (d.tornAt false (128 * p)).filter _ = t at htorn
  rcases t with _ | t <;> rcases u with _ | u
  · simp only [Bool.false_eq_true, if_false, hspare, hdata]
  · exact absurd htorn nofun
  · exact absurd htorn nofun
  · have hdraw : u.draw = t.draw := Option.some.inj htorn
    simp only [hdraw]

/-- Erasing or programming whole pages keeps every page beside them. -/
theorem Dev.pageKept_of_untear {p first words : Nat} {d e : Dev} (htorn : e.torn = (d.untear false first words).torn)
    (hp : 128 * p + 128 ≤ first ∨ first + words ≤ 128 * p)
    (hflash : ∀ i, i / 128 = p → e.flash.find? (fun x => x.1 == i) = d.flash.find? (fun x => x.1 == i))
    (hlight : ∀ i, i / 128 = p → Sparse.get lightDflt i e.codes.flashLight = Sparse.get lightDflt i d.codes.flashLight)
    (hspare : e.codes.flashSpare.find? (fun x => x.1 == p) = d.codes.flashSpare.find? (fun x => x.1 == p)) :
    Dev.PageKept p d e := by
  have hat (i : Nat) : e.tornAt false i = (d.untear false first words).tornAt false i := by
    rw [Dev.tornAt, Dev.tornAt, htorn]
  have hraw (i : Nat) (hi : i / 128 = p) : e.nvmRaw false i = d.nvmRaw false i := by
    refine Dev.nvmRaw_congr ?_ (hflash i hi) (hlight i hi)
    rw [hat]
    exact d.untear_reads 0 (by omega) (by omega)
  refine ⟨hraw, Dev.spare_congr ?_ hspare (Dev.pageData_congr hraw)⟩
  rw [hat]
  exact d.untear_reads _ (by omega) (by omega)

/-! ### A page erased -/

theorem Sparse.find_ins_ne {β : Type} {k j : Nat} (v : β) (l : List (Nat × β)) (h : j ≠ k) :
    (Sparse.ins k v l).find? (fun x => x.1 == j) = l.find? (fun x => x.1 == j) := by
  have hkj : (k == j) = false := beq_eq_false_iff_ne.2 (Ne.symm h)
  induction l with
  | nil => simp [Sparse.ins, hkj]
  | cons x t ih =>
    obtain ⟨a, b⟩ := x
    unfold Sparse.ins
    split
    · rw [List.find?_cons, hkj]
    · split
      · next ha => rw [List.find?_cons, List.find?_cons, hkj, show (a == j) = false from ha ▸ hkj]
      · rw [List.find?_cons, List.find?_cons, ih]

theorem Sparse.find_ins_same {β : Type} (k : Nat) (v : β) (l : List (Nat × β)) :
    (Sparse.ins k v l).find? (fun x => x.1 == k) = some (k, v) := by
  induction l with
  | nil => simp [Sparse.ins]
  | cons x t ih =>
    obtain ⟨a, b⟩ := x
    unfold Sparse.ins
    split
    · simp
    · split
      · simp
      · next ha => rw [List.find?_cons, show (a == k) = false from beq_eq_false_iff_ne.2 ha, ih]

theorem find_filter_key {β : Type} {l : List (Nat × β)} {p : Nat × β → Bool} {j : Nat} (h : ∀ v, p (j, v) = true) :
    (l.filter p).find? (fun x => x.1 == j) = l.find? (fun x => x.1 == j) := by
  rw [List.find?_filter]
  refine congrArg (fun q => l.find? q) (funext fun x => ?_)
  obtain ⟨a, b⟩ := x
  by_cases ha : a = j
  · subst ha
    simp [h b]
  · simp [ha]

theorem Dev.pageKept_erase (d : Dev) {p page : Nat} (h : p ≠ page) : Dev.PageKept p d (d.nvmErasePage false page) := by
  refine Dev.pageKept_of_untear (first := 128 * page) (words := 128) rfl (by omega) (fun i hi => ?_) (fun i hi => ?_) ?_
  · exact find_filter_key fun v => by simpa [hi] using h
  · exact (Sparse.get_drop lightDflt (fun k => k / 128 == page) i d.codes.flashLight).trans (if_neg (by simp [hi, h]))
  · exact find_filter_key fun v => by simpa using h

/-- Every word of an erased page reads 1 (R278). -/
theorem Dev.nvmByte_erased (d : Dev) {page a : Nat} (h : a / 1024 = page) :
    (d.nvmErasePage false page).nvmByte false a = (0xFF, false) := by
  have htorn : (d.nvmErasePage false page).tornAt false (a / 8) = none :=
    d.untear_inside false (first := 128 * page) (words := 128) (by omega) (by omega)
  have hfind : (d.nvmErasePage false page).flash.find? (fun x => x.1 == a / 8) = none := by
    refine List.find?_eq_none.2 fun x hx => ?_
    have hkept := (List.mem_filter.1 hx).2
    rw [beq_iff_eq]
    rintro hxa
    rw [hxa, bne_iff_ne] at hkept
    omega
  have hraw : (d.nvmErasePage false page).nvmRaw false (a / 8) = none := by
    unfold Dev.nvmRaw
    rw [htorn]
    simp [hfind]
  unfold Dev.nvmByte Dev.nvmWord
  rw [hraw]

/-! ### A page programmed -/

theorem nvmPutWords_append (arr : List (Nat × BitVec 64)) (i : Nat) (ws : List (BitVec 64)) (w : BitVec 64) :
    nvmPutWords arr i (ws ++ [w]) = Sparse.ins (i + ws.length) w (nvmPutWords arr i ws) := by
  simp [nvmPutWords, List.zipIdx_append]

theorem find_nvmPutWords_apart {arr : List (Nat × BitVec 64)} {i j : Nat} (ws : List (BitVec 64))
    (h : j < i ∨ i + ws.length ≤ j) :
    (nvmPutWords arr i ws).find? (fun x => x.1 == j) = arr.find? (fun x => x.1 == j) := by
  induction ws using List.reverseRecOn with
  | nil => rfl
  | append_singleton ws w ih =>
    rw [List.length_append, List.length_singleton] at h
    rw [nvmPutWords_append, Sparse.find_ins_ne _ _ (by omega), ih (by omega)]

theorem find_nvmPutWords_inside (arr : List (Nat × BitVec 64)) (i k : Nat) (ws : List (BitVec 64)) (h : k < ws.length) :
    (nvmPutWords arr i ws).find? (fun x => x.1 == i + k) = some (i + k, ws[k]) := by
  induction ws using List.reverseRecOn with
  | nil => exact absurd h (Nat.not_lt_zero k)
  | append_singleton ws w ih =>
    rw [nvmPutWords_append]
    by_cases hk : k = ws.length
    · subst hk
      rw [Sparse.find_ins_same, List.getElem_concat_length rfl]
    · have hlt : k < ws.length := by
        rw [List.length_append, List.length_singleton] at h
        omega
      rw [Sparse.find_ins_ne _ _ (by omega), ih hlt, List.getElem_append_left hlt]

theorem Dev.pageKept_put (d : Dev) {p page : Nat} (ws : List (BitVec 64)) (hlen : ws.length = 128) (h : p ≠ page) :
    Dev.PageKept p d (d.nvmPut false (128 * page) ws) := by
  refine Dev.pageKept_of_untear (first := 128 * page) (words := ws.length) rfl (by omega) (fun i hi => ?_) (fun i hi => ?_) ?_
  · exact find_nvmPutWords_apart ws (by omega)
  · have hout : ¬(decide (128 * page ≤ i) && decide (i < 128 * page + ws.length)) = true := by
      simp
      omega
    exact (Sparse.get_drop lightDflt (fun k => decide (128 * page ≤ k) && decide (k < 128 * page + ws.length)) i
      d.codes.flashLight).trans (if_neg hout)
  · have hspare : (d.nvmPut false (128 * page) ws).codes.flashSpare = Sparse.ins page Spare.fresh d.codes.flashSpare := by
      have hpage : 128 * page / 128 = page := by omega
      simp [Dev.nvmPut, Codes.put, hlen, nvmSealed, hpage]
    rw [hspare, Sparse.find_ins_ne _ _ h]

/-- Byte `j` of a little-endian number. -/
theorem leNat_byte (bs : Bytes) (j : Nat) : leNat bs / 256 ^ j % 256 = (bs.getD j 0).toNat := by
  induction bs generalizing j with
  | nil => simp [leNat]
  | cons b t ih =>
    have hb := b.isLt
    cases j with
    | zero =>
      simp only [leNat, pow_zero, Nat.div_one, List.getD_cons_zero]
      omega
    | succ j =>
      have hhead : leNat (b :: t) / 256 = leNat t := by
        simp only [leNat]
        omega
      rw [pow_succ', ← Nat.div_div_eq_div_mul, hhead, ih j, List.getD_cons_succ]

theorem leNat_lt (bs : Bytes) : leNat bs < 256 ^ bs.length := by
  induction bs with
  | nil => simp [leNat]
  | cons b t ih =>
    have hb := b.isLt
    rw [leNat, List.length_cons, pow_succ]
    omega

/-- Byte `j` of the word that eight bytes make. -/
theorem word64_byte (f : Nat → Byte) {j : Nat} (hj : j < 8) :
    BitVec.ofNat 8 ((BitVec.ofNat 64 (leNat ((List.range 8).map f))).toNat >>> (8 * j)) = f j := by
  apply BitVec.eq_of_toNat_eq
  have hpow : 2 ^ (8 * j) = 256 ^ j := by rw [Nat.pow_mul]
  have hbyte := leNat_byte ((List.range 8).map f) j
  have hget : ((List.range 8).map f).getD j 0 = f j := by simp [List.getD_eq_getElem?_getD, hj]
  have hlt : leNat ((List.range 8).map f) < 2 ^ 64 := by
    have h := leNat_lt ((List.range 8).map f)
    rw [List.length_map, List.length_range] at h
    exact lt_of_lt_of_eq h (by decide)
  rw [hget] at hbyte
  rw [BitVec.toNat_ofNat, BitVec.toNat_ofNat, Nat.mod_eq_of_lt hlt, Nat.shiftRight_eq_div_pow, hpow]
  exact hbyte

theorem words64_length {fill : Nat → Byte} {bs : Bytes} (h : bs.length = 1024) : (words64 fill bs).length = 128 := by
  simp [words64, ceilDiv, h]

/-- Every byte of a programmed page reads as it was programmed, with its light code (R278). -/
theorem Dev.nvmByte_programmed (d : Dev) {page i : Nat} (fill : Nat → Byte) {bs : Bytes} (h : bs.length = 1024)
    (hi : i < 1024) :
    (d.nvmPut false (128 * page) (words64 fill bs)).nvmByte false (1024 * page + i) = (bs.getD i 0, false) := by
  have hlen := words64_length (fill := fill) h
  have hk : i / 8 < (words64 fill bs).length := by omega
  have hidx : (1024 * page + i) / 8 = 128 * page + i / 8 := by omega
  have htorn : (d.nvmPut false (128 * page) (words64 fill bs)).tornAt false (128 * page + i / 8) = none :=
    d.untear_inside false (first := 128 * page) (words := (words64 fill bs).length) (by omega) (by omega)
  have hfind : (d.nvmPut false (128 * page) (words64 fill bs)).flash.find? (fun x => x.1 == 128 * page + i / 8) =
      some (128 * page + i / 8, (words64 fill bs)[i / 8]) := find_nvmPutWords_inside _ _ _ _ hk
  have hin : (decide (128 * page ≤ 128 * page + i / 8) &&
      decide (128 * page + i / 8 < 128 * page + (words64 fill bs).length)) = true := by
    simp
    omega
  have hlight : Sparse.get lightDflt (128 * page + i / 8)
      (d.nvmPut false (128 * page) (words64 fill bs)).codes.flashLight = 0 :=
    (Sparse.get_drop lightDflt (fun k => decide (128 * page ≤ k) && decide (k < 128 * page + (words64 fill bs).length)) _
      d.codes.flashLight).trans (if_pos hin)
  have hraw : (d.nvmPut false (128 * page) (words64 fill bs)).nvmRaw false (128 * page + i / 8) =
      some ((words64 fill bs)[i / 8], 0) := by
    unfold Dev.nvmRaw
    rw [htorn]
    simp only [Bool.false_eq_true, if_false, hfind, hlight, Option.map_some]
  have hword : (words64 fill bs)[i / 8] = BitVec.ofNat 64 (leNat ((List.range 8).map fun j =>
      bs.getD (8 * (i / 8) + j) (fill (8 * (i / 8) + j)))) := by simp [words64]
  unfold Dev.nvmByte Dev.nvmWord
  rw [hidx, hraw]
  simp only [true_or, if_true]
  rw [hword, show (1024 * page + i) % 8 = i % 8 by omega, word64_byte _ (Nat.mod_lt i (by decide)), Nat.div_add_mod]
  have hget (x : Byte) : bs.getD i x = bs[i]'(by omega) := by simp [List.getD_eq_getElem?_getD, h, hi]
  rw [hget, hget]

/-! ### The flash controller's operations -/

/-- Flash reads the same while the array, its torn ranges and its codes are the same. -/
theorem Dev.pageKept_of_eq (d e : Dev) (hflash : e.flash = d.flash) (htorn : e.torn = d.torn)
    (hlight : e.codes.flashLight = d.codes.flashLight) (hspare : e.codes.flashSpare = d.codes.flashSpare) (p : Nat) :
    Dev.PageKept p d e := by
  have hat (i : Nat) : e.tornAt false i = d.tornAt false i := by rw [Dev.tornAt, Dev.tornAt, htorn]
  have hraw (i : Nat) (_ : i / 128 = p) : e.nvmRaw false i = d.nvmRaw false i :=
    Dev.nvmRaw_congr (by rw [hat]) (by rw [hflash]) (by rw [hlight])
  exact ⟨hraw, Dev.spare_congr (by rw [hat]) (by rw [hspare]) (Dev.pageData_congr hraw)⟩

end Sys2Proof.Machine
end

section
/-! PROOFS. The flash controller (R418, R419), the clear of the clamp log (R421), and the balls (R37, R422 to R424). -/
namespace Sys2Proof.Machine
open Sys2Proof.Claims

/-! ### What an operation leaves alone -/

/-- `e` asks the core for as much as `d`, with the same flash operation under way. -/
structure Dev.JobSame (d e : Dev) : Prop where
  resetReq : e.coreResetReq = d.coreResetReq
  stopReq : e.coreStopReq = d.coreStopReq
  job : e.flashJob = d.flashJob

namespace Dev.JobSame
variable {d e g : Dev}

theorem trans (h : Dev.JobSame d e) (h' : Dev.JobSame e g) : Dev.JobSame d g :=
  ⟨h'.resetReq.trans h.resetReq, h'.stopReq.trans h.stopReq, h'.job.trans h.job⟩

theorem calm (h : Dev.JobSame d e) (hd : d.calm) : e.calm := ⟨h.resetReq.trans hd.1, h.stopReq.trans hd.2⟩

theorem put (d : Dev) (f : Fl) (v : Nat) : Dev.JobSame d (d.put f v) := ⟨rfl, rfl, rfl⟩

end Dev.JobSame

theorem Codes.written_flash (c : Codes) (a : Nat) :
    (c.written a).flashLight = c.flashLight ∧ (c.written a).flashSpare = c.flashSpare := by
  unfold Codes.written
  split <;> exact ⟨rfl, rfl⟩

theorem Dev.pageKept_setReg (d : Dev) (a : Nat) (w : Word) (p : Nat) : Dev.PageKept p d (d.setReg a w) :=
  Dev.pageKept_of_eq d (d.setReg a w) rfl rfl (Codes.written_flash d.codes a).1 (Codes.written_flash d.codes a).2 p

theorem Dev.pageKept_put_field (d : Dev) (f : Fl) (v p : Nat) : Dev.PageKept p d (d.put f v) :=
  d.pageKept_setReg _ _ p

/-- The tracker forgets a page; the arrays know nothing of it. -/
theorem Dev.trkPage_keeps (d : Dev) (cst : Bool) (page : Nat) :
    Dev.JobSame d (d.trkPage cst page) ∧ ∀ p, Dev.PageKept p d (d.trkPage cst page) := by
  unfold Dev.trkPage
  split
  · next k _ =>
    have hregs (p : Nat) := (d.pageKept_setReg (F.INTEG_TRK_INFO_VALID.addr + 8 * k) 0 p).trans
      (Dev.pageKept_setReg _ (F.INTEG_TRK_ADDR_ADDR.addr + 8 * k) 0 p)
    exact ⟨⟨rfl, rfl, rfl⟩, fun p => (hregs p).trans (Dev.pageKept_of_eq ((d.setReg (F.INTEG_TRK_INFO_VALID.addr + 8 * k) 0).setReg
      (F.INTEG_TRK_ADDR_ADDR.addr + 8 * k) 0) (d.trkClear k) rfl rfl rfl rfl p)⟩
  · exact ⟨⟨rfl, rfl, rfl⟩, (Dev.PageKept.refl · d)⟩

theorem Dev.flashErase_job (d : Dev) (page n : Nat) : Dev.JobSame d (d.flashErase page n) := by
  induction n generalizing d page with
  | zero => exact ⟨rfl, rfl, rfl⟩
  | succ n ih =>
    have herase : Dev.JobSame d (d.nvmErasePage false page) := ⟨rfl, rfl, rfl⟩
    exact (herase.trans (Dev.trkPage_keeps _ false page).1).trans (ih _ _)

/-! ### A sector erased, a page programmed -/

theorem Dev.flashErase_apart (d : Dev) {p page n : Nat} (h : p < page ∨ page + n ≤ p) :
    Dev.PageKept p d (d.flashErase page n) := by
  induction n generalizing d page with
  | zero => exact .refl p d
  | succ n ih =>
    exact ((d.pageKept_erase (by omega)).trans ((Dev.trkPage_keeps _ false page).2 p)).trans (ih _ (by omega))

theorem Dev.flashErase_reads (d : Dev) {page n a : Nat} (hlo : page ≤ a / 1024) (hhi : a / 1024 < page + n) :
    (d.flashErase page n).nvmByte false a = (0xFF, false) := by
  induction n generalizing d page with
  | zero => omega
  | succ n ih =>
    by_cases hpage : a / 1024 = page
    · have hrest := (Dev.trkPage_keeps (d.nvmErasePage false page) false page).2 page |>.trans
        (Dev.flashErase_apart _ (page := page + 1) (n := n) (by omega))
      exact (hrest.byte hpage).trans (d.nvmByte_erased hpage)
    · exact ih _ (by omega) (by omega)

theorem Dev.flashProgram_apart (d : Dev) {p page : Nat} {bs : Bytes} (hlen : bs.length = 1024) (h : p ≠ page) :
    Dev.PageKept p d (d.flashProgram page bs) :=
  (d.pageKept_put _ (words64_length hlen) h).trans ((Dev.trkPage_keeps _ false page).2 p)

theorem Dev.flashProgram_reads (d : Dev) {page i : Nat} {bs : Bytes} (hlen : bs.length = 1024) (hi : i < 1024) :
    (d.flashProgram page bs).nvmByte false (1024 * page + i) = (bs.getD i 0, false) :=
  (((Dev.trkPage_keeps _ false page).2 page).byte (by omega)).trans (d.nvmByte_programmed _ hlen hi)

theorem Dev.flashProgram_job (d : Dev) (page : Nat) (bs : Bytes) : Dev.JobSame d (d.flashProgram page bs) := by
  have hput : Dev.JobSame d (d.nvmPut false (128 * page) (words64 (fun _ => 0) bs)) := ⟨rfl, rfl, rfl⟩
  exact hput.trans (Dev.trkPage_keeps _ false page).1

/-- The reread of a programmed page finds what was programmed (R418). -/
theorem Dev.flashProgram_verifies (d : Dev) {page : Nat} {bs : Bytes} (hlen : bs.length = 1024) :
    (List.range 1024).map (fun i => (d.flashProgram page bs).nvmByte false (1024 * page + i)) = marked bs false := by
  refine List.ext_getElem (by simp [marked, hlen]) fun i hi _ => ?_
  have hlt : i < 1024 := by simpa using hi
  rw [List.getElem_map, List.getElem_range, d.flashProgram_reads hlen hlt]
  simp [marked, List.getD_eq_getElem?_getD, hlen, hlt]

/-! ### The end of an operation -/

/-- A command's end: its status, DONE and not BUSY; nothing else of the controller or the arrays. -/
theorem Dev.flashDone_fields (d : Dev) {st : Nat} (h : st < 16) :
    (d.flashDone st).get F.FLASH_STAT_STATUS = st ∧ (d.flashDone st).flag F.FLASH_STAT_DONE = true ∧
      (d.flashDone st).flag F.FLASH_STAT_BUSY = false ∧
      (d.flashDone st).get F.FLASH_STAT_BUF_POISON = d.get F.FLASH_STAT_BUF_POISON := by
  unfold Dev.flashDone
  refine ⟨?_, ?_, ?_, ?_⟩
  · rw [Dev.get_put_apart _ _ _ _ (by decide) (by decide), Dev.get_put_apart _ _ _ _ (by decide) (by decide),
      Dev.get_put_same _ _ _ (by decide)]
    exact Nat.mod_eq_of_lt h
  · rw [Dev.flag, Dev.get_put_apart _ _ _ _ (by decide) (by decide), Dev.get_put_same _ _ _ (by decide)]
    decide
  · rw [Dev.flag, Dev.get_put_same _ _ _ (by decide)]
    decide
  · rw [Dev.get_put_apart _ _ _ _ (by decide) (by decide), Dev.get_put_apart _ _ _ _ (by decide) (by decide),
      Dev.get_put_apart _ _ _ _ (by decide) (by decide)]

theorem Dev.flashDone_job (d : Dev) (st : Nat) : Dev.JobSame d (d.flashDone st) :=
  ((Dev.JobSame.put d _ _).trans (.put _ _ _)).trans (.put _ _ _)

theorem Dev.pageKept_flashDone (d : Dev) (st p : Nat) : Dev.PageKept p d (d.flashDone st) :=
  ((d.pageKept_put_field _ _ p).trans (Dev.pageKept_put_field _ _ _ p)).trans (Dev.pageKept_put_field _ _ _ p)

/-- The controller with its operation over. -/
def Dev.idle (d : Dev) : Dev := { d with flashJob := none }

theorem Dev.flashOpDoneOp_erase {d : Dev} {j : FlashJob} (hj : d.flashJob = some j) (he : j.erase = true) :
    d.flashOpDoneOp = (d.idle.flashErase (j.page / 4 * 4) 4).flashDone fsOK := by
  rw [Dev.flashOpDoneOp, hj]
  exact if_pos he

theorem Dev.flashOpDoneOp_program {d : Dev} {j : FlashJob} (hj : d.flashJob = some j) (he : j.erase = false)
    (hlen : j.data.length = 1024) : d.flashOpDoneOp = (d.idle.flashProgram j.page j.data).flashDone fsOK := by
  rw [Dev.flashOpDoneOp, hj]
  refine (if_neg (by rw [he]; decide)).trans ?_
  exact congrArg (Dev.flashDone _) (if_pos (d.idle.flashProgram_verifies hlen))

theorem Dev.pageKept_idle (d : Dev) (p : Nat) : Dev.PageKept p d d.idle :=
  Dev.pageKept_of_eq d d.idle rfl rfl rfl rfl p

theorem exec_flashOpDone (s : State) : exec .flashOpDone s = s.onDev fun d => d.flashOpDoneOp := rfl

/-- An operation that ends with status OK. -/
theorem flashOp_ends {s : State} {e : Dev} (hop : s.dev.flashOpDoneOp = e.flashDone fsOK) (hjob : Dev.JobSame s.dev.idle e)
    (hcalm : s.dev.calm) :
    ∃ t, exec .flashOpDone s = .next t ∧ t.core = (became s s.core t.dev).core ∧ t.pending = s.pending ∧
      t.dev.flashJob = none ∧ t.dev.flag F.FLASH_STAT_BUSY = false ∧ t.dev.flag F.FLASH_STAT_DONE = true ∧
      t.dev.get F.FLASH_STAT_STATUS = 0 ∧ t.dev = e.flashDone fsOK := by
  obtain ⟨hstatus, hdone, hbusy, -⟩ := e.flashDone_fields (st := fsOK) (by decide)
  have hend := hjob.trans (e.flashDone_job fsOK)
  exact ⟨_, State.onDev_eq (f := fun d => d.flashOpDoneOp) hop (hend.calm hcalm), rfl, rfl, hend.job, hbusy, hdone, hstatus, rfl⟩

theorem flashOpDone_ends {s : State} {j : FlashJob} (hcalm : s.dev.calm) (hj : s.dev.flashJob = some j)
    (hlen : j.data.length = 1024) :
    ∃ t, exec .flashOpDone s = .next t ∧ t.core = (became s s.core t.dev).core ∧ t.pending = s.pending ∧
      t.dev.flashJob = none ∧ t.dev.flag F.FLASH_STAT_BUSY = false ∧ t.dev.flag F.FLASH_STAT_DONE = true ∧
      t.dev.get F.FLASH_STAT_STATUS = 0 ∧
      let first := if j.erase then j.page / 4 * 4096 else j.page * 1024
      let len := if j.erase then 4096 else 1024
      (∀ i, i < len → t.dev.nvmByte false (first + i) = (if j.erase then 0xFF else j.data.getD i 0, false)) ∧
        ∀ i, i < first ∨ first + len ≤ i → t.dev.nvmByte false i = s.dev.nvmByte false i := by
  cases he : j.erase with
  | true =>
    obtain ⟨t, ht, hcore, hpend, hjob, hbusy, hdone, hstatus, hdev⟩ :=
      flashOp_ends (Dev.flashOpDoneOp_erase hj he) (s.dev.idle.flashErase_job _ _) hcalm
    refine ⟨t, ht, hcore, hpend, hjob, hbusy, hdone, hstatus, fun i hi => ?_, fun i hi => ?_⟩
    · simp only [if_true] at hi ⊢
      rw [hdev, (Dev.pageKept_flashDone _ _ _).byte rfl]
      exact Dev.flashErase_reads _ (by omega) (by omega)
    · simp only [if_true] at hi
      have hapart := (Dev.flashErase_apart s.dev.idle (p := i / 1024) (page := j.page / 4 * 4) (n := 4) (by omega))
      rw [hdev, (Dev.pageKept_flashDone _ _ _).byte rfl, hapart.byte rfl, (s.dev.pageKept_idle _).byte rfl]
  | false =>
    obtain ⟨t, ht, hcore, hpend, hjob, hbusy, hdone, hstatus, hdev⟩ :=
      flashOp_ends (Dev.flashOpDoneOp_program hj he hlen) (s.dev.idle.flashProgram_job _ _) hcalm
    refine ⟨t, ht, hcore, hpend, hjob, hbusy, hdone, hstatus, fun i hi => ?_, fun i hi => ?_⟩
    · simp only [Bool.false_eq_true, if_false] at hi ⊢
      rw [hdev, (Dev.pageKept_flashDone _ _ _).byte rfl, Nat.mul_comm]
      exact Dev.flashProgram_reads _ hlen hi
    · simp only [Bool.false_eq_true, if_false] at hi
      have hapart := Dev.flashProgram_apart s.dev.idle (p := i / 1024) (page := j.page) hlen (by omega)
      rw [hdev, (Dev.pageKept_flashDone _ _ _).byte rfl, hapart.byte rfl, (s.dev.pageKept_idle _).byte rfl]

/-! ### The clear of the clamp log (R421) -/

theorem exec_clear (s : State) (m : Master) : exec (.clear m) s = s.onDev fun d => d.write m F.CLAMP_CTL_CLEAR.addr 1 := rfl

theorem Dev.clampCtl_fields {d : Dev} {m : Master} (h : d.fieldCase m F.CLAMP_CTL_CLEAR.addr 1 = false) :
    (fieldsAt F.CLAMP_CTL_CLEAR.addr).reverse.foldl (d.writeField m F.CLAMP_CTL_CLEAR.addr 1) (d, 0) = (d, 1) := by
  have hfields : fieldsAt F.CLAMP_CTL_CLEAR.addr = [⟨0x40000104, 0, 0, .wo, 0x0, .keep, .supervisor⟩] := by decide
  have hreached : Owner.supervisor.reached (masterLevel m) = true :=
    Dev.reached_of_meant (f := ⟨0x40000104, 0, 0, .wo, 0x0, .keep, .supervisor⟩) h (by rw [hfields]; simp) nofun rfl
  rw [hfields]
  exact Dev.writeField_wo d m F.CLAMP_CTL_CLEAR.addr 1 (d, 0) rfl hreached

/-- An entry of the log reads zero after the clear. -/
theorem regReset_clampLog : ∀ k : Fin 16, ∀ w : Fin 4, regReset (F.CLAMP_ADDR_ADDR.addr + 16 * k.val + 4 * w.val) = 0 := by
  decide +kernel

theorem clear_empties {s : State} {m : Master} (h : Arrives s.dev m F.CLAMP_CTL_CLEAR.addr 1) :
    ∃ t, exec (.clear m) s = .next t ∧ t.core = (became s s.core t.dev).core ∧ t.pending = s.pending ∧
      t.dev.get F.CLAMP_STAT_COUNT = 0 ∧ t.dev.get F.CLAMP_STAT_DROPPED = 0 ∧ t.dev.ram = s.dev.ram ∧
      t.dev.flash = s.dev.flash ∧
      ∀ k : Fin 16, ∀ w : Fin 4, t.dev.reg (F.CLAMP_ADDR_ADDR.addr + 16 * k.val + 4 * w.val) = 0 := by
  obtain ⟨hcalm, hab, -, -, hgate, hcase⟩ := id h
  have heffect : s.dev.regEffect m F.CLAMP_CTL_CLEAR.addr 1 = s.dev.clampClear := by
    have hserved (old acted : Nat) : s.dev.regWritten m F.CLAMP_CTL_CLEAR.addr old acted =
        if bitAt acted 0 then s.dev.clampClear else s.dev := rfl
    rw [Dev.regEffect_of_gate (v := 1) hgate (Dev.clampCtl_fields hcase), hserved]
    exact if_pos (show bitAt 1 0 = true by decide)
  have hab' : noAbort s.dev.clampClear := by
    refine noAbort_of_eq hab rfl fun a ha => ?_
    rw [Dev.clampClear, Dev.reg_dropRegs, if_neg]
    simp
    omega
  have hcount : s.dev.clampClear.reg F.CLAMP_STAT_COUNT.addr = regReset F.CLAMP_STAT_COUNT.addr := by
    rw [Dev.clampClear, Dev.reg_dropRegs, if_pos (by decide)]
  refine ⟨_, State.onDev_eq (f := fun d => d.write m F.CLAMP_CTL_CLEAR.addr 1)
    (Dev.write_of_arrives (v := 1) h (by decide) (by decide) (by decide) heffect hab') hcalm, rfl, rfl, ?_, ?_, rfl, rfl,
    fun k w => ?_⟩
  · show bitsOf (s.dev.clampClear.reg F.CLAMP_STAT_COUNT.addr).toNat 4 0 = 0
    rw [hcount]
    decide
  · show bitsOf (s.dev.clampClear.reg F.CLAMP_STAT_COUNT.addr).toNat 31 16 = 0
    rw [hcount]
    decide
  · show s.dev.clampClear.reg _ = 0
    refine (Dev.reg_dropRegs _ _ _).trans ((if_pos ?_).trans (regReset_clampLog k w))
    have hfirst : F.CLAMP_ADDR_ADDR.addr = 0x40000110 := rfl
    have hk := k.isLt
    have hw := w.isLt
    rw [Bool.or_eq_true, Bool.and_eq_true, decide_eq_true_eq, decide_eq_true_eq, hfirst]
    exact .inr ⟨by omega, by omega⟩

/-! ### A command of FLASHCTL (R418) -/

/-- The word of a command: 1 erases the page's sector, 2 programs the page. -/
def flashCmd (erase : Bool) (page : BitVec 12) : Nat := (if erase then 0x10000 else 0x20000) + page.toNat

theorem flashCmd_bits (erase : Bool) (page : BitVec 12) :
    bitsOf (flashCmd erase page) 17 16 = (if erase then 1 else 2) ∧ bitsOf (flashCmd erase page) 11 0 = page.toNat ∧
      flashCmd erase page % 4096 = page.toNat := by
  have hlt := page.isLt
  simp only [bitsOf_eq, flashCmd]
  cases erase <;> simp <;> omega

/-- A command that arrives reaches both fields of FLASH_CMD. -/
theorem Dev.flashCmd_fields {d : Dev} {m : Master} {erase : Bool} {page : BitVec 12}
    (h : d.fieldCase m F.FLASH_CMD_OP.addr (flashCmd erase page) = false) :
    (fieldsAt F.FLASH_CMD_OP.addr).reverse.foldl (d.writeField m F.FLASH_CMD_OP.addr (flashCmd erase page)) (d, 0) =
      (d, flashCmd erase page) := by
  obtain ⟨hop, hpage, -⟩ := flashCmd_bits erase page
  have hfields : fieldsAt F.FLASH_CMD_OP.addr =
      [⟨0x40060000, 17, 16, .wo, 0x0, .keep, .vault⟩, ⟨0x40060000, 11, 0, .wo, 0x0, .keep, .vault⟩] := by decide
  have hreached : Owner.vault.reached (masterLevel m) = true := by
    refine Dev.reached_of_meant (f := ⟨0x40060000, 17, 16, .wo, 0x0, .keep, .vault⟩) h (by rw [hfields]; simp) nofun ?_
    have hval (v : Nat) : woIgnored ⟨0x40060000, 17, 16, .wo, 0x0, .keep, .vault⟩ v = (v == 3) := rfl
    simp only [Dev.fieldMeant, hop, hval]
    cases erase <;> rfl
  rw [hfields]
  simp only [List.reverse_cons, List.reverse_nil, List.nil_append, List.cons_append, List.foldl_cons, List.foldl_nil]
  iterate 2 rw [Dev.writeField_wo d m _ _ _ rfl hreached]
  simp only [hop, hpage, Nat.shiftLeft_eq, Prod.mk.injEq, true_and]
  rw [flashCmd]
  cases erase <;> simp <;> omega

theorem exec_eraseSector (s : State) (m : Master) (page : BitVec 12) : exec (.eraseSector m page) s =
    s.onDev fun d => d.write m F.FLASH_CMD_OP.addr (BitVec.ofNat 32 (flashCmd true page)) := rfl

theorem exec_programPage (s : State) (m : Master) (page : BitVec 12) : exec (.programPage m page) s =
    s.onDev fun d => d.write m F.FLASH_CMD_OP.addr (BitVec.ofNat 32 (flashCmd false page)) := rfl

/-- A command only changes FLASH_STAT, the trouble bits, the poison report and the job. -/
structure Dev.CmdOnly (d e : Dev) : Prop where
  resetReq : e.coreResetReq = d.coreResetReq
  stopReq : e.coreStopReq = d.coreStopReq
  chans : e.chans = d.chans
  flash : e.flash = d.flash
  reg : ∀ a, a / 0x10000 = 0x4008 → e.reg a = d.reg a

namespace Dev.CmdOnly
variable {d e g : Dev}

theorem refl (d : Dev) : Dev.CmdOnly d d := ⟨rfl, rfl, rfl, rfl, fun _ _ => rfl⟩

theorem trans (h : Dev.CmdOnly d e) (h' : Dev.CmdOnly e g) : Dev.CmdOnly d g :=
  ⟨h'.resetReq.trans h.resetReq, h'.stopReq.trans h.stopReq, h'.chans.trans h.chans, h'.flash.trans h.flash,
    fun a ha => (h'.reg a ha).trans (h.reg a ha)⟩

theorem put (d : Dev) (f : Fl) (v : Nat) (hf : f.addr / 0x10000 ≠ 0x4008) : Dev.CmdOnly d (d.put f v) :=
  ⟨rfl, rfl, rfl, rfl, fun a ha => Dev.reg_put_ne _ _ _ (by rintro rfl; exact hf ha)⟩

end Dev.CmdOnly

theorem Dev.cmdOnly_flashDone (d : Dev) (st : Nat) : Dev.CmdOnly d (d.flashDone st) :=
  ((Dev.CmdOnly.put d F.FLASH_STAT_STATUS st (by decide)).trans (.put _ F.FLASH_STAT_DONE 1 (by decide))).trans
    (.put _ F.FLASH_STAT_BUSY 0 (by decide))

/-- A command that arrives is served. -/
theorem flashCmd_served {s : State} {m : Master} {erase : Bool} {page : BitVec 12} {e : Dev}
    (h : Arrives s.dev m F.FLASH_CMD_OP.addr (flashCmd erase page))
    (he : s.dev.flashCmdWritten (flashCmd erase page) = e) (hkeep : Dev.CmdOnly s.dev e) :
    exec (if erase then .eraseSector m page else .programPage m page) s = .next (became s s.core e) := by
  obtain ⟨hcalm, hab, -, -, hgate, hcase⟩ := id h
  have hlt : flashCmd erase page < 2 ^ 32 := by
    have hpage := page.isLt
    cases erase <;> simp only [flashCmd] <;> simp <;> omega
  have hword : (BitVec.ofNat 32 (flashCmd erase page)).toNat = flashCmd erase page := by
    rw [BitVec.toNat_ofNat, Nat.mod_eq_of_lt hlt]
  have hexec : exec (if erase then .eraseSector m page else .programPage m page) s =
      s.onDev fun d => d.write m F.FLASH_CMD_OP.addr (BitVec.ofNat 32 (flashCmd erase page)) := by
    cases erase
    · exact exec_programPage s m page
    · exact exec_eraseSector s m page
  have hfields := Dev.flashCmd_fields hcase
  rw [← hword] at h hfields
  have heffect : s.dev.regEffect m F.FLASH_CMD_OP.addr (BitVec.ofNat 32 (flashCmd erase page)) = e := by
    rw [Dev.regEffect_of_gate hgate hfields, hword]
    exact he
  have hab' : noAbort e := noAbort_of_eq hab hkeep.chans hkeep.reg
  have hcalm' : e.calm := ⟨hkeep.resetReq.trans hcalm.1, hkeep.stopReq.trans hcalm.2⟩
  rw [hexec]
  exact State.onDev_eq (Dev.write_of_arrives h (by decide) (by decide) (by decide) heffect hab') hcalm'

theorem Dev.flashCmdWritten_busy {d : Dev} (erase : Bool) (page : BitVec 12) (h : d.flag F.FLASH_STAT_BUSY = true) :
    d.flashCmdWritten (flashCmd erase page) = d.put F.FLASH_STAT_CMD_LOST 1 := by
  obtain ⟨hop, -, -⟩ := flashCmd_bits erase page
  rw [Dev.flashCmdWritten]
  dsimp only
  rw [hop, if_neg (by cases erase <;> decide), if_pos h]

/-- The controller takes a command: the buffer's poison is told once. -/
def Dev.flashTaken (d : Dev) : Dev := d.put F.FLASH_STAT_BUF_POISON 0

/-- The refusals in their order, and the start. -/
theorem Dev.flashCmdWritten_free {d : Dev} (erase : Bool) (page : BitVec 12) (h : d.flag F.FLASH_STAT_BUSY = false) :
    d.flashCmdWritten (flashCmd erase page) =
      if d.flashTaken.opState ≠ stHost then d.flashTaken.flashDone fsNOT_HOST
      else if d.flashTaken.flashProtected page.toNat then d.flashTaken.flashDone fsPROTECTED
      else if erase = false ∧ d.flashTaken.nvmErased false (1024 * page.toNat) 1024 = false then
        d.flashTaken.flashDone fsNOT_ERASED
      else if d.flag F.FLASH_STAT_BUF_POISON then d.flashTaken.poisonBits.flashDone fsPOISON
      else { d.flashTaken with flashJob := some ⟨erase, page.toNat, d.flashTaken.flashBuf⟩ }.put F.FLASH_STAT_BUSY 1 := by
  obtain ⟨hop, -, hpage⟩ := flashCmd_bits erase page
  rw [Dev.flashCmdWritten]
  dsimp only
  rw [hop, hpage, if_neg (by cases erase <;> decide), if_neg (by rw [h]; decide), ← Dev.flashTaken]
  cases erase <;> simp

theorem Dev.reg_flashTaken (d : Dev) {a : Nat} (ha : a ≠ F.FLASH_STAT_BUSY.addr) : d.flashTaken.reg a = d.reg a :=
  Dev.reg_put_ne _ F.FLASH_STAT_BUF_POISON 0 ha

/-- Nothing that decides a command is in FLASH_STAT. -/
theorem Dev.flashTaken_decides (d : Dev) (page : Nat) : d.flashTaken.opState = d.opState ∧
    d.flashTaken.flashProtected page = d.flag (if page < 2048 then F.FLASH_PROT_PROT_A else F.FLASH_PROT_PROT_B) ∧
    (∀ a n, d.flashTaken.nvmErased false a n = d.nvmErased false a n) ∧ d.flashTaken.flashBuf = d.flashBuf := by
  refine ⟨Dev.get_congr (d.reg_flashTaken (by decide)), ?_, Dev.nvmErased_congr (d.pageKept_put_field _ _ ·), ?_⟩
  · unfold Dev.flashProtected Dev.flag
    split <;> rw [Dev.get_congr (d.reg_flashTaken (by decide))]
  · unfold Dev.flashBuf Dev.regBytes
    refine List.flatMap_congr fun i hi => ?_
    rw [d.reg_flashTaken (by simp only [F.FLASH_STAT_BUSY]; omega)]

theorem Dev.cmdOnly_flashTaken (d : Dev) : Dev.CmdOnly d d.flashTaken := .put d F.FLASH_STAT_BUF_POISON 0 (by decide)

/-- What a refused command leaves. -/
def FlashRefused (s t : State) (st : Nat) : Prop :=
  t.core = (became s s.core t.dev).core ∧ t.pending = s.pending ∧ t.dev.get F.FLASH_STAT_STATUS = st ∧
    t.dev.flag F.FLASH_STAT_DONE = true ∧ t.dev.flag F.FLASH_STAT_BUSY = false ∧
    t.dev.flag F.FLASH_STAT_BUF_POISON = false ∧ t.dev.flashJob = s.dev.flashJob ∧ t.dev.flash = s.dev.flash

/-- A device that a refusal passes on: the command taken, perhaps the poison told as trouble. -/
structure Dev.Refusing (d x : Dev) : Prop where
  cmd : Dev.CmdOnly d x
  poison : x.get F.FLASH_STAT_BUF_POISON = 0
  job : x.flashJob = d.flashJob

theorem Dev.Refusing.put {d x : Dev} (h : Dev.Refusing d x) (f : Fl) (v : Nat) (hf : f.addr / 0x10000 ≠ 0x4008)
    (hok : f.ok = true) (hapart : f.apart F.FLASH_STAT_BUF_POISON = true) : Dev.Refusing d (x.put f v) :=
  ⟨h.cmd.trans (.put x f v hf), (Dev.get_put_apart x f _ v hok hapart).trans h.poison, (Dev.put_flashJob x f v).trans h.job⟩

theorem Dev.refusing_taken (d : Dev) : Dev.Refusing d d.flashTaken :=
  ⟨d.cmdOnly_flashTaken, Dev.get_put_same d F.FLASH_STAT_BUF_POISON 0 (by decide), Dev.put_flashJob d _ _⟩

theorem Dev.refusing_poison (d : Dev) : Dev.Refusing d d.flashTaken.poisonBits := by
  have htaken := d.refusing_taken
  generalize d.flashTaken = x at htaken ⊢
  unfold Dev.poisonBits Dev.trouble
  split
  · exact (htaken.put F.INTEG_STAT_POISON_WR 1 (by decide) (by decide) (by decide)).put F.EVT_TRBL_TRBL _ (by decide)
      (by decide) (by decide)
  · exact htaken.put F.EVT_TRBL_TRBL _ (by decide) (by decide) (by decide)

theorem flashCmd_refused {s : State} {m : Master} {erase : Bool} {page : BitVec 12} {x : Dev} {st : Nat} (hst : st < 16)
    (h : Arrives s.dev m F.FLASH_CMD_OP.addr (flashCmd erase page))
    (he : s.dev.flashCmdWritten (flashCmd erase page) = x.flashDone st) (hx : Dev.Refusing s.dev x) :
    ∃ t, exec (if erase then .eraseSector m page else .programPage m page) s = .next t ∧ FlashRefused s t st := by
  obtain ⟨hstatus, hdone, hbusy, hpoison⟩ := x.flashDone_fields hst
  have hkeep := hx.cmd.trans (x.cmdOnly_flashDone st)
  refine ⟨_, flashCmd_served h he hkeep, rfl, rfl, hstatus, hdone, hbusy, ?_, (x.flashDone_job st).job.trans hx.job, hkeep.flash⟩
  show (x.flashDone st).flag F.FLASH_STAT_BUF_POISON = false
  rw [Dev.flag, hpoison, hx.poison]
  rfl

/-- The operation starts: BUSY, with the page and the buffer's bytes. -/
def Dev.flashStarted (d : Dev) (erase : Bool) (page : Nat) : Dev :=
  { d.flashTaken with flashJob := some ⟨erase, page, d.flashBuf⟩ }

theorem Dev.cmdOnly_flashStarted (d : Dev) (erase : Bool) (page : Nat) : Dev.CmdOnly d (d.flashStarted erase page) := by
  have htaken := d.cmdOnly_flashTaken
  unfold Dev.flashStarted
  generalize d.flashTaken = x at htaken ⊢
  exact { htaken with }

/-- FLASH_CMD in the order of R418, told by the device before the command. -/
theorem Dev.flashCmdWritten_order {d : Dev} (erase : Bool) (page : BitVec 12) (h : d.flag F.FLASH_STAT_BUSY = false) :
    d.flashCmdWritten (flashCmd erase page) =
      if d.opState ≠ stHost then d.flashTaken.flashDone fsNOT_HOST
      else if d.flag (if page.toNat < 2048 then F.FLASH_PROT_PROT_A else F.FLASH_PROT_PROT_B) then
        d.flashTaken.flashDone fsPROTECTED
      else if erase = false ∧ d.nvmErased false (1024 * page.toNat) 1024 = false then d.flashTaken.flashDone fsNOT_ERASED
      else if d.flag F.FLASH_STAT_BUF_POISON then d.flashTaken.poisonBits.flashDone fsPOISON
      else (d.flashStarted erase page.toNat).put F.FLASH_STAT_BUSY 1 := by
  obtain ⟨hstate, hprot, herased, hbuf⟩ := d.flashTaken_decides page.toNat
  rw [Dev.flashCmdWritten_free erase page h, hstate, hprot, herased, hbuf, ← Dev.flashStarted]

theorem flashCmd_starts {s : State} {m : Master} {erase : Bool} {page : BitVec 12}
    (h : Arrives s.dev m F.FLASH_CMD_OP.addr (flashCmd erase page))
    (he : s.dev.flashCmdWritten (flashCmd erase page) = (s.dev.flashStarted erase page.toNat).put F.FLASH_STAT_BUSY 1) :
    ∃ t, exec (if erase then .eraseSector m page else .programPage m page) s = .next t ∧
      t.core = (became s s.core t.dev).core ∧ t.pending = s.pending ∧ t.dev.flag F.FLASH_STAT_BUSY = true ∧
      t.dev.flash = s.dev.flash ∧ t.dev.flashJob = some ⟨erase, page.toNat, s.dev.flashBuf⟩ := by
  have hkeep := (s.dev.cmdOnly_flashStarted erase page.toNat).trans (.put _ F.FLASH_STAT_BUSY 1 (by decide))
  refine ⟨_, flashCmd_served h he hkeep, rfl, rfl, ?_, hkeep.flash, Dev.put_flashJob _ _ _⟩
  show ((s.dev.flashStarted erase page.toNat).put F.FLASH_STAT_BUSY 1).flag F.FLASH_STAT_BUSY = true
  rw [Dev.flag, Dev.get_put_same _ _ _ (by decide)]
  decide

theorem flashChanges : FlashChanges := by
  intro s
  refine ⟨fun m page erase => ?_, fun j hcalm hj _ hlen => flashOpDone_ends hcalm hj hlen, fun m harr => clear_empties harr⟩
  dsimp only
  intro harr
  have harr' : Arrives s.dev m F.FLASH_CMD_OP.addr (flashCmd erase page) := harr
  refine ⟨fun hbusy => ?_, fun hbusy => ?_⟩
  · exact flashCmd_served harr' (Dev.flashCmdWritten_busy erase page hbusy) (.put _ F.FLASH_STAT_CMD_LOST 1 (by decide))
  · have horder := Dev.flashCmdWritten_order erase page hbusy
    have htaken := s.dev.refusing_taken
    refine ⟨fun hst => ?_, fun hst hprot => ?_, fun hst hprot hfull => ?_, fun hst hprot hfull hpoison => ?_,
      fun hst hprot hfull hpoison => ?_⟩
    · rw [if_pos hst] at horder
      exact flashCmd_refused (by decide) harr' horder htaken
    · rw [if_neg (not_not.2 hst), if_pos hprot] at horder
      exact flashCmd_refused (by decide) harr' horder htaken
    · rw [if_neg (not_not.2 hst), if_neg (by rw [hprot]; decide), if_pos hfull] at horder
      exact flashCmd_refused (by decide) harr' horder htaken
    · rw [if_neg (not_not.2 hst), if_neg (by rw [hprot]; decide), if_neg hfull, if_pos hpoison] at horder
      exact flashCmd_refused (by decide) harr' horder s.dev.refusing_poison
    · rw [if_neg (not_not.2 hst), if_neg (by rw [hprot]; decide), if_neg hfull, if_neg hpoison] at horder
      exact flashCmd_starts harr' horder

/-! ### The balls (R37, R422 to R424) -/

theorem exec_gpioEdge (s : State) (k : Fin 24) (up : Bool) :
    exec (.gpioEdge k up) s = s.onDev fun d => d.gpioEdgeOp k.val up := rfl

theorem exec_aonTimerExpiry (s : State) (ch : Fin 8) :
    exec (.aonTimerExpiry ch) s = s.onDev fun d => d.aonTimerExpiryOp ch := rfl

theorem Fl.apart_plus (f g : Fl) (n : Nat) : (f.plus n).apart (g.plus n) = f.apart g := by
  have haddr : (g.addr + n != f.addr + n) = (g.addr != f.addr) := by
    rw [Bool.eq_iff_iff]
    simp
  simp only [Fl.apart, Fl.plus, haddr]
  rfl

/-- Two fields of a ball that share no bit. -/
theorem Dev.ball_put_apart (d : Dev) (k v : Nat) {f g : Fl} (hf : f.ok = true) (h : f.apart g = true) :
    (d.put (ballField k f) v).get (ballField k g) = d.get (ballField k g) :=
  Dev.get_put_apart d (ballField k f) (ballField k g) v hf ((Fl.apart_plus f g (4 * k)).trans h)

theorem Dev.ball_put_flag (d : Dev) (k : Nat) (b : Bool) {f : Fl} (hf : f.ok = true) (hbit : f.hi = f.lo) :
    (d.put (ballField k f) (b2n b)).flag (ballField k f) = b := by
  have hsame := Dev.get_put_same d (ballField k f) (b2n b) hf
  have hwidth : (ballField k f).hi + 1 - (ballField k f).lo = 1 := by
    show f.hi + 1 - f.lo = 1
    omega
  rw [Dev.flag, hsame, hwidth]
  cases b <;> decide

/-- The level at a ball, and the edge that its mode selects. -/
def Dev.ballEdge (d : Dev) (k : Nat) (up : Bool) : Dev :=
  if bitAt (d.get (ballField k F.GPIO_IRQ_MODE)) (if up then 0 else 1) then
    (d.put (ballField k F.GPIO_IN) (b2n up)).put (ballField k F.GPIO_IRQ_PEND) 1
  else d.put (ballField k F.GPIO_IN) (b2n up)

theorem Dev.gpioEdgeOp_eq {d : Dev} {k : Nat} (up : Bool) (hcore : d.on .core = true) (hpow : d.bankPowered k = true) :
    d.gpioEdgeOp k up = d.ballEdge k up := by
  rw [Dev.gpioEdgeOp, if_pos ⟨hcore, hpow⟩]
  dsimp only
  rw [Dev.ball, d.ball_put_apart k _ (by decide) (by decide)]
  rfl

/-- What an edge leaves of the ball's register, and all else. -/
theorem Dev.ballEdge_reads (d : Dev) (k : Nat) (up : Bool) :
    (d.ballEdge k up).flag (ballField k F.GPIO_IN) = up ∧
      (d.ballEdge k up).flag (ballField k F.GPIO_IRQ_PEND) =
        (d.flag (ballField k F.GPIO_IRQ_PEND) || bitAt (d.get (ballField k F.GPIO_IRQ_MODE)) (if up then 0 else 1)) ∧
      (∀ g, F.GPIO_IN.apart g = true → F.GPIO_IRQ_PEND.apart g = true →
        (d.ballEdge k up).get (ballField k g) = d.get (ballField k g)) ∧
      Dev.JobSame d (d.ballEdge k up) ∧ (d.ballEdge k up).ram = d.ram ∧
      ∀ a, a ≠ F.GPIO_IN.addr + 4 * k → (d.ballEdge k up).reg a = d.reg a := by
  have hin := d.ball_put_flag k up (f := F.GPIO_IN) (by decide) rfl
  by_cases hbit : bitAt (d.get (ballField k F.GPIO_IRQ_MODE)) (if up then 0 else 1) = true
  · rw [Dev.ballEdge, if_pos hbit]
    refine ⟨?_, ?_, fun g hg hg' => ?_, (Dev.JobSame.put d _ _).trans (.put _ _ _),
      (Dev.put_ram _ _ _).trans (Dev.put_ram d _ _), fun a ha => ?_⟩
    · rw [Dev.flag, Dev.ball_put_apart _ k _ (by decide) (by decide)]
      exact hin
    · rw [hbit, Bool.or_true]
      exact Dev.ball_put_flag _ k true (by decide) rfl
    · rw [Dev.ball_put_apart _ k _ (by decide) hg', Dev.ball_put_apart _ k _ (by decide) hg]
    · exact (Dev.reg_put_ne _ _ _ ha).trans (Dev.reg_put_ne _ _ _ ha)
  · rw [Dev.ballEdge, if_neg hbit]
    refine ⟨hin, ?_, fun g hg _ => Dev.ball_put_apart _ k _ (by decide) hg, .put d _ _, Dev.put_ram d _ _,
      fun a ha => Dev.reg_put_ne _ _ _ ha⟩
    rw [Bool.eq_false_iff.2 hbit, Bool.or_false, Dev.flag, Dev.ball_put_apart _ k _ (by decide) (by decide)]
    rfl

/-- A channel's expiry: its source, and the level at the ball that carries it. -/
theorem Dev.aonTimerExpiryOp_cases {d : Dev} {ch : Fin 8} (h : d.on .aon = true) :
    (d.aonTimerExpiryOp ch = d.latchIrq (88 + ch.val) ∨
      ∃ v, d.aonTimerExpiryOp ch = ((d.latchIrq (88 + ch.val)).draw 1).put (ballField (8 + ch.val) F.GPIO_IN) v) ∧
    (d.on .core = false ∨ d.get (ballField (8 + ch.val) F.GPIO_FUNC) ≠ 2 ∨ d.owner (0x20 + ch.val) ≠ d.owner (8 + ch.val) →
      d.aonTimerExpiryOp ch = d.latchIrq (88 + ch.val)) := by
  have hop : d.aonTimerExpiryOp ch =
      if d.on .core ∧ d.get (ballField (8 + ch.val) F.GPIO_FUNC) = 2 ∧ d.owner (0x20 + ch.val) = d.owner (8 + ch.val) then
        ((d.latchIrq (88 + ch.val)).draw 1).put (ballField (8 + ch.val) F.GPIO_IN)
          (b2n (Config.timerLevel d.freeCount))
      else d.latchIrq (88 + ch.val) := by
    rw [Dev.aonTimerExpiryOp, if_pos h]
    rfl
  refine ⟨?_, fun hnot => ?_⟩
  · rw [hop]
    split
    · exact .inr ⟨_, rfl⟩
    · exact .inl rfl
  · rw [hop]
    refine if_neg fun ⟨hcore, hfunc, howner⟩ => ?_
    obtain hoff | hne | hne := hnot
    · exact absurd (hoff.symm.trans hcore) (by decide)
    · exact hne hfunc
    · exact hne howner

theorem ballsMove : BallsMove := by
  intro s hcalm
  refine ⟨fun k up hcore hpow => ?_, fun ch haon => ?_⟩
  · obtain ⟨hin, hpend, hother, hasks, hram, hreg⟩ := s.dev.ballEdge_reads k.val up
    exact ⟨_, State.onDev_eq (f := fun d => d.gpioEdgeOp k.val up) (Dev.gpioEdgeOp_eq up hcore hpow) (hasks.calm hcalm), rfl, rfl,
      hin, hother F.GPIO_FUNC (by decide) (by decide), hother F.GPIO_OUT (by decide) (by decide),
      hother F.GPIO_IRQ_MODE (by decide) (by decide), hpend, hram, hreg⟩
  · obtain ⟨hcases, hnot⟩ := Dev.aonTimerExpiryOp_cases (d := s.dev) (ch := ch) haon
    obtain hop | ⟨v, hop⟩ := hcases
    · exact ⟨_, State.onDev_eq (f := fun d => d.aonTimerExpiryOp ch) hop hcalm, rfl, rfl, rfl, rfl, fun _ _ => rfl,
        fun _ => rfl⟩
    · refine ⟨_, State.onDev_eq (f := fun d => d.aonTimerExpiryOp ch) hop (Dev.calm_put _ _ hcalm), rfl, rfl, rfl, rfl,
        fun a ha => Dev.reg_put_ne _ _ _ ha, fun h => ?_⟩
      have hregs := congrArg Dev.regs (hop.symm.trans (hnot h))
      exact hregs

/-- Settles O58: FLASHCTL's commands and operations, the clear of the clamp log, and the balls. -/
theorem flashAndBalls : Obligations.FlashAndBalls := by
  unfold Obligations.FlashAndBalls
  exact ⟨flashChanges, ballsMove⟩

end Sys2Proof.Machine
end

section
/-! PROOFS. The domains that are on and the STATE register (R16, R21): no operation that a store can set off changes
them, an alarm's reset of the blocks and a write of PWR_REQ aside. `Dev.StateKept d g` says that `g` has them as `d`
does; a lemma for each operation takes it off the end of a run of them. -/
namespace Sys2Proof.Machine
open Sys2Proof.Claims

/-! ### Addresses above the STATE register -/

@[simp] theorem plus_above {f : Fl} (k : Nat) (h : F.SYS_STATE.addr < f.addr) : F.SYS_STATE.addr < (f.plus k).addr :=
  Nat.lt_add_right k h
@[simp] theorem add_above {a : Nat} (k : Nat) (h : F.SYS_STATE.addr < a) : F.SYS_STATE.addr < a + k :=
  Nat.lt_add_right k h
@[simp] theorem ringField_above (n : Nat) {f : Fl} (h : F.SYS_STATE.addr < f.addr) :
    F.SYS_STATE.addr < (ringField n f).addr := plus_above _ h
@[simp] theorem refqField_above (n : Nat) {f : Fl} (h : F.SYS_STATE.addr < f.addr) :
    F.SYS_STATE.addr < (refqField n f).addr := plus_above _ h
@[simp] theorem trkField_above (n : Nat) {f : Fl} (h : F.SYS_STATE.addr < f.addr) :
    F.SYS_STATE.addr < (trkField n f).addr := plus_above _ h
@[simp] theorem remapField_above (n : Nat) {f : Fl} (h : F.SYS_STATE.addr < f.addr) :
    F.SYS_STATE.addr < (remapField n f).addr := plus_above _ h
@[simp] theorem ballField_above (n : Nat) {f : Fl} (h : F.SYS_STATE.addr < f.addr) :
    F.SYS_STATE.addr < (ballField n f).addr := plus_above _ h
@[simp] theorem pageField_above (n : Fin 16) {f : Fl} (h : F.SYS_STATE.addr < f.addr) :
    F.SYS_STATE.addr < (pageField n f).addr := plus_above _ h
@[simp] theorem chField_above (n : Fin 8) {f : Fl} (h : F.SYS_STATE.addr < f.addr) :
    F.SYS_STATE.addr < (chField n f).addr := plus_above _ h
@[simp] theorem ctxField_above (n : Fin 1024) {f : Fl} (h : F.SYS_STATE.addr < f.addr) :
    F.SYS_STATE.addr < (ctxField n f).addr := plus_above _ h
@[simp] theorem epField_above (n : Fin 1024) (s : Bool) {f : Fl} (h : F.SYS_STATE.addr < f.addr) :
    F.SYS_STATE.addr < (epField n s f).addr := plus_above _ (plus_above _ h)
@[simp] theorem laneField_above (l : Lane) {f : Fl} (h : F.SYS_STATE.addr < f.addr) :
    F.SYS_STATE.addr < (laneField l f).addr := by
  cases l
  · exact h
  · exact plus_above _ h
@[simp] theorem portField_above (p : Port) {f : Fl} (h : F.SYS_STATE.addr < f.addr) :
    F.SYS_STATE.addr < (portField p f).addr := by
  cases p
  · exact h
  · exact plus_above _ h
@[simp] theorem pageIv_above (r : Fin 16) : F.SYS_STATE.addr < pageIv r := pageField_above r (by decide)
@[simp] theorem pageTag_above (r : Fin 16) : F.SYS_STATE.addr < pageTag r := pageField_above r (by decide)
@[simp] theorem pageDigest_above (r : Fin 16) : F.SYS_STATE.addr < pageDigest r := pageField_above r (by decide)
@[simp] theorem ite_above {c : Prop} [Decidable c] {f f' : Fl} (h : F.SYS_STATE.addr < f.addr)
    (h' : F.SYS_STATE.addr < f'.addr) : F.SYS_STATE.addr < (if c then f else f').addr := by
  split <;> assumption
@[simp] theorem ctxWord_above (i : Fin 1024) (off : Nat) : F.SYS_STATE.addr < ctxWord i off := by
  have hstate : F.SYS_STATE.addr = 0x40000000 := rfl
  unfold ctxWord
  omega

/-! ### The relation -/

/-- `e` has the domains and the STATE register of `d`. -/
structure Dev.StateKept (d e : Dev) : Prop where
  dom : e.dom = d.dom
  state : e.reg F.SYS_STATE.addr = d.reg F.SYS_STATE.addr

namespace Dev.StateKept
variable {d e g : Dev}

@[simp] theorem refl (d : Dev) : Dev.StateKept d d := ⟨rfl, rfl⟩

theorem trans (h : Dev.StateKept d e) (h' : Dev.StateKept e g) : Dev.StateKept d g :=
  ⟨h'.dom.trans h.dom, h'.state.trans h.state⟩

theorem opState (h : Dev.StateKept d e) : e.opState = d.opState := Dev.get_congr h.state

/-- What `e` becomes keeps what `e` keeps. -/
theorem after (h : Dev.StateKept e g) : Dev.StateKept d g ↔ Dev.StateKept d e :=
  ⟨fun hg => ⟨h.dom.symm.trans hg.dom, h.state.symm.trans hg.state⟩, fun he => he.trans h⟩

/-- A change of any of the parts that an operation updates by name, none of which holds the domains or the registers. -/
@[simp] theorem update (ram chk codes torn flash own ownResult latches irq evt integ rings divertUsed holdUsed reserve
    keyCmd tu slots ce cst hp well wellcap wdog woh linkA linkB laneV laneT egressA egressB chans chanLast staging
    aonPend sbuf impStore prevFw freeCount now resetReq coreResetReq coreStopReq flashJob) :
    Dev.StateKept d { e with
      ram := ram, chk := chk, codes := codes, torn := torn, flash := flash, own := own, ownResult := ownResult,
      latches := latches, irq := irq, evt := evt, integ := integ, rings := rings, divertUsed := divertUsed,
      holdUsed := holdUsed, reserve := reserve,
      keyCmd := keyCmd, tu := tu, slots := slots, ce := ce, cst := cst, hp := hp, well := well, wellcap := wellcap,
      wdog := wdog, woh := woh, linkA := linkA, linkB := linkB, laneV := laneV, laneT := laneT, egressA := egressA,
      egressB := egressB, chans := chans, chanLast := chanLast, staging := staging, aonPend := aonPend, sbuf := sbuf,
      impStore := impStore, prevFw := prevFw, freeCount := freeCount, now := now, resetReq := resetReq,
      coreResetReq := coreResetReq, coreStopReq := coreStopReq, flashJob := flashJob } ↔ Dev.StateKept d e :=
  ⟨fun h => ⟨h.dom, h.state⟩, fun h => ⟨h.dom, h.state⟩⟩

@[simp] theorem ite_iff {c : Prop} [Decidable c] :
    Dev.StateKept d (if c then e else g) ↔ if c then Dev.StateKept d e else Dev.StateKept d g := by
  split <;> rfl

@[simp] theorem setReg {a : Nat} {w : Word} (h : F.SYS_STATE.addr < a) :
    Dev.StateKept d (e.setReg a w) ↔ Dev.StateKept d e :=
  after ⟨rfl, Sparse.get_set_ne _ _ _ (Nat.ne_of_lt h)⟩

@[simp] theorem put {f : Fl} {v : Nat} (h : F.SYS_STATE.addr < f.addr) :
    Dev.StateKept d (e.put f v) ↔ Dev.StateKept d e :=
  setReg h

@[simp] theorem bump {f : Fl} {v : Nat} (h : F.SYS_STATE.addr < f.addr) :
    Dev.StateKept d (e.bump f v) ↔ Dev.StateKept d e :=
  put h

@[simp] theorem trouble {k : Nat} : Dev.StateKept d (e.trouble k) ↔ Dev.StateKept d e := put (by decide)

@[simp] theorem event {src code cls : Nat} {arg0 arg1 : Word} :
    Dev.StateKept d (e.event src code cls arg0 arg1) ↔ Dev.StateKept d e := by
  simp [Dev.event]

theorem foldl_mem {α : Type} {f : Dev → α → Dev} {l : List α} (h : ∀ x, ∀ a ∈ l, Dev.StateKept x (f x a)) :
    Dev.StateKept d (l.foldl f e) ↔ Dev.StateKept d e := by
  induction l generalizing e with
  | nil => rfl
  | cons a l ih =>
    have hrest := ih (e := f e a) fun x b hb => h x b (List.mem_cons_of_mem a hb)
    exact hrest.trans (after (h e a List.mem_cons_self))

@[simp] theorem foldl {α : Type} {f : Dev → α → Dev} {l : List α} (h : ∀ x a, Dev.StateKept x (f x a)) :
    Dev.StateKept d (l.foldl f e) ↔ Dev.StateKept d e :=
  foldl_mem fun x a _ => h x a

@[simp] theorem fst_ite_iff {c : Prop} [Decidable c] {α : Type} {x y : Dev × α} :
    Dev.StateKept d (if c then x else y).1 ↔ if c then Dev.StateKept d x.1 else Dev.StateKept d y.1 := by
  split <;> rfl

/-- A change of parts that leaves the registers as if some had been dropped. -/
theorem dropped {p : Nat → Bool} (hdom : g.dom = e.dom) (hregs : g.regs = Sparse.drop p e.regs)
    (h : p F.SYS_STATE.addr = false) : Dev.StateKept d g ↔ Dev.StateKept d e := by
  refine after ⟨hdom, ?_⟩
  rw [Dev.reg, hregs, Sparse.get_drop, h]
  rfl

@[simp] theorem dropRegs {p : Nat → Bool} (h : p F.SYS_STATE.addr = false) :
    Dev.StateKept d (e.dropRegs p) ↔ Dev.StateKept d e :=
  after ⟨rfl, by rw [Dev.reg_dropRegs, h]; rfl⟩

/-! ### Operations every block shares -/

@[simp] theorem setLink {p : Port} {x : Link} : Dev.StateKept d (g.setLink p x) ↔ Dev.StateKept d g := by
  unfold Dev.setLink
  split <;> simp [↓update]

@[simp] theorem setLane {l : Lane} {x : LaneSt} : Dev.StateKept d (g.setLane l x) ↔ Dev.StateKept d g := by
  unfold Dev.setLane
  split <;> simp [↓update]

@[simp] theorem setEgress {p : Port} {x : Option Egress} : Dev.StateKept d (g.setEgress p x) ↔ Dev.StateKept d g := by
  unfold Dev.setEgress
  split <;> simp [↓update]

@[simp] theorem latchIrq {src : Nat} : Dev.StateKept d (g.latchIrq src) ↔ Dev.StateKept d g := by
  unfold Dev.latchIrq
  simp [↓update]

@[simp] theorem setOwner {i : Nat} {o : BitVec 5} : Dev.StateKept d (g.setOwner i o) ↔ Dev.StateKept d g := by
  unfold Dev.setOwner
  simp [↓update]

@[simp] theorem claimConflict {i : Nat} {requester : Nat} :
    Dev.StateKept d (g.claimConflict i requester) ↔ Dev.StateKept d g := by
  unfold Dev.claimConflict
  simp

@[simp] theorem logClamp {a : Nat} {hi lo : Nat} {m : Master} {written stored : Nat} :
    Dev.StateKept d (g.logClamp a hi lo m written stored) ↔ Dev.StateKept d g := by
  unfold Dev.logClamp
  simp +decide

@[simp] theorem poisonBits : Dev.StateKept d g.poisonBits ↔ Dev.StateKept d g := by
  unfold Dev.poisonBits
  simp +decide

@[simp] theorem poisonWrite {a : Nat} {m : Master} : Dev.StateKept d (g.poisonWrite a m) ↔ Dev.StateKept d g := by
  unfold Dev.poisonWrite
  simp

@[simp] theorem draw {k : Nat} : Dev.StateKept d (g.draw k) ↔ Dev.StateKept d g := by
  unfold Dev.draw
  simp [↓update]

/-! ### Integrity and the memories (R275 to R285) -/

@[simp] theorem eccRecord {ue : Bool} {addr src : Nat} {m : Master} {syn bits lanes : Nat} :
    Dev.StateKept d (g.eccRecord ue addr src m syn bits lanes) ↔ Dev.StateKept d g := by
  unfold Dev.eccRecord
  simp +decide

@[simp] theorem drgCount {k n : Nat} : Dev.StateKept d (g.drgCount k n) ↔ Dev.StateKept d g := by
  unfold Dev.drgCount
  simp +decide

@[simp] theorem refqAdd {cst : Bool} {page bits : Nat} :
    Dev.StateKept d (g.refqAdd cst page bits) ↔ Dev.StateKept d g := by
  unfold Dev.refqAdd
  (repeat' split) <;> simp +decide

@[simp] theorem trkClear {k : Nat} : Dev.StateKept d (g.trkClear k) ↔ Dev.StateKept d g := by
  unfold Dev.trkClear
  simp +decide [↓update]

@[simp] theorem pageQueue {o : Offer} : Dev.StateKept d (g.pageQueue o) ↔ Dev.StateKept d g := by
  unfold Dev.pageQueue
  (repeat' split) <;> simp +decide

@[simp] theorem offer {o : Offer} : Dev.StateKept d (g.offer o) ↔ Dev.StateKept d g := by
  unfold Dev.offer
  simp +decide [↓update, ↓ite_iff]

@[simp] theorem ramPut {a : Nat} {b : MByte} : Dev.StateKept d (g.ramPut a b) ↔ Dev.StateKept d g := by
  unfold Dev.ramPut
  simp [↓update]

@[simp] theorem ramPutAll {a : Nat} {bs : List MByte} : Dev.StateKept d (g.ramPutAll a bs) ↔ Dev.StateKept d g := by
  induction bs generalizing g a with
  | nil => rfl
  | cons b t ih => simp [Dev.ramPutAll, ih]

@[simp] theorem testChk {a n : Nat} : Dev.StateKept d (g.testChk a n) ↔ Dev.StateKept d g := by
  induction n with
  | zero => rfl
  | succ k ih =>
    unfold Dev.testChk
    dsimp only
    simp [↓update, ih]

@[simp] theorem ramWrite {m : Master} {a : Nat} {bs : List MByte} :
    Dev.StateKept d (g.ramWrite m a bs) ↔ Dev.StateKept d g := by
  unfold Dev.ramWrite
  simp

@[simp] theorem innerFound {m : Master} {src place : Nat} {chk : List (Nat × BitVec 5)} :
    Dev.StateKept d (g.innerFound m src place chk) ↔ Dev.StateKept d g := by
  unfold Dev.innerFound
  refine foldl fun x w => (foldl fun y c => ?_).mpr (refl x)
  split <;> simp

@[simp] theorem ctxRead {m : Master} {a : Nat} (h : F.SYS_STATE.addr < a) :
    Dev.StateKept d (g.ctxRead m a) ↔ Dev.StateKept d g := by
  unfold Dev.ctxRead
  dsimp only
  split
  · rfl
  · refine (foldl fun x e => by simp [↓update]).trans ((setReg h).trans (foldl fun y c => ?_))
    split <;> simp

@[simp] theorem ctxReads {m : Master} {a n : Nat} (h : F.SYS_STATE.addr < a) :
    Dev.StateKept d (g.ctxReads m a n) ↔ Dev.StateKept d g := by
  induction n generalizing g a with
  | zero => rfl
  | succ n ih => simp [Dev.ctxReads, ih (add_above 4 h), h]

@[simp] theorem nvmRecord {m : Master} {cst : Bool} {a : Nat} {bits : Option Nat} :
    Dev.StateKept d (g.nvmRecord m cst a bits) ↔ Dev.StateKept d g := by
  unfold Dev.nvmRecord
  dsimp only
  split <;> simp

@[simp] theorem nvmFound {m : Master} {cst : Bool} {a : Nat} :
    Dev.StateKept d (g.nvmFound m cst a) ↔ Dev.StateKept d g := by
  unfold Dev.nvmFound
  split <;> simp

@[simp] theorem nvmRead {m : Master} {cst : Bool} {a n : Nat} :
    Dev.StateKept d (g.nvmRead m cst a n).1 ↔ Dev.StateKept d g := by
  unfold Dev.nvmRead
  dsimp only
  split <;> simp

@[simp] theorem untear {cst : Bool} {first words : Nat} :
    Dev.StateKept d (g.untear cst first words) ↔ Dev.StateKept d g := by
  unfold Dev.untear
  simp [↓update]

@[simp] theorem tear {cst erase : Bool} {first words : Nat} :
    Dev.StateKept d (g.tear cst erase first words) ↔ Dev.StateKept d g := by
  unfold Dev.tear
  simp [↓update]

/-! ### Access control (R225 to R241) -/

@[simp] theorem recordSv {a : Nat} {e : BitVec 4} {m : Master} {k : Kind} {reason region : Nat} :
    Dev.StateKept d (g.recordSv a e m k reason region) ↔ Dev.StateKept d g := by
  unfold Dev.recordSv
  simp +decide

@[simp] theorem recordMv {a : Nat} {m : Master} {k : Kind} {reason region : Nat} :
    Dev.StateKept d (g.recordMv a m k reason region) ↔ Dev.StateKept d g := by
  unfold Dev.recordMv
  simp +decide

@[simp] theorem reachCheck {m : Master} {k : Kind} {a : Nat} :
    Dev.StateKept d (g.reachCheck m k a).1 ↔ Dev.StateKept d g := by
  unfold Dev.reachCheck
  (repeat' split) <;> simp

@[simp] theorem slaveCheck {e : BitVec 4} {m : Master} {priv : Bool} {k : Kind} {a : Nat} :
    Dev.StateKept d (g.slaveCheck e m priv k a).1 ↔ Dev.StateKept d g := by
  unfold Dev.slaveCheck
  (repeat' split) <;> simp

@[simp] theorem commitFw : Dev.StateKept d g.commitFw ↔ Dev.StateKept d g := by
  unfold Dev.commitFw
  refine (foldl_mem fun x e he => ?_).trans
    (dropped (p := fun a => isFwReg a && 0x100 ≤ (a - 0x40032000) % 0x200) rfl rfl (by decide))
  simp only [List.mem_filter, Bool.and_eq_true, isFwReg, decide_eq_true_eq] at he
  obtain ⟨-, ⟨habove, -⟩, -⟩ := he
  have hstate : F.SYS_STATE.addr = 0x40000000 := rfl
  exact (setReg (by omega)).mpr (refl x)

@[simp] theorem advanceEpoch {oldFw : List (Nat × Word)} :
    Dev.StateKept d (g.advanceEpoch oldFw) ↔ Dev.StateKept d g := by
  unfold Dev.advanceEpoch
  simp +decide [↓update]

@[simp] theorem fwCommit {op : Nat} : Dev.StateKept d (g.fwCommit op) ↔ Dev.StateKept d g := by
  unfold Dev.fwCommit
  simp +decide

/-! ### The time unit (R142 to R158) -/

@[simp] theorem tick : Dev.StateKept d g.tick ↔ Dev.StateKept d g := by
  unfold Dev.tick
  simp [↓update, ↓ite_iff]

@[simp] theorem servoUpdate : Dev.StateKept d g.servoUpdate ↔ Dev.StateKept d g := by
  unfold Dev.servoUpdate
  simp [↓update]

@[simp] theorem setLock {v : Nat} : Dev.StateKept d (g.setLock v) ↔ Dev.StateKept d g := by
  unfold Dev.setLock
  simp +decide [↓update, ↓ite_iff, ↓event]

@[simp] theorem timeStep : Dev.StateKept d g.timeStep ↔ Dev.StateKept d g := by
  unfold Dev.timeStep
  simp +decide [↓update]

@[simp] theorem timeAddApply : Dev.StateKept d g.timeAddApply ↔ Dev.StateKept d g := by
  unfold Dev.timeAddApply
  simp +decide [↓update, ↓ite_iff]

@[simp] theorem declareLockOp : Dev.StateKept d g.declareLockOp ↔ Dev.StateKept d g := by
  unfold Dev.declareLockOp
  simp +decide

@[simp] theorem declareHoldoverOp : Dev.StateKept d g.declareHoldoverOp ↔ Dev.StateKept d g := by
  unfold Dev.declareHoldoverOp
  simp +decide

@[simp] theorem timeCmd {op : Nat} : Dev.StateKept d (g.timeCmd op) ↔ Dev.StateKept d g := by
  unfold Dev.timeCmd
  simp

@[simp] theorem ppsEnable {m : Master} {ball : Nat} {f : Fl} {was : Bool} (h : F.SYS_STATE.addr < f.addr) :
    Dev.StateKept d (g.ppsEnable m ball f was) ↔ Dev.StateKept d g := by
  unfold Dev.ppsEnable
  simp +decide [h]

@[simp] theorem changeOwner {i : Nat} {o : BitVec 5} : Dev.StateKept d (g.changeOwner i o) ↔ Dev.StateKept d g := by
  unfold Dev.changeOwner
  simp +decide [↓update, ↓ite_iff]

@[simp] theorem timeWritten {m : Master} {a old acted : Nat} :
    Dev.StateKept d (g.timeWritten m a old acted) ↔ Dev.StateKept d g := by
  unfold Dev.timeWritten
  simp +decide [↓update, ↓ite_iff]

/-! ### Rings (R113 to R136) -/

@[simp] theorem takeEsn : Dev.StateKept d (g.takeEsn).1 ↔ Dev.StateKept d g := by
  unfold Dev.takeEsn
  simp [↓update, ↓ite_iff]

@[simp] theorem setRing {n : Nat} {r : RingHw} : Dev.StateKept d (g.setRing n r) ↔ Dev.StateKept d g := by
  unfold Dev.setRing
  simp [↓update]

@[simp] theorem ringPend {n : Nat} : Dev.StateKept d (g.ringPend n) ↔ Dev.StateKept d g := by
  unfold Dev.ringPend
  simp +decide

@[simp] theorem dropEntry {n : Nat} : Dev.StateKept d (g.dropEntry n) ↔ Dev.StateKept d g := by
  unfold Dev.dropEntry
  simp +decide

@[simp] theorem reserveLost {n : Nat} : Dev.StateKept d (g.reserveLost n) ↔ Dev.StateKept d g := by
  unfold Dev.reserveLost
  simp +decide [↓ite_iff]

@[simp] theorem reserveSlot {n need : Nat} {kind : EntryKind} {bucket : Option Nat} :
    Dev.StateKept d (g.reserveSlot n need kind bucket).1 ↔ Dev.StateKept d g := by
  unfold Dev.reserveSlot
  simp

@[simp] theorem completeEntry {n : Nat} {kind : EntryKind} {esn : Nat} {ws : List Word} :
    Dev.StateKept d (g.completeEntry n kind esn ws) ↔ Dev.StateKept d g := by
  unfold Dev.completeEntry
  simp

@[simp] theorem ringStop {n err : Nat} : Dev.StateKept d (g.ringStop n err) ↔ Dev.StateKept d g := by
  unfold Dev.ringStop
  simp +decide

@[simp] theorem dropHold {i : Nat} : Dev.StateKept d (g.dropHold i) ↔ Dev.StateKept d g := by
  unfold Dev.dropHold
  simp [↓update]

@[simp] theorem bktPartAllowed {m : Master} : Dev.StateKept d (g.bktPartAllowed m).1 ↔ Dev.StateKept d g := by
  unfold Dev.bktPartAllowed
  simp +decide

@[simp] theorem freeBehind {n : Nat} : Dev.StateKept d (g.freeBehind n) ↔ Dev.StateKept d g := by
  unfold Dev.freeBehind
  simp [↓update]

@[simp] theorem ringStart {n : Nat} : Dev.StateKept d (g.ringStart n) ↔ Dev.StateKept d g := by
  unfold Dev.ringStart
  simp +decide

@[simp] theorem ringSettle {n : Nat} : Dev.StateKept d (g.ringSettle n) ↔ Dev.StateKept d g := by
  unfold Dev.ringSettle
  simp +decide

@[simp] theorem ringCfgWritten {n old new : Nat} :
    Dev.StateKept d (g.ringCfgWritten n old new) ↔ Dev.StateKept d g := by
  unfold Dev.ringCfgWritten
  simp

@[simp] theorem ringConsMoved {n old : Nat} : Dev.StateKept d (g.ringConsMoved n old) ↔ Dev.StateKept d g := by
  unfold Dev.ringConsMoved
  simp [↓update]

@[simp] theorem ringResume {n : Nat} : Dev.StateKept d (g.ringResume n) ↔ Dev.StateKept d g := by
  unfold Dev.ringResume
  simp +decide

@[simp] theorem ringsAlarm : Dev.StateKept d g.ringsAlarm ↔ Dev.StateKept d g := by
  unfold Dev.ringsAlarm
  simp [↓update]

/-! ### Links (R43) -/

@[simp] theorem linkPut {p : Port} {f : Fl} {v : Nat} (h : F.SYS_STATE.addr < f.addr) :
    Dev.StateKept d (g.linkPut p f v) ↔ Dev.StateKept d g := by
  unfold Dev.linkPut
  simp [h]

@[simp] theorem linkStep {p : Port} {x : LinkStep} : Dev.StateKept d (g.linkStep p x) ↔ Dev.StateKept d g := by
  unfold Dev.linkStep
  simp

@[simp] theorem linkFall {p : Port} : Dev.StateKept d (g.linkFall p) ↔ Dev.StateKept d g := by
  unfold Dev.linkFall
  simp +decide

@[simp] theorem linkFromSerdes {p : Port} : Dev.StateKept d (g.linkFromSerdes p) ↔ Dev.StateKept d g := by
  unfold Dev.linkFromSerdes
  simp +decide

@[simp] theorem linkFromPcs {p : Port} : Dev.StateKept d (g.linkFromPcs p) ↔ Dev.StateKept d g := by
  unfold Dev.linkFromPcs
  simp +decide

/-! ### Contexts and their keys (R80 to R105) -/

@[simp] theorem ctxPut {i : Fin 1024} {f : Fl} {v : Nat} (h : F.SYS_STATE.addr < f.addr) :
    Dev.StateKept d (g.ctxPut i f v) ↔ Dev.StateKept d g := put (ctxField_above i h)

@[simp] theorem ctxCount {i : Fin 1024} {off k : Nat} : Dev.StateKept d (g.ctxCount i off k) ↔ Dev.StateKept d g := by
  unfold Dev.ctxCount
  simp

@[simp] theorem ctxCount64 {i : Fin 1024} {off k : Nat} :
    Dev.StateKept d (g.ctxCount64 i off k) ↔ Dev.StateKept d g := by
  unfold Dev.ctxCount64
  simp

@[simp] theorem ctxZero {i : Fin 1024} {off n : Nat} : Dev.StateKept d (g.ctxZero i off n) ↔ Dev.StateKept d g := by
  induction n generalizing g off with
  | zero => rfl
  | succ k ih => simp [Dev.ctxZero, ih]

@[simp] theorem setSlot {s : Nat} {k : KeySlot} : Dev.StateKept d (g.setSlot s k) ↔ Dev.StateKept d g := by
  unfold Dev.setSlot
  simp [↓update]

@[simp] theorem keyRead {m : Master} {s : Nat} : Dev.StateKept d (g.keyRead m s) ↔ Dev.StateKept d g := by
  unfold Dev.keyRead
  simp

@[simp] theorem epEvent {i : Fin 1024} {s : Bool} {st : Nat} :
    Dev.StateKept d (g.epEvent i s st) ↔ Dev.StateKept d g := by
  unfold Dev.epEvent
  simp

@[simp] theorem epMove {i : Fin 1024} {s : Bool} {st : Nat} :
    Dev.StateKept d (g.epMove i s st) ↔ Dev.StateKept d g := by
  unfold Dev.epMove
  simp +decide

@[simp] theorem commitSwitch {i : Fin 1024} {t : Nat} : Dev.StateKept d (g.commitSwitch i t) ↔ Dev.StateKept d g := by
  unfold Dev.commitSwitch
  dsimp only
  split <;> simp +decide

@[simp] theorem setWin {i : Fin 1024} {w : Win} : Dev.StateKept d (g.setWin i w) ↔ Dev.StateKept d g := by
  unfold Dev.setWin
  simp +decide

@[simp] theorem ctxCmd {op : Nat} {i : Fin 1024} : Dev.StateKept d (g.ctxCmd op i) ↔ Dev.StateKept d g := by
  unfold Dev.ctxCmd
  simp +decide [↓update, ↓ite_iff]

@[simp] theorem keyCmdWritten {v : Nat} : Dev.StateKept d (g.keyCmdWritten v) ↔ Dev.StateKept d g := by
  unfold Dev.keyCmdWritten
  (repeat' split) <;> simp +decide [↓update]

@[simp] theorem epochsAlarm : Dev.StateKept d g.epochsAlarm ↔ Dev.StateKept d g := by
  unfold Dev.epochsAlarm
  exact dropped (p := fun a => inCtx a && 0x20 ≤ a % 0x100 && a % 0x100 < 0x40) rfl rfl (by decide)

/-! ### The event issuer (R377 to R385) -/

@[simp] theorem closeOpen {src : Nat} : Dev.StateKept d (g.closeOpen src) ↔ Dev.StateKept d g := by
  unfold Dev.closeOpen
  split
  · rfl
  · simp [↓ite_iff, ↓completeEntry, ↓update]

@[simp] theorem issueNew {q : EvReq} : Dev.StateKept d (g.issueNew q).1 ↔ Dev.StateKept d g := by
  unfold Dev.issueNew
  simp

@[simp] theorem noteEsn {q : EvReq} {n : Nat} : Dev.StateKept d (g.noteEsn q n) ↔ Dev.StateKept d g := by
  unfold Dev.noteEsn
  simp

@[simp] theorem issueReq {q : EvReq} : Dev.StateKept d (g.issueReq q) ↔ Dev.StateKept d g := by
  unfold Dev.issueReq
  split
  · simp [↓noteEsn, ↓update]
  · simp

@[simp] theorem eventIssueOp {src : Nat} : Dev.StateKept d (g.eventIssueOp src) ↔ Dev.StateKept d g := by
  unfold Dev.eventIssueOp
  split
  · rfl
  · split
    · simp [↓issueReq, ↓update]
    · rfl

@[simp] theorem evtSwWritten {m : Master} {acted : Nat} :
    Dev.StateKept d (g.evtSwWritten m acted) ↔ Dev.StateKept d g := by
  unfold Dev.evtSwWritten
  simp

/-! ### The watchdog and the power modes (R361 to R389) -/

@[simp] theorem wdogReload : Dev.StateKept d g.wdogReload ↔ Dev.StateKept d g := by
  unfold Dev.wdogReload
  simp [↓update]

@[simp] theorem wdogKickWritten {acted : Nat} : Dev.StateKept d (g.wdogKickWritten acted) ↔ Dev.StateKept d g := by
  unfold Dev.wdogKickWritten
  simp +decide

@[simp] theorem wdogCtlWritten {old : Nat} : Dev.StateKept d (g.wdogCtlWritten old) ↔ Dev.StateKept d g := by
  unfold Dev.wdogCtlWritten
  simp

@[simp] theorem requestReset {cause : Nat} : Dev.StateKept d (g.requestReset cause) ↔ Dev.StateKept d g := by
  unfold Dev.requestReset
  simp [↓update]

@[simp] theorem hold {who : Requester} {b : Nat} : Dev.StateKept d (g.hold who b) ↔ Dev.StateKept d g := by
  unfold Dev.hold
  split <;> simp [↓update]

@[simp] theorem grantHold {who : Requester} {b : Nat} : Dev.StateKept d (g.grantHold who b) ↔ Dev.StateKept d g := by
  unfold Dev.grantHold
  simp +decide [↓update, ↓ite_iff]

@[simp] theorem refuse {who : Requester} : Dev.StateKept d (g.refuse who) ↔ Dev.StateKept d g := by
  unfold Dev.refuse
  simp +decide [↓update, ↓ite_iff, ↓put]

@[simp] theorem askEnergy {who : Requester} {m budget : Nat} :
    Dev.StateKept d (g.askEnergy who m budget).1 ↔ Dev.StateKept d g := by
  unfold Dev.askEnergy
  simp

@[simp] theorem energyEnd {who : Requester} : Dev.StateKept d (g.energyEnd who) ↔ Dev.StateKept d g := by
  unfold Dev.energyEnd
  simp

@[simp] theorem setPoint {mv : Nat} : Dev.StateKept d (g.setPoint mv) ↔ Dev.StateKept d g := by
  unfold Dev.setPoint
  simp +decide [↓update]

@[simp] theorem pmodeBegin {m : Nat} : Dev.StateKept d (g.pmodeBegin m) ↔ Dev.StateKept d g := by
  unfold Dev.pmodeBegin
  simp +decide [↓update, ↓ite_iff]

@[simp] theorem pmodeWritten : Dev.StateKept d g.pmodeWritten ↔ Dev.StateKept d g := by
  unfold Dev.pmodeWritten
  simp [↓update, ↓ite_iff]

/-! ### The cryptographic engine (R242 to R269) -/

@[simp] theorem setPage {r : Fin 16} {p : CePage} : Dev.StateKept d (g.setPage r p) ↔ Dev.StateKept d g := by
  unfold Dev.setPage
  simp [↓update]

@[simp] theorem setJobCe {r : Fin 16} {j : Option CeJob} : Dev.StateKept d (g.setJobCe r j) ↔ Dev.StateKept d g := by
  unfold Dev.setJobCe
  simp

@[simp] theorem putRegBytes {a n : Nat} {bs : Bytes} (h : F.SYS_STATE.addr < a) :
    Dev.StateKept d (g.putRegBytes a n bs) ↔ Dev.StateKept d g := by
  unfold Dev.putRegBytes
  exact foldl fun x i => (setReg (add_above _ h)).mpr (refl x)

@[simp] theorem zeroResults {r : Fin 16} {dir : Nat} : Dev.StateKept d (g.zeroResults r dir) ↔ Dev.StateKept d g := by
  unfold Dev.zeroResults
  simp

@[simp] theorem jobStatus {r : Fin 16} {st : Nat} : Dev.StateKept d (g.jobStatus r st) ↔ Dev.StateKept d g := by
  unfold Dev.jobStatus
  simp +decide

@[simp] theorem beginJob {r : Fin 16} {j : CeJob} : Dev.StateKept d (g.beginJob r j).1 ↔ Dev.StateKept d g := by
  unfold Dev.beginJob
  have hinv : F.SYS_STATE.addr < (pageField r F.CE_INV_LO_INV).addr := pageField_above r (by decide)
  split <;> simp [hinv]

@[simp] theorem ceBegin {r : Fin 16} {j : CeJob} : Dev.StateKept d (g.ceBegin r j) ↔ Dev.StateKept d g := by
  unfold Dev.ceBegin
  simp

@[simp] theorem rngDraw {n : Nat} : Dev.StateKept d (g.rngDraw n).1 ↔ Dev.StateKept d g := by
  unfold Dev.rngDraw
  simp [↓update]

@[simp] theorem rngServe {n : Nat} : Dev.StateKept d (Dev.rngServe n g) ↔ Dev.StateKept d g := by
  induction n generalizing g with
  | zero => rfl
  | succ n ih =>
    unfold Dev.rngServe
    dsimp only
    split
    · split <;> rename_i hdraw <;> obtain rfl := congrArg Prod.fst hdraw <;> simp [ih]
    · split <;> rename_i hdraw <;> obtain rfl := congrArg Prod.fst hdraw <;> simp [ih, ↓update]
    · rfl

@[simp] theorem rngGo : Dev.StateKept d g.rngGo ↔ Dev.StateKept d g := rngServe

@[simp] theorem reseedWritten : Dev.StateKept d g.reseedWritten ↔ Dev.StateKept d g := by
  unfold Dev.reseedWritten
  simp [↓update, ↓ite_iff]

@[simp] theorem restartWritten : Dev.StateKept d g.restartWritten ↔ Dev.StateKept d g := by
  unfold Dev.restartWritten
  simp +decide [↓update]

@[simp] theorem ceAsk {r : Fin 16} {j : CeJob} : Dev.StateKept d (g.ceAsk r j).1 ↔ Dev.StateKept d g := by
  unfold Dev.ceAsk
  simp

@[simp] theorem ceProceed {r : Fin 16} {j : CeJob} : Dev.StateKept d (g.ceProceed r j) ↔ Dev.StateKept d g := by
  unfold Dev.ceProceed
  split <;> rename_i hask <;> obtain rfl := congrArg Prod.fst hask <;> simp

@[simp] theorem ceStart {r : Fin 16} : Dev.StateKept d (g.ceStart r) ↔ Dev.StateKept d g := by
  unfold Dev.ceStart
  dsimp only
  (repeat' split) <;> simp +decide [↓update]

@[simp] theorem ceAbort {r : Fin 16} : Dev.StateKept d (g.ceAbort r) ↔ Dev.StateKept d g := by
  unfold Dev.ceAbort
  split <;> simp

@[simp] theorem ceCmdWritten {r : Fin 16} {acted : Nat} :
    Dev.StateKept d (g.ceCmdWritten r acted) ↔ Dev.StateKept d g := by
  unfold Dev.ceCmdWritten
  simp

@[simp] theorem pageReset {r : Fin 16} : Dev.StateKept d (g.pageReset r) ↔ Dev.StateKept d g := by
  unfold Dev.pageReset
  refine dropped (p := fun a => 0x50000000 + 0x1000 * r.val ≤ a && a < 0x50001000 + 0x1000 * r.val) rfl rfl ?_
  have hstate : F.SYS_STATE.addr = 0x40000000 := rfl
  simp only [hstate, Bool.and_eq_false_iff, decide_eq_false_iff_not]
  omega

@[simp] theorem pageCtlWritten {r : Fin 16} {old : Nat} :
    Dev.StateKept d (g.pageCtlWritten r old) ↔ Dev.StateKept d g := by
  unfold Dev.pageCtlWritten
  (repeat' split) <;> simp

@[simp] theorem ceKeyCmdWritten {acted : Nat} : Dev.StateKept d (g.ceKeyCmdWritten acted) ↔ Dev.StateKept d g := by
  unfold Dev.ceKeyCmdWritten
  simp +decide [↓update, ↓ite_iff]

@[simp] theorem ceAlarm : Dev.StateKept d g.ceAlarm ↔ Dev.StateKept d g := by
  unfold Dev.ceAlarm
  simp [↓update]

/-! ### Refresh and remapping (R285 to R290) -/

@[simp] theorem refqDrop {k : Nat} : Dev.StateKept d (g.refqDrop k) ↔ Dev.StateKept d g := by
  unfold Dev.refqDrop
  simp +decide

@[simp] theorem refqCmd {acted : Nat} : Dev.StateKept d (g.refqCmd acted) ↔ Dev.StateKept d g := by
  unfold Dev.refqCmd
  simp

@[simp] theorem startCopy {bank row : Nat} {entry : Option Nat} :
    Dev.StateKept d (g.startCopy bank row entry) ↔ Dev.StateKept d g := by
  unfold Dev.startCopy
  simp [↓update]

@[simp] theorem remapEvent {bank row : Nat} : Dev.StateKept d (g.remapEvent bank row) ↔ Dev.StateKept d g := by
  unfold Dev.remapEvent
  simp

@[simp] theorem exhausted {bank row : Nat} : Dev.StateKept d (g.exhausted bank row) ↔ Dev.StateKept d g := by
  unfold Dev.exhausted
  simp +decide

@[simp] theorem copyBytes {a n : Nat} : Dev.StateKept d (g.copyBytes a n) ↔ Dev.StateKept d g := by
  induction n generalizing g a with
  | zero => rfl
  | succ n ih =>
    unfold Dev.copyBytes
    dsimp only
    simp [↓update, ih]

@[simp] theorem trkRemap {k : Nat} : Dev.StateKept d (g.trkRemap k) ↔ Dev.StateKept d g := by
  unfold Dev.trkRemap
  simp [↓update, ↓ite_iff]

@[simp] theorem bktRemaps : Dev.StateKept d g.bktRemaps ↔ Dev.StateKept d g := by
  unfold Dev.bktRemaps
  simp [↓update, ↓ite_iff]

@[simp] theorem rowCopied {c : RowCopy} : Dev.StateKept d (g.rowCopied c) ↔ Dev.StateKept d g := by
  unfold Dev.rowCopied
  split <;> simp +decide [↓update, ↓remapEvent, ↓drgCount, ↓put, ↓trkClear, ↓copyBytes]

@[simp] theorem rowWait {a : Nat} : Dev.StateKept d (g.rowWait a) ↔ Dev.StateKept d g := by
  unfold Dev.rowWait
  (repeat' split) <;> simp

@[simp] theorem remapCmd {acted : Nat} : Dev.StateKept d (g.remapCmd acted) ↔ Dev.StateKept d g := by
  unfold Dev.remapCmd
  simp +decide [↓update, ↓ite_iff]

/-! ### The Cistern (R298 to R324) -/

@[simp] theorem setCRing {r : Nat} {x : CstRing} : Dev.StateKept d (g.setCRing r x) ↔ Dev.StateKept d g := by
  unfold Dev.setCRing
  simp [↓update]

@[simp] theorem wordsFound {m : Master} {a n : Nat} : Dev.StateKept d (g.wordsFound m a n) ↔ Dev.StateKept d g := by
  unfold Dev.wordsFound
  simp

@[simp] theorem twinsFound {m : Master} {p q : Nat} : Dev.StateKept d (g.twinsFound m p q) ↔ Dev.StateKept d g := by
  unfold Dev.twinsFound
  simp

@[simp] theorem putBuf {base : Nat} {bs : Bytes} (h : F.SYS_STATE.addr < base) :
    Dev.StateKept d (g.putBuf base bs) ↔ Dev.StateKept d g := by
  unfold Dev.putBuf
  exact foldl fun x i => (setReg (add_above _ h)).mpr (refl x)

@[simp] theorem cstDone {status : Nat} : Dev.StateKept d (g.cstDone status) ↔ Dev.StateKept d g := by
  unfold Dev.cstDone
  simp +decide

@[simp] theorem putVal {v : Nat} : Dev.StateKept d (g.putVal v) ↔ Dev.StateKept d g := by
  unfold Dev.putVal
  simp +decide

@[simp] theorem deliver {r : CRec} : Dev.StateKept d (g.deliver r) ↔ Dev.StateKept d g := by
  unfold Dev.deliver
  simp +decide

@[simp] theorem deliverNone : Dev.StateKept d g.deliverNone ↔ Dev.StateKept d g := by
  unfold Dev.deliverNone
  simp +decide

@[simp] theorem cstTrouble {k target : Nat} : Dev.StateKept d (g.cstTrouble k target) ↔ Dev.StateKept d g := by
  unfold Dev.cstTrouble
  simp

@[simp] theorem cstReadParam {m : Master} {p : Nat} : Dev.StateKept d (g.cstReadParam m p) ↔ Dev.StateKept d g := by
  unfold Dev.cstReadParam
  split <;> simp +decide

@[simp] theorem ctrRead {m : Master} {c : Nat} : Dev.StateKept d (g.ctrRead m c) ↔ Dev.StateKept d g := by
  unfold Dev.ctrRead
  (repeat' split) <;> simp

@[simp] theorem cstReadCtr {m : Master} {c : Nat} : Dev.StateKept d (g.cstReadCtr m c) ↔ Dev.StateKept d g := by
  unfold Dev.cstReadCtr
  (repeat' split) <;> simp

@[simp] theorem cstReadSeq {m : Master} {recs : List CRec} {slots : List (Nat × Copy)} {newest bad q : Nat} :
    Dev.StateKept d (g.cstReadSeq m recs slots newest bad q) ↔ Dev.StateKept d g := by
  unfold Dev.cstReadSeq
  dsimp only
  (repeat' split) <;> simp +decide

@[simp] theorem cstReadLog {m : Master} {r q : Nat} : Dev.StateKept d (g.cstReadLog m r q) ↔ Dev.StateKept d g := by
  unfold Dev.cstReadLog
  simp

@[simp] theorem cstReadAlarm {m : Master} {q : Nat} : Dev.StateKept d (g.cstReadAlarm m q) ↔ Dev.StateKept d g := by
  unfold Dev.cstReadAlarm
  simp

@[simp] theorem cstServe {c : CstCmd} : Dev.StateKept d (g.cstServe c) ↔ Dev.StateKept d g := by
  unfold Dev.cstServe
  simp

@[simp] theorem logSlot {r typ : Nat} {data : Bytes} {rep : Nat} :
    Dev.StateKept d (g.logSlot r typ data rep).1 ↔ Dev.StateKept d g := by
  unfold Dev.logSlot
  simp

@[simp] theorem takeAlarmSlot {s : Nat × Nat × Bool} : Dev.StateKept d (g.takeAlarmSlot s) ↔ Dev.StateKept d g := by
  unfold Dev.takeAlarmSlot
  simp [↓update, ↓ite_iff]

@[simp] theorem startBurst {b : CstBurst} : Dev.StateKept d (g.startBurst b).1 ↔ Dev.StateKept d g := by
  unfold Dev.startBurst
  dsimp only
  (repeat' split) <;> simp +decide [↓update]

@[simp] theorem burstTorn {b : CstBurst} : Dev.StateKept d (g.burstTorn b) ↔ Dev.StateKept d g := by
  unfold Dev.burstTorn
  split <;> simp

@[simp] theorem setJob {j : Option CstJob} : Dev.StateKept d (g.setJob j) ↔ Dev.StateKept d g := by
  unfold Dev.setJob
  simp [↓update]

@[simp] theorem cstAsk : Dev.StateKept d g.cstAsk ↔ Dev.StateKept d g := by
  unfold Dev.cstAsk
  dsimp only
  (repeat' split) <;> simp

@[simp] theorem outcomeEvent {did : Nat} {jrnl : Word} :
    Dev.StateKept d (g.outcomeEvent did jrnl) ↔ Dev.StateKept d g := by
  unfold Dev.outcomeEvent
  simp

@[simp] theorem cstFinish {j : CstJob} : Dev.StateKept d (g.cstFinish j) ↔ Dev.StateKept d g := by
  unfold Dev.cstFinish
  dsimp only
  (repeat' split) <;> simp +decide

@[simp] theorem cstAck {c : CstCmd} : Dev.StateKept d (g.cstAck c) ↔ Dev.StateKept d g := by
  unfold Dev.cstAck
  simp +decide [↓update, ↓ite_iff]

@[simp] theorem cstStart {c : CstCmd} : Dev.StateKept d (g.cstStart c) ↔ Dev.StateKept d g := by
  unfold Dev.cstStart
  dsimp only
  (repeat' split) <;> simp +decide

@[simp] theorem cstAhead {j : CstJob} : Dev.StateKept d (g.cstAhead j) ↔ Dev.StateKept d g := by
  unfold Dev.cstAhead
  split <;> simp [↓update]

@[simp] theorem cstNext {n : Nat} : Dev.StateKept d (Dev.cstNext n g) ↔ Dev.StateKept d g := by
  induction n generalizing g with
  | zero => rfl
  | succ n ih =>
    unfold Dev.cstNext
    dsimp only
    (repeat' split) <;> simp [ih, ↓cstStart, ↓update]

@[simp] theorem cstGo : Dev.StateKept d g.cstGo ↔ Dev.StateKept d g := cstNext

@[simp] theorem cstBufClear : Dev.StateKept d g.cstBufClear ↔ Dev.StateKept d g := by
  unfold Dev.cstBufClear
  simp +decide [↓update]

@[simp] theorem cstQueue {c : CstCmd} : Dev.StateKept d (g.cstQueue c) ↔ Dev.StateKept d g := by
  unfold Dev.cstQueue
  dsimp only
  (repeat' split) <;> simp [↓update]

@[simp] theorem cstCmdWritten {m : Master} {acted : Nat} :
    Dev.StateKept d (g.cstCmdWritten m acted) ↔ Dev.StateKept d g := by
  unfold Dev.cstCmdWritten
  dsimp only
  (repeat' split) <;> simp +decide [↓cstGo, ↓cstQueue, ↓cstStart, ↓put, ↓update]

@[simp] theorem cstAlarm : Dev.StateKept d g.cstAlarm ↔ Dev.StateKept d g := by
  unfold Dev.cstAlarm
  (repeat' split) <;> simp [↓update]

/-! ### The contactless side (R325 to R354) -/

@[simp] theorem setHp {h : Hp} : Dev.StateKept d (g.setHp h) ↔ Dev.StateKept d g := by
  unfold Dev.setHp
  simp [↓update]

@[simp] theorem loadContactless : Dev.StateKept d g.loadContactless ↔ Dev.StateKept d g := by
  unfold Dev.loadContactless
  simp +decide [↓ite_iff]

@[simp] theorem setLayer {l : Nat} : Dev.StateKept d (g.setLayer l) ↔ Dev.StateKept d g := by
  unfold Dev.setLayer
  simp +decide

@[simp] theorem fwLost : Dev.StateKept d g.fwLost ↔ Dev.StateKept d g := by
  unfold Dev.fwLost
  simp +decide [↓ite_iff]

@[simp] theorem portRelease : Dev.StateKept d g.portRelease ↔ Dev.StateKept d g := by
  unfold Dev.portRelease
  simp

@[simp] theorem endSession : Dev.StateKept d g.endSession ↔ Dev.StateKept d g := by
  unfold Dev.endSession
  simp +decide

@[simp] theorem dropOut : Dev.StateKept d g.dropOut ↔ Dev.StateKept d g := by
  unfold Dev.dropOut
  simp

@[simp] theorem endProtocol {layer : Nat} : Dev.StateKept d (g.endProtocol layer) ↔ Dev.StateKept d g := by
  unfold Dev.endProtocol
  simp +decide [↓ite_iff]

@[simp] theorem doReload : Dev.StateKept d g.doReload ↔ Dev.StateKept d g := by
  unfold Dev.doReload
  simp

@[simp] theorem reloadWritten : Dev.StateKept d g.reloadWritten ↔ Dev.StateKept d g := by
  unfold Dev.reloadWritten
  simp [↓ite_iff]

@[simp] theorem send {kind : OutKind} {bytes : Bytes} {crc bump last : Bool} :
    Dev.StateKept d (g.send kind bytes crc bump last) ↔ Dev.StateKept d g := by
  unfold Dev.send
  simp

@[simp] theorem sendNext {bump : Bool} : Dev.StateKept d (g.sendNext bump) ↔ Dev.StateKept d g := by
  unfold Dev.sendNext
  simp

@[simp] theorem apduEnd : Dev.StateKept d g.apduEnd ↔ Dev.StateKept d g := by
  unfold Dev.apduEnd
  simp

@[simp] theorem answer {bytes : Bytes} {bump : Bool} : Dev.StateKept d (g.answer bytes bump) ↔ Dev.StateKept d g := by
  unfold Dev.answer
  simp [↓ite_iff]

@[simp] theorem respond {a : Apdu} {data : Bytes} {sw : Nat} :
    Dev.StateKept d (g.respond a data sw) ↔ Dev.StateKept d g := by
  unfold Dev.respond
  split <;> simp

@[simp] theorem status {a : Apdu} {sw : Nat} : Dev.StateKept d (g.status a sw) ↔ Dev.StateKept d g := by
  unfold Dev.status
  simp

@[simp] theorem fwEnd : Dev.StateKept d g.fwEnd ↔ Dev.StateKept d g := by
  unfold Dev.fwEnd
  simp +decide

@[simp] theorem fwBufMark {a : Nat} {poison : Bool} : Dev.StateKept d (g.fwBufMark a poison) ↔ Dev.StateKept d g := by
  unfold Dev.fwBufMark
  simp

@[simp] theorem fwRespWritten {acted : Nat} : Dev.StateKept d (g.fwRespWritten acted) ↔ Dev.StateKept d g := by
  unfold Dev.fwRespWritten
  split <;> simp +decide

/-! ### The lanes (R44 to R78) -/

@[simp] theorem cnt {l : Lane} {k : Fin 31} {n : Nat} : Dev.StateKept d (g.cnt l k n) ↔ Dev.StateKept d g := by
  unfold Dev.cnt
  simp

@[simp] theorem setLaneState {l : Lane} {st : Nat} : Dev.StateKept d (g.setLaneState l st) ↔ Dev.StateKept d g := by
  unfold Dev.setLaneState
  split <;> simp +decide

@[simp] theorem statsOf {i : Fin 1024} {f : Frame} {e : Ended} :
    Dev.StateKept d (g.statsOf i f e) ↔ Dev.StateKept d g := by
  unfold Dev.statsOf
  (repeat' split) <;> simp

@[simp] theorem guardOf {i : Fin 1024} {f : Frame} : Dev.StateKept d (g.guardOf i f) ↔ Dev.StateKept d g := by
  unfold Dev.guardOf
  (repeat' split) <;> simp +decide

@[simp] theorem commitFrame {f : Frame} {e : Ended} : Dev.StateKept d (g.commitFrame f e) ↔ Dev.StateKept d g := by
  unfold Dev.commitFrame
  split <;> simp

@[simp] theorem completeCopy {f : Frame} : Dev.StateKept d (g.completeCopy f) ↔ Dev.StateKept d g := by
  unfold Dev.completeCopy
  split <;> simp

@[simp] theorem finishFrame {l : Lane} {f : Frame} : Dev.StateKept d (g.finishFrame l f) ↔ Dev.StateKept d g := by
  unfold Dev.finishFrame
  split <;> simp [↓update]

@[simp] theorem discard {l : Lane} {f : Frame} {k : Fin 31} :
    Dev.StateKept d (g.discard l f k) ↔ Dev.StateKept d g := by
  unfold Dev.discard
  simp

@[simp] theorem linkLost {p : Port} : Dev.StateKept d (g.linkLost p) ↔ Dev.StateKept d g := by
  unfold Dev.linkLost
  (repeat' split) <;> simp

@[simp] theorem linkWritten {p : Port} {old acted : Nat} :
    Dev.StateKept d (g.linkWritten p old acted) ↔ Dev.StateKept d g := by
  unfold Dev.linkWritten
  simp

@[simp] theorem laneCfgWritten {l : Lane} : Dev.StateKept d (g.laneCfgWritten l) ↔ Dev.StateKept d g := by
  unfold Dev.laneCfgWritten
  simp [↓ite_iff]

@[simp] theorem cntCtl {l : Lane} {op : Nat} : Dev.StateKept d (g.cntCtl l op) ↔ Dev.StateKept d g := by
  unfold Dev.cntCtl
  have hsnap : F.SYS_STATE.addr < snapBase l := by cases l <;> decide
  have hwords (x : Dev) (k : Fin 31) (v w : Word) :
      Dev.StateKept x ((x.setReg (snapBase l + 8 * k.val) v).setReg (snapBase l + 8 * k.val + 4) w) :=
    (setReg (add_above _ (add_above _ hsnap))).mpr ((setReg (add_above _ hsnap)).mpr (refl x))
  split
  · split
    · exact setLane.trans (foldl fun x k => hwords x k _ _)
    · exact foldl fun x k => hwords x k _ _
  · rfl

/-! ### What an alarm stops, and the effects of register writes -/

@[simp] theorem ownersReset : Dev.StateKept d g.ownersReset ↔ Dev.StateKept d g := by
  unfold Dev.ownersReset
  simp

@[simp] theorem chansStop : Dev.StateKept d g.chansStop ↔ Dev.StateKept d g := by
  unfold Dev.chansStop
  simp [↓update]

@[simp] theorem flashStop : Dev.StateKept d g.flashStop ↔ Dev.StateKept d g := by
  unfold Dev.flashStop
  split <;> simp [↓update]

@[simp] theorem contactlessAlarm : Dev.StateKept d g.contactlessAlarm ↔ Dev.StateKept d g := by
  unfold Dev.contactlessAlarm
  simp [↓ite_iff]

@[simp] theorem coreFaultMasked {cause detail : Nat} :
    Dev.StateKept d (g.coreFaultMasked cause detail) ↔ Dev.StateKept d g := by
  unfold Dev.coreFaultMasked
  simp [↓update]

@[simp] theorem ownClaimWritten {m : Master} {acted : Nat} :
    Dev.StateKept d (g.ownClaimWritten m acted) ↔ Dev.StateKept d g := by
  unfold Dev.ownClaimWritten
  simp [↓update, ↓ite_iff]

@[simp] theorem gpioWritten {m : Master} {k old : Nat} :
    Dev.StateKept d (g.gpioWritten m k old) ↔ Dev.StateKept d g := by
  unfold Dev.gpioWritten
  simp +decide

@[simp] theorem flashDone {st : Nat} : Dev.StateKept d (g.flashDone st) ↔ Dev.StateKept d g := by
  unfold Dev.flashDone
  simp +decide

@[simp] theorem flashCmdWritten {acted : Nat} : Dev.StateKept d (g.flashCmdWritten acted) ↔ Dev.StateKept d g := by
  unfold Dev.flashCmdWritten
  simp +decide [↓update, ↓ite_iff, ↓put]

@[simp] theorem hostDbWritten {acted : Nat} : Dev.StateKept d (g.hostDbWritten acted) ↔ Dev.StateKept d g := by
  unfold Dev.hostDbWritten
  simp +decide

@[simp] theorem clampClear : Dev.StateKept d g.clampClear ↔ Dev.StateKept d g := by
  unfold Dev.clampClear
  simp +decide

@[simp] theorem dredgeWritten {acted : Nat} : Dev.StateKept d (g.dredgeWritten acted) ↔ Dev.StateKept d g := by
  unfold Dev.dredgeWritten
  simp +decide [↓update, ↓ite_iff, ↓put, ↓dropRegs]

@[simp] theorem chState {c : Fin 8} : Dev.StateKept d (g.chState c) ↔ Dev.StateKept d g := by
  unfold Dev.chState
  split <;> simp +decide

@[simp] theorem regCheck {e : BitVec 4} {m : Master} {a : Nat} {w : Word} {region : Nat} :
    Dev.StateKept d (g.regCheck e m a w region) ↔ Dev.StateKept d g := by
  unfold Dev.regCheck
  simp

@[simp] theorem regPoison {m : Master} {a : Nat} : Dev.StateKept d (g.regPoison m a) ↔ Dev.StateKept d g := by
  unfold Dev.regPoison
  simp +decide [↓update, ↓ite_iff]

/-! ### Windlass channels -/

@[simp] theorem setJobDma {c : Fin 8} {j : Option DescJob} :
    Dev.StateKept d (g.setJobDma c j) ↔ Dev.StateKept d g := by
  unfold Dev.setJobDma
  simp [↓update]

@[simp] theorem chanFree {c : Fin 8} : Dev.StateKept d (g.chanFree c) ↔ Dev.StateKept d g := by
  unfold Dev.chanFree
  simp

@[simp] theorem storeFailed {a : Nat} {r : Resp} : Dev.StateKept d (g.storeFailed a r) ↔ Dev.StateKept d g := by
  unfold Dev.storeFailed
  split <;> simp [↓update]

end Dev.StateKept

end Sys2Proof.Machine
end

section
/-! PROOFS. What the stores that wait do in ALARM (R194, R391, R393): with the device in that state, no store's effect,
a further alarm's included, changes the domains or the STATE register. -/
namespace Sys2Proof.Machine
open Sys2Proof.Claims

/-! ### What an alarm leaves of the registers -/

theorem alarmWord_state (w : Word) : alarmWord F.SYS_STATE.addr w = w := by
  have hkeep : ∀ f ∈ fieldsAt F.SYS_STATE.addr, f.alarm = .keep := by decide
  unfold alarmWord
  rw [List.foldl_ext _ (fun n _ => n) _ fun n f hf => by rw [hkeep f hf, ite_self], List.foldl_fixed,
    BitVec.ofNat_toNat, BitVec.setWidth_eq]

/-- Words replaced in the registers: one that is listed and stays reads as before. -/
theorem Sparse.get_filterMap_ne {l : List (Nat × Word)} {w : Word} {a : Nat} (f : Nat → Word → Word)
    (hget : Sparse.get regReset a l = w) (hne : w ≠ regReset a) (hkeep : f a w = w) :
    Sparse.get regReset a (l.filterMap fun e =>
      if f e.1 e.2 = regReset e.1 then none else some (e.1, f e.1 e.2)) = w := by
  induction l with
  | nil => exact absurd hget.symm hne
  | cons e t ih =>
    obtain ⟨b, v⟩ := e
    rw [Sparse.get] at hget
    by_cases hb : b = a
    · subst hb
      rw [if_pos rfl] at hget
      subst hget
      simp [hkeep, hne, Sparse.get]
    · rw [if_neg hb] at hget
      rw [List.filterMap_cons]
      split
      · exact ih hget
      · next heq =>
        split at heq
        · exact absurd heq (by simp)
        · obtain rfl := Option.some.inj heq
          rw [Sparse.get, if_neg hb]
          exact ih hget

theorem Dev.state_ne_reset {d : Dev} (h : d.opState = stAlarm) :
    d.reg F.SYS_STATE.addr ≠ regReset F.SYS_STATE.addr := by
  intro hreg
  have hreset : bitsOf (regReset F.SYS_STATE.addr).toNat F.SYS_STATE.hi F.SYS_STATE.lo ≠ stAlarm := by decide
  rw [Dev.opState, Dev.get, hreg] at h
  exact hreset h

namespace Dev.StateKept
variable {d g : Dev}

/-- The registers take the words that the alarm leaves. -/
theorem alarmWords (h : g.opState = stAlarm) :
    Dev.StateKept d { g with regs := g.regs.filterMap fun x =>
      if (alarmWord x.1 x.2 = regReset x.1) then none else some (x.1, alarmWord x.1 x.2) } ↔ Dev.StateKept d g :=
  after ⟨rfl, Sparse.get_filterMap_ne alarmWord rfl (Dev.state_ne_reset h) (alarmWord_state _)⟩

theorem alarmColumn (hd : d.opState = stAlarm) (h : Dev.StateKept d g) : Dev.StateKept d g.alarmColumn := by
  have hpages : Dev.StateKept d
      ((List.finRange 16).foldl (fun (x : Dev) r => x.put (pageField r F.CE_CFG_TAGLEN) 0) g) :=
    (foldl fun x r => (put (pageField_above r (by decide))).mpr (refl x)).mpr h
  unfold Dev.alarmColumn
  exact (alarmWords (hpages.opState.trans hd)).mpr hpages

theorem alarmBlocks (hd : d.opState = stAlarm) (h : Dev.StateKept d g) : Dev.StateKept d g.alarmBlocks := by
  unfold Dev.alarmBlocks
  simpa [↓update] using alarmColumn hd (by simpa using h)

theorem alarmEdge {cause detail : Nat} (hd : d.opState = stAlarm) (h : Dev.StateKept d g) :
    Dev.StateKept d (g.alarmEdge cause detail) := by
  unfold Dev.alarmEdge
  dsimp only
  split
  · split <;> simpa using h
  · refine alarmBlocks hd ?_
    simpa +decide [↓update] using h

/-- A fold whose steps depend on what is kept. -/
theorem foldl_steps {α : Type} {f : Dev → α → Dev} {l : List α}
    (hf : ∀ x a, Dev.StateKept d x → Dev.StateKept d (f x a)) (h : Dev.StateKept d g) :
    Dev.StateKept d (l.foldl f g) := by
  induction l generalizing g with
  | nil => exact h
  | cons a l ih => exact ih (hf g a h)

theorem alarmPersisting (hd : d.opState = stAlarm) (h : Dev.StateKept d g) : Dev.StateKept d g.alarmPersisting := by
  refine foldl_steps (fun x c hx => ?_) h
  split
  · exact hx.alarmEdge hd
  · exact hx

/-- A write of PWR_REQ powers a link in HOST only (R17). -/
theorem pwrReqWritten (hd : d.opState ≠ stHost) (h : Dev.StateKept d g) : Dev.StateKept d g.pwrReqWritten := by
  have hone (x : Dev) (p : Port) (want : Bool) (hx : Dev.StateKept d x) : Dev.StateKept d
      (if want then
        if x.on p.dom then x.setLink p { x.link p with offPending := false }
        else if x.opState = stHost then x.linkPowerOn p else x
      else if x.on p.dom then x.setLink p { x.link p with offPending := true }
      else x) := by
    have hx' : x.opState ≠ stHost := fun hs => hd (hx.opState.symm.trans hs)
    simp [hx', hx]
  exact hone _ .b _ (hone g .a _ h)

theorem writeGate {e : Dev} {m : Master} {a : Nat} (h : g.writeGate m a = some e) : Dev.StateKept g e := by
  unfold Dev.writeGate at h
  dsimp only at h
  (repeat' split at h) <;> simp only [Option.some.injEq, reduceCtorEq] at h <;> subst h
  · simp +decide
  · simp +decide
  · simp
  · simp
  · rename_i hallowed
    obtain rfl := congrArg Prod.fst hallowed
    simp
  · simp +decide

theorem regWritten {m : Master} {a old acted : Nat} (hd : d.opState = stAlarm) (h : Dev.StateKept d g) :
    Dev.StateKept d (g.regWritten m a old acted) := by
  have hhost : d.opState ≠ stHost := by rw [hd]; decide
  have hpwr := h.pwrReqWritten hhost
  have hpersist := h.alarmPersisting hd
  unfold Dev.regWritten
  dsimp only
  simp [h, hpwr, hpersist, ↓update]

theorem state_fields_ro : ∀ f ∈ fieldsAt F.SYS_STATE.addr, f.acc = .ro := by decide

/-- A field's write: STATE itself is read-only (R21). -/
theorem writeField {e : Dev} {m : Master} {a w : Nat} {x : Dev × Nat} {f : Fld} (hf : f ∈ fieldsAt a)
    (h : Dev.StateKept d x.1) : Dev.StateKept d (e.writeField m a w x f).1 := by
  have hput (v : Nat) (hacc : f.acc ≠ .ro) : Dev.StateKept d (x.1.put (f.at a) v) := by
    have ha : (f.at a).addr ≠ F.SYS_STATE.addr := by
      rintro rfl
      exact hacc (state_fields_ro f hf)
    exact h.trans ⟨rfl, Dev.reg_put_ne _ _ _ ha.symm⟩
  have hring : Dev.StateKept d (x.1.put (ringField (ringOf a) F.RING_STAT_CFG_LOCKED) 1) :=
    (put (ringField_above _ (by decide))).mpr h
  unfold Dev.writeField
  dsimp only
  cases hacc : f.acc <;> (repeat' split) <;> simp_all

theorem regEffect {m : Master} {a : Nat} {w : Word} (hd : d.opState = stAlarm) (h : Dev.StateKept d g) :
    Dev.StateKept d (g.regEffect m a w) := by
  unfold Dev.regEffect
  split
  · next hgate => exact h.trans (writeGate hgate)
  · refine regWritten hd ?_
    have hfold (l : List Fld) (x : Dev × Nat) (hl : ∀ f ∈ l, f ∈ fieldsAt a) (hx : Dev.StateKept d x.1) :
        Dev.StateKept d (l.foldl (g.writeField m a w.toNat) x).1 := by
      induction l generalizing x with
      | nil => exact hx
      | cons f l ih =>
        exact ih _ (fun y hy => hl y (List.mem_cons_of_mem f hy)) (writeField (hl f List.mem_cons_self) hx)
    exact hfold _ _ (fun f hf => List.mem_reverse.mp hf) h

theorem aonComplete {a : Nat} (hd : d.opState = stAlarm) (h : Dev.StateKept d g) :
    Dev.StateKept d (g.aonComplete a) := by
  unfold Dev.aonComplete
  split
  · exact regEffect hd (by simpa [↓update] using h)
  · exact h

theorem regStore {p : BitVec 4} {m : Master} {a : Nat} {bs : List MByte} (hd : d.opState = stAlarm)
    (h : Dev.StateKept d g) : Dev.StateKept d (g.regStore p m a bs) := by
  have hcheck (w : Word) (n : Nat) : Dev.StateKept d (g.regCheck p m a w n) := by simpa using h
  unfold Dev.regStore
  dsimp only
  split
  · simpa using h
  · split
    · simpa [↓update] using (hcheck _ _).aonComplete hd
    · exact (hcheck _ _).regEffect hd

theorem storePart {p : BitVec 4} {m : Master} {a : Nat} {bs : List MByte} (hd : d.opState = stAlarm)
    (h : Dev.StateKept d g) : Dev.StateKept d (g.storePart p m a bs).1 := by
  have hcheck : Dev.StateKept d (g.slaveCheck p m false .write a).1 := by simpa using h
  unfold Dev.storePart
  split
  · exact h
  · split <;> rename_i heq <;> rw [heq] at hcheck
    · split
      · split
        · exact hcheck.regStore hd
        · exact hcheck
      · split
        · simpa using hcheck
        · exact hcheck
    · exact hcheck

theorem storeParts {p : BitVec 4} {m : Master} {n a : Nat} {bs : List MByte} (hd : d.opState = stAlarm)
    (h : Dev.StateKept d g) : Dev.StateKept d (Dev.storeParts p m n g a bs).1 := by
  induction n generalizing g a bs with
  | zero => exact h
  | succ n ih =>
    have hpart := h.storePart hd (p := p) (m := m) (a := a) (bs := bs.take (partLen a bs.length))
    unfold Dev.storeParts
    dsimp only
    split
    · exact h
    · split <;> rename_i heq <;> rw [heq] at hpart
      · exact ih hpart
      · exact hpart

theorem rawStore {p : BitVec 4} {m : Master} {a : Nat} {bs : List MByte} (hd : d.opState = stAlarm)
    (h : Dev.StateKept d g) : Dev.StateKept d (g.rawStore p m a bs).1 := by
  have hreach : Dev.StateKept d (g.reachCheck m .write a).1 := by simpa using h
  unfold Dev.rawStore Dev.burstStore
  split <;> rename_i heq <;> rw [heq] at hreach
  · exact hreach
  · exact hreach.storeParts hd

theorem descWrite {m : Master} {a : Nat} {l : List (Nat × Word)} (hd : d.opState = stAlarm)
    (h : Dev.StateKept d g) : Dev.StateKept d (Dev.descWrite m a g l).1 := by
  induction l generalizing g with
  | nil => exact h
  | cons x t ih =>
    obtain ⟨i, w⟩ := x
    have hstore := h.rawStore hd (p := g.epoch) (m := m) (a := a + 4 * i) (bs := marked (leBytes 4 w.toNat) false)
    unfold Dev.descWrite
    split <;> rename_i heq <;> rw [heq] at hstore
    · exact ih hstore
    · exact hstore

theorem descDone {m : Master} {n j : Nat} {ws : List Word} {k : Completion} (hd : d.opState = stAlarm)
    (h : Dev.StateKept d g) : Dev.StateKept d (g.descDone m n j ws k) := by
  have hesn : Dev.StateKept d g.takeEsn.1 := by simpa using h
  unfold Dev.descDone
  dsimp only
  have hwrite := hesn.descWrite hd (m := m) (a := g.takeEsn.1.descAddr n j) (l := k.words ws g.takeEsn.2)
  split <;> rename_i heq <;> rw [heq] at hwrite
  · simpa using hwrite
  · simpa +decide using hwrite

theorem chanAbort {c : Fin 8} (hd : d.opState = stAlarm) (h : Dev.StateKept d g) : Dev.StateKept d (g.chanAbort c) := by
  unfold Dev.chanAbort
  split
  · split
    · exact h
    · exact descDone hd (by simpa using h)
  · exact h

theorem chansAbort (hd : d.opState = stAlarm) (h : Dev.StateKept d g) : Dev.StateKept d g.chansAbort := by
  unfold Dev.chansAbort
  exact foldl_steps (fun _ _ hx => hx.chanAbort hd) h

theorem busStore {p : BitVec 4} {m : Master} {a : Nat} {bs : List MByte} (hd : d.opState = stAlarm)
    (h : Dev.StateKept d g) : Dev.StateKept d (g.busStore p m a bs).1 := by
  unfold Dev.busStore
  dsimp only
  exact chansAbort hd (rawStore hd h)

theorem drainOne (hd : d.opState = stAlarm) (h : Dev.StateKept d g) : Dev.StateKept d g.drainOne := by
  unfold Dev.drainOne
  split
  · exact h
  · next x t _ =>
    have hstore := busStore hd (g := { g with sbuf := t }) (p := x.epoch) (m := x.master) (a := x.addr) (bs := x.bytes)
      (by simpa [↓update] using h)
    dsimp only
    split
    · exact hstore
    · simpa using hstore

theorem drainAll (hd : d.opState = stAlarm) (h : Dev.StateKept d g) : Dev.StateKept d g.drainAll := by
  have hdrain (n : Nat) (x : Dev) (hx : Dev.StateKept d x) : Dev.StateKept d (Dev.drainN n x) := by
    induction n generalizing x with
    | zero => exact hx
    | succ n ih => exact ih _ (hx.drainOne hd)
  exact hdrain _ g h

end Dev.StateKept

end Sys2Proof.Machine
end

section
/-! PROOFS. ALARM and its end (R22, R393, R397). -/
namespace Sys2Proof.Machine
open Sys2Proof.Claims

/-! ### The core follows in ALARM -/

theorem Dev.Steady.stateKept {L : List Nat} {d e : Dev} (h : Dev.Steady L d e) (hL : F.SYS_STATE.addr ∈ L) :
    Dev.StateKept d e :=
  ⟨h.dom, h.reg _ hL⟩

theorem State.settle_stateKept {s : State} (h : s.dev.opState = stAlarm) :
    Dev.StateKept s.dev s.settle.dev ∧ s.settle.pending = s.pending := by
  have hreset : Dev.StateKept s.dev s.resetIfAsked.dev ∧ s.resetIfAsked.pending = s.pending := by
    unfold State.resetIfAsked
    split
    · have hdrain : Dev.StateKept s.dev s.dev.drainAll := (Dev.StateKept.refl s.dev).drainAll h
      have hcore := s.dev.drainAll.steady_coreResetDev.stateKept (by decide)
      exact ⟨hdrain.trans ⟨hcore.dom, hcore.state⟩, rfl⟩
    · exact ⟨.refl _, rfl⟩
  have hstop (t : State) : Dev.StateKept t.dev t.stopIfAsked.dev ∧ t.stopIfAsked.pending = t.pending := by
    unfold State.stopIfAsked
    split <;> exact ⟨⟨rfl, rfl⟩, rfl⟩
  exact ⟨hreset.1.trans (hstop _).1, (hstop _).2.trans hreset.2⟩

theorem Dev.StateKept.issueAll {d g : Dev} {src n : Nat} (h : Dev.StateKept d g) :
    Dev.StateKept d (Dev.issueAll src n g) := by
  induction n generalizing g with
  | zero => exact h
  | succ n ih => exact ih (Dev.StateKept.eventIssueOp.mpr h)

/-! ### The alarm -/

/-- What the alarm issues before ISLE is powered: its transition and the events of source 2 that wait. -/
def Dev.alarmIssued (d : Dev) : Dev := Dev.issueAll 2 (d.setState stAlarm 7).evt.queue.length (d.setState stAlarm 7)

theorem Dev.alarmOp_eq {d : Dev} (hrecs : d.wellcap.recs ≠ []) (hst : d.opState ≠ stAlarm) : d.alarmOp =
    { d.alarmIssued.powerIsle with wellcap := { d.alarmIssued.powerIsle.wellcap with
        charging := decide (d.alarmIssued.powerIsle.mark < 3), short := false } } := by
  rw [Dev.alarmOp, if_neg (by simp [hrecs, hst])]
  rfl

/-- The alarm's transition (R22): STATE as `setState` leaves it, and ISLE on. -/
theorem Dev.stateKept_alarmOp {d : Dev} (hrecs : d.wellcap.recs ≠ []) (hst : d.opState ≠ stAlarm) :
    Dev.StateKept ((d.setState stAlarm 7).withDom (d.dom ||| 0x04)) d.alarmOp := by
  have hissued : Dev.StateKept (d.setState stAlarm 7) d.alarmIssued := (Dev.StateKept.refl _).issueAll
  have hisle := d.alarmIssued.steady_powerIsle.stateKept (by decide)
  have hdom : d.alarmIssued.dom = d.dom := hissued.dom.trans (d.setState_kept stAlarm 7).1
  rw [Dev.alarmOp_eq hrecs hst, Dev.StateKept.update]
  exact ⟨hisle.dom.trans (congrArg (· ||| 0x04) hdom), hisle.state.trans hissued.state⟩

theorem exec_alarm (s : State) : exec .alarm s = s.onDev fun d => d.alarmOp := rfl
theorem exec_alarmDone (s : State) : exec .alarmDone s = s.onDev fun d => d.alarmDoneOp := rfl

theorem row_alarm {s : State} (hrecs : s.dev.wellcap.recs ≠ []) (hst : s.dev.opState ≠ stAlarm) :
    ∃ t, exec .alarm s = .next t ∧ t.dev.opState = stAlarm ∧ t.dev.get F.SYS_PREV = s.dev.opState ∧
      t.dev.get F.SYS_CAUSE = 7 ∧ t.dev.dom = s.dev.dom ||| 0x04 ∧ t.pending = s.pending := by
  obtain ⟨hstate, hprev, hcause, -⟩ := s.dev.stateRecord_fields (st := stAlarm) (cause := 7) (by decide) (by decide)
  have hop := Dev.stateKept_alarmOp hrecs hst
  have hreg : s.dev.alarmOp.reg F.SYS_STATE.addr = (s.dev.stateRecord stAlarm 7).reg F.SYS_STATE.addr :=
    hop.state.trans (s.dev.reg_setState stAlarm 7 _)
  have halarm : s.dev.alarmOp.opState = stAlarm := (Dev.get_congr hreg).trans hstate
  obtain ⟨hkept, hpend⟩ := State.settle_stateKept (s := { s with dev := s.dev.alarmOp }) halarm
  have hget {f : Fl} (hf : f.addr = F.SYS_STATE.addr) :
      (State.settle { s with dev := s.dev.alarmOp }).dev.get f = (s.dev.stateRecord stAlarm 7).get f :=
    Dev.get_congr (hf ▸ hkept.state.trans hreg)
  refine ⟨_, exec_alarm s, ?_, ?_, ?_, hkept.dom.trans hop.dom, hpend⟩
  · exact (hget (f := F.SYS_STATE) rfl).trans hstate
  · exact (hget (f := F.SYS_PREV) rfl).trans hprev
  · exact (hget (f := F.SYS_CAUSE) rfl).trans hcause

/-! ### The end of the response -/

/-- The device reset of ALARM_DONE: what Handpump keeps goes too (R393). -/
def Dev.alarmReset (d : Dev) : Dev :=
  let d1 := (d.deviceReset 2).dropRegs fun a => a / 0x10000 == 0x400B
  { d1 with hp := Hp.reset, wellcap := { d1.wellcap with charging := false, short := false } }

theorem Dev.alarmDoneOp_eq {d : Dev} (hst : d.opState = stAlarm) (hrecs : d.wellcap.recs = []) : d.alarmDoneOp =
    if d.alarmReset.hostSeen then d.alarmReset.hostOn.setState stHost 8
    else if d.alarmReset.env.carrier ∧ 1 ≤ d.alarmReset.mark then
      d.alarmReset.coreDown.powerIsle.setState stPassiveRead 8
    else d.alarmReset.coreDown.isleDown.setState stDormant 8 := by
  rw [Dev.alarmDoneOp, if_pos ⟨hst, by rw [hrecs]; rfl⟩]
  rfl

/-- Past the drop of Handpump's registers, the reset's power registers are those of the device reset. -/
theorem Dev.steady_alarmReset_deviceReset (d : Dev) : Dev.Steady powerRegs (d.deviceReset 2) d.alarmReset := by
  unfold Dev.alarmReset
  generalize d.deviceReset 2 = e
  have hregs : Dev.Steady powerRegs e (e.dropRegs fun a => a / 0x10000 == 0x400B) :=
    .dropRegs _ fun a ha => (powerRegs_kept a ha).2.2.2.1
  exact { hregs with }

theorem Dev.steady_alarmReset (d : Dev) : Dev.Steady [F.SYS_STATE.addr] d.coreLost d.alarmReset :=
  (d.steady_deviceReset 2).trans (d.steady_alarmReset_deviceReset.mono (by decide))

theorem Dev.wellReset_get (d : Dev) (f : Fl) : d.wellReset.get f = d.wellSampled.get f := by
  rw [Dev.wellReset_eq]
  generalize d.wellSampled = e
  rfl

/-- The supplies' comparators stay through the reset of WELL (R356). -/
theorem Dev.wellSampled_live (d : Dev) : d.wellSampled.get F.WH_STAT_MARK = d.get F.WH_STAT_MARK ∧
    d.wellSampled.get F.WH_STAT_HOST_GOOD = d.get F.WH_STAT_HOST_GOOD := by
  unfold Dev.wellSampled Dev.updateSource
  constructor
  · refine (Dev.get_put_apart _ F.WH_STAT_AON_SRC F.WH_STAT_MARK _ (by decide) (by decide)).trans ?_
    refine (Dev.get_put_apart _ F.WH_STAT_HOST_GOOD F.WH_STAT_MARK _ (by decide) (by decide)).trans ?_
    exact (Dev.get_put_same _ F.WH_STAT_MARK _ (by decide)).trans (Nat.mod_eq_of_lt (bitsOf_lt _ _ _))
  · refine (Dev.get_put_apart _ F.WH_STAT_AON_SRC F.WH_STAT_HOST_GOOD _ (by decide) (by decide)).trans ?_
    exact (Dev.get_put_same _ F.WH_STAT_HOST_GOOD _ (by decide)).trans (Nat.mod_eq_of_lt (bitsOf_lt _ _ _))

theorem Dev.deviceReset_live (d : Dev) (cause : Nat) {f : Fl} (hf : f = F.WH_STAT_MARK ∨ f = F.WH_STAT_HOST_GOOD) :
    (d.deviceReset cause).get f = d.get f := by
  have haddr : f.addr ∈ [F.WH_STAT_MARK.addr] := by obtain rfl | rfl := hf <;> decide
  have hlose : d.coreLose.get f = d.get f :=
    d.steady_coreLose.get (by obtain rfl | rfl := hf <;> decide)
  have hwell : d.coreLose.wellReset.get f = d.coreLose.get f := by
    obtain rfl | rfl := hf
    · exact (d.coreLose.wellReset_get _).trans d.coreLose.wellSampled_live.1
    · exact (d.coreLose.wellReset_get _).trans d.coreLose.wellSampled_live.2
  have hdrop : Dev.Steady [F.WH_STAT_MARK.addr] d.coreLose.wellReset (d.coreLose.wellReset.dropRegs resetDrops) :=
    .dropRegs _ (by decide)
  have hnamed := hdrop.trans (Dev.steady_resetNamed _ cause (by decide) (by decide))
  rw [Dev.deviceReset_eq]
  exact ((hnamed.get haddr).trans hwell).trans hlose

theorem Dev.alarmReset_live (d : Dev) : d.alarmReset.mark = d.mark ∧ d.alarmReset.hostSeen = d.hostSeen ∧
    d.alarmReset.env = d.env := by
  have hsteady := d.steady_alarmReset_deviceReset
  have hmark : d.alarmReset.mark = d.mark :=
    (hsteady.get (f := F.WH_STAT_MARK) (by decide)).trans (d.deviceReset_live 2 (Or.inl rfl))
  have hgood : d.alarmReset.get F.WH_STAT_HOST_GOOD = d.get F.WH_STAT_HOST_GOOD :=
    (hsteady.get (by decide)).trans (d.deviceReset_live 2 (Or.inr rfl))
  have henv : d.alarmReset.env = d.env := d.steady_alarmReset.env
  exact ⟨hmark, by rw [Dev.hostSeen, Dev.flag, hgood, henv]; rfl, henv⟩

theorem Dev.resetNamed_trbl (d : Dev) {cause : Nat} (h : 2 ≤ cause) :
    bitAt ((d.resetNamed cause).get F.EVT_TRBL_TRBL) tRESET = true := by
  unfold Dev.resetNamed
  dsimp only
  rw [if_pos h]
  exact Dev.trbl_trouble _ (by decide)

theorem Dev.deviceReset_trbl (d : Dev) {cause : Nat} (h : 2 ≤ cause) :
    bitAt ((d.deviceReset cause).get F.EVT_TRBL_TRBL) tRESET = true :=
  Dev.resetNamed_trbl _ h

theorem Dev.alarmReset_named (d : Dev) :
    d.alarmReset.get F.EVT_RESET_CAUSE = 2 ∧ bitAt (d.alarmReset.get F.EVT_TRBL_TRBL) tRESET = true := by
  have hsteady := d.steady_alarmReset_deviceReset
  refine ⟨(hsteady.get (by decide)).trans (d.deviceReset_cause (by decide)), ?_⟩
  rw [hsteady.get (f := F.EVT_TRBL_TRBL) (by decide)]
  exact d.deviceReset_trbl (by decide)

/-- Handpump's, WELL's and the event block's registers gone, the domains go on from those of before. -/
theorem Dev.steady_alarmReset_lost {d e : Dev} {f : BitVec 8 → BitVec 8}
    (h : Dev.Steady powerRegs (d.alarmReset.coreLost.withDom (f d.alarmReset.dom)) e) :
    Dev.Steady [F.SYS_STATE.addr] (d.coreLost.withDom (f d.dom)) e := by
  have hreset := d.steady_alarmReset
  have hlost : Dev.Steady [F.SYS_STATE.addr] (d.coreLost.withDom (f d.dom))
      (d.alarmReset.coreLost.withDom (f d.alarmReset.dom)) :=
    { hreset with dom := congrArg f hreset.dom, resetReq := rfl, stopReq := rfl, sbuf := rfl }
  exact hlost.trans (h.mono (by decide))

/-- Where the core has been asked to reset already, losing CORE asks nothing more of it. -/
theorem Dev.Steady.asked {L : List Nat} {d e : Dev} (h : Dev.Steady L d.coreLost e) :
    Dev.Steady powerRegs e.coreLost e :=
  { Dev.Steady.refl powerRegs e with resetReq := h.resetReq, stopReq := h.stopReq, sbuf := h.sbuf }

theorem Dev.Steady.hostOn {L : List Nat} {d e : Dev} (h : Dev.Steady L d.coreLost e) :
    Dev.Steady powerRegs (e.coreLost.withDom (e.dom ||| 0xFC)) e.hostOn :=
  (h.asked.joinDom 0xFC).trans e.steady_hostOn

/-- CORE's side goes off, and ISLE is on. -/
theorem Dev.steady_coreDown_powerIsle (e : Dev) :
    Dev.Steady powerRegs (e.coreLost.withDom (e.dom &&& 0x07 ||| 0x04)) e.coreDown.powerIsle :=
  (e.steady_coreDown.joinDom 0x04).trans e.coreDown.steady_powerIsle

/-- What the state controller does after the reset keeps what the reset says of itself. -/
theorem row_alarmDone {s : State} {e : Dev} {st : Nat} {f : BitVec 8 → BitVec 8} (hst : s.dev.opState = stAlarm)
    (hop : s.dev.alarmDoneOp = e.setState st 8) (hlt : st < 8)
    (h : Dev.Steady powerRegs (s.dev.alarmReset.coreLost.withDom (f s.dev.alarmReset.dom)) e) :
    ∃ t, exec .alarmDone s = .next t ∧ t.dev.opState = st ∧ t.dev.get F.SYS_PREV = stAlarm ∧
      t.dev.get F.SYS_CAUSE = 8 ∧ t.dev.get F.EVT_RESET_CAUSE = 2 ∧
      bitAt (t.dev.get F.EVT_TRBL_TRBL) tRESET = true ∧ t.dev.dom = f s.dev.dom ∧ t.pending = s.pending := by
  have hlost := Dev.steady_alarmReset_lost h
  obtain ⟨hkept, hquiet⟩ := hlost.ready_lost (by decide)
  obtain ⟨t, ht, ⟨hstate, hprev, hcause, -, hpend, -⟩, hdom, hregs⟩ :=
    moves (s := s) (f := fun d => d.alarmDoneOp) hop hlt (by decide) hkept hquiet
  obtain ⟨hreset, htrbl⟩ := s.dev.alarmReset_named
  have hget {g : Fl} (hg : g.addr ∈ powerRegs) (hne : g.addr ≠ F.SYS_STATE.addr) :
      t.dev.get g = s.dev.alarmReset.get g :=
    (Dev.get_congr (hregs _ hg hne)).trans (h.get hg)
  refine ⟨t, ht, hstate, hprev.trans hst, hcause, ?_, ?_, hdom.trans hlost.dom, hpend⟩
  · exact (hget (g := F.EVT_RESET_CAUSE) (by decide) (by decide)).trans hreset
  · rw [hget (g := F.EVT_TRBL_TRBL) (by decide) (by decide)]
    exact htrbl

/-- Switching ISLE on is nothing new where it is on. -/
theorem and_or_isle {d : Dev} (h : d.on .isle = true) : d.dom &&& 0x07 ||| 0x04 = d.dom &&& 0x07 := by
  have hb (b : BitVec 8) : b.getLsbD 2 = true → b &&& 0x07 ||| 0x04 = b &&& 0x07 := by
    revert b
    decide
  exact hb d.dom h

/-- Settles O21: `setState` writes ALARM's record, which no store that the core still makes can change; its end is a
device reset and one of the rows' changes of domains. -/
theorem alarmTransitions : Obligations.AlarmTransitions := by
  unfold Obligations.AlarmTransitions
  intro s
  refine ⟨row_alarm, fun hst hrecs hjob hisle => ?_⟩
  obtain ⟨hmark, hseen, henv⟩ := s.dev.alarmReset_live
  have hop := Dev.alarmDoneOp_eq hst hrecs
  rw [hseen, henv, hmark] at hop
  by_cases hhost : s.dev.hostSeen = true
  · rw [if_pos hhost] at hop ⊢
    rw [if_pos hhost]
    exact row_alarmDone (f := (· ||| 0xFC)) hst hop (by decide) s.dev.steady_alarmReset.hostOn
  · rw [if_neg hhost] at hop ⊢
    rw [if_neg hhost]
    by_cases hfield : s.dev.env.carrier = true ∧ 1 ≤ s.dev.mark
    · rw [if_pos hfield] at hop ⊢
      rw [if_pos hfield]
      rw [← and_or_isle hisle]
      exact row_alarmDone (f := fun b => b &&& 0x07 ||| 0x04) hst hop (by decide)
        s.dev.alarmReset.steady_coreDown_powerIsle
    · rw [if_neg hfield] at hop ⊢
      rw [if_neg hfield]
      exact row_alarmDone (f := (· &&& 0x03)) hst hop (by decide)
        (Dev.steady_bothDown (s.dev.steady_alarmReset.job hjob))

end Sys2Proof.Machine
end

section
/-! PROOFS. The verdict (R57, R95, R104, R105, R106): the order in which its checks decide. -/
namespace Sys2Proof.Machine
open Sys2Proof.Claims

theorem exec_verdict (s : State) (l : Lane) (n : Nat) : exec (.verdict l n) s = s.onDev fun d => d.verdictOp l n := rfl
theorem exec_replayEarly (s : State) (l : Lane) (n : Nat) :
    exec (.replayEarly l n) s = s.onDev fun d => d.replayEarlyOp l n := rfl

theorem Dev.calm_putFrame {d : Dev} (l : Lane) (f : Frame) (h : d.calm) : (d.putFrame l f).calm := by
  cases l <;> exact h

/-! ### The stages of the verdict, in their order (R57) -/

/-- The usable epochs whose algorithm and value length are those that the extension names (R95). -/
def Dev.matching (d : Dev) (f : Frame) (i : Fin 1024) (x : Ext) : List Bool :=
  (d.usable f i).filter fun e => x.alg.any fun a => a.val == d.ep i e F.CTX_EP_ALG && x.valLen == valueLen a.val

theorem Dev.judge_formatEarly {d : Dev} {l : Lane} {f : Frame} {i : Fin 1024}
    (h : f.rx.deep.ext = none ∨ formatEarly f.rx = true) : d.judge l f i = (some .format, none) := by
  unfold Dev.judge
  split
  · rfl
  · next x hx =>
    rw [hx] at h
    exact if_pos (h.resolve_left nofun)

section
variable {d : Dev} {l : Lane} {f : Frame} {i : Fin 1024} {x : Ext} (hx : f.rx.deep.ext = some x)
  (hearly : formatEarly f.rx = false)
include hx hearly

theorem Dev.judge_key (h : d.usable f i = []) : d.judge l f i = (some .key, none) := by
  simp [Dev.judge, hx, hearly, h]

theorem Dev.judge_algorithm (hu : d.usable f i ≠ []) (h : d.matching f i x = []) :
    d.judge l f i = (some .algorithm, none) := by
  obtain ⟨e, es, hes⟩ := List.exists_cons_of_ne_nil hu
  unfold Dev.matching at h
  simp only [Dev.judge, hx, hearly, hes] at h ⊢
  simp [h]

/-- Past the algorithm: the value's judgement, or FORMAT where what is wrong behind the value is known first. -/
theorem Dev.judge_value (h : d.matching f i x ≠ []) : d.judge l f i =
    if formatLate f.rx then
      if d.verdictFirst l f x then
        ((d.judgeValue l f i x (d.matching f i x)).1.or (some .format), (d.judgeValue l f i x (d.matching f i x)).2)
      else (some .format, none)
    else d.judgeValue l f i x (d.matching f i x) := by
  have hu : d.usable f i ≠ [] := fun hnil => h (by rw [Dev.matching, hnil]; rfl)
  obtain ⟨e, es, hes⟩ := List.exists_cons_of_ne_nil hu
  obtain ⟨c, cs, hcs⟩ := List.exists_cons_of_ne_nil h
  rw [hcs]
  unfold Dev.matching at hcs
  simp only [Dev.judge, hx, hearly, hes] at hcs ⊢
  simp [hcs]

end

/-- The sequence judgement of a frame that is placed (R104, R106). -/
theorem Dev.judgeSequence_placed {d : Dev} {l : Lane} {f : Frame} {i : Fin 1024} {e : Bool} {q : Nat × Nat}
    (hq : seqOf f.rx = some q) (hshape : f.shape = 0) : d.judgeSequence l f i e =
      match d.judgeFrame l i f q with
      | .replay => (some .replay, none)
      | .fresh _ c lost =>
        (if (c + d.timeClass f) &&& bitsOf f.guard.toNat 31 24 ≠ 0 then some .continuity else none,
          some ⟨some e, if c &&& cALIGN = 0 then some q else none, c + d.timeClass f, lost⟩) := by
  simp only [Dev.judgeSequence, hq, hshape]
  rfl

/-! ### The commands -/

/-- Settles O34: `judge` takes the checks in the order of the statement's clauses. -/
theorem verdictsForm : Obligations.VerdictsForm := by
  unfold Obligations.VerdictsForm
  intro s l n f i hcalm hpump hf hlooked hmgmt hverdict hfailed hverify hstream
  dsimp only
  refine ⟨?_, Dev.judge_formatEarly, fun x hearly hx => ?_, fun q hq hshape => ?_⟩
  · rw [exec_verdict]
    refine State.onDev_eq ?_ (by split <;> [exact Dev.calm_putFrame l _ hcalm; exact hcalm])
    simp [Dev.verdictOp, hf, hlooked, hmgmt, hverdict, hfailed, hpump, hverify, hstream]
  · refine ⟨Dev.judge_key hx hearly, Dev.judge_algorithm hx hearly, fun hcs htime => ?_, fun hcs htime hno => ?_,
      fun e q htime he hq hshape => ?_⟩
    · obtain ⟨hlate, hfirst⟩ := not_or.mp htime
      rw [Dev.judge_value hx hearly hcs, if_pos (by simpa using hlate), if_neg hfirst]
    · have hvalue : s.dev.judgeValue l f i x (s.dev.matching f i x) = (some .value, none) := by
        have hnone : (s.dev.matching f i x).find? (fun e => s.dev.valueMatches l f i x e) = none :=
          List.find?_eq_none.mpr fun e he => by simp [hno e he]
        rw [Dev.judgeValue, hnone]
      rw [Dev.judge_value hx hearly hcs, hvalue]
      obtain hlate | hfirst := htime
      · rw [if_neg (by simp [hlate])]
      · rw [if_pos hfirst]
        split <;> rfl
    · have hcs : s.dev.matching f i x ≠ [] := List.ne_nil_of_mem (List.mem_of_find?_eq_some he)
      have hvalue : s.dev.judgeValue l f i x (s.dev.matching f i x) = s.dev.judgeSequence l f i e := by
        rw [Dev.judgeValue, Dev.matching, he]
      rw [Dev.judge_value hx hearly hcs, hvalue, Dev.judgeSequence_placed hq hshape]
      refine ⟨fun hreplay => ?_, fun w c lost hfresh => ?_⟩
      · rw [hreplay]
        obtain hlate | hfirst := htime
        · rw [if_neg (by simp [hlate])]
        · rw [if_pos hfirst]
          split <;> rfl
      · rw [hfresh]
        obtain hlate | hfirst := htime
        · simp [hlate]
        · simp only [hfirst, if_true]
          split_ifs <;> rfl
  · rw [exec_replayEarly]
    refine State.onDev_eq ?_ (by split <;> [exact Dev.calm_putFrame l _ hcalm; exact hcalm])
    simp [Dev.replayEarlyOp, hf, hlooked, hverify, hverdict, hfailed, hpump, hstream, hq, hshape]

end Sys2Proof.Machine
end

section
/-! PROOFS. What the lanes' work on memories, contexts and rings leaves alone: `Dev.Aside d e` says that `e` has the
ports, the lanes, the Buckets slots in use, the registers of Pumphouse, the links and the rings, and all that the device
asks for as `d` has them. A lemma for each operation takes it off the end of a run of them. -/
namespace Sys2Proof.Machine
open Sys2Proof.Claims

/-! ### The registers that memories, contexts and the INTEGRITY block write -/

/-- Is it a register outside the rings, the events, Pumphouse and the links? -/
def asideReg (a : Nat) : Bool :=
  a / 0x10000 != 0x4008 && a / 0x10000 != 0x4009 && a / 0x10000 != 0x4010 && a / 0x10000 != 0x4020 &&
    a / 0x10000 != 0x4021

theorem asideReg_below {a : Nat} (h : a < 0x40080000) : asideReg a = true := by
  simp only [asideReg, Bool.and_eq_true, bne_iff_ne]
  omega

theorem asideReg_between {a : Nat} (h : 0x40140000 ≤ a ∧ a < 0x40180000) : asideReg a = true := by
  simp only [asideReg, Bool.and_eq_true, bne_iff_ne]
  omega

@[simp] theorem asideReg_ctxWord (i : Fin 1024) {off : Nat} (h : off < 0x100) : asideReg (ctxWord i off) = true :=
  asideReg_between (by unfold ctxWord; omega)

@[simp] theorem asideReg_ctxWord_add (i : Fin 1024) {off k : Nat} (h : off + k < 0x100) :
    asideReg (ctxWord i off + k) = true :=
  asideReg_between (by unfold ctxWord; omega)

@[simp] theorem asideReg_ctxField (i : Fin 1024) {f : Fl} (h : 0x40140000 ≤ f.addr ∧ f.addr < 0x40140100) :
    asideReg (ctxField i f).addr = true :=
  asideReg_between (by simp only [ctxField, Fl.plus]; omega)

@[simp] theorem asideReg_epField (i : Fin 1024) (s : Bool) {f : Fl} (h : 0x40140000 ≤ f.addr ∧ f.addr < 0x401400F0) :
    asideReg (epField i s f).addr = true :=
  asideReg_between (by simp only [epField, ctxField, Fl.plus]; split <;> omega)

@[simp] theorem asideReg_refqField {k : Nat} {f : Fl} (hk : k < 8) (h : f.addr < 0x40050000) :
    asideReg (refqField k f).addr = true :=
  asideReg_below (by simp only [refqField, Fl.plus]; omega)

@[simp] theorem asideReg_ite {c : Prop} [Decidable c] {f g : Fl} (h : asideReg f.addr = true)
    (h' : asideReg g.addr = true) : asideReg (if c then f else g).addr = true := by
  split <;> assumption

theorem lt_of_find?_range {n k : Nat} {p : Nat → Bool} (h : (List.range n).find? p = some k) : k < n :=
  List.mem_range.mp (List.mem_of_find?_eq_some h)

/-- The statistics words of the failure reasons lie in their context (R108). -/
theorem failStat_lt {k : FailKind} {off : Nat} (h : failStat k = some off) : off < 0x100 := by
  cases k <;> cases h <;> decide

/-! ### The relation -/

/-- `e` is as `d` but for memories, check bits, key slots, the rings' entries, the integrity block, the event queue, and
registers that are none of the lanes', the rings' and the links'; the trouble bit of the lanes is as it was. -/
structure Dev.Aside (d e : Dev) : Prop where
  same : e = { d with regs := e.regs, ram := e.ram, chk := e.chk, codes := e.codes, integ := e.integ, evt := e.evt
                      slots := e.slots, rings := e.rings }
  reg : ∀ a, asideReg a = false → a ≠ F.EVT_TRBL_TRBL.addr → e.reg a = d.reg a
  lane : bitAt (e.get F.EVT_TRBL_TRBL) tLANE = bitAt (d.get F.EVT_TRBL_TRBL) tLANE

namespace Dev.Aside
variable {d e g : Dev}

@[simp] theorem refl (d : Dev) : Dev.Aside d d := ⟨rfl, fun _ _ _ => rfl, rfl⟩

theorem trans (h : Dev.Aside d e) (h' : Dev.Aside e g) : Dev.Aside d g where
  same := by rw [h'.same, h.same]
  reg a ha ht := (h'.reg a ha ht).trans (h.reg a ha ht)
  lane := h'.lane.trans h.lane

theorem symm (h : Dev.Aside d e) : Dev.Aside e d where
  same := by rw [h.same]
  reg a ha ht := (h.reg a ha ht).symm
  lane := h.lane.symm

/-- What `e` becomes is as `d` is where `e` was. -/
theorem after (h : Dev.Aside e g) : Dev.Aside d g ↔ Dev.Aside d e :=
  ⟨fun hg => hg.trans h.symm, fun he => he.trans h⟩

/-- A change of the parts that are no registers. -/
@[simp] theorem update (ram chk codes integ evt slots rings) : Dev.Aside d { e with
      ram := ram, chk := chk, codes := codes, integ := integ, evt := evt, slots := slots, rings := rings } ↔
    Dev.Aside d e :=
  after ⟨rfl, fun _ _ _ => rfl, rfl⟩

@[simp] theorem ite_iff {c : Prop} [Decidable c] :
    Dev.Aside d (if c then e else g) ↔ if c then Dev.Aside d e else Dev.Aside d g := by
  split <;> rfl

@[simp] theorem fst_ite_iff {c : Prop} [Decidable c] {α : Type} {x y : Dev × α} :
    Dev.Aside d (if c then x else y).1 ↔ if c then Dev.Aside d x.1 else Dev.Aside d y.1 := by
  split <;> rfl

@[simp] theorem setReg {a : Nat} {w : Word} (h : asideReg a = true) : Dev.Aside d (e.setReg a w) ↔ Dev.Aside d e := by
  have hne {b : Nat} (hb : asideReg b = false) : b ≠ a := by
    rintro rfl
    exact absurd (h.symm.trans hb) (by decide)
  exact after ⟨rfl, fun b hb _ => Dev.reg_setReg_ne e w (hne hb),
    congrArg (bitAt · tLANE) (Dev.get_congr (Dev.reg_setReg_ne e w (hne (by decide))))⟩

@[simp] theorem put {f : Fl} {v : Nat} (h : asideReg f.addr = true) : Dev.Aside d (e.put f v) ↔ Dev.Aside d e := setReg h

@[simp] theorem bump {f : Fl} {v : Nat} (h : asideReg f.addr = true) : Dev.Aside d (e.bump f v) ↔ Dev.Aside d e := put h

@[simp] theorem event {src code cls : Nat} {arg0 arg1 : Word} :
    Dev.Aside d (e.event src code cls arg0 arg1) ↔ Dev.Aside d e := by
  simp [Dev.event]

/-- A trouble bit other than the lanes' own. -/
@[simp] theorem trouble {k : Nat} (h : k ≠ tLANE) : Dev.Aside d (e.trouble k) ↔ Dev.Aside d e := by
  refine after ⟨rfl, fun a _ ht => Dev.reg_trouble_ne e k ht, ?_⟩
  have hbit : (2 ^ k).testBit 2 = false := by
    rw [Nat.testBit_two_pow]
    exact decide_eq_false h
  unfold Dev.trouble
  rw [Dev.get_put_same _ _ _ rfl, bitAt, bitAt]
  change ((_ ||| 2 ^ k) % 2 ^ 19).testBit 2 = _
  rw [Nat.testBit_mod_two_pow, Nat.testBit_or, hbit, Bool.or_false]
  rfl

theorem foldl_mem {α : Type} {f : Dev → α → Dev} {l : List α} (h : ∀ x, ∀ a ∈ l, Dev.Aside x (f x a)) :
    Dev.Aside d (l.foldl f e) ↔ Dev.Aside d e := by
  induction l generalizing e with
  | nil => rfl
  | cons a l ih =>
    have hrest := ih (e := f e a) fun x b hb => h x b (List.mem_cons_of_mem a hb)
    exact hrest.trans (after (h e a List.mem_cons_self))

theorem foldl {α : Type} {f : Dev → α → Dev} {l : List α} (h : ∀ x a, Dev.Aside x (f x a)) :
    Dev.Aside d (l.foldl f e) ↔ Dev.Aside d e :=
  foldl_mem fun x a _ => h x a

/-! ### What is kept -/

theorem laneSt (h : Dev.Aside d e) (l : Lane) : e.lane l = d.lane l := by
  rw [h.same]
  cases l <;> rfl

theorem get (h : Dev.Aside d e) {f : Fl} (ha : asideReg f.addr = false) (ht : f.addr ≠ F.EVT_TRBL_TRBL.addr) :
    e.get f = d.get f := Dev.get_congr (h.reg _ ha ht)

/-! ### Errors found in memories (R280, R285, R289 to R291) -/

@[simp] theorem eccRecord {ue : Bool} {addr src : Nat} {m : Master} {syn bits lanes : Nat} :
    Dev.Aside d (g.eccRecord ue addr src m syn bits lanes) ↔ Dev.Aside d g := by
  have hinfo (k : Nat) (hk : k < 9) : asideReg (F.INTEG_CE_INFO_VALID.addr + k) = true :=
    asideReg_below (by simp only [F.INTEG_CE_INFO_VALID]; omega)
  unfold Dev.eccRecord
  cases ue <;> simp +decide [hinfo]

@[simp] theorem drgCount {k n : Nat} (hk : k < 8) : Dev.Aside d (g.drgCount k n) ↔ Dev.Aside d g := by
  have hplus : asideReg (F.DRG_SUM_COUNT.plus (4 * k)).addr = true :=
    asideReg_below (by simp only [Fl.plus, F.DRG_SUM_COUNT]; omega)
  unfold Dev.drgCount
  simp [hplus]

@[simp] theorem refqAdd {cst : Bool} {page bits : Nat} : Dev.Aside d (g.refqAdd cst page bits) ↔ Dev.Aside d g := by
  unfold Dev.refqAdd
  split
  · next k hk =>
    have hlt : k < 8 := lt_of_find?_range hk
    simp +decide [hlt]
  · split
    · next k hk =>
      have hlt : k < 8 := lt_of_find?_range hk
      simp +decide [hlt]
    · simp +decide

@[simp] theorem trkClear {k : Nat} (hk : k < 16) : Dev.Aside d (g.trkClear k) ↔ Dev.Aside d g := by
  have hinfo : asideReg (F.INTEG_TRK_INFO_VALID.addr + 8 * k) = true :=
    asideReg_below (by simp only [F.INTEG_TRK_INFO_VALID]; omega)
  have haddr : asideReg (F.INTEG_TRK_ADDR_ADDR.addr + 8 * k) = true :=
    asideReg_below (by simp only [F.INTEG_TRK_ADDR_ADDR]; omega)
  unfold Dev.trkClear
  simp [↓update, hinfo, haddr]

@[simp] theorem pageQueue {o : Offer} : Dev.Aside d (g.pageQueue o) ↔ Dev.Aside d g := by
  unfold Dev.pageQueue
  cases hk : g.trkFind o with
  | none => simp +decide
  | some k =>
    have hlt : k < 16 := lt_of_find?_range hk
    simp +decide [hlt]

@[simp] theorem offer {o : Offer} : Dev.Aside d (g.offer o) ↔ Dev.Aside d g := by
  unfold Dev.offer
  simp +decide [↓update, ↓ite_iff]

/-! ### Reading and writing memories -/

@[simp] theorem ramPut {a : Nat} {b : MByte} : Dev.Aside d (g.ramPut a b) ↔ Dev.Aside d g := by
  unfold Dev.ramPut
  simp [↓update]

@[simp] theorem ramPutAll {a : Nat} {bs : List MByte} : Dev.Aside d (g.ramPutAll a bs) ↔ Dev.Aside d g := by
  induction bs generalizing g a with
  | nil => rfl
  | cons b t ih => simp [Dev.ramPutAll, ih]

@[simp] theorem ramFound {m : Master} {c : EccClass} {a n : Nat} : Dev.Aside d (g.ramFound m c a n) ↔ Dev.Aside d g := by
  unfold Dev.ramFound
  split
  · rfl
  · simp [↓update, ↓ite_iff, ↓offer, ↓eccRecord]

@[simp] theorem ramPiece {m : Master} {a n : Nat} : Dev.Aside d (g.ramPiece m a n).1 ↔ Dev.Aside d g := by
  unfold Dev.ramPiece
  simp +decide

@[simp] theorem ramRead {m : Master} {fuel a n : Nat} : Dev.Aside d (Dev.ramRead m fuel g a n).1 ↔ Dev.Aside d g := by
  induction fuel generalizing g a n with
  | zero => rfl
  | succ fuel ih =>
    unfold Dev.ramRead
    simp [ih]

@[simp] theorem innerFound {m : Master} {src place : Nat} {chk : List (Nat × BitVec 5)} :
    Dev.Aside d (g.innerFound m src place chk) ↔ Dev.Aside d g := by
  unfold Dev.innerFound
  refine foldl fun x w => (foldl fun y c => ?_).mpr (refl x)
  split <;> simp

@[simp] theorem nvmRecord {m : Master} {cst : Bool} {a : Nat} {bits : Option Nat} :
    Dev.Aside d (g.nvmRecord m cst a bits) ↔ Dev.Aside d g := by
  unfold Dev.nvmRecord
  dsimp only
  split <;> simp

@[simp] theorem nvmFound {m : Master} {cst : Bool} {a : Nat} : Dev.Aside d (g.nvmFound m cst a) ↔ Dev.Aside d g := by
  unfold Dev.nvmFound
  split <;> simp

@[simp] theorem nvmRead {m : Master} {cst : Bool} {a n : Nat} : Dev.Aside d (g.nvmRead m cst a n).1 ↔ Dev.Aside d g := by
  unfold Dev.nvmRead
  dsimp only
  split <;> simp

@[simp] theorem romRead {m : Master} {a n : Nat} : Dev.Aside d (g.romRead m a n).1 ↔ Dev.Aside d g := by
  unfold Dev.romRead
  refine foldl fun x w => (foldl fun y c => ?_).mpr (refl x)
  split <;> simp

@[simp] theorem memRead {m : Master} {a n : Nat} : Dev.Aside d (g.memRead m a n).1 ↔ Dev.Aside d g := by
  unfold Dev.memRead
  simp

/-! ### Contexts and their keys (R54, R80, R93, R95, R100, R108) -/

@[simp] theorem ctxRead {m : Master} {a : Nat} (h : asideReg a = true) : Dev.Aside d (g.ctxRead m a) ↔ Dev.Aside d g := by
  unfold Dev.ctxRead
  dsimp only
  split
  · rfl
  · refine (foldl fun x e => by simp [↓update]).trans ((setReg h).trans (foldl fun y c => ?_))
    split <;> simp

theorem ctxReads {m : Master} {i : Fin 1024} {off n : Nat} (h : off + 4 * n ≤ 0x100) :
    Dev.Aside d (g.ctxReads m (ctxWord i off) n) ↔ Dev.Aside d g := by
  induction n generalizing g off with
  | zero => rfl
  | succ n ih =>
    have hword : asideReg (ctxWord i off) = true := asideReg_ctxWord i (by omega)
    have hnext : ctxWord i off + 4 = ctxWord i (off + 4) := rfl
    rw [Dev.ctxReads, hnext, ih (by omega), ctxRead hword]

@[simp] theorem ctxPut {i : Fin 1024} {f : Fl} {v : Nat} (h : 0x40140000 ≤ f.addr ∧ f.addr < 0x40140100) :
    Dev.Aside d (g.ctxPut i f v) ↔ Dev.Aside d g := put (asideReg_ctxField i h)

@[simp] theorem ctxCount {i : Fin 1024} {off k : Nat} (h : off < 0x100) :
    Dev.Aside d (g.ctxCount i off k) ↔ Dev.Aside d g := by
  unfold Dev.ctxCount
  simp [h]

@[simp] theorem ctxCount64 {i : Fin 1024} {off k : Nat} (h : off + 8 ≤ 0x100) :
    Dev.Aside d (g.ctxCount64 i off k) ↔ Dev.Aside d g := by
  have hlo : off < 0x100 := by omega
  have hhi : off + 4 < 0x100 := by omega
  have hread : Dev.Aside d (g.ctxReads 11 (ctxWord i off) 2) ↔ Dev.Aside d g := ctxReads (by omega)
  unfold Dev.ctxCount64
  simp [hlo, hhi, hread]

@[simp] theorem setWin {i : Fin 1024} {w : Win} : Dev.Aside d (g.setWin i w) ↔ Dev.Aside d g := by
  unfold Dev.setWin
  simp +decide

@[simp] theorem epMove {i : Fin 1024} {s : Bool} {st : Nat} : Dev.Aside d (g.epMove i s st) ↔ Dev.Aside d g := by
  unfold Dev.epMove Dev.epEvent
  simp +decide

@[simp] theorem commitSwitch {i : Fin 1024} {t : Nat} : Dev.Aside d (g.commitSwitch i t) ↔ Dev.Aside d g := by
  unfold Dev.commitSwitch
  dsimp only
  split <;> simp +decide

@[simp] theorem statsOf {i : Fin 1024} {f : Frame} {e : Ended} : Dev.Aside d (g.statsOf i f e) ↔ Dev.Aside d g := by
  unfold Dev.statsOf
  cases hoff : f.failed.bind failStat with
  | none => dsimp only; split <;> simp
  | some off =>
    obtain ⟨k, -, hk⟩ := Option.bind_eq_some_iff.mp hoff
    have hlt : off < 0x100 := failStat_lt hk
    dsimp only
    split <;> simp [hlt]

@[simp] theorem guardOf {i : Fin 1024} {f : Frame} : Dev.Aside d (g.guardOf i f) ↔ Dev.Aside d g := by
  unfold Dev.guardOf
  (repeat' split) <;> simp +decide

@[simp] theorem commitFrame {f : Frame} {e : Ended} : Dev.Aside d (g.commitFrame f e) ↔ Dev.Aside d g := by
  unfold Dev.commitFrame
  split <;> simp

@[simp] theorem keyRead {m : Master} {s : Nat} : Dev.Aside d (g.keyRead m s) ↔ Dev.Aside d g := by
  unfold Dev.keyRead Dev.setSlot
  simp +decide [↓update]

/-! ### A frame's bytes and its PTP copy (R46, R114, R115, R148) -/

@[simp] theorem completeCopy {f : Frame} : Dev.Aside d (g.completeCopy f) ↔ Dev.Aside d g := by
  unfold Dev.completeCopy Dev.completeEntry Dev.setRing
  split <;> simp [↓update]

@[simp] theorem bufferRead {l : Lane} {f : Frame} {n : Nat} : Dev.Aside d (g.bufferRead l f n) ↔ Dev.Aside d g := by
  unfold Dev.bufferRead
  simp

@[simp] theorem readBack {l : Lane} {f : Frame} : Dev.Aside d (g.readBack l f).1 ↔ Dev.Aside d g := by
  unfold Dev.readBack
  dsimp only
  split <;> simp

@[simp] theorem rsvPut {off : Nat} {bs : Bytes} : Dev.Aside d (g.rsvPut off bs) ↔ Dev.Aside d g := by
  induction bs generalizing g off with
  | nil => rfl
  | cons b t ih => simp [Dev.rsvPut, ih]

/-! ### Rows that wait for their remap (R286, R287) -/

theorem exhausted {bank row : Nat} (h : bank < 0x8000) : Dev.Aside d (g.exhausted bank row) ↔ Dev.Aside d g := by
  have hfield : asideReg (remapField bank F.INTEG_REMAP_STAT_EXHAUSTED).addr = true :=
    asideReg_below (by simp only [remapField, Fl.plus, F.INTEG_REMAP_STAT_EXHAUSTED]; omega)
  unfold Dev.exhausted Dev.remapEvent
  simp +decide [hfield]

@[simp] theorem startCopy {bank row : Nat} {entry : Option Nat} :
    Dev.Aside d (g.startCopy bank row entry) ↔ Dev.Aside d g := by
  unfold Dev.startCopy
  simp [↓update]

@[simp] theorem trkRemap {k : Nat} : Dev.Aside d (g.trkRemap k) ↔ Dev.Aside d g := by
  have hbank : ramSource (g.get (trkField k F.INTEG_TRK_ADDR_ADDR)) < 0x8000 := by
    have hlt : g.get (trkField k F.INTEG_TRK_ADDR_ADDR) < 2 ^ 32 := bitsOf_lt _ _ _
    unfold ramSource
    split <;> omega
  unfold Dev.trkRemap
  simp [↓update, ↓ite_iff, exhausted hbank]

@[simp] theorem bktRemaps : Dev.Aside d g.bktRemaps ↔ Dev.Aside d g := by
  have htrk (x : Dev) (k : Nat) : Dev.Aside x (if x.flag (trkField k F.INTEG_TRK_INFO_VALID) ∧
      !x.flag (trkField k F.INTEG_TRK_INFO_KIND) ∧ x.get (trkField k F.INTEG_TRK_INFO_SOURCE) = 12 ∧
      5 ≤ x.get (trkField k F.INTEG_TRK_INFO_COUNT) then x.trkRemap k else x) := by
    simp
  unfold Dev.bktRemaps
  refine (foldl htrk).trans ((foldl fun x r => startCopy.mpr (refl x)).trans ?_)
  simp [↓update]

end Dev.Aside

end Sys2Proof.Machine
end

section
/-! PROOFS. What an operation on one lane changes (R44 to R78): `Dev.InLane X l d e` says that `e` differs from `d` in
lane `l`, the Buckets slots in use and what `Dev.Aside` leaves out, and in no register of Pumphouse, the links and the
rings beside those listed in `X`. -/
namespace Sys2Proof.Machine
open Sys2Proof.Claims

/-! ### A lane's counters and frames -/

/-- The value of counter `k`. -/
def LaneSt.ctr (x : LaneSt) (k : Fin 31) : Nat := (x.counters[k]).toNat

/-- The lane with counter `k` raised by `n` (R78). -/
def LaneSt.count (x : LaneSt) (k : Fin 31) (n : Nat) : LaneSt :=
  { x with counters := x.counters.set k (BitVec.ofNat 64 (satAdd 64 (x.counters[k]).toNat n)) }

namespace LaneSt
variable (x : LaneSt) (j k : Fin 31) (n m : Nat) (f g : Frame)

@[simp] theorem ctr_count : (x.count j n).ctr k = if j = k then satAdd 64 (x.ctr k) n else x.ctr k := by
  unfold ctr count
  split
  · next h =>
    subst h
    have hlt : satAdd 64 (x.counters[j]).toNat n < 2 ^ 64 := by unfold satAdd; omega
    simpa using hlt
  · next h =>
    have hne : j.val ≠ k.val := fun e => h (Fin.ext e)
    simp [Vector.getElem_set_ne _ _ hne]

@[simp] theorem frames_count : (x.count k n).frames = x.frames := rfl
@[simp] theorem arrivals_count : (x.count k n).arrivals = x.arrivals := rfl
@[simp] theorem open_count : (x.count k n).open_ = x.open_ := rfl
@[simp] theorem saf_count : (x.count k n).saf = x.saf := rfl
@[simp] theorem mismatches_count : (x.count k n).mismatches = x.mismatches := rfl
@[simp] theorem bufferUsed_count : (x.count k n).bufferUsed = x.bufferUsed := rfl
@[simp] theorem frame_count : (x.count k n).frame m = x.frame m := rfl
@[simp] theorem ctr_put : (x.put f).ctr k = x.ctr k := rfl
@[simp] theorem ctr_remove : (x.remove n).ctr k = x.ctr k := rfl

theorem n_of_frame {x : LaneSt} {n : Nat} {f : Frame} (h : x.frame n = some f) : f.n = n := by
  have := List.find?_some h
  simpa using this

theorem mem_of_frame {x : LaneSt} {n : Nat} {f : Frame} (h : x.frame n = some f) : f ∈ x.frames :=
  List.mem_of_find?_eq_some h

/-- A frame is replaced where the lane holds one of its number. -/
theorem frame_put {x : LaneSt} {f g : Frame} (h : x.frame f.n = some g) : (x.put f).frame f.n = some f := by
  unfold frame at h
  unfold frame put
  dsimp only
  generalize x.frames = fs at h ⊢
  induction fs with
  | nil => cases h
  | cons a t ih =>
    rw [List.map_cons, List.find?_cons]
    by_cases ha : a.n = f.n
    · simp [ha]
    · rw [List.find?_cons, beq_eq_false_iff_ne.mpr ha] at h
      rw [if_neg ha, beq_eq_false_iff_ne.mpr ha]
      exact ih h

@[simp] theorem frame_remove : (x.remove n).frame n = none := by
  simp [frame, remove]

end LaneSt

/-! ### Lanes, ports and egress are apart -/

section
variable (d : Dev) (l : Lane) (p q : Port) (x : LaneSt) (y : Link) (z : Option Egress) (f : Frame)

@[simp] theorem Dev.lane_setLane : (d.setLane l x).lane l = x := by cases l <;> rfl
@[simp] theorem Dev.lane_setLane_other : (d.setLane l x).lane (otherLane l) = d.lane (otherLane l) := by cases l <;> rfl
@[simp] theorem Dev.lane_setEgress : (d.setEgress p z).lane l = d.lane l := by cases p <;> cases l <;> rfl
@[simp] theorem Dev.lane_setLink : (d.setLink p y).lane l = d.lane l := by cases p <;> cases l <;> rfl
@[simp] theorem Dev.lane_linkActive : (d.linkActive p).lane l = d.lane l := Dev.lane_setLink ..
@[simp] theorem Dev.egress_setEgress : (d.setEgress p z).egress p = z := by cases p <;> rfl
@[simp] theorem Dev.egress_setLane : (d.setLane l x).egress p = d.egress p := by cases p <;> cases l <;> rfl
@[simp] theorem Dev.egress_putFrame : (d.putFrame l f).egress p = d.egress p := Dev.egress_setLane ..
@[simp] theorem Dev.egress_setLink : (d.setLink q y).egress p = d.egress p := by cases p <;> cases q <;> rfl
@[simp] theorem Dev.egress_linkActive : (d.linkActive q).egress p = d.egress p := Dev.egress_setLink ..
@[simp] theorem Dev.lane_putFrame : (d.putFrame l f).lane l = (d.lane l).put f := Dev.lane_setLane ..
@[simp] theorem Dev.linkActive_act : ((d.linkActive p).link p).act = true := by rw [Dev.linkActive, Dev.link_setLink]

theorem Dev.lane_congr {d e : Dev} (hv : e.laneV = d.laneV) (ht : e.laneT = d.laneT) (l : Lane) : e.lane l = d.lane l := by
  cases l
  · exact hv
  · exact ht

theorem Dev.cnt_eq (k : Fin 31) (n : Nat) : d.cnt l k n = d.setLane l ((d.lane l).count k n) := rfl

@[simp] theorem Dev.lane_cnt (k : Fin 31) (n : Nat) : (d.cnt l k n).lane l = (d.lane l).count k n := Dev.lane_setLane ..

end

theorem Dev.calm_setEgress {d : Dev} (p : Port) (x : Option Egress) (h : d.calm) : (d.setEgress p x).calm := by
  cases p <;> exact h

theorem Dev.calm_setLink {d : Dev} (p : Port) (x : Link) (h : d.calm) : (d.setLink p x).calm := by
  cases p <;> exact h

theorem otherLane_ne (l : Lane) : otherLane l ≠ l := by cases l <;> decide

/-! ### The relation -/

/-- `e` is as `d` but for lane `l` and the slots that its frames hold, for what `Dev.Aside` leaves out, and for the
registers of `X`. -/
structure Dev.InLane (X : List Nat) (l : Lane) (d e : Dev) : Prop where
  same : e = { d with regs := e.regs, ram := e.ram, chk := e.chk, codes := e.codes, integ := e.integ, evt := e.evt
                      slots := e.slots, rings := e.rings, irq := e.irq, laneV := e.laneV, laneT := e.laneT
                      reserve := e.reserve, holdUsed := e.holdUsed }
  other : e.lane (otherLane l) = d.lane (otherLane l)
  reg : ∀ a, asideReg a = false → a ≠ F.EVT_TRBL_TRBL.addr → a ∉ X → e.reg a = d.reg a
  trbl : bitAt (e.get F.EVT_TRBL_TRBL) tLANE = bitAt (d.get F.EVT_TRBL_TRBL) tLANE

theorem Dev.Aside.inLane {d e : Dev} (h : Dev.Aside d e) (X : List Nat) (l : Lane) : Dev.InLane X l d e where
  same := by rw [h.same]
  other := h.laneSt _
  reg a ha ht _ := h.reg a ha ht
  trbl := h.lane

namespace Dev.InLane
variable {X : List Nat} {l : Lane} {d e g : Dev}

@[simp] theorem refl (X : List Nat) (l : Lane) (d : Dev) : Dev.InLane X l d d := (Dev.Aside.refl d).inLane X l

theorem trans (h : Dev.InLane X l d e) (h' : Dev.InLane X l e g) : Dev.InLane X l d g where
  same := by rw [h'.same, h.same]
  other := h'.other.trans h.other
  reg a ha ht hx := (h'.reg a ha ht hx).trans (h.reg a ha ht hx)
  trbl := h'.trbl.trans h.trbl

theorem symm (h : Dev.InLane X l d e) : Dev.InLane X l e d where
  same := by rw [h.same]
  other := h.other.symm
  reg a ha ht hx := (h.reg a ha ht hx).symm
  trbl := h.trbl.symm

/-- What `e` becomes is as `d` is where `e` was. -/
theorem after (h : Dev.InLane X l e g) : Dev.InLane X l d g ↔ Dev.InLane X l d e :=
  ⟨fun hg => hg.trans h.symm, fun he => he.trans h⟩

theorem aside (h : Dev.Aside e g) : Dev.InLane X l d g ↔ Dev.InLane X l d e := after (h.inLane X l)

/-! ### What is kept -/

theorem egress (h : Dev.InLane X l d e) (p : Port) : e.egress p = d.egress p := by
  rw [h.same]
  cases p <;> rfl

theorem link (h : Dev.InLane X l d e) (p : Port) : e.link p = d.link p := by
  rw [h.same]
  cases p <;> rfl

theorem on (h : Dev.InLane X l d e) (x : Dom) : e.on x = d.on x := by
  rw [h.same]
  rfl

theorem now (h : Dev.InLane X l d e) : e.now = d.now := by rw [h.same]

theorem tu (h : Dev.InLane X l d e) : e.tu = d.tu := by rw [h.same]

theorem filled (h : Dev.InLane X l d e) : e.filled = d.filled := by rw [h.same]

theorem resetReq (h : Dev.InLane X l d e) : e.resetReq = d.resetReq := by rw [h.same]

theorem chans (h : Dev.InLane X l d e) : e.chans = d.chans := by rw [h.same]

theorem calm (h : Dev.InLane X l d e) (hd : d.calm) : e.calm := by
  rw [h.same]
  exact hd

theorem get (h : Dev.InLane X l d e) {f : Fl} (ha : asideReg f.addr = false) (ht : f.addr ≠ F.EVT_TRBL_TRBL.addr)
    (hx : f.addr ∉ X) : e.get f = d.get f := Dev.get_congr (h.reg _ ha ht hx)

theorem noAbort (h : Dev.InLane X l d e) (hX : ∀ a ∈ X, a / 0x10000 ≠ 0x4008) (hd : noAbort d) : noAbort e := by
  refine noAbort_of_eq hd h.chans fun a ha => h.reg a ?_ ?_ fun hx => hX a hx ha
  · simp [asideReg, ha]
  · rintro rfl
    exact absurd ha (by decide)

/-! ### A lane and its frames -/

theorem setLane (d : Dev) (l : Lane) (x : LaneSt) : Dev.InLane X l d (d.setLane l x) := by
  refine ⟨by cases l <;> rfl, Dev.lane_setLane_other d l x, fun a _ _ _ => by cases l <;> rfl, by cases l <;> rfl⟩

@[simp] theorem setLane_iff {x : LaneSt} : Dev.InLane X l d (e.setLane l x) ↔ Dev.InLane X l d e :=
  after (setLane e l x)

@[simp] theorem cnt {k : Fin 31} {n : Nat} : Dev.InLane X l d (e.cnt l k n) ↔ Dev.InLane X l d e := setLane_iff

@[simp] theorem putFrame {f : Frame} : Dev.InLane X l d (e.putFrame l f) ↔ Dev.InLane X l d e := setLane_iff

@[simp] theorem dropHold {i : Nat} : Dev.InLane X l d (e.dropHold i) ↔ Dev.InLane X l d e :=
  after ⟨rfl, Dev.lane_congr rfl rfl _, fun _ _ _ _ => rfl, rfl⟩

@[simp] theorem takeHold {i : Nat} : Dev.InLane X l d (e.takeHold i) ↔ Dev.InLane X l d e :=
  after ⟨rfl, Dev.lane_congr rfl rfl _, fun _ _ _ _ => rfl, rfl⟩

@[simp] theorem setReserve (r : List RsvEntry) : Dev.InLane X l d { e with reserve := r } ↔ Dev.InLane X l d e :=
  after ⟨rfl, Dev.lane_congr rfl rfl _, fun _ _ _ _ => rfl, rfl⟩

@[simp] theorem latchIrq {k : Nat} : Dev.InLane X l d (e.latchIrq k) ↔ Dev.InLane X l d e :=
  after ⟨rfl, Dev.lane_congr rfl rfl _, fun _ _ _ _ => rfl, rfl⟩

@[simp] theorem event {src code cls : Nat} {arg0 arg1 : Word} :
    Dev.InLane X l d (e.event src code cls arg0 arg1) ↔ Dev.InLane X l d e := aside (by simp)

@[simp] theorem commitFrame {f : Frame} {x : Ended} : Dev.InLane X l d (e.commitFrame f x) ↔ Dev.InLane X l d e :=
  aside (by simp)

@[simp] theorem bufferRead {f : Frame} {n : Nat} : Dev.InLane X l d (e.bufferRead l f n) ↔ Dev.InLane X l d e :=
  aside (by simp)

@[simp] theorem readBack {f : Frame} : Dev.InLane X l d (e.readBack l f).1 ↔ Dev.InLane X l d e := aside (by simp)

@[simp] theorem bktRemaps : Dev.InLane X l d e.bktRemaps ↔ Dev.InLane X l d e := aside (by simp)

@[simp] theorem finishFrame {f : Frame} : Dev.InLane X l d (e.finishFrame l f) ↔ Dev.InLane X l d e := by
  unfold Dev.finishFrame
  refine (aside (Dev.Aside.completeCopy.mpr (Dev.Aside.refl _))).trans ?_
  split
  · split <;> simp
  · simp

@[simp] theorem discard {f : Frame} {k : Fin 31} : Dev.InLane X l d (e.discard l f k) ↔ Dev.InLane X l d e := by
  unfold Dev.discard
  simp

@[simp] theorem failCount {f : Frame} {why : FailKind} :
    Dev.InLane X l d (e.failCount l f why) ↔ Dev.InLane X l d e := by
  unfold Dev.failCount
  dsimp only
  split <;> split <;> simp

@[simp] theorem sentCount {f : Frame} {n : Nat} : Dev.InLane X l d (e.sentCount l f n) ↔ Dev.InLane X l d e := by
  unfold Dev.sentCount
  dsimp only
  (repeat' split) <;> simp

/-! ### A lane's registers -/

theorem setReg {a : Nat} {w : Word} (ha : a ∈ X) (hne : a ≠ F.EVT_TRBL_TRBL.addr) :
    Dev.InLane X l d (e.setReg a w) ↔ Dev.InLane X l d e := by
  refine after ⟨rfl, Dev.lane_congr rfl rfl _, fun b _ _ hb => Dev.reg_setReg_ne e w ?_,
    congrArg (bitAt · tLANE) (Dev.get_congr (Dev.reg_setReg_ne e w hne.symm))⟩
  rintro rfl
  exact hb ha

theorem laneReg_ne (l : Lane) {f : Fl} (h : f.addr / 0x1000 = 0x40100) : (laneField l f).addr ≠ F.EVT_TRBL_TRBL.addr := by
  have : F.EVT_TRBL_TRBL.addr / 0x1000 < 0x40100 - 1 := by decide
  cases l <;> simp only [laneField, Fl.plus] <;> omega

theorem failRecord {f : Frame} {why : FailKind} {stomp : Option Nat} (h : (laneField l F.LANE_LAST_REASON).addr ∈ X) :
    Dev.InLane X l d (e.failRecord l f why stomp) ↔ Dev.InLane X l d e := by
  unfold Dev.failRecord
  exact event.trans (setReg h (laneReg_ne l (by decide)))

theorem failBefore {f : Frame} {why : FailKind} (h : (laneField l F.LANE_LAST_REASON).addr ∈ X) :
    Dev.InLane X l d (e.failBefore l f why) ↔ Dev.InLane X l d e := by
  unfold Dev.failBefore
  rw [discard, failRecord h, failCount]

theorem setLaneState {st : Nat} (h : (laneField l F.LANE_STAT_STATE).addr ∈ X) :
    Dev.InLane X l d (e.setLaneState l st) ↔ Dev.InLane X l d e := by
  unfold Dev.setLaneState
  dsimp only
  split
  · rfl
  · rw [event, latchIrq]
    exact setReg h (laneReg_ne l (by decide))

end Dev.InLane

/-! ### What the operations on a frame leave of its lane -/

section
variable (d : Dev) (l : Lane) (f : Frame)

theorem Dev.Aside.frame {d e : Dev} (h : Dev.Aside d e) (l : Lane) (n : Nat) : e.frame l n = d.frame l n := by
  rw [Dev.frame, Dev.frame, h.laneSt]

@[simp] theorem Dev.lane_commitFrame (e : Ended) : (d.commitFrame f e).lane l = d.lane l :=
  (Dev.Aside.commitFrame.mpr (.refl d)).laneSt l

@[simp] theorem Dev.lane_bufferRead (k : Lane) (n : Nat) : (d.bufferRead k f n).lane l = d.lane l :=
  (Dev.Aside.bufferRead.mpr (.refl d)).laneSt l

@[simp] theorem Dev.lane_readBack (k : Lane) : (d.readBack k f).1.lane l = d.lane l :=
  (Dev.Aside.readBack.mpr (.refl d)).laneSt l

@[simp] theorem Dev.lane_bktRemaps : d.bktRemaps.lane l = d.lane l := (Dev.Aside.bktRemaps.mpr (.refl d)).laneSt l

@[simp] theorem Dev.lane_event (src code cls : Nat) (x y : Word) : (d.event src code cls x y).lane l = d.lane l :=
  (Dev.Aside.event.mpr (.refl d)).laneSt l

@[simp] theorem Dev.lane_setReg (a : Nat) (w : Word) : (d.setReg a w).lane l = d.lane l := Dev.lane_congr rfl rfl l

@[simp] theorem Dev.lane_latchIrq (k : Nat) : (d.latchIrq k).lane l = d.lane l := Dev.lane_congr rfl rfl l

@[simp] theorem Dev.lane_failRecord (k : Lane) (why : FailKind) (stomp : Option Nat) :
    (d.failRecord k f why stomp).lane l = d.lane l := by
  unfold Dev.failRecord
  rw [Dev.lane_event, Dev.lane_setReg]

@[simp] theorem Dev.lane_setLaneState (k : Lane) (st : Nat) : (d.setLaneState k st).lane l = d.lane l := by
  unfold Dev.setLaneState
  dsimp only
  split
  · rfl
  · rw [Dev.lane_event, Dev.lane_latchIrq, Dev.put, Dev.lane_setReg]

/-- A frame that leaves its lane is gone from it (R46). -/
@[simp] theorem Dev.lane_finishFrame : (d.finishFrame l f).lane l = (d.lane l).remove f.n := by
  unfold Dev.finishFrame
  refine ((Dev.Aside.completeCopy.mpr (.refl _)).laneSt l).trans ?_
  have hremoved : (d.setLane l ((d.lane l).remove f.n)).lane l = (d.lane l).remove f.n := Dev.lane_setLane ..
  split
  · split
    · exact (Dev.lane_congr rfl rfl l).trans hremoved
    · exact (Dev.lane_congr rfl rfl l).trans hremoved
  · exact (Dev.lane_congr rfl rfl l).trans hremoved

@[simp] theorem Dev.lane_discard (k : Fin 31) : (d.discard l f k).lane l = ((d.lane l).count k 1).remove f.n := by
  unfold Dev.discard
  rw [Dev.lane_finishFrame, Dev.lane_commitFrame, Dev.lane_cnt]

/-- The counters of a failure are VERIFY_FAIL and the reason's (R78). -/
theorem Dev.lane_failCount (why : FailKind) : ∃ c, (d.failCount l f why).lane l = { d.lane l with counters := c } := by
  unfold Dev.failCount
  dsimp only
  have hfirst : ∃ c, (if f.verify ∧ why ≠ .lane then d.cnt l cVERIFY_FAIL 1 else d).lane l =
      { d.lane l with counters := c } := by
    split
    · exact ⟨_, Dev.lane_cnt d l cVERIFY_FAIL 1⟩
    · exact ⟨_, rfl⟩
  obtain ⟨c, hc⟩ := hfirst
  split
  · exact ⟨_, by rw [Dev.lane_cnt, hc]; rfl⟩
  · exact ⟨c, hc⟩

theorem Dev.ctr_failCount (why : FailKind) {k : Fin 31} (hv : k ≠ cVERIFY_FAIL) (hk : failCounter why ≠ some k) :
    ((d.failCount l f why).lane l).ctr k = (d.lane l).ctr k := by
  have hfirst : ((if f.verify ∧ why ≠ .lane then d.cnt l cVERIFY_FAIL 1 else d).lane l).ctr k = (d.lane l).ctr k := by
    split
    · rw [Dev.lane_cnt, LaneSt.ctr_count, if_neg hv.symm]
    · rfl
  unfold Dev.failCount
  dsimp only
  split
  · next j hj =>
    have hne : j ≠ k := by
      rintro rfl
      exact hk hj
    rw [Dev.lane_cnt, LaneSt.ctr_count, if_neg hne, hfirst]
  · exact hfirst

end

end Sys2Proof.Machine
end

section
/-! PROOFS. How a frame leaves its lane (R53, R54, R59, R64 to R66): the start of its egress, its release from a hold slot,
its discard, and its end. -/
namespace Sys2Proof.Machine
open Sys2Proof.Claims

theorem exec_egressStart (s : State) (p : Port) : exec (.egressStart p) s = s.onDev fun d => d.egressStartOp p := rfl
theorem exec_holdRelease (s : State) (l : Lane) (n : Nat) :
    exec (.holdRelease l n) s = s.onDev fun d => d.holdReleaseOp l n := rfl
theorem exec_frameCommit (s : State) (p : Port) (x : EgressSrc) :
    exec (.frameCommit p x) s = s.onDev fun d => d.frameCommitOp p x := rfl

@[simp] theorem Lane.laneTo_egress (l : Lane) : l.egress.laneTo = l := by cases l <;> rfl

theorem Dev.frame_n {d : Dev} {l : Lane} {n : Nat} {f : Frame} (h : d.frame l n = some f) : f.n = n :=
  LaneSt.n_of_frame h

section
variable {d : Dev} {l : Lane} {n : Nat} {f : Frame}

/-! ### A discard, and a failure before egress (R59, R78) -/

theorem Dev.inLane_discard (d : Dev) (l : Lane) (f : Frame) (k : Fin 31) : Dev.InLane [] l d (d.discard l f k) :=
  Dev.InLane.discard.mpr (.refl ..)

theorem Dev.calm_discard (k : Fin 31) (h : d.calm) : (d.discard l f k).calm := (d.inLane_discard l f k).calm h

theorem Dev.frame_discard (k : Fin 31) (hn : f.n = n) : (d.discard l f k).frame l n = none := by
  rw [Dev.frame, Dev.lane_discard, hn, LaneSt.frame_remove]

theorem Dev.ctr_discard (d : Dev) (l : Lane) (f : Frame) (j k : Fin 31) : ((d.discard l f j).lane l).ctr k =
    if j = k then satAdd 64 ((d.lane l).ctr k) 1 else (d.lane l).ctr k := by
  rw [Dev.lane_discard, LaneSt.ctr_remove, LaneSt.ctr_count]

theorem Dev.inLane_failBefore (d : Dev) (l : Lane) (f : Frame) (why : FailKind) :
    Dev.InLane [(laneField l F.LANE_LAST_REASON).addr] l d (d.failBefore l f why) :=
  (Dev.InLane.failBefore List.mem_cons_self).mpr (.refl ..)

theorem Dev.frame_failBefore (why : FailKind) (hn : f.n = n) : (d.failBefore l f why).frame l n = none :=
  Dev.frame_discard _ hn

/-- The counter of a failure's own reason is raised (R78). -/
theorem Dev.ctr_failCount_reason {why : FailKind} {k : Fin 31} (hk : failCounter why = some k) (hv : k ≠ cVERIFY_FAIL) :
    ((d.failCount l f why).lane l).ctr k = satAdd 64 ((d.lane l).ctr k) 1 := by
  unfold Dev.failCount
  dsimp only
  rw [hk]
  dsimp only
  rw [Dev.lane_cnt, LaneSt.ctr_count, if_pos rfl]
  split
  · rw [Dev.lane_cnt, LaneSt.ctr_count, if_neg hv.symm]
  · rfl

theorem Dev.ctr_failBefore (d : Dev) (l : Lane) (f : Frame) (why : FailKind) (k : Fin 31) :
    ((d.failBefore l f why).lane l).ctr k = if cDISCARD_PRE = k then satAdd 64 (((d.failCount l f why).lane l).ctr k) 1
      else ((d.failCount l f why).lane l).ctr k := by
  unfold Dev.failBefore
  rw [Dev.ctr_discard, Dev.lane_failRecord]

theorem failCounter_ne {why : FailKind} {k : Fin 31} (h : k ∉ [(14 : Fin 31), 15, 16, 17, 18, 26]) :
    failCounter why ≠ some k := by
  rintro hk
  cases why <;> cases hk <;> simp at h

theorem Dev.ctr_failBefore_pre (d : Dev) (l : Lane) (f : Frame) (why : FailKind) :
    ((d.failBefore l f why).lane l).ctr cDISCARD_PRE = satAdd 64 ((d.lane l).ctr cDISCARD_PRE) 1 := by
  rw [Dev.ctr_failBefore, if_pos rfl, Dev.ctr_failCount d l f why (by decide) (failCounter_ne (by decide))]

theorem Dev.failFrame_before (why : FailKind) (p : Nat) (h : f.stage = .input ∨ f.stage = .held ∨ f.stage = .reserve) :
    d.failFrame l f why p = d.failBefore l f why := by
  unfold Dev.failFrame
  obtain h | h | h := h <;> rw [h]

/-! ### The start of an egress, and a release (R64, R65) -/

theorem Dev.begin_down (h : d.linkUp l.egress = false) : d.begin l f = d.discard l f cEGRESS_DOWN := by
  simp [Dev.begin, h]

/-- A frame whose port is up is in egress, with all that it sends (R65). -/
theorem Dev.begin_up (h : d.linkUp l.egress = true) (hf : d.frame l n = some f) :
    (d.begin l f).egress l.egress = some ⟨.lane l n, d.outBytes l f, none, [], false, d.stamp⟩ ∧
      (d.begin l f).frame l n = some { f with stage := .egress } ∧ ((d.begin l f).link l.egress).act = true := by
  have hn := Dev.frame_n hf
  have hput : ((d.lane l).put { f with stage := .egress }).frame f.n = some { f with stage := .egress } :=
    LaneSt.frame_put (f := { f with stage := .egress }) (hn ▸ hf)
  unfold Dev.begin
  simp [h, Dev.frame, hn ▸ hput, hn]

theorem Dev.calm_begin (h : d.calm) : (d.begin l f).calm := by
  unfold Dev.begin
  dsimp only
  split
  · exact Dev.calm_setLink _ _ (Dev.calm_putFrame _ _ (Dev.calm_setEgress _ _ h))
  · exact Dev.calm_discard _ h

/-- What a release does where the frame's slot reads `bs` and the device is `e` behind the read (R64, R115). -/
theorem Dev.release_slot {k : Nat} {e : Dev} {bs : List MByte} (hslot : f.slot = some k)
    (hread : d.memRead 11 (slotAddr k) f.rx.body.length = (e, bs)) : d.release l f =
      if anyPoison bs ∨ frameCheck (bs.map Prod.fst) ≠ frameCheck f.rx.body then e.failFrame l f .poison 0
      else e.begin l f := by
  simp only [Dev.release, Dev.readBack, hslot, hread]

theorem Dev.holdReleaseOp_releases (hf : d.frame l n = some f) (hpump : d.on .pump = true)
    (hfree : d.egress l.egress = none) (hready : d.releasable l f = true) (hcut : d.cutReady l = none)
    (hstaged : l.egress = .a → d.stagedFrom 5 = none) : d.holdReleaseOp l n = d.release l f := by
  have hhigher : ¬ (f.stage = .held ∧ ((d.cutReady l).isSome ∨ l.egress = .a ∧ (d.stagedFrom 5).isSome)) := by
    rintro ⟨-, hsome | ⟨ha, hsome⟩⟩
    · simp [hcut] at hsome
    · simp [hstaged ha] at hsome
  simp [Dev.holdReleaseOp, hf, hpump, hfree, hready, hhigher]

theorem Dev.egressStartOp_cut (hfree : d.egress l.egress = none) (hcut : d.cutReady l = some f) :
    d.egressStartOp l.egress = d.begin l f := by
  simp [Dev.egressStartOp, hfree, hcut]

/-! ### The end of an egress (R54, R65, R78) -/

/-- The counter of a sent frame's action (R78). -/
def sentCounter (a : Nat) : Option (Fin 31) :=
  if a = 0 then some cPASSED else if a = 1 then some cTAGGED else if a = 4 then some cSTRIPPED else none

theorem Dev.sentCount_eq (d : Dev) (l : Lane) (f : Frame) (m : Nat) :
    ∃ e : Dev, (∀ k, k ≠ cVERIFY_OK → (e.lane l).ctr k = (((d.lane l).count cTX_FRAMES 1).count cTX_BYTES m).ctr k) ∧
      d.sentCount l f m = (match sentCounter f.action with | some k => e.cnt l k 1 | none => e) := by
  refine ⟨if f.verify then ((d.cnt l cTX_FRAMES 1).cnt l cTX_BYTES m).cnt l cVERIFY_OK 1
      else (d.cnt l cTX_FRAMES 1).cnt l cTX_BYTES m, fun k hk => ?_, ?_⟩
  · split
    · rw [Dev.lane_cnt, LaneSt.ctr_count, if_neg hk.symm, Dev.lane_cnt, Dev.lane_cnt]
    · rw [Dev.lane_cnt, Dev.lane_cnt]
  · unfold Dev.sentCount sentCounter
    dsimp only
    split_ifs <;> rfl

/-- A frame whose last byte has been handed counts in TX_FRAMES and TX_BYTES (R78). -/
theorem Dev.ctr_sentCount (d : Dev) (l : Lane) (f : Frame) (m : Nat) :
    ((d.sentCount l f m).lane l).ctr cTX_FRAMES = satAdd 64 ((d.lane l).ctr cTX_FRAMES) 1 ∧
      ((d.sentCount l f m).lane l).ctr cTX_BYTES = satAdd 64 ((d.lane l).ctr cTX_BYTES) m := by
  obtain ⟨e, hother, he⟩ := d.sentCount_eq l f m
  have hframes := hother cTX_FRAMES (by decide)
  have hbytes := hother cTX_BYTES (by decide)
  have hne : ∀ k, sentCounter f.action = some k → k ≠ cTX_FRAMES ∧ k ≠ cTX_BYTES := by
    unfold sentCounter
    split_ifs <;> simp +decide
  rw [he]
  split
  · next k hk =>
    obtain ⟨hf, hb⟩ := hne k hk
    simp +decide [hf, hb, hframes, hbytes]
  · simp +decide [hframes, hbytes]

/-- It counts under its action (R78). -/
theorem Dev.ctr_sentCount_action (d : Dev) (l : Lane) (f : Frame) (m : Nat) {k : Fin 31}
    (hk : sentCounter f.action = some k) :
    ((d.sentCount l f m).lane l).ctr k = satAdd 64 ((d.lane l).ctr k) 1 := by
  obtain ⟨e, hother, he⟩ := d.sentCount_eq l f m
  have hne : k ≠ cVERIFY_OK ∧ cTX_FRAMES ≠ k ∧ cTX_BYTES ≠ k := by
    revert hk
    unfold sentCounter
    split_ifs <;> simp only [Option.some.injEq, false_imp_iff] <;> rintro rfl <;> decide
  obtain ⟨hv, hf, hb⟩ := hne
  rw [he, hk, Dev.lane_cnt, LaneSt.ctr_count, if_pos rfl, hother k hv]
  simp [hf, hb]

/-- The frame in egress whose last byte is handed leaves the lane and the port (R54, R65). -/
theorem Dev.egressEndOp_lane {e : Egress} (hf : d.frame l n = some f) (he : d.egress l.egress = some e)
    (hsrc : e.src = .lane l n) (hgood : f.failed = none) (hmac : macFail f.rx = none)
    (hverdict : f.verify = true → f.verdict = true) (hpoison : d.poisonAt f = none) :
    d.egressEndOp l.egress = (((((d.bufferRead l f f.rx.body.length).sentCount l f e.bytes.length).commitFrame f
      .sent).finishFrame l f).setEgress l.egress none).linkActive l.egress := by
  simp only [Dev.egressEndOp, Dev.egressDone, he, hsrc, hf]
  rw [if_neg (by simpa [hgood, hmac, hpoison] using hverdict)]

theorem Dev.frameCommitOp_inEgress (p : Port) (h : d.on .core = true) :
    d.frameCommitOp p .inEgress = (d.egressEndOp p).bktRemaps := by
  simp [Dev.frameCommitOp, h]

theorem Dev.frameCommitOp_discarded (p : Port) (l : Lane) (n : Nat) (h : d.on .core = true) :
    d.frameCommitOp p (.discarded l n) = (d.dropDone l n).bktRemaps := by
  simp [Dev.frameCommitOp, h]

theorem Dev.dropDone_dropped (hf : d.frame l n = some f) (hlooked : f.looked = true) (haction : f.action = 6)
    (hgood : f.failed = none) (hmac : macFail f.rx = none) :
    d.dropDone l n = (d.cnt l cDROPPED 1).discard l f cDISCARD_PRE := by
  simp [Dev.dropDone, hf, hlooked, haction, hgood, hmac]

end

theorem anyPoison_marked_false (bs : Bytes) : anyPoison (marked bs false) = false := by
  simp [anyPoison, marked]

theorem fst_marked (bs : Bytes) (p : Bool) : (marked bs p).map Prod.fst = bs := by
  simp [marked, Function.comp_def]

/-! ### What the commands do (R54, R64, R65) -/

section
variable {s : State} {l : Lane} {n : Nat} {f : Frame}

/-- A free egress whose port is up takes the lane's first cut-through frame. -/
theorem egressStart_cut (hcalm : s.dev.calm) (hfree : s.dev.egress l.egress = none)
    (hcut : s.dev.cutReady l = some f) :
    exec (.egressStart l.egress) s = .next (became s s.core (s.dev.begin l f)) :=
  (exec_egressStart ..).trans (State.onDev_eq (Dev.egressStartOp_cut hfree hcut) (Dev.calm_begin hcalm))

/-- A held frame that reads back as it was stored starts its egress. -/
theorem holdRelease_begins (hcalm : s.dev.calm) (hf : s.dev.frame l n = some f) (hpump : s.dev.on .pump = true)
    (hfree : s.dev.egress l.egress = none) (hready : s.dev.releasable l f = true) (hcut : s.dev.cutReady l = none)
    (hstaged : l.egress = .a → s.dev.stagedFrom 5 = none) {k : Nat} (hslot : f.slot = some k) {bs : List MByte}
    (hread : s.dev.memRead 11 (slotAddr k) f.rx.body.length = (s.dev, bs)) (hclean : anyPoison bs = false)
    (hbody : bs.map Prod.fst = f.rx.body) :
    exec (.holdRelease l n) s = .next (became s s.core (s.dev.begin l f)) := by
  refine (exec_holdRelease ..).trans (State.onDev_eq ?_ (Dev.calm_begin hcalm))
  rw [Dev.holdReleaseOp_releases hf hpump hfree hready hcut hstaged, Dev.release_slot hslot hread, if_neg]
  simp [hclean, hbody]

/-- A held frame that reads back poisoned is discarded for POISON. -/
theorem holdRelease_poisoned (hcalm : s.dev.calm) (hf : s.dev.frame l n = some f) (hpump : s.dev.on .pump = true)
    (hfree : s.dev.egress l.egress = none) (hready : s.dev.releasable l f = true) (hcut : s.dev.cutReady l = none)
    (hstaged : l.egress = .a → s.dev.stagedFrom 5 = none) {k : Nat} (hslot : f.slot = some k) (hheld : f.stage = .held)
    (hbad : anyPoison (s.dev.memRead 11 (slotAddr k) f.rx.body.length).2 = true) :
    exec (.holdRelease l n) s = .next (became s s.core
      ((s.dev.memRead 11 (slotAddr k) f.rx.body.length).1.failBefore l f .poison)) := by
  have hread : Dev.Aside s.dev (s.dev.memRead 11 (slotAddr k) f.rx.body.length).1 := Dev.Aside.memRead.mpr (.refl _)
  refine (exec_holdRelease ..).trans (State.onDev_eq ?_ ((Dev.inLane_failBefore ..).calm ((hread.inLane [] l).calm hcalm)))
  rw [Dev.holdReleaseOp_releases hf hpump hfree hready hcut hstaged, Dev.release_slot hslot Prod.mk.eta.symm, if_pos (.inl hbad),
    Dev.failFrame_before _ _ (.inr (.inl hheld))]

/-- What the end of a dropped frame leaves. -/
theorem frameCommit_drops (hcalm : s.dev.calm) (hcore : s.dev.on .core = true) (hf : s.dev.frame l n = some f)
    (hlooked : f.looked = true) (haction : f.action = 6) (hgood : f.failed = none) (hmac : macFail f.rx = none)
    (p : Port) : exec (.frameCommit p (.discarded l n)) s = .next (became s s.core
      ((s.dev.cnt l cDROPPED 1).discard l f cDISCARD_PRE).bktRemaps) := by
  have hin : Dev.InLane [] l s.dev ((s.dev.cnt l cDROPPED 1).discard l f cDISCARD_PRE).bktRemaps := by simp
  refine (exec_frameCommit ..).trans (State.onDev_eq ?_ (hin.calm hcalm))
  rw [Dev.frameCommitOp_discarded _ _ _ hcore, Dev.dropDone_dropped hf hlooked haction hgood hmac]

/-- What the end of a frame in egress leaves. -/
theorem frameCommit_sends {e : Egress} (hcalm : s.dev.calm) (hcore : s.dev.on .core = true)
    (hf : s.dev.frame l n = some f) (he : s.dev.egress l.egress = some e)
    (hsrc : e.src = .lane l n) (hgood : f.failed = none) (hmac : macFail f.rx = none)
    (hverdict : f.verify = true → f.verdict = true) (hpoison : s.dev.poisonAt f = none) :
    ∃ d : Dev, exec (.frameCommit l.egress .inEgress) s = .next (became s s.core d) ∧ d.egress l.egress = none ∧
      d.lane l = (((s.dev.bufferRead l f f.rx.body.length).sentCount l f e.bytes.length).lane l).remove n := by
  have hn := Dev.frame_n hf
  refine ⟨_, (exec_frameCommit ..).trans (State.onDev_eq ((Dev.frameCommitOp_inEgress _ hcore).trans
    (congrArg Dev.bktRemaps (Dev.egressEndOp_lane hf he hsrc hgood hmac hverdict hpoison))) ?_), ?_, ?_⟩
  · refine (Dev.InLane.bktRemaps (X := []) (l := l)).mpr (.refl ..) |>.calm (Dev.calm_setLink _ _ (Dev.calm_setEgress _ _ ?_))
    have hin : Dev.InLane [] l s.dev ((((s.dev.bufferRead l f f.rx.body.length).sentCount l f
        e.bytes.length).commitFrame f .sent).finishFrame l f) := by simp
    exact hin.calm hcalm
  · rw [((Dev.InLane.bktRemaps (X := []) (l := l)).mpr (.refl ..)).egress]
    simp
  · rw [Dev.lane_bktRemaps, Dev.lane_linkActive, Dev.lane_setEgress, Dev.lane_finishFrame, Dev.lane_commitFrame, hn]

end

/-- R53, R54, R64 to R66, R78: the first part of O37. -/
theorem framesLeave_holds : Claims.FramesLeave := by
  unfold Claims.FramesLeave
  intro s l n f hcalm hpump hcore hf
  have hn := Dev.frame_n hf
  dsimp only
  refine ⟨fun hfree hcut => ⟨fun hup => ?_, fun hdown => ?_⟩, fun k hfree hready hheld hcut hstaged hslot =>
    ⟨fun hread hclean hbody hup => ?_, fun hbad => ?_⟩, fun e he hsrc hgood hmac hverdict hpoison => ?_,
    fun hlooked haction hgood hmac => ?_⟩
  · exact ⟨_, egressStart_cut hcalm hfree hcut, rfl, Dev.begin_up hup hf⟩
  · refine ⟨_, egressStart_cut hcalm hfree hcut, rfl, ?_⟩
    change (s.dev.begin l f).egress _ = none ∧ (s.dev.begin l f).frame l n = none ∧
      ((s.dev.begin l f).lane l).ctr cEGRESS_DOWN = _
    rw [Dev.begin_down hdown, (Dev.inLane_discard ..).egress, Dev.ctr_discard, if_pos rfl]
    exact ⟨hfree, Dev.frame_discard _ hn, rfl⟩
  · have hread' : s.dev.memRead 11 (slotAddr k) f.rx.body.length =
        (s.dev, (s.dev.memRead 11 (slotAddr k) f.rx.body.length).2) := Prod.ext hread rfl
    exact ⟨_, holdRelease_begins hcalm hf hpump hfree hready hcut hstaged hslot hread' hclean hbody, rfl,
      Dev.begin_up hup hf⟩
  · have hread : Dev.Aside s.dev (s.dev.memRead 11 (slotAddr k) f.rx.body.length).1 := Dev.Aside.memRead.mpr (.refl _)
    have hpoison : (26 : Fin 31) ≠ cVERIFY_FAIL ∧ cDISCARD_PRE ≠ (26 : Fin 31) := by decide
    obtain ⟨hv, hpre⟩ := hpoison
    refine ⟨_, holdRelease_poisoned hcalm hf hpump hfree hready hcut hstaged hslot hheld hbad, rfl, ?_,
      Dev.frame_failBefore _ hn, ?_, ?_⟩
    · exact ((Dev.inLane_failBefore ..).egress _).trans (((hread.inLane [] l).egress _).trans hfree)
    · refine (Dev.ctr_failBefore _ l f .poison 26).trans ?_
      rw [if_neg hpre, Dev.ctr_failCount_reason rfl hv, hread.laneSt]
      rfl
    · refine (Dev.ctr_failBefore_pre _ l f .poison).trans ?_
      rw [hread.laneSt]
      rfl
  · obtain ⟨d, hexec, hfree, hlane⟩ := frameCommit_sends hcalm hcore hf he hsrc hgood hmac hverdict hpoison
    have hread (k : Fin 31) : ((s.dev.bufferRead l f f.rx.body.length).lane l).ctr k = (s.dev.lane l).ctr k := by
      rw [Dev.lane_bufferRead]
    have hctr (k : Fin 31) : (d.lane l).ctr k =
        (((s.dev.bufferRead l f f.rx.body.length).sentCount l f e.bytes.length).lane l).ctr k := by
      rw [hlane, LaneSt.ctr_remove]
    obtain ⟨hframes, hbytes⟩ := Dev.ctr_sentCount (s.dev.bufferRead l f f.rx.body.length) l f e.bytes.length
    have haction {k : Fin 31} (hk : sentCounter f.action = some k) : (d.lane l).ctr k = satAdd 64 ((s.dev.lane l).ctr k) 1 :=
      (hctr k).trans ((Dev.ctr_sentCount_action _ _ _ _ hk).trans (by rw [hread]))
    refine ⟨_, hexec, rfl, hfree, ?_, (hctr _).trans (hframes.trans (by rw [hread]; rfl)),
      (hctr _).trans (hbytes.trans (by rw [hread]; rfl)), fun h => haction (k := 4) ?_, fun h => haction (k := 5) ?_,
      fun h => haction (k := 8) ?_⟩
    · change (d.lane l).frame n = none
      rw [hlane, LaneSt.frame_remove]
    all_goals rw [h]; rfl
  · refine ⟨_, frameCommit_drops hcalm hcore hf hlooked haction hgood hmac _, rfl, ?_, ?_, ?_⟩
    · change LaneSt.frame (Dev.lane (Dev.bktRemaps _) l) n = none
      rw [Dev.lane_bktRemaps]
      exact Dev.frame_discard _ hn
    · change LaneSt.ctr (Dev.lane (Dev.bktRemaps _) l) cDROPPED = _
      rw [Dev.lane_bktRemaps, Dev.ctr_discard, if_neg (by decide), Dev.lane_cnt, LaneSt.ctr_count, if_pos rfl]
      rfl
    · change LaneSt.ctr (Dev.lane (Dev.bktRemaps _) l) cDISCARD_PRE = _
      rw [Dev.lane_bktRemaps, Dev.ctr_discard, if_pos rfl, Dev.lane_cnt, LaneSt.ctr_count, if_neg (by decide)]
      rfl

/-- R54, R64, R65: the first part of O36. -/
theorem framesPass_holds : Claims.FramesPass := by
  unfold Claims.FramesPass
  intro s l n f hcalm hpump hcore hf
  dsimp only
  refine ⟨fun hfree hup => ⟨fun hcut => ?_, fun k hcut hready hheld hslot hstaged hread => ?_⟩,
    fun hlooked haction hgood hmac => ?_⟩
  · exact ⟨_, _, egressStart_cut hcalm hfree hcut, rfl, (Dev.begin_up hup hf).1, rfl, rfl, rfl⟩
  · exact ⟨_, _, holdRelease_begins hcalm hf hpump hfree hready hcut hstaged hslot hread (anyPoison_marked_false _)
      (fst_marked ..), rfl, (Dev.begin_up hup hf).1, rfl, rfl, rfl⟩
  · have hin : Dev.InLane [] l s.dev ((s.dev.cnt l cDROPPED 1).discard l f cDISCARD_PRE).bktRemaps := by simp
    refine ⟨_, frameCommit_drops hcalm hcore hf hlooked haction hgood hmac _, rfl, ?_, hin.egress _⟩
    change LaneSt.frame (Dev.lane (Dev.bktRemaps _) l) n = none
    rw [Dev.lane_bktRemaps]
    exact Dev.frame_discard _ (Dev.frame_n hf)

end Sys2Proof.Machine
end

section
/-! PROOFS. What TAG and STRIP send (R44, R68, R91, R92): the FCS, the corrected header, and the places of the value, the
padding and the trailer. -/
namespace Sys2Proof.Machine
open Sys2Proof.Claims

/-! ### The check values (R44) -/

theorem foldl_lt_of_step {α : Type} {f : Nat → α → Nat} {b : Nat} (hf : ∀ x a, x < b → f x a < b) {l : List α} {x : Nat}
    (h : x < b) : l.foldl f x < b := by
  induction l generalizing x with
  | nil => exact h
  | cons a t ih => exact ih (hf x a h)

theorem crc32Byte_lt {s : Nat} (b : Byte) (h : s < 2 ^ 32) : crc32Byte s b < 2 ^ 32 := by
  have hb : b.toNat < 2 ^ 32 := lt_of_lt_of_le b.isLt (by decide)
  refine foldl_lt_of_step (fun c _ hc => ?_) (Nat.xor_lt_two_pow h hb)
  split
  · exact Nat.xor_lt_two_pow (by omega) (by decide)
  · omega

theorem crc32_lt (bs : Bytes) : crc32 bs < 2 ^ 32 :=
  Nat.xor_lt_two_pow (foldl_lt_of_step (fun _ b h => crc32Byte_lt b h) (by decide)) (by decide)

@[simp] theorem length_leBytes (n v : Nat) : (leBytes n v).length = n := by
  induction n generalizing v with
  | zero => rfl
  | succ n ih => simp [leBytes, ih]

@[simp] theorem length_withFcs (bs : Bytes) : (withFcs bs).length = bs.length + 4 := by simp [withFcs]

theorem fcsGood_withFcs (bs : Bytes) : fcsGood (withFcs bs) = true := by
  have hcrc : leNat (leBytes 4 (crc32 bs)) = crc32 bs := (leNat_leBytes ..).trans (Nat.mod_eq_of_lt (crc32_lt bs))
  simp [fcsGood, withFcs, hcrc]

/-! ### Bytes that are replaced -/

theorem getElem?_patch {bs : Bytes} {i : Nat} (new : Bytes) (h : i ≤ bs.length) (q : Nat) : (patch bs i new)[q]? =
    if q < i then bs[q]? else if q < i + new.length then new[q - i]? else bs[q]? := by
  have hlen : min i bs.length = i := Nat.min_eq_left h
  unfold patch
  rw [List.append_assoc, List.getElem?_append, List.length_take, hlen]
  split
  · next hq => exact List.getElem?_take_of_lt hq
  · rw [List.getElem?_append]
    split
    · rw [if_pos (by omega)]
    · rw [if_neg (by omega), List.getElem?_drop]
      congr 1
      omega

theorem length_patch {bs new : Bytes} {i : Nat} (h : i + new.length ≤ bs.length) :
    (patch bs i new).length = bs.length := by
  simp [patch]
  omega

theorem byteAt_eq (bs : Bytes) (q : Nat) : byteAt bs q = (bs[q]?.getD 0).toNat := by
  rw [byteAt, List.getD_eq_getElem?_getD]

@[simp] theorem length_beBytes (n v : Nat) : (beBytes n v).length = n := by simp [beBytes]

theorem length_padTo_take (n : Nat) (bs : Bytes) : (padTo n (bs.take n)).length = n := by
  simp [padTo]

section
variable {bs reserved : Bytes} {len : Nat}

theorem length_reheaded (h : etypeAt bs + 10 ≤ bs.length) : (reheaded bs len reserved).length = bs.length := by
  have hlen : (patch bs (etypeAt bs + 4) (beBytes 2 (len % 65536))).length = bs.length :=
    length_patch (by rw [length_beBytes]; omega)
  unfold reheaded
  rw [length_patch (by rw [length_padTo_take, hlen]; omega), hlen]

theorem getElem?_reheaded (h : etypeAt bs + 10 ≤ bs.length) (q : Nat) (hq : q < etypeAt bs + 6 ∨ etypeAt bs + 10 ≤ q) :
    (reheaded bs len reserved)[q]? =
      if q < etypeAt bs + 4 ∨ etypeAt bs + 6 ≤ q then bs[q]? else (beBytes 2 (len % 65536))[q - (etypeAt bs + 4)]? := by
  have hlen : (patch bs (etypeAt bs + 4) (beBytes 2 (len % 65536))).length = bs.length :=
    length_patch (by rw [length_beBytes]; omega)
  have hin : (reheaded bs len reserved)[q]? = (patch bs (etypeAt bs + 4) (beBytes 2 (len % 65536)))[q]? := by
    unfold reheaded
    rw [getElem?_patch _ (by rw [hlen]; omega), length_padTo_take]
    split
    · rfl
    · rw [if_neg (by omega)]
  rw [hin, getElem?_patch _ (by omega), length_beBytes]
  by_cases hlo : q < etypeAt bs + 4
  · rw [if_pos hlo, if_pos (.inl hlo)]
  · by_cases hhi : q < etypeAt bs + 6
    · rw [if_neg hlo, if_pos (by omega), if_neg (by omega)]
    · rw [if_neg hlo, if_neg (by omega), if_pos (by omega)]

end

/-- A frame that starts with the corrected header: its Length, and the bytes around the header's words (R91, R92). -/
theorem reheaded_front {bs : Bytes} (reserved tail : Bytes) {len a : Nat} (ha : etypeAt bs + 10 ≤ a)
    (hlen : a ≤ bs.length) :
    (∀ q, q < etypeAt bs + 4 ∨ (etypeAt bs + 10 ≤ q ∧ q < a) →
      byteAt ((reheaded bs len reserved).take a ++ tail) q = byteAt bs q) ∧
    be16 ((reheaded bs len reserved).take a ++ tail) (etypeAt bs + 4) = len % 65536 := by
  have hbs : etypeAt bs + 10 ≤ bs.length := by omega
  have hfront (q : Nat) (hq : q < a) : ((reheaded bs len reserved).take a ++ tail)[q]? = (reheaded bs len reserved)[q]? := by
    rw [List.getElem?_append_left (by rw [List.length_take, length_reheaded hbs]; omega), List.getElem?_take_of_lt hq]
  refine ⟨fun q hq => ?_, ?_⟩
  · rw [byteAt_eq, byteAt_eq, hfront q (by omega), getElem?_reheaded hbs q (by omega), if_pos (by omega)]
  · rw [be16, byteAt_eq, byteAt_eq, hfront _ (by omega), hfront _ (by omega), getElem?_reheaded hbs _ (by omega),
      getElem?_reheaded hbs _ (by omega), if_neg (by omega), if_neg (by omega), Nat.sub_self,
      show etypeAt bs + 4 + 1 - (etypeAt bs + 4) = 1 by omega]
    simp [beBytes, leBytes]
    omega

/-! ### TAG and STRIP -/

theorem length_trailerOf (f : RxFrame) (up down : Nat) : (trailerOf f up down).length = if trailed f then 6 else 0 := by
  unfold trailerOf
  split
  · next h =>
    have hbody : f.body.length = f.bytes.length ∧ 24 ≤ f.bytes.length := by
      simp only [trailed, hasPrp, RxFrame.len, Bool.and_eq_true, decide_eq_true_eq] at h
      have hlen : f.bytes.length ≤ 1536 := of_decide_eq_true h.1
      have : 12 ≤ etypeAt f.bytes := by unfold etypeAt; split <;> omega
      simp only [RxFrame.body, List.length_take]
      omega
    have hslice : (slice f.body (tailAt f) 6).length = 6 := by
      simp only [slice, tailAt, h, if_true, List.length_take, List.length_drop]
      omega
    rw [prpResized, length_patch (by rw [length_beBytes]; omega), hslice]
  · rfl

theorem stripFrame_length (f : RxFrame) (x : Ext) : 64 ≤ (stripFrame f x).length := by
  unfold stripFrame
  dsimp only
  rw [length_withFcs, List.length_append, List.length_append, length_trailerOf, List.length_replicate]
  omega

/-- The frame that TAG sends starts with its front part and the value over it. -/
theorem tagFrame_value (f : RxFrame) (alg keyId : Nat) (key : Bytes) : ∃ tail, tagFrame f alg keyId key =
    tagFront f alg keyId ++ (authValue alg key (Config.tagIv (tagFront f alg keyId)) (slice (tagFront f alg keyId)
      (Config.tagSpan (tagFront f alg keyId)).1
      ((Config.tagSpan (tagFront f alg keyId)).2 - (Config.tagSpan (tagFront f alg keyId)).1)) ++ tail) :=
  ⟨_, by rw [tagFrame, withFcs]; simp only [List.append_assoc]; rfl⟩

/-- It starts with the header corrected by the extension's bytes. -/
theorem tagFrame_header (f : RxFrame) (alg keyId : Nat) (key : Bytes) : ∃ reserved tail, tagFrame f alg keyId key =
    (reheaded f.body (lengthOf f.body + tagLength alg) reserved).take f.deep.apduEnd ++ tail :=
  ⟨_, _, by rw [tagFrame, withFcs, tagFront]; simp only [List.append_assoc]; rfl⟩

/-- The frame that STRIP sends starts with the header corrected back. -/
theorem stripFrame_header (f : RxFrame) (x : Ext) : ∃ reserved tail, stripFrame f x =
    (reheaded f.body (lengthOf f.body - (x.valEnd - f.deep.apduEnd)) reserved).take f.deep.apduEnd ++ tail :=
  ⟨_, _, by rw [stripFrame, withFcs]; simp only [List.append_assoc]; rfl⟩

/-- R91, R92: the second part of O37. -/
theorem framesRewritten_holds : Claims.FramesRewritten := by
  unfold Claims.FramesRewritten
  intro f x alg keyId key
  dsimp only
  refine ⟨fcsGood_withFcs _, fcsGood_withFcs _, stripFrame_length f x, ?_, fun hlo hhi => ?_⟩
  · obtain ⟨tail, htag⟩ := tagFrame_value f alg keyId key
    rw [htag, List.drop_left, List.take_left]
  · obtain ⟨tagReserved, tagTail, htag⟩ := tagFrame_header f alg keyId key
    obtain ⟨reserved, tail, hstrip⟩ := stripFrame_header f x
    obtain ⟨tagBytes, tagLen⟩ := reheaded_front tagReserved tagTail (len := lengthOf f.body + tagLength alg) hlo hhi
    obtain ⟨bytes, len⟩ := reheaded_front reserved tail (len := lengthOf f.body - (x.valEnd - f.deep.apduEnd)) hlo hhi
    rw [htag, hstrip]
    exact ⟨fun q hq => ⟨tagBytes q hq, bytes q hq⟩, tagLen, len⟩

/-- Settles O37: what the commands leave of the frame that goes, and what TAG and STRIP make of its bytes. -/
theorem framesLeave : Obligations.FramesLeave := ⟨framesLeave_holds, framesRewritten_holds⟩

end Sys2Proof.Machine
end

section
/-! PROOFS. A frame's failure (R57, R59 to R62, R77, R78): its record, its discard before egress, and its stomp. -/
namespace Sys2Proof.Machine
open Sys2Proof.Claims

theorem exec_frameFailure (s : State) (l : Lane) (n : Nat) (why : FailKind) (p : Nat) :
    exec (.frameFailure l n why p) s = s.onDev fun d => d.frameFailureOp l n why p := rfl

/-! ### The record in LANE_LAST (R57, R77) -/

section
variable (d : Dev) (l : Lane) (f : Frame) (why : FailKind) (stomp : Option Nat)

theorem asideReg_laneLast : asideReg (laneField l F.LANE_LAST_REASON).addr = false := by cases l <;> decide

theorem laneLast_ne_trouble : (laneField l F.LANE_LAST_REASON).addr ≠ F.EVT_TRBL_TRBL.addr :=
  Dev.InLane.laneReg_ne l (by decide)

theorem failCode_lt : failCode why < 16 := by cases why <;> decide

/-- The bits of LANE_LAST below the stream's number. -/
theorem Dev.laneLast_failRecord : ((d.failRecord l f why stomp).reg (laneField l F.LANE_LAST_REASON).addr).toNat % 64 =
    b2n stomp.isSome * 2 ^ 5 + b2n f.stream.isNone * 2 ^ 4 + failCode why := by
  have hcode := failCode_lt why
  have hbit (b : Bool) : b2n b ≤ 1 := by cases b <;> decide
  have hstomp := hbit stomp.isSome
  have hstream := hbit f.stream.isNone
  unfold Dev.failRecord
  dsimp only
  rw [(Dev.Aside.event.mpr (.refl _)).reg _ (asideReg_laneLast l) (laneLast_ne_trouble l), Dev.reg_setReg_same,
    BitVec.toNat_ofNat]
  omega

theorem Dev.laneLast_reason : (d.failRecord l f why stomp).get (laneField l F.LANE_LAST_REASON) = failCode why := by
  have hword := d.laneLast_failRecord l f why stomp
  have hcode := failCode_lt why
  have hget : (d.failRecord l f why stomp).get (laneField l F.LANE_LAST_REASON) =
      ((d.failRecord l f why stomp).reg (laneField l F.LANE_LAST_REASON).addr).toNat % 16 := by
    rw [Dev.get, bitsOf_eq]
    cases l <;> simp [laneField, Fl.plus, F.LANE_LAST_REASON]
  omega

theorem Dev.laneLast_stomped :
    (d.failRecord l f why stomp).get (laneField l F.LANE_LAST_STOMPED) = b2n stomp.isSome := by
  have hword := d.laneLast_failRecord l f why stomp
  have hcode := failCode_lt why
  have hbit (b : Bool) : b2n b ≤ 1 := by cases b <;> decide
  have hstomp := hbit stomp.isSome
  have hstream := hbit f.stream.isNone
  have hget : (d.failRecord l f why stomp).get (laneField l F.LANE_LAST_STOMPED) =
      ((d.failRecord l f why stomp).reg (laneField l F.LANE_LAST_REASON).addr).toNat / 32 % 2 := by
    rw [Dev.get, bitsOf_eq]
    cases l <;> simp [laneField, Fl.plus, F.LANE_LAST_STOMPED, F.LANE_LAST_REASON]
  omega

end

section
variable {d : Dev} {l : Lane} {n : Nat} {f : Frame}

/-- An operation on the lane that leaves its LANE_LAST keeps the record. -/
theorem Dev.InLane.laneLast {e : Dev} (h : Dev.InLane [] l d e) :
    e.get (laneField l F.LANE_LAST_REASON) = d.get (laneField l F.LANE_LAST_REASON) ∧
      e.get (laneField l F.LANE_LAST_STOMPED) = d.get (laneField l F.LANE_LAST_STOMPED) := by
  have hreg := h.reg _ (asideReg_laneLast l) (laneLast_ne_trouble l) (by simp)
  exact ⟨Dev.get_congr hreg, Dev.get_congr (by cases l <;> exact hreg)⟩

/-- What a discard before egress leaves in LANE_LAST. -/
theorem Dev.laneLast_failBefore (d : Dev) (l : Lane) (f : Frame) (why : FailKind) :
    (d.failBefore l f why).get (laneField l F.LANE_LAST_REASON) = failCode why ∧
      (d.failBefore l f why).get (laneField l F.LANE_LAST_STOMPED) = 0 := by
  obtain ⟨hreason, hstomped⟩ := (Dev.inLane_discard ((d.failCount l f why).failRecord l f why none) l
    { f with failed := some why } cDISCARD_PRE).laneLast
  exact ⟨hreason.trans (Dev.laneLast_reason ..), hstomped.trans (Dev.laneLast_stomped ..)⟩

/-! ### The stomp (R60, R61) -/

/-- The lane behind the stomp of its frame at `q`, and before the port's egress is changed. -/
def Dev.stompDone (d : Dev) (l : Lane) (f : Frame) (why : FailKind) (q : Nat) : Dev :=
  ((((((d.bufferRead l f (q + 1)).failCount l f why).failRecord l f why (some q)).cnt l cSTOMPED 1).commitFrame
    { f with failed := some why } .stomped).finishFrame l { f with failed := some why })

theorem Dev.failFrame_stomps {e : Egress} (why : FailKind) (p : Nat) (hstage : f.stage = .egress)
    (he : d.egress l.egress = some e) (hsrc : e.src = .lane l f.n) (hstomp : e.stomp = none) :
    d.failFrame l f why p = (d.stompDone l f why (min (d.stompAt f why p) (e.bytes.length - 1))).stomp l.egress e
      (min (d.stompAt f why p) (e.bytes.length - 1)) := by
  unfold Dev.failFrame Dev.stompDone
  rw [hstage, he]
  dsimp only
  rw [if_pos ⟨hsrc, by simp [hstomp]⟩]

theorem Dev.failFrame_diverts (why : FailKind) (p : Nat) (hstage : f.stage = .divert) : d.failFrame l f why p =
    ((d.failCount l f why).failRecord l f why none).putFrame l { f with failed := some why, reported := true } := by
  unfold Dev.failFrame
  rw [hstage]

theorem Dev.inLane_stompDone (d : Dev) (l : Lane) (f : Frame) (why : FailKind) (q : Nat) :
    Dev.InLane [(laneField l F.LANE_LAST_REASON).addr] l d (d.stompDone l f why q) := by
  unfold Dev.stompDone
  simp [Dev.InLane.failRecord]

theorem Dev.frame_stompDone (why : FailKind) (q : Nat) (hn : f.n = n) : (d.stompDone l f why q).frame l n = none := by
  unfold Dev.stompDone
  rw [Dev.frame, Dev.lane_finishFrame, hn, LaneSt.frame_remove]

theorem Dev.ctr_stompDone (d : Dev) (l : Lane) (f : Frame) (why : FailKind) (q : Nat) :
    ((d.stompDone l f why q).lane l).ctr cSTOMPED = satAdd 64 ((d.lane l).ctr cSTOMPED) 1 := by
  unfold Dev.stompDone
  rw [Dev.lane_finishFrame, LaneSt.ctr_remove, Dev.lane_commitFrame, Dev.lane_cnt, LaneSt.ctr_count, if_pos rfl,
    Dev.lane_failRecord, Dev.ctr_failCount _ _ _ _ (by decide) (failCounter_ne (by decide)), Dev.lane_bufferRead]

theorem Dev.laneLast_stompDone (d : Dev) (l : Lane) (f : Frame) (why : FailKind) (q : Nat) :
    (d.stompDone l f why q).get (laneField l F.LANE_LAST_REASON) = failCode why ∧
      (d.stompDone l f why q).get (laneField l F.LANE_LAST_STOMPED) = 1 := by
  have hrest : Dev.InLane [] l (((d.bufferRead l f (q + 1)).failCount l f why).failRecord l f why (some q))
      (d.stompDone l f why q) := by
    unfold Dev.stompDone
    simp
  obtain ⟨hreason, hstomped⟩ := hrest.laneLast
  exact ⟨hreason.trans (Dev.laneLast_reason ..), hstomped.trans (Dev.laneLast_stomped ..)⟩

/-- A lane's work leaves the ports' speeds. -/
theorem Dev.InLane.linkSpeed {X : List Nat} {e : Dev} (h : Dev.InLane X l d e) (p : Port)
    (hX : ∀ a ∈ X, a / 0x1000 = 0x40100) : e.linkSpeed p = d.linkSpeed p := by
  unfold Dev.linkSpeed Dev.linkGet
  have haddr : asideReg (portField p F.LINK_STAT_SPEED).addr = false ∧
      (portField p F.LINK_STAT_SPEED).addr ≠ F.EVT_TRBL_TRBL.addr ∧
      (portField p F.LINK_STAT_SPEED).addr / 0x1000 ≠ 0x40100 := by cases p <;> decide
  obtain ⟨ha, ht, hlane⟩ := haddr
  rw [h.on, h.get ha ht fun hx => hlane (hX _ hx)]

theorem Dev.lane_stomp (d : Dev) (k : Lane) (o : Port) (e : Egress) (q : Nat) : (d.stomp o e q).lane k = d.lane k :=
  Dev.lane_setEgress ..

theorem Dev.get_stomp (d : Dev) (o : Port) (e : Egress) (q : Nat) (x : Fl) : (d.stomp o e q).get x = d.get x := by
  cases o <;> rfl

end

/-! ### The code groups of a stomp (R61) -/

theorem length_repeated {α β : Type} (g : α → β) (r : Nat) (bs : List α) :
    (bs.flatMap fun b => List.replicate r (g b)).length = bs.length * r := by
  simp [List.length_flatMap, List.sum_replicate]

/-- Where each element is repeated `r` times, element `k` stands from `k * r` on. -/
theorem slice_repeated {α β : Type} (g : α → β) (r : Nat) (tail : List β) {bs : List α} {k : Nat} {b : α}
    (h : bs[k]? = some b) :
    (((bs.flatMap fun b => List.replicate r (g b)) ++ tail).drop (k * r)).take r = List.replicate r (g b) := by
  induction bs generalizing k with
  | nil => cases h
  | cons a t ih =>
    rw [List.flatMap_cons, List.append_assoc]
    cases k with
    | zero =>
      cases h
      simp
    | succ k =>
      have hk : (k + 1) * r = (List.replicate r (g a)).length + k * r := by
        rw [List.length_replicate, Nat.succ_mul, Nat.add_comm]
      rw [hk, List.drop_append, List.drop_of_length_le (by omega), List.nil_append, Nat.add_sub_cancel_left]
      exact ih h

theorem length_stompCheck (bs : Bytes) (q : Nat) : (stompCheck bs q).length = 4 := length_leBytes ..

section
variable (r : Nat) (bs : Bytes) (q : Nat)

theorem stompTail_eq : stompTail r bs q = List.replicate r .v ++ (((stompCheck bs q).flatMap fun b =>
    List.replicate r (CodeGroup.data b)) ++ ([.t, .r] ++ if r * (q + 13) % 2 = 1 then [.r] else [])) := by
  simp [stompTail]

theorem stompTail_void : (stompTail r bs q).take r = List.replicate r .v := by
  rw [stompTail_eq]
  exact List.take_left' (List.length_replicate)

theorem stompTail_end : (stompTail r bs q).drop (5 * r) = [.t, .r] ++ if r * (q + 13) % 2 = 1 then [.r] else [] := by
  have hlen : (List.replicate r CodeGroup.v ++ (stompCheck bs q).flatMap fun b =>
      List.replicate r (CodeGroup.data b)).length = 5 * r := by
    rw [List.length_append, List.length_replicate, length_repeated, length_stompCheck]
    omega
  rw [stompTail_eq, ← List.append_assoc]
  exact List.drop_left' hlen

theorem stompTail_check {k : Nat} {b : Byte} (h : (stompCheck bs q)[k]? = some b) :
    ((stompTail r bs q).drop ((k + 1) * r)).take r = List.replicate r (.data b) := by
  have hk : (k + 1) * r = r + k * r := by rw [Nat.succ_mul, Nat.add_comm]
  rw [stompTail_eq, hk, ← List.drop_drop, List.drop_left' List.length_replicate]
  exact slice_repeated _ r _ h

end

theorem Dev.stompAt_value (d : Dev) {f : Frame} {x : Ext} (p : Nat) (hx : f.rx.deep.ext = some x) :
    d.stompAt f .value p ≤ x.valEnd - 1 := by
  simp [Dev.stompAt, hx]

/-! ### The command -/

theorem Dev.frameFailureOp_fails {d : Dev} {l : Lane} {n : Nat} {f : Frame} {why : FailKind} (p : Nat)
    (hf : d.frame l n = some f) (hpump : d.on .pump = true) (hwhy : d.failureIs f why = true)
    (hstage : f.stage = .reserve → d.laneState l = laneCATCH_UP) (hnew : f.reported = false) :
    d.frameFailureOp l n why p = d.failFrame l f why p := by
  simp [Dev.frameFailureOp, hf, hpump, hwhy, hnew]
  exact fun h hno => absurd (hstage h) hno

/-- R59 to R62, R77, R78: the second part of O36. -/
theorem failuresEnd_holds : Claims.FailuresEnd := by
  unfold Claims.FailuresEnd
  intro s l n p f why hcalm hpump hf hwhy hnew
  have hn := Dev.frame_n hf
  dsimp only
  refine ⟨fun hstage => ?_, fun hstage => ?_, fun e hstage he hsrc hstomp => ?_⟩
  · have hin := s.dev.inLane_failBefore l f why
    have hop : s.dev.frameFailureOp l n why p = s.dev.failBefore l f why := by
      rw [Dev.frameFailureOp_fails p hf hpump hwhy (fun h => ?_) hnew, Dev.failFrame_before]
      · exact hstage.imp_right fun h => h.imp_right And.left
      · obtain hin | hheld | ⟨-, hcatch⟩ := hstage
        · rw [hin] at h; cases h
        · rw [hheld] at h; cases h
        · exact hcatch
    obtain ⟨hreason, hstomped⟩ := s.dev.laneLast_failBefore l f why
    exact ⟨_, (exec_frameFailure ..).trans (State.onDev_eq hop (hin.calm hcalm)),
      ⟨rfl, rfl, Dev.frame_failBefore why hn, hreason, hin.other⟩, Dev.ctr_failBefore_pre .., hstomped, hin.egress⟩
  · have hop : s.dev.frameFailureOp l n why p = _ :=
      (Dev.frameFailureOp_fails p hf hpump hwhy (fun h => by rw [hstage] at h; cases h) hnew).trans
        (Dev.failFrame_diverts why p hstage)
    have hin : Dev.InLane [(laneField l F.LANE_LAST_REASON).addr] l s.dev (((s.dev.failCount l f why).failRecord l f why
        none).putFrame l { f with failed := some why, reported := true }) := by
      simp [Dev.InLane.failRecord]
    refine ⟨_, (exec_frameFailure ..).trans (State.onDev_eq hop (hin.calm hcalm)), rfl, ?_⟩
    obtain ⟨c, hc⟩ := s.dev.lane_failCount l f why
    change LaneSt.frame (Dev.lane (Dev.putFrame _ l _) l) n = _
    rw [Dev.lane_putFrame, Dev.lane_failRecord, hc]
    subst hn
    exact LaneSt.frame_put (f := { f with failed := some why, reported := true }) hf
  · have hop : s.dev.frameFailureOp l n why p = _ :=
      (Dev.frameFailureOp_fails p hf hpump hwhy (fun h => by rw [hstage] at h; cases h) hnew).trans
        (Dev.failFrame_stomps why p hstage he (hn ▸ hsrc) hstomp)
    generalize hq : min (s.dev.stompAt f why p) (e.bytes.length - 1) = q at hop
    have hin := s.dev.inLane_stompDone l f why q
    have hspeed : (s.dev.stompDone l f why q).linkSpeed l.egress = s.dev.linkSpeed l.egress :=
      hin.linkSpeed _ (by cases l <;> simp +decide)
    obtain ⟨hreason, hstomped⟩ := s.dev.laneLast_stompDone l f why q
    refine ⟨_, stompTail (byteReps (s.dev.linkSpeed l.egress)) e.bytes q,
      (exec_frameFailure ..).trans (State.onDev_eq hop (Dev.calm_setEgress _ _ (hin.calm hcalm))),
      ⟨rfl, rfl, ?_, ?_, ?_⟩, ?_, ?_, ?_, stompTail_void .., stompTail_end .., fun k b => stompTail_check _ _ _, ?_⟩
    · exact (congrArg (LaneSt.frame · n) (Dev.lane_stomp ..)).trans (Dev.frame_stompDone why q hn)
    · exact (Dev.get_stomp ..).trans hreason
    · exact (Dev.lane_stomp ..).trans hin.other
    · exact (congrArg (LaneSt.ctr · cSTOMPED) (Dev.lane_stomp ..)).trans (Dev.ctr_stompDone ..)
    · exact (Dev.get_stomp ..).trans hstomped
    · refine (Dev.egress_setEgress ..).trans ?_
      rw [hspeed]
      rfl
    · rintro rfl x hx
      have := s.dev.stompAt_value p hx
      omega

/-- Settles O36: how a frame goes on, and how it fails. -/
theorem failuresEnd : Obligations.FailuresEnd := ⟨framesPass_holds, failuresEnd_holds⟩

end Sys2Proof.Machine
end

section
/-! PROOFS. What a register write leaves alone and what its fields take (R8, R12, R235), for the registers of the lanes and
the links. -/
namespace Sys2Proof.Machine
open Sys2Proof.Claims

section
variable {d : Dev} {m : Master} {a w : Nat}

/-- A write of a register that configures no ring changes that register and the clamp log alone. -/
theorem Dev.reg_writeField (d : Dev) (m : Master) (w : Nat) (x : Dev × Nat) {f : Fld} (hring : isRingCfg f = false)
    {b : Nat} (hb : b ≠ a) (hlog : isClampLog b = false) : (d.writeField m a w x f).1.reg b = x.1.reg b := by
  obtain e | ⟨v, e⟩ | ⟨hr, -⟩ | ⟨-, v, u, c, e⟩ := d.writeField_cases m a w x f
  · rw [e]
  · rw [e, Dev.reg_put_ne _ _ _ hb]
  · exact absurd (hring.symm.trans hr) (by decide)
  · rw [e, Dev.reg_logClamp _ _ _ _ _ _ _ hlog, Dev.reg_put_ne _ _ _ hb]

theorem Dev.reg_writeFields (d : Dev) (m : Master) (w : Nat) {l : List Fld} (hring : ∀ f ∈ l, isRingCfg f = false)
    {b : Nat} (hb : b ≠ a) (hlog : isClampLog b = false) (x : Dev × Nat) :
    (l.foldl (d.writeField m a w) x).1.reg b = x.1.reg b := by
  induction l generalizing x with
  | nil => rfl
  | cons f l ih =>
    obtain ⟨hf, hl⟩ := List.forall_mem_cons.1 hring
    exact (ih hl _).trans (d.reg_writeField m w x hf hb hlog)

/-- A field that is neither fixed, locked nor clamped holds the written bits behind a write that is no FIELD case: its
writer reaches it, or the bits are those that are there. -/
theorem Dev.get_writeFields_takes {f : Fld} (hf : f ∈ fieldsAt a) (hacc : f.acc = .rw) (howner : f.owner ≠ .hw)
    (hcase : d.fieldCase m a w = false) (hfix : d.fieldFixed a f = false) (hlock : d.fieldLocked a f = false)
    (hclamp : d.fieldClamp a w f (bitsOf w f.hi f.lo) = bitsOf w f.hi f.lo)
    (hstore : fieldStore a f (bitsOf w f.hi f.lo) = bitsOf w f.hi f.lo) :
    ((fieldsAt a).reverse.foldl (d.writeField m a w) (d, 0)).1.get (f.at a) = bitsOf w f.hi f.lo := by
  obtain ⟨x, hx, ht⟩ := d.get_writeFields m w hf
  rw [ht]
  cases hr : f.owner.reached (masterLevel m) with
  | true =>
    rw [d.get_writeField_rw m w x hf hr (.inl hacc), if_neg (by simp [hfix, hlock]), hclamp, hstore]
    exact Nat.mod_eq_of_lt (bitsOf_lt ..)
  | false =>
    rw [d.writeField_of_not_reached m a w x hr, hx]
    by_contra hne
    have hmeant : d.fieldMeant a w f = true := by
      simp only [Dev.fieldMeant, hacc, hfix, hlock]
      simpa using Ne.symm hne
    exact absurd (hr.symm.trans (Dev.reached_of_meant hcase hf howner hmeant)) (by decide)

/-- Bits reach write-only fields alone. -/
theorem Dev.acted_writeField (d : Dev) (m : Master) (a w : Nat) (x : Dev × Nat) {f : Fld} (h : f.acc ≠ .wo) :
    (d.writeField m a w x f).2 = x.2 := by
  unfold Dev.writeField
  dsimp only
  split
  · rfl
  · cases hacc : f.acc
    case wo => exact absurd hacc h
    case ro => rfl
    case w1c => rfl
    case rws => dsimp only; split <;> rfl
    case rw => dsimp only; split_ifs <;> rfl
    case rwl => dsimp only; split_ifs <;> rfl

/-- The fields of a write keep what a lane's work keeps, but for the register itself. -/
theorem Dev.inLane_writeFields (d : Dev) (m : Master) (l : Lane) (hring : ∀ f ∈ fieldsAt a, isRingCfg f = false)
    (ha : a ≠ F.EVT_TRBL_TRBL.addr) :
    Dev.InLane [a] l d ((fieldsAt a).reverse.foldl (d.writeField m a w) (d, 0)).1 := by
  have honly := d.regsOnly_writeFields m a w (fieldsAt a).reverse (d, 0)
  have hreg {b : Nat} (hb : b ≠ a) (hlog : isClampLog b = false) :=
    d.reg_writeFields m w (l := (fieldsAt a).reverse) (fun f hf => hring f (List.mem_reverse.1 hf)) hb hlog (d, 0)
  generalize ((fieldsAt a).reverse.foldl (d.writeField m a w) (d, 0)).1 = e at honly hreg ⊢
  refine ⟨by rw [honly], by rw [honly]; exact Dev.lane_congr rfl rfl _, fun b hb _ hne => hreg (by simpa using hne) ?_,
    congrArg (bitAt · tLANE) (Dev.get_congr (hreg ha.symm (by decide)))⟩
  simp only [asideReg, Bool.and_eq_false_iff, bne_eq_false_iff_eq] at hb
  simp only [isClampLog, Bool.or_eq_false_iff, Bool.and_eq_false_iff, beq_eq_false_iff_ne, decide_eq_false_iff_not]
  omega

theorem Dev.RegsOnly.lane {e : Dev} (h : d.RegsOnly e) (l : Lane) : e.lane l = d.lane l := by
  rw [h]
  exact Dev.lane_congr rfl rfl l

theorem Dev.RegsOnly.calm {e : Dev} (h : d.RegsOnly e) (hd : d.calm) : e.calm := by
  rw [h]
  exact hd

theorem Dev.RegsOnly.chans {e : Dev} (h : d.RegsOnly e) : e.chans = d.chans := by rw [h]

theorem Dev.reg_setLane (d : Dev) (l : Lane) (x : LaneSt) (a : Nat) : (d.setLane l x).reg a = d.reg a := by
  cases l <;> rfl

theorem Dev.lane_writeFields (d : Dev) (m : Master) (a w : Nat) (l : Lane) :
    ((fieldsAt a).reverse.foldl (d.writeField m a w) (d, 0)).1.lane l = d.lane l :=
  (d.regsOnly_writeFields m a w (fieldsAt a).reverse (d, 0)).lane l

end

end Sys2Proof.Machine
end

section
/-! PROOFS. The states of a lane (R47, R71, R77): its state, its gate, and the registers LANE_CFG and CNT_CTL. -/
namespace Sys2Proof.Machine
open Sys2Proof.Claims

theorem exec_laneCfgWrite (s : State) (m : Master) (l : Lane) (v : Word) :
    exec (.laneCfgWrite m l v) s = s.onDev fun d => d.write m (laneField l F.LANE_CFG_ENABLE).addr v := rfl
theorem exec_laneOffApplied (s : State) (l : Lane) :
    exec (.laneOffApplied l) s = s.onDev fun d => d.laneOffAppliedOp l := rfl
theorem exec_laneRestartDone (s : State) (l : Lane) :
    exec (.laneRestartDone l) s = s.onDev fun d => d.laneRestartDoneOp l := rfl
theorem exec_catchUpDone (s : State) (l : Lane) : exec (.catchUpDone l) s = s.onDev fun d => d.catchUpDoneOp l := rfl
theorem exec_snap (s : State) (m : Master) (l : Lane) :
    exec (.snap m l) s = s.onDev fun d => d.write m (laneField l F.CNT_CTL_OP).addr 1 := rfl
theorem exec_snapClr (s : State) (m : Master) (l : Lane) :
    exec (.snapClr m l) s = s.onDev fun d => d.write m (laneField l F.CNT_CTL_OP).addr 2 := rfl

/-- The register LANE_STAT of a lane. -/
def laneStatReg (l : Lane) : Nat := (laneField l F.LANE_STAT_STATE).addr

/-- The register LANE_CFG of a lane. -/
def laneCfgReg (l : Lane) : Nat := (laneField l F.LANE_CFG_ENABLE).addr

/-- Is a lane register one of those that `Dev.InLane` keeps? -/
theorem asideReg_lane {a : Nat} (h : a / 0x10000 = 0x4010) : asideReg a = false ∧ a ≠ F.EVT_TRBL_TRBL.addr := by
  refine ⟨by simp [asideReg, h], ?_⟩
  rintro rfl
  exact absurd h (by decide)

section
variable {d e : Dev} {l : Lane} {X : List Nat}

theorem Dev.InLane.laneReg (h : Dev.InLane X l d e) {f : Fl} (ha : f.addr / 0x10000 = 0x4010) (hX : f.addr ∉ X) :
    e.get f = d.get f :=
  h.get (asideReg_lane ha).1 (asideReg_lane ha).2 hX

/-- What has happened in the lane asks the channels for nothing. -/
theorem Dev.InLane.quiet (h : Dev.InLane X l d e) (hX : ∀ a ∈ X, a / 0x10000 = 0x4010) (hd : Claims.noAbort d) :
    Claims.noAbort e :=
  h.noAbort (fun a ha => by rw [hX a ha]; decide) hd

theorem Dev.InLane.mono {Y : List Nat} (h : Dev.InLane X l d e) (hXY : X ⊆ Y) : Dev.InLane Y l d e where
  same := h.same
  other := h.other
  reg a ha ht hx := h.reg a ha ht fun hX => hx (hXY hX)
  trbl := h.trbl

/-! ### The state (R47) -/

theorem Dev.laneState_setLaneState {st : Nat} (h : st < 8) : (d.setLaneState l st).laneState l = st := by
  unfold Dev.setLaneState
  split
  · assumption
  · have hput : (d.put (laneField l F.LANE_STAT_STATE) st).get (laneField l F.LANE_STAT_STATE) = st :=
      (Dev.get_put_same _ _ _ (by cases l <;> rfl)).trans (Nat.mod_eq_of_lt (by cases l <;> exact h))
    simpa [Dev.laneState] using hput

theorem Dev.inLane_setLaneState (d : Dev) (l : Lane) (st : Nat) : Dev.InLane [laneStatReg l] l d (d.setLaneState l st) :=
  (Dev.InLane.setLaneState List.mem_cons_self).mpr (.refl ..)

theorem Dev.laneState_setLane (d : Dev) (k l : Lane) (x : LaneSt) : (d.setLane k x).laneState l = d.laneState l := by
  cases k <;> rfl

/-! ### The frame boundary (R47, R56) -/

/-- The lane once its mode has taken effect. -/
def Dev.modeTaken (d : Dev) (l : Lane) : Dev :=
  let saf := d.flag (laneField l F.LANE_CFG_SAF_FORCE) || d.linkSpeed .a != d.linkSpeed .b
  (d.setLane l { d.lane l with saf := saf }).put (laneField l F.LANE_STAT_SAF) (b2n saf)

theorem Dev.inLane_modeTaken (d : Dev) (l : Lane) : Dev.InLane [laneStatReg l] l d (d.modeTaken l) :=
  (Dev.InLane.setReg (by cases l <;> exact List.mem_cons_self) (Dev.InLane.laneReg_ne l (by decide))).mpr
    (.setLane ..)

theorem Dev.lane_modeTaken (d : Dev) (l : Lane) : ∃ saf, (d.modeTaken l).lane l = { d.lane l with saf := saf } :=
  ⟨_, (Dev.lane_setReg ..).trans (Dev.lane_setLane ..)⟩

theorem Dev.laneState_modeTaken (d : Dev) (l : Lane) : (d.modeTaken l).laneState l = d.laneState l := by
  refine (Dev.get_put_apart _ _ _ _ ?_ ?_).trans (d.laneState_setLane l l _) <;> cases l <;> rfl

theorem Dev.enabled_modeTaken (d : Dev) (l : Lane) :
    (d.modeTaken l).flag (laneField l F.LANE_CFG_ENABLE) = d.flag (laneField l F.LANE_CFG_ENABLE) := by
  rw [Dev.flag, Dev.flag, (d.inLane_modeTaken l).laneReg] <;> cases l <;> decide

theorem Dev.laneBoundary_eq (d : Dev) (l : Lane) : d.laneBoundary l =
    if !(d.modeTaken l).flag (laneField l F.LANE_CFG_ENABLE) ∧ ((d.modeTaken l).lane l).open_ then
      let d2 := (d.modeTaken l).setLane l { (d.modeTaken l).lane l with open_ := false }
      if d2.laneState l = laneRUN then d2.setLaneState l laneOFF else d2
    else d.modeTaken l := rfl

theorem Dev.inLane_laneBoundary (d : Dev) (l : Lane) : Dev.InLane [laneStatReg l] l d (d.laneBoundary l) := by
  have hset {x : Dev} {st : Nat} : Dev.InLane [laneStatReg l] l d (x.setLaneState l st) ↔ Dev.InLane [laneStatReg l] l d x :=
    Dev.InLane.setLaneState List.mem_cons_self
  have hmode := d.inLane_modeTaken l
  rw [Dev.laneBoundary_eq]
  dsimp only
  split_ifs
  · exact hset.mpr (Dev.InLane.setLane_iff.mpr hmode)
  · exact Dev.InLane.setLane_iff.mpr hmode
  · exact hmode

/-- A cleared ENABLE closes the lane at the boundary; the lane's frames and counters stay. -/
theorem Dev.lane_laneBoundary (d : Dev) (l : Lane) : ∃ saf, (d.laneBoundary l).lane l =
    { d.lane l with saf := saf, open_ := d.flag (laneField l F.LANE_CFG_ENABLE) && (d.lane l).open_ } := by
  obtain ⟨saf, hsaf⟩ := d.lane_modeTaken l
  refine ⟨saf, ?_⟩
  rw [Dev.laneBoundary_eq, d.enabled_modeTaken]
  have hopen : ((d.modeTaken l).lane l).open_ = (d.lane l).open_ := by rw [hsaf]
  cases hen : d.flag (laneField l F.LANE_CFG_ENABLE) <;> cases ho : (d.lane l).open_
  · rw [if_neg (by simp [hopen, ho]), hsaf, Bool.and_false, ← ho]
  · rw [if_pos (by simp [hopen, ho])]
    dsimp only
    split
    · rw [Dev.lane_setLaneState, Dev.lane_setLane, hsaf, Bool.false_and]
    · rw [Dev.lane_setLane, hsaf, Bool.false_and]
  · rw [if_neg (by simp), hsaf, Bool.and_false, ← ho]
  · rw [if_neg (by simp), hsaf, Bool.and_true, ← ho]

/-- The boundary at which a running lane closes takes it to OFF; else its state stays. -/
theorem Dev.laneState_laneBoundary (d : Dev) (l : Lane) : (d.laneBoundary l).laneState l =
    if d.flag (laneField l F.LANE_CFG_ENABLE) = false ∧ (d.lane l).open_ = true ∧ d.laneState l = laneRUN then laneOFF
    else d.laneState l := by
  obtain ⟨saf, hsaf⟩ := d.lane_modeTaken l
  have hopen : ((d.modeTaken l).lane l).open_ = (d.lane l).open_ := by rw [hsaf]
  rw [Dev.laneBoundary_eq, d.enabled_modeTaken, hopen]
  dsimp only
  rw [Dev.laneState_setLane, d.laneState_modeTaken]
  by_cases hclose : d.flag (laneField l F.LANE_CFG_ENABLE) = false ∧ (d.lane l).open_ = true
  · obtain ⟨hen, ho⟩ := hclose
    rw [if_pos (by simp [hen, ho])]
    by_cases hrun : d.laneState l = laneRUN
    · rw [if_pos hrun, if_pos ⟨hen, ho, hrun⟩, Dev.laneState_setLaneState (by decide)]
    · rw [if_neg hrun, if_neg (fun h => hrun h.2.2), Dev.laneState_setLane, d.laneState_modeTaken]
  · rw [if_neg (by simpa using hclose), if_neg (fun h => hclose ⟨h.1, h.2.1⟩), d.laneState_modeTaken]

end

/-- What LANE_OFF_APPLIED leaves. -/
theorem laneOffApplied_closes {s : State} (l : Lane) (hcalm : s.dev.calm) (hpump : s.dev.on .pump = true) :
    exec (.laneOffApplied l) s = .next (became s s.core (s.dev.laneBoundary l)) :=
  (exec_laneOffApplied ..).trans (State.onDev_eq (if_pos hpump) ((s.dev.inLane_laneBoundary l).calm hcalm))

/-! ### LANE_CFG (R47) -/

theorem fieldsAt_laneCfg (l : Lane) : fieldsAt (laneCfgReg l) = [⟨0x40100100, 15, 8, .rw, 0x10, .keep, .supervisor⟩,
    ⟨0x40100100, 6, 4, .rw, 0x6, .keep, .supervisor⟩, ⟨0x40100100, 1, 1, .rw, 0x0, .keep, .supervisor⟩,
    ⟨0x40100100, 0, 0, .rw, 0x0, .keep, .supervisor⟩] := by
  cases l <;> decide

theorem Dev.regWritten_laneCfg (d : Dev) (m : Master) (l : Lane) (old acted : Nat) :
    d.regWritten m (laneCfgReg l) old acted = d.laneCfgWritten l := by
  cases l <;> rfl

/-- The device behind the fields of a word that arrives at LANE_CFG. -/
def Dev.laneCfgStored (d : Dev) (m : Master) (l : Lane) (v : Word) : Dev :=
  ((fieldsAt (laneCfgReg l)).reverse.foldl (d.writeField m (laneCfgReg l) v.toNat) (d, 0)).1

theorem Dev.inLane_laneCfgStored (d : Dev) (m : Master) (l : Lane) (v : Word) :
    Dev.InLane [laneCfgReg l] l d (d.laneCfgStored m l v) :=
  d.inLane_writeFields m l (by rw [fieldsAt_laneCfg]; decide) (by cases l <;> decide)

theorem Dev.enable_laneCfgStored {d : Dev} {m : Master} {l : Lane} {v : Word}
    (h : d.fieldCase m (laneCfgReg l) v.toNat = false) :
    (d.laneCfgStored m l v).get (laneField l F.LANE_CFG_ENABLE) = bitsOf v.toNat 0 0 := by
  have htakes := Dev.get_writeFields_takes (a := laneCfgReg l) (f := ⟨0x40100100, 0, 0, .rw, 0x0, .keep, .supervisor⟩)
    (by rw [fieldsAt_laneCfg]; simp) rfl nofun h (by cases l <;> rfl) (by cases l <;> rfl) (by cases l <;> rfl)
    (by cases l <;> rfl)
  cases l <;> exact htakes

theorem Dev.inLane_laneCfgWritten (d : Dev) (l : Lane) : Dev.InLane [laneStatReg l] l d (d.laneCfgWritten l) := by
  unfold Dev.laneCfgWritten
  dsimp only
  split_ifs
  · exact (Dev.InLane.setLaneState List.mem_cons_self).mpr (.setLane ..)
  · exact .setLane ..
  · exact .refl ..

/-- A set ENABLE opens the lane at once (R47). -/
theorem Dev.laneCfgWritten_opens {d : Dev} {l : Lane} (hen : d.flag (laneField l F.LANE_CFG_ENABLE) = true)
    (hst : d.laneState l ≠ laneFAILED) : (d.laneCfgWritten l).lane l = { d.lane l with open_ := true } ∧
      (d.laneState l = laneOFF → (d.laneCfgWritten l).laneState l = laneRUN) := by
  unfold Dev.laneCfgWritten
  rw [if_pos ⟨hen, hst⟩]
  dsimp only
  rw [Dev.laneState_setLane]
  split
  · next hoff => exact ⟨(Dev.lane_setLaneState ..).trans (Dev.lane_setLane ..), fun _ => Dev.laneState_setLaneState (by decide)⟩
  · next hon => exact ⟨Dev.lane_setLane .., fun h => absurd h hon⟩

/-- A word that arrives at LANE_CFG is stored, and opens the lane where its ENABLE is set. -/
theorem laneCfgWrite_becomes {s : State} {m : Master} {l : Lane} {v : Word}
    (h : Arrives s.dev m (laneField l F.LANE_CFG_ENABLE).addr v.toNat) :
    exec (.laneCfgWrite m l v) s = .next (became s s.core ((s.dev.laneCfgStored m l v).laneCfgWritten l)) := by
  obtain ⟨hcalm, hab, -, -, hgate, -⟩ := id h
  have hin : Dev.InLane [laneCfgReg l, laneStatReg l] l s.dev ((s.dev.laneCfgStored m l v).laneCfgWritten l) :=
    ((s.dev.inLane_laneCfgStored m l v).mono (by simp)).trans ((Dev.inLane_laneCfgWritten _ l).mono (by simp))
  have hquiet := hin.quiet (by cases l <;> decide) hab
  have heffect : s.dev.regEffect m (laneField l F.LANE_CFG_ENABLE).addr v =
      (s.dev.laneCfgStored m l v).laneCfgWritten l :=
    (Dev.regEffect_of_gate hgate rfl).trans (Dev.regWritten_laneCfg _ m l _ _)
  exact (exec_laneCfgWrite ..).trans (State.onDev_eq
    (Dev.write_of_arrives h (by cases l <;> rfl) (by cases l <;> rfl) (by cases l <;> rfl) heffect hquiet) (hin.calm hcalm))

/-- What a word with ENABLE set leaves of a lane that has not failed. -/
theorem laneCfgStored_opens {s : State} {m : Master} {l : Lane} {v : Word}
    (h : Arrives s.dev m (laneField l F.LANE_CFG_ENABLE).addr v.toNat) (hv : v.getLsbD 0 = true)
    (hst : s.dev.laneState l ≠ laneFAILED) :
    ((s.dev.laneCfgStored m l v).laneCfgWritten l).lane l = { s.dev.lane l with open_ := true } ∧
      (s.dev.laneState l = laneOFF → ((s.dev.laneCfgStored m l v).laneCfgWritten l).laneState l = laneRUN) ∧
      ((s.dev.laneCfgStored m l v).laneCfgWritten l).get (laneField l F.LANE_CFG_ENABLE) = 1 := by
  obtain ⟨-, -, -, -, -, hcase⟩ := h
  obtain ⟨hflag, hget⟩ := bit_flag (Dev.enable_laneCfgStored (l := l) hcase)
  have hstate : (s.dev.laneCfgStored m l v).laneState l = s.dev.laneState l :=
    (s.dev.inLane_laneCfgStored m l v).laneReg (by cases l <;> decide) (by cases l <;> decide)
  obtain ⟨hlane, hrun⟩ := Dev.laneCfgWritten_opens (hflag.trans hv) (hstate.symm ▸ hst)
  refine ⟨hlane.trans ?_, fun hoff => hrun (hstate.trans hoff), ?_⟩
  · rw [Dev.laneCfgStored, Dev.lane_writeFields]
  · rw [(Dev.inLane_laneCfgWritten _ l).laneReg (by cases l <;> decide) (by cases l <;> decide), hget, hv]
    rfl

/-! ### CNT_CTL and the snapshots (R78) -/

/-- The register CNT_CTL of a lane. -/
def cntCtlReg (l : Lane) : Nat := (laneField l F.CNT_CTL_OP).addr

theorem Dev.cntCtl_fields {d : Dev} {m : Master} {l : Lane} {op : Nat} (hop : op = 1 ∨ op = 2)
    (h : d.fieldCase m (cntCtlReg l) op = false) :
    (fieldsAt (cntCtlReg l)).reverse.foldl (d.writeField m (cntCtlReg l) op) (d, 0) = (d, op) := by
  have hfields : fieldsAt (cntCtlReg l) = [⟨0x40100114, 1, 0, .wo, 0x0, .keep, .supervisor⟩] := by cases l <;> decide
  have hreached : Owner.supervisor.reached (masterLevel m) = true := by
    refine Dev.reached_of_meant (f := ⟨0x40100114, 1, 0, .wo, 0x0, .keep, .supervisor⟩) h (by rw [hfields]; simp) nofun ?_
    obtain rfl | rfl := hop <;> rfl
  rw [hfields, List.reverse_singleton, List.foldl_cons, List.foldl_nil, Dev.writeField_wo d m _ _ _ rfl hreached]
  obtain rfl | rfl := hop <;> rfl

theorem Dev.regWritten_cntCtl (d : Dev) (m : Master) (l : Lane) (old acted : Nat) :
    d.regWritten m (cntCtlReg l) old acted = d.cntCtl l (acted % 4) := by
  cases l <;> rfl

/-- Counter `k` goes to its two words of the snapshot bank. -/
def Dev.snapOne (x : LaneSt) (l : Lane) (d : Dev) (k : Fin 31) : Dev :=
  (d.setReg (snapBase l + 8 * k.val) (x.counters[k].extractLsb' 0 32)).setReg (snapBase l + 8 * k.val + 4)
    (x.counters[k].extractLsb' 32 32)

/-- All of the lane's counters do. -/
def Dev.snapped (d : Dev) (l : Lane) : Dev := (List.finRange 31).foldl (Dev.snapOne (d.lane l) l) d

theorem Dev.cntCtl_snap (d : Dev) (l : Lane) : d.cntCtl l 1 = d.snapped l := rfl

theorem Dev.cntCtl_clear (d : Dev) (l : Lane) :
    d.cntCtl l 2 = (d.snapped l).setLane l { (d.snapped l).lane l with counters := Vector.replicate 31 0 } := rfl

/-- The bank's words of counter `k` hold it. -/
def Dev.holdsSnap (d : Dev) (x : LaneSt) (l : Lane) (k : Fin 31) : Prop :=
  d.reg (snapBase l + 8 * k.val) = x.counters[k].extractLsb' 0 32 ∧
    d.reg (snapBase l + 8 * k.val + 4) = x.counters[k].extractLsb' 32 32

theorem Dev.holdsSnap_snapOne (d : Dev) (x : LaneSt) (l : Lane) {j k : Fin 31} (h : j = k ∨ d.holdsSnap x l k) :
    (Dev.snapOne x l d j).holdsSnap x l k := by
  unfold Dev.snapOne Dev.holdsSnap
  by_cases hjk : j = k
  · subst hjk
    rw [Dev.reg_setReg_same, Dev.reg_setReg_ne _ _ (by omega), Dev.reg_setReg_same]
    exact ⟨rfl, rfl⟩
  · have hne : j.val ≠ k.val := fun e => hjk (Fin.ext e)
    obtain ⟨hlo, hhi⟩ := h.resolve_left hjk
    iterate 4 rw [Dev.reg_setReg_ne _ _ (by omega)]
    exact ⟨hlo, hhi⟩

theorem Dev.holdsSnap_foldl {d : Dev} {x : LaneSt} {l : Lane} {k : Fin 31} {ks : List (Fin 31)}
    (h : k ∈ ks ∨ d.holdsSnap x l k) : (ks.foldl (Dev.snapOne x l) d).holdsSnap x l k := by
  induction ks generalizing d with
  | nil => exact h.resolve_left List.not_mem_nil
  | cons j ks ih =>
    refine ih ?_
    obtain hmem | hold := h
    · obtain rfl | hmem := List.mem_cons.mp hmem
      · exact .inr (d.holdsSnap_snapOne x l (.inl rfl))
      · exact .inl hmem
    · exact .inr (d.holdsSnap_snapOne x l (.inr hold))

theorem Dev.snapped_holds (d : Dev) (l : Lane) (k : Fin 31) : (d.snapped l).holdsSnap (d.lane l) l k :=
  Dev.holdsSnap_foldl (.inl (List.mem_finRange k))

/-- The two words hold the counter, low word first. -/
theorem Dev.holdsSnap.value {d : Dev} {x : LaneSt} {l : Lane} {k : Fin 31} (h : d.holdsSnap x l k) :
    (d.reg (snapBase l + 8 * k.val)).toNat + 2 ^ 32 * (d.reg (snapBase l + 8 * k.val + 4)).toNat = (x.counters[k]).toNat := by
  obtain ⟨hlo, hhi⟩ := h
  have hlt := (x.counters[k]).isLt
  rw [hlo, hhi, BitVec.extractLsb'_toNat, BitVec.extractLsb'_toNat, Nat.shiftRight_eq_div_pow, Nat.shiftRight_eq_div_pow]
  omega

theorem snapBase_block (l : Lane) (k : Fin 31) :
    (snapBase l + 8 * k.val) / 0x10000 = 0x4010 ∧ (snapBase l + 8 * k.val + 4) / 0x10000 = 0x4010 := by
  cases l <;> simp only [snapBase] <;> omega

/-- The copy changes registers of Pumphouse alone. -/
theorem Dev.snapped_only (d : Dev) (l : Lane) :
    d.RegsOnly (d.snapped l) ∧ ∀ a, a / 0x10000 ≠ 0x4010 → (d.snapped l).reg a = d.reg a := by
  have hfold (x : LaneSt) (ks : List (Fin 31)) (e : Dev) : e.RegsOnly (ks.foldl (Dev.snapOne x l) e) ∧
      ∀ a, a / 0x10000 ≠ 0x4010 → (ks.foldl (Dev.snapOne x l) e).reg a = e.reg a := by
    induction ks generalizing e with
    | nil => exact ⟨Dev.regsOnly_refl e, fun _ _ => rfl⟩
    | cons k ks ih =>
      obtain ⟨honly, hreg⟩ := ih (Dev.snapOne x l e k)
      obtain ⟨hlo, hhi⟩ := snapBase_block l k
      refine ⟨((Dev.regsOnly_setReg _ _ _).trans (Dev.regsOnly_setReg _ _ _)).trans honly, fun a ha => ?_⟩
      rw [List.foldl_cons, hreg a ha, Dev.snapOne, Dev.reg_setReg_ne, Dev.reg_setReg_ne]
      · rintro rfl; exact ha hlo
      · rintro rfl; exact ha hhi
  exact hfold (d.lane l) _ d

theorem Dev.lane_snapped (d : Dev) (l : Lane) : (d.snapped l).lane l = d.lane l := (d.snapped_only l).1.lane l

theorem Dev.snapped_quiet {d : Dev} (l : Lane) (hcalm : d.calm) (hab : noAbort d) :
    (d.snapped l).calm ∧ noAbort (d.snapped l) := by
  obtain ⟨honly, hreg⟩ := d.snapped_only l
  exact ⟨honly.calm hcalm, noAbort_of_eq hab honly.chans fun a ha => hreg a (by omega)⟩

/-- SNAP that arrives copies the counters. -/
theorem snap_becomes {s : State} {m : Master} {l : Lane} (h : Arrives s.dev m (laneField l F.CNT_CTL_OP).addr 1) :
    exec (.snap m l) s = .next (became s s.core (s.dev.snapped l)) := by
  obtain ⟨hcalm, hab, -, -, hgate, hcase⟩ := id h
  obtain ⟨hcalm', hab'⟩ := Dev.snapped_quiet l hcalm hab
  have heffect : s.dev.regEffect m (laneField l F.CNT_CTL_OP).addr 1 = s.dev.snapped l := by
    refine (Dev.regEffect_of_gate (v := 1) hgate (Dev.cntCtl_fields (l := l) (.inl rfl) hcase)).trans ?_
    exact Dev.regWritten_cntCtl _ m l _ 1
  exact (exec_snap ..).trans (State.onDev_eq (Dev.write_of_arrives (v := 1) h (by cases l <;> rfl) (by cases l <;> rfl)
    (by cases l <;> rfl) heffect hab') hcalm')

/-- SNAP_CLR that arrives copies the counters and clears them. -/
theorem snapClr_becomes {s : State} {m : Master} {l : Lane} (h : Arrives s.dev m (laneField l F.CNT_CTL_OP).addr 2) :
    exec (.snapClr m l) s = .next (became s s.core
      ((s.dev.snapped l).setLane l { s.dev.lane l with counters := Vector.replicate 31 0 })) := by
  obtain ⟨hcalm, hab, -, -, hgate, hcase⟩ := id h
  obtain ⟨hcalm', hab'⟩ := Dev.snapped_quiet l hcalm hab
  have hin := Dev.InLane.setLane (X := []) (s.dev.snapped l) l { s.dev.lane l with counters := Vector.replicate 31 0 }
  have heffect : s.dev.regEffect m (laneField l F.CNT_CTL_OP).addr 2 =
      (s.dev.snapped l).setLane l { s.dev.lane l with counters := Vector.replicate 31 0 } := by
    refine (Dev.regEffect_of_gate (v := 2) hgate (Dev.cntCtl_fields (l := l) (.inr rfl) hcase)).trans ?_
    refine (Dev.regWritten_cntCtl _ m l _ 2).trans ((Dev.cntCtl_clear ..).trans ?_)
    rw [Dev.lane_snapped]
  exact (exec_snapClr ..).trans (State.onDev_eq (Dev.write_of_arrives (v := 2) h (by cases l <;> rfl) (by cases l <;> rfl)
    (by cases l <;> rfl) heffect (hin.quiet (by simp) hab')) (hin.calm hcalm'))

/-- R78: the second part of O38. -/
theorem snapshotsTaken_holds : Claims.SnapshotsTaken := by
  unfold Claims.SnapshotsTaken
  intro s m l k
  dsimp only
  refine ⟨fun h => ?_, fun h => ?_⟩
  · exact ⟨_, snap_becomes h, ⟨rfl, rfl, (s.dev.snapped_holds l k).value⟩, s.dev.lane_snapped l⟩
  · refine ⟨_, snapClr_becomes h, ⟨rfl, rfl, ?_⟩, Dev.lane_setLane ..⟩
    obtain ⟨hlo, hhi⟩ := s.dev.snapped_holds l k
    exact Dev.holdsSnap.value ⟨(Dev.reg_setLane ..).trans hlo, (Dev.reg_setLane ..).trans hhi⟩

end Sys2Proof.Machine
end

section
/-! PROOFS. The mismatch of a lane and its restart (R70 to R75): what moves to the restart reserve, and what stays. -/
namespace Sys2Proof.Machine
open Sys2Proof.Claims

theorem exec_laneMismatch (s : State) (l : Lane) (point : Fin 6) (p : Nat) :
    exec (.laneMismatch l point p) s = s.onDev fun d => d.laneMismatchOp l point.val p := rfl

theorem Dev.calm_setLane {d : Dev} (l : Lane) (x : LaneSt) (h : d.calm) : (d.setLane l x).calm := by
  cases l <;> exact h

theorem Dev.lane_setLane_ne (d : Dev) (l : Lane) (x : LaneSt) : (d.setLane (otherLane l) x).lane l = d.lane l := by
  cases l <;> rfl

theorem Dev.reg_setEgress (d : Dev) (p : Port) (x : Option Egress) (a : Nat) : (d.setEgress p x).reg a = d.reg a := by
  cases p <;> rfl

theorem Dev.get_setEgress (d : Dev) (p : Port) (x : Option Egress) (f : Fl) : (d.setEgress p x).get f = d.get f := by
  cases p <;> rfl

/-! ### The end of a restart, and of catch-up (R71) -/

theorem Dev.aside_keyReads (d : Dev) (es : List CacheEntry) :
    Dev.Aside d (es.foldl (fun x e => x.keyRead 11 e.slot.val) d) :=
  (Dev.Aside.foldl fun _ _ => Dev.Aside.keyRead.mpr (.refl _)).mpr (.refl d)

theorem Dev.inLane_reloadCache (d : Dev) (l : Lane) : Dev.InLane [] l d (d.reloadCache l) :=
  Dev.InLane.setLane_iff.mpr ((d.aside_keyReads _).inLane [] l)

/-- Only the cached keys are new. -/
theorem Dev.lane_reloadCache (d : Dev) (l : Lane) : ∃ c, (d.reloadCache l).lane l = { d.lane l with cache := c } := by
  unfold Dev.reloadCache
  dsimp only
  rw [Dev.lane_setLane, (d.aside_keyReads _).laneSt]
  exact ⟨_, rfl⟩

/-- The lane in catch-up. -/
def Dev.caughtUp (d : Dev) (l : Lane) : Dev := ((d.reloadCache l).cnt l cRESTARTS 1).setLaneState l laneCATCH_UP

section
variable {s : State} {l : Lane}

theorem laneRestartDone_becomes (hcalm : s.dev.calm) (hpump : s.dev.on .pump = true)
    (hst : s.dev.laneState l = laneRESTART) (hwait : (s.dev.lane l).waitRestart = false) :
    exec (.laneRestartDone l) s = .next (became s s.core ((s.dev.caughtUp l).setLane (otherLane l)
      { (s.dev.caughtUp l).lane (otherLane l) with waitRestart := false })) := by
  have hin : Dev.InLane [laneStatReg l] l s.dev (s.dev.caughtUp l) :=
    (Dev.InLane.setLaneState List.mem_cons_self).mpr (Dev.InLane.cnt.mpr ((s.dev.inLane_reloadCache l).mono (by simp)))
  refine (exec_laneRestartDone ..).trans (State.onDev_eq ?_ (Dev.calm_setLane _ _ (hin.calm hcalm)))
  rw [Dev.laneRestartDoneOp, if_pos ⟨hpump, hst, by simp [hwait]⟩]
  rfl

/-- The restart's end counts it, and leads to CATCH_UP. -/
theorem Dev.caughtUp_counts (d : Dev) (l : Lane) : (d.caughtUp l).laneState l = laneCATCH_UP ∧
    ((d.caughtUp l).lane l).ctr cRESTARTS = satAdd 64 ((d.lane l).ctr cRESTARTS) 1 := by
  obtain ⟨c, hc⟩ := d.lane_reloadCache l
  refine ⟨Dev.laneState_setLaneState (by decide), ?_⟩
  rw [Dev.caughtUp, Dev.lane_setLaneState, Dev.lane_cnt, LaneSt.ctr_count, if_pos rfl, hc]
  rfl

/-- The lane behind catch-up. -/
def Dev.reopened (d : Dev) (l : Lane) : Dev :=
  let en := d.flag (laneField l F.LANE_CFG_ENABLE)
  (d.setLane l { d.lane l with open_ := en }).setLaneState l (if en then laneRUN else laneOFF)

theorem catchUpDone_becomes (hcalm : s.dev.calm) (hpump : s.dev.on .pump = true)
    (hst : s.dev.laneState l = laneCATCH_UP) (hempty : ∀ e ∈ s.dev.reserve, e.lane ≠ l) :
    exec (.catchUpDone l) s = .next (became s s.core (s.dev.reopened l)) := by
  have hnone : (s.dev.reserve.any fun e => e.lane == l) = false := by simpa using hempty
  have hin : Dev.InLane [laneStatReg l] l s.dev (s.dev.reopened l) :=
    (Dev.InLane.setLaneState List.mem_cons_self).mpr (.setLane ..)
  refine (exec_catchUpDone ..).trans (State.onDev_eq ?_ (hin.calm hcalm))
  rw [Dev.catchUpDoneOp, if_pos ⟨hpump, hst, by simp [hnone]⟩]
  rfl

theorem Dev.reopened_opens (d : Dev) (l : Lane) :
    (d.reopened l).laneState l = (if d.flag (laneField l F.LANE_CFG_ENABLE) then laneRUN else laneOFF) ∧
      (d.reopened l).lane l = { d.lane l with open_ := d.flag (laneField l F.LANE_CFG_ENABLE) } := by
  refine ⟨Dev.laneState_setLaneState ?_, (Dev.lane_setLaneState ..).trans (Dev.lane_setLane ..)⟩
  split <;> decide

end

/-! ### The reserve (R70, R72, R73) -/

section
variable {X : List Nat} {l : Lane} {d e : Dev} {f : Frame}

namespace Dev.InLane

@[simp] theorem statsOf {i : Fin 1024} {x : Ended} : Dev.InLane X l d (e.statsOf i f x) ↔ Dev.InLane X l d e :=
  aside (by simp)

@[simp] theorem rsvPut {off : Nat} {bs : Bytes} : Dev.InLane X l d (e.rsvPut off bs) ↔ Dev.InLane X l d e :=
  aside (by simp)

theorem toReserve (h : (laneField l F.LANE_LAST_REASON).addr ∈ X) :
    Dev.InLane X l d (e.toReserve l f) ↔ Dev.InLane X l d e := by
  unfold Dev.toReserve
  dsimp only
  split_ifs
  · rw [failBefore h, readBack]
  · cases f.slot <;> simp
  · cases f.stream <;> simp

end Dev.InLane

@[simp] theorem Dev.lane_rsvPut (d : Dev) (off : Nat) (bs : Bytes) (l : Lane) : (d.rsvPut off bs).lane l = d.lane l :=
  (Dev.Aside.rsvPut.mpr (.refl d)).laneSt l

@[simp] theorem Dev.lane_statsOf (d : Dev) (i : Fin 1024) (f : Frame) (x : Ended) (l : Lane) :
    (d.statsOf i f x).lane l = d.lane l :=
  (Dev.Aside.statsOf.mpr (.refl d)).laneSt l

@[simp] theorem Dev.lane_dropHold (d : Dev) (i : Nat) (l : Lane) : (d.dropHold i).lane l = d.lane l :=
  Dev.lane_congr rfl rfl l

@[simp] theorem Dev.lane_setReserve (d : Dev) (r : List RsvEntry) (l : Lane) :
    ({ d with reserve := r } : Dev).lane l = d.lane l :=
  Dev.lane_congr rfl rfl l

/-- What a frame's move to the reserve leaves of its lane: it is gone, or kept in the reserve. -/
structure LaneSt.Moved (x y : LaneSt) (n : Nat) : Prop where
  counted : y.ctr cMISMATCH = x.ctr cMISMATCH
  frames : ∀ g ∈ y.frames, g ∈ x.frames ∧ g.n ≠ n ∨ g.stage = .reserve

theorem LaneSt.moved_remove (x : LaneSt) (n : Nat) : x.Moved (x.remove n) n :=
  ⟨rfl, fun g hg => .inl (by simpa [remove] using hg)⟩

theorem LaneSt.moved_put (x : LaneSt) {g : Frame} (hg : g.stage = .reserve) : x.Moved (x.put g) g.n := by
  refine ⟨rfl, fun y hy => ?_⟩
  obtain ⟨z, hz, rfl⟩ := List.mem_map.mp hy
  by_cases hn : z.n = g.n
  · exact .inr (by rw [if_pos hn]; exact hg)
  · exact .inl (by rw [if_neg hn]; exact ⟨hz, hn⟩)

theorem LaneSt.Moved.of_counters {x y z : LaneSt} {n : Nat} (h : y.Moved z n) (hctr : y.ctr cMISMATCH = x.ctr cMISMATCH)
    (hframes : y.frames = x.frames) : x.Moved z n :=
  ⟨h.counted.trans hctr, fun g hg => by rw [← hframes]; exact h.frames g hg⟩

theorem Dev.toReserve_moves (d : Dev) (l : Lane) (f : Frame) : (d.lane l).Moved ((d.toReserve l f).lane l) f.n := by
  unfold Dev.toReserve
  dsimp only
  split_ifs
  · obtain ⟨c, hc⟩ := (d.readBack l f).1.lane_failCount l f .poison
    have hctr := (d.readBack l f).1.ctr_failCount l f .poison (k := cMISMATCH) (by decide) (failCounter_ne (by decide))
    rw [Dev.failBefore, Dev.lane_discard, Dev.lane_failRecord]
    refine (LaneSt.moved_remove _ f.n).of_counters ?_ ?_
    · rw [LaneSt.ctr_count, if_neg (by decide), hctr, Dev.lane_readBack]
    · rw [LaneSt.frames_count, hc, Dev.lane_readBack]
  · rw [Dev.lane_putFrame]
    refine (LaneSt.moved_put _ (g := { f.again with stage := .reserve }) rfl).of_counters ?_ ?_ <;>
      cases f.slot <;> simp
  · rw [Dev.lane_event, Dev.lane_finishFrame]
    refine (LaneSt.moved_remove _ f.n).of_counters ?_ ?_ <;> cases f.stream <;> simp +decide

/-- The frames of a lane during a mismatch: diverted, in the reserve, or among those that are still to move. -/
def LaneSt.settledBut (x : LaneSt) (fs : List Frame) : Prop :=
  ∀ g ∈ x.frames, (g.stage = .divert ∨ g.stage = .reserve) ∨ ∃ f ∈ fs, f.n = g.n

theorem LaneSt.Moved.settledBut {x y : LaneSt} {f : Frame} {fs : List Frame} (h : x.Moved y f.n)
    (hx : x.settledBut (f :: fs)) : y.settledBut fs := by
  intro g hg
  obtain ⟨hold, hn⟩ | hst := h.frames g hg
  · obtain hst | ⟨k, hk, hkn⟩ := hx g hold
    · exact .inl hst
    · obtain rfl | hk := List.mem_cons.mp hk
      · exact absurd hkn.symm hn
      · exact .inr ⟨k, hk, hkn⟩
  · exact .inl (.inr hst)

/-- All frames that are to move do. -/
theorem Dev.allToReserve_moves (fs : List Frame) (h : (d.lane l).settledBut fs) :
    ((d.allToReserve l fs).lane l).settledBut [] ∧
      ((d.allToReserve l fs).lane l).ctr cMISMATCH = (d.lane l).ctr cMISMATCH := by
  induction fs generalizing d with
  | nil => exact ⟨h, rfl⟩
  | cons f fs ih =>
    have hmoved : (d.lane l).Moved ((d.toReserve l f.undone).lane l) f.n := d.toReserve_moves l f.undone
    obtain ⟨hsettled, hctr⟩ := ih (hmoved.settledBut h)
    exact ⟨hsettled, hctr.trans hmoved.counted⟩

theorem Dev.inLane_allToReserve (d : Dev) (l : Lane) (fs : List Frame) :
    Dev.InLane [(laneField l F.LANE_LAST_REASON).addr] l d (d.allToReserve l fs) := by
  induction fs generalizing d with
  | nil => exact .refl ..
  | cons f fs ih => exact ((Dev.InLane.toReserve List.mem_cons_self).mpr (.refl ..)).trans (ih _)

theorem Dev.aside_dropUpdates (d : Dev) (fs : List Frame) : Dev.Aside d (d.dropUpdates fs) := by
  induction fs generalizing d with
  | nil => exact .refl d
  | cons f fs ih =>
    refine Dev.Aside.trans ?_ (ih _)
    split
    · simp +decide
    · exact .refl d

end

/-! ### The mismatch (R70, R74, R75) -/

/-- What the work on a mismatch leaves of its record. -/
structure Dev.Recorded (l : Lane) (d e : Dev) : Prop where
  counted : (e.lane l).ctr cMISMATCH = (d.lane l).ctr cMISMATCH
  point : e.get (laneField l F.LANE_FAULT_POINT) = d.get (laneField l F.LANE_FAULT_POINT)
  trouble : bitAt (e.get F.EVT_TRBL_TRBL) tLANE = bitAt (d.get F.EVT_TRBL_TRBL) tLANE
  resetReq : e.resetReq = d.resetReq
  calm : d.calm → e.calm

theorem Dev.Recorded.trans {l : Lane} {d e g : Dev} (h : Dev.Recorded l d e) (h' : Dev.Recorded l e g) :
    Dev.Recorded l d g :=
  ⟨h'.counted.trans h.counted, h'.point.trans h.point, h'.trouble.trans h.trouble, h'.resetReq.trans h.resetReq,
    fun hd => h'.calm (h.calm hd)⟩

theorem Dev.InLane.recorded {X : List Nat} {l : Lane} {d e : Dev} (h : Dev.InLane X l d e)
    (hX : (laneField l F.LANE_FAULT_POINT).addr ∉ X) (hctr : (e.lane l).ctr cMISMATCH = (d.lane l).ctr cMISMATCH) :
    Dev.Recorded l d e :=
  ⟨hctr, h.laneReg (by cases l <;> decide) hX, h.trbl, h.resetReq, h.calm⟩

theorem Dev.recorded_setEgress (d : Dev) (l : Lane) (p : Port) (x : Option Egress) : Dev.Recorded l d (d.setEgress p x) :=
  ⟨by rw [Dev.lane_setEgress], Dev.get_setEgress .., by rw [Dev.get_setEgress], by cases p <;> rfl,
    Dev.calm_setEgress p x⟩

theorem Dev.mismatchStomp_recorded (d : Dev) (l : Lane) (p : Nat) : Dev.Recorded l d (d.mismatchStomp l p) := by
  have hrefl : Dev.Recorded l d d := (Dev.InLane.refl [] l d).recorded (by simp) rfl
  have hrecord (f : Frame) (q : Nat) : Dev.Recorded l d (d.failRecord l f .lane (some q)) :=
    Dev.InLane.recorded (X := [(laneField l F.LANE_LAST_REASON).addr]) ((Dev.InLane.failRecord List.mem_cons_self).mpr (.refl ..)) (by cases l <;> decide)
      (by rw [Dev.lane_failRecord])
  unfold Dev.mismatchStomp
  split
  · split
    · dsimp only
      refine Dev.Recorded.trans ?_ (Dev.recorded_setEgress ..)
      split
      · exact hrecord _ _
      · exact hrefl
    · exact hrefl
  · exact hrefl

/-- The record of a mismatch: its count, the point in LANE_FAULT and the trouble bit. -/
theorem Dev.mismatchRecord_records (d : Dev) (l : Lane) {point : Nat} (h : point < 16) :
    ((d.mismatchRecord l point).lane l).ctr cMISMATCH = satAdd 64 ((d.lane l).ctr cMISMATCH) 1 ∧
      (d.mismatchRecord l point).get (laneField l F.LANE_FAULT_POINT) = point ∧
      bitAt ((d.mismatchRecord l point).get F.EVT_TRBL_TRBL) tLANE = true ∧
      (d.mismatchRecord l point).resetReq = d.resetReq ∧
      (d.mismatchRecord l point).recentMismatches l = d.recentMismatches l ∧ (d.calm → (d.mismatchRecord l point).calm) := by
  have hpoint : (laneField l F.LANE_FAULT_POINT).addr ≠ F.EVT_TRBL_TRBL.addr := Dev.InLane.laneReg_ne l (by decide)
  have hword (s : Option (Fin 1024)) :
      bitsOf (BitVec.ofNat 32 ((match s with | some i => i.val * 2 ^ 5 + 2 ^ 4 | none => 0) + point)).toNat 3 0 = point := by
    rw [bitsOf_eq, BitVec.toNat_ofNat]
    cases s <;> dsimp only <;> omega
  have hlane : (d.mismatchRecord l point).lane l = (d.lane l).count cMISMATCH 1 := by
    rw [Dev.mismatchRecord, Dev.trouble, Dev.put, Dev.lane_setReg, Dev.lane_event, Dev.lane_setReg, Dev.lane_cnt]
  have hresult : (d.mismatchRecord l point).resetReq = d.resetReq ∧ (d.mismatchRecord l point).now = d.now := by
    constructor <;>
      simp only [Dev.mismatchRecord, Dev.trouble, Dev.put, Dev.setReg, Dev.event_resetReq, Dev.event_now] <;>
      cases l <;> rfl
  refine ⟨by rw [hlane, LaneSt.ctr_count, if_pos rfl], ?_, Dev.trbl_trouble _ (by decide), hresult.1, ?_, ?_⟩
  · rw [Dev.get, Dev.mismatchRecord, Dev.reg_trouble_ne _ _ hpoint, Dev.reg_event, Dev.reg_setReg_same]
    cases l <;> exact hword _
  · rw [Dev.recentMismatches, hlane, hresult.2]
    rfl
  · intro hd
    exact (Dev.InLane.cnt (X := []) (l := l)).mpr (.refl ..) |>.calm hd |> fun h => by
      simpa [Dev.mismatchRecord, Dev.trouble, Dev.put, Dev.setReg, Dev.calm] using h

/-- The frames that a mismatch moves to the reserve. -/
def Dev.moving (d : Dev) (l : Lane) : List Frame :=
  (d.lane l).frames.filter fun f => f.stage != .divert && f.stage != .reserve &&
    !(d.reserve.any fun e => e.lane == l && e.n == f.n)

/-- The lane's frames with their verdicts discarded. -/
def Dev.keptFrames (d : Dev) (l : Lane) : List Frame :=
  (d.lane l).frames.map fun f =>
    if f.stage = .divert then { f.undone with failed := f.failed }
    else if (d.moving l).any fun g => g.n == f.n then f.undone
    else { f.again with stage := .reserve }

/-- The device once a mismatch has discarded the lane's updates. -/
def Dev.mismatchDropped (d : Dev) (l : Lane) (point p : Nat) : Dev :=
  let d2 := (d.mismatchRecord l point).mismatchStomp l p
  d2.dropUpdates (d2.lane l).frames

/-- The device once it has moved the lane's frames to the reserve. -/
def Dev.mismatchMoved (d : Dev) (l : Lane) (point p : Nat) : Dev :=
  let d3 := d.mismatchDropped l point p
  (d3.setLane l { d3.lane l with
    frames := d3.keptFrames l
    mismatches := (d.mismatchRecord l point).recentMismatches l ++ [(d.mismatchRecord l point).now] }).allToReserve l (d3.moving l)

section
variable {d : Dev} {l : Lane} {point : Nat}

theorem Dev.keptFrames_settledBut (d : Dev) (l : Lane) {x : LaneSt} (hx : x.frames = d.keptFrames l) :
    x.settledBut (d.moving l) := by
  intro g hg
  rw [hx] at hg
  obtain ⟨f, hf, rfl⟩ := List.mem_map.mp hg
  by_cases hdivert : f.stage = .divert
  · rw [if_pos hdivert]
    exact .inl (.inl hdivert)
  · rw [if_neg hdivert]
    split
    · next hmoving =>
      obtain ⟨k, hk, hkn⟩ := List.any_eq_true.mp hmoving
      exact .inr ⟨k, hk, eq_of_beq hkn⟩
    · exact .inl (.inr rfl)

/-- All frames of the lane are then diverted or in the reserve, and the record stands. -/
theorem Dev.mismatchMoved_settled (d : Dev) (l : Lane) (point p : Nat) :
    ((d.mismatchMoved l point p).lane l).settledBut [] ∧
      Dev.Recorded l (d.mismatchRecord l point) (d.mismatchMoved l point p) := by
  have hdropped : Dev.Recorded l (d.mismatchRecord l point) (d.mismatchDropped l point p) := by
    have haside := Dev.aside_dropUpdates ((d.mismatchRecord l point).mismatchStomp l p)
      (((d.mismatchRecord l point).mismatchStomp l p).lane l).frames
    exact (Dev.mismatchStomp_recorded _ l p).trans ((haside.inLane [] l).recorded (by simp) (by rw [haside.laneSt]))
  unfold Dev.mismatchMoved
  dsimp only
  generalize d.mismatchDropped l point p = e at hdropped ⊢
  have hlane := e.lane_setLane l { e.lane l with
    frames := e.keptFrames l
    mismatches := (d.mismatchRecord l point).recentMismatches l ++ [(d.mismatchRecord l point).now] }
  obtain ⟨hsettled, hctr⟩ := Dev.allToReserve_moves (l := l) (e.moving l) (e.keptFrames_settledBut l (by rw [hlane]))
  have hin := (Dev.InLane.setLane e l { e.lane l with
    frames := e.keptFrames l
    mismatches := (d.mismatchRecord l point).recentMismatches l ++ [(d.mismatchRecord l point).now] }).trans
      (Dev.inLane_allToReserve _ l (e.moving l))
  exact ⟨hsettled, hdropped.trans (hin.recorded (by cases l <;> decide) (by rw [hctr, hlane]; rfl))⟩

/-- The state that the mismatch gives the lane. -/
def Dev.mismatchEnds (d : Dev) (l : Lane) (failed : Bool) : Dev :=
  if failed then { d.setLaneState l laneFAILED with resetReq := some (d.resetReq.getD 3) }
  else
    (d.setLane l { d.lane l with
      waitRestart := decide (d.laneState (otherLane l) = laneRESTART ∧ !(d.lane (otherLane l)).waitRestart) }).setLaneState l
        laneRESTART

theorem Dev.laneMismatchOp_eq (p : Nat) (hpoint : point < 16) (hpump : d.on .pump = true)
    (hst : d.laneState l ≠ laneFAILED) : d.laneMismatchOp l point p =
      (d.mismatchMoved l point p).mismatchEnds l (decide (2 ≤ (d.recentMismatches l).length)) := by
  obtain ⟨-, -, -, -, hrecent, -⟩ := d.mismatchRecord_records l hpoint
  have htimes : 3 ≤ ((d.mismatchRecord l point).recentMismatches l ++ [(d.mismatchRecord l point).now]).length ↔
      2 ≤ (d.recentMismatches l).length := by
    rw [List.length_append, hrecent]
    simp
  unfold Dev.laneMismatchOp
  rw [if_neg (by simp [hpump, hst])]
  dsimp only
  unfold Dev.mismatchEnds
  by_cases hfail : 2 ≤ (d.recentMismatches l).length
  · rw [if_pos (htimes.mpr hfail), if_pos (by simpa using hfail)]
    rfl
  · rw [if_neg (fun h => hfail (htimes.mp h)), if_neg (by simpa using hfail)]
    rfl

theorem Dev.calm_mismatchEnds (failed : Bool) (h : d.calm) : (d.mismatchEnds l failed).calm := by
  have hset (e : Dev) (st : Nat) (he : e.calm) : (e.setLaneState l st).calm := (e.inLane_setLaneState l st).calm he
  unfold Dev.mismatchEnds
  split
  · exact hset d _ h
  · exact hset _ _ (Dev.calm_setLane _ _ h)

/-- The end keeps the record, and gives the lane its state. -/
theorem Dev.mismatchEnds_keeps (d : Dev) (l : Lane) (failed : Bool) :
    (d.mismatchEnds l failed).laneState l = (if failed then laneFAILED else laneRESTART) ∧
      (d.mismatchEnds l failed).resetReq = (if failed then some (d.resetReq.getD 3) else d.resetReq) ∧
      ((d.mismatchEnds l failed).lane l).ctr cMISMATCH = (d.lane l).ctr cMISMATCH ∧
      ((d.mismatchEnds l failed).lane l).frames = (d.lane l).frames ∧
      (d.mismatchEnds l failed).get (laneField l F.LANE_FAULT_POINT) = d.get (laneField l F.LANE_FAULT_POINT) ∧
      bitAt ((d.mismatchEnds l failed).get F.EVT_TRBL_TRBL) tLANE = bitAt (d.get F.EVT_TRBL_TRBL) tLANE := by
  have hkeeps (e : Dev) (st : Nat) (hst : st < 8) := And.intro (Dev.laneState_setLaneState (d := e) (l := l) hst)
    (e.inLane_setLaneState l st)
  unfold Dev.mismatchEnds
  cases failed with
  | true =>
    obtain ⟨hstate, hin⟩ := hkeeps d laneFAILED (by decide)
    refine ⟨hstate, rfl, ?_, ?_, hin.laneReg (by cases l <;> decide) (by cases l <;> decide), hin.trbl⟩
    · exact congrArg (LaneSt.ctr · cMISMATCH) ((Dev.lane_congr rfl rfl l).trans (Dev.lane_setLaneState ..))
    · exact congrArg LaneSt.frames ((Dev.lane_congr rfl rfl l).trans (Dev.lane_setLaneState ..))
  | false =>
    generalize hx : ({ d.lane l with waitRestart := decide (d.laneState (otherLane l) = laneRESTART ∧
      !(d.lane (otherLane l)).waitRestart) } : LaneSt) = x
    obtain ⟨hstate, hin⟩ := hkeeps (d.setLane l x) laneRESTART (by decide)
    have hlane : ((d.setLane l x).setLaneState l laneRESTART).lane l = x :=
      (Dev.lane_setLaneState ..).trans (Dev.lane_setLane ..)
    have hboth := (Dev.InLane.setLane (X := [laneStatReg l]) d l x).trans hin
    refine ⟨hstate, hboth.resetReq, ?_, ?_, hboth.laneReg (by cases l <;> decide) (by cases l <;> decide), hboth.trbl⟩
    · exact (congrArg (LaneSt.ctr · cMISMATCH) hlane).trans (by rw [← hx]; rfl)
    · exact (congrArg LaneSt.frames hlane).trans (by rw [← hx])

end

/-- What LANE_MISMATCH leaves of a lane that has not failed. -/
theorem laneMismatch_moves {s : State} {l : Lane} (point : Fin 6) (p : Nat) (hcalm : s.dev.calm)
    (hpump : s.dev.on .pump = true) (hst : s.dev.laneState l ≠ laneFAILED) :
    ∃ t, exec (.laneMismatch l point p) s = .next t ∧ t.pending = s.pending ∧
      t.dev.laneState l = (if 2 ≤ (s.dev.recentMismatches l).length then laneFAILED else laneRESTART) ∧
      t.dev.resetReq = (if 2 ≤ (s.dev.recentMismatches l).length then some (s.dev.resetReq.getD 3) else s.dev.resetReq) ∧
      (t.dev.lane l).ctr cMISMATCH = satAdd 64 ((s.dev.lane l).ctr cMISMATCH) 1 ∧
      t.dev.get (laneField l F.LANE_FAULT_POINT) = point.val ∧ bitAt (t.dev.get F.EVT_TRBL_TRBL) tLANE = true ∧
      ∀ f ∈ (t.dev.lane l).frames, f.stage = .divert ∨ f.stage = .reserve := by
  have hpoint : point.val < 16 := by omega
  obtain ⟨hctr, hget, htrbl, hreq, -, hcalm1⟩ := s.dev.mismatchRecord_records l hpoint
  obtain ⟨hsettled, hrecorded⟩ := s.dev.mismatchMoved_settled l point.val p
  obtain ⟨hstate, hreq', hctr', hframes, hget', htrbl'⟩ :=
    (s.dev.mismatchMoved l point.val p).mismatchEnds_keeps l (decide (2 ≤ (s.dev.recentMismatches l).length))
  refine ⟨_, (exec_laneMismatch ..).trans (State.onDev_eq (Dev.laneMismatchOp_eq p hpoint hpump hst)
    (Dev.calm_mismatchEnds _ (hrecorded.calm (hcalm1 hcalm)))), rfl, ?_, ?_, ?_, ?_, ?_, fun f hf => ?_⟩
  · exact hstate.trans (by simp only [decide_eq_true_eq])
  · exact hreq'.trans (by simp only [decide_eq_true_eq, hrecorded.resetReq, hreq])
  · exact hctr'.trans (hrecorded.counted.trans hctr)
  · exact hget'.trans (hrecorded.point.trans hget)
  · exact htrbl'.trans (hrecorded.trouble.trans htrbl)
  · have hf' : f ∈ ((s.dev.mismatchMoved l point.val p).lane l).frames := hframes ▸ hf
    exact (hsettled f hf').resolve_right (by simp)

/-! ### The statement -/

/-- R47, R70, R71, R74, R75: the first part of O38. -/
theorem laneStates_holds : Claims.LaneStates := by
  unfold Claims.LaneStates
  intro s l hcalm hpump
  dsimp only
  refine ⟨fun m v h hv hoff => ?_, fun hen hopen hrun => ?_, fun point p hst => ?_, fun hst hwait => ?_, fun hst hempty => ?_⟩
  · obtain ⟨hlane, hrun, hget⟩ := laneCfgStored_opens h hv (by rw [hoff]; decide)
    exact ⟨_, laneCfgWrite_becomes h, hrun hoff, congrArg LaneSt.open_ hlane, hget, rfl⟩
  · obtain ⟨saf, hlane⟩ := s.dev.lane_laneBoundary l
    refine ⟨_, laneOffApplied_closes l hcalm hpump, ?_, (congrArg LaneSt.open_ hlane).trans (by rw [hen]; rfl),
      (congrArg LaneSt.frames hlane :)⟩
    exact (s.dev.laneState_laneBoundary l).trans (if_pos ⟨hen, hopen, hrun⟩)
  · obtain ⟨t, ht, -, hstate, hreq, hctr, hget, htrbl, hframes⟩ := laneMismatch_moves point p hcalm hpump hst
    exact ⟨t, ht, hstate, hreq, hctr, hget, htrbl, hframes⟩
  · obtain ⟨hstate, hctr⟩ := s.dev.caughtUp_counts l
    refine ⟨_, laneRestartDone_becomes hcalm hpump hst hwait, (Dev.laneState_setLane ..).trans hstate, ?_,
      congrArg LaneSt.waitRestart (Dev.lane_setLane ..)⟩
    exact (congrArg (LaneSt.ctr · cRESTARTS) (Dev.lane_setLane_ne ..)).trans hctr
  · obtain ⟨hstate, hlane⟩ := s.dev.reopened_opens l
    exact ⟨_, catchUpDone_becomes hcalm hpump hst hempty, hstate, congrArg LaneSt.open_ hlane⟩

/-- Settles O38: the states of a lane, and the snapshots of its counters. -/
theorem laneStates : Obligations.LaneStates := ⟨laneStates_holds, snapshotsTaken_holds⟩

/-- R47, R71, R78: the second part of O33. -/
theorem laneGates_holds : Claims.LaneGates := by
  unfold Claims.LaneGates
  intro s l
  dsimp only
  refine ⟨fun m v h hv hst => ?_, fun m h => ?_, fun m h => ?_, fun hcalm hpump =>
    ⟨?_, fun hst hempty => ?_, fun hst hwait => ?_, fun point p hst => ?_⟩⟩
  · obtain ⟨hlane, -, -⟩ := laneCfgStored_opens h hv hst
    exact ⟨_, laneCfgWrite_becomes h, rfl, congrArg LaneSt.open_ hlane, (congrArg LaneSt.frames hlane :)⟩
  · exact ⟨_, snap_becomes h, rfl, congrArg LaneSt.counters (s.dev.lane_snapped l)⟩
  · exact ⟨_, snapClr_becomes h, rfl, congrArg LaneSt.counters (Dev.lane_setLane ..)⟩
  · obtain ⟨saf, hlane⟩ := s.dev.lane_laneBoundary l
    exact ⟨_, laneOffApplied_closes l hcalm hpump, rfl, congrArg LaneSt.open_ hlane, (congrArg LaneSt.frames hlane :)⟩
  · obtain ⟨-, hlane⟩ := s.dev.reopened_opens l
    exact ⟨_, catchUpDone_becomes hcalm hpump hst hempty, rfl, congrArg LaneSt.open_ hlane, (congrArg LaneSt.frames hlane :)⟩
  · obtain ⟨hstate, hctr⟩ := s.dev.caughtUp_counts l
    refine ⟨_, laneRestartDone_becomes hcalm hpump hst hwait, rfl, ?_, ?_⟩
    · exact fun hrun => absurd (((Dev.laneState_setLane ..).trans hstate).symm.trans hrun) (by decide)
    · exact (congrArg (LaneSt.ctr · cRESTARTS) (Dev.lane_setLane_ne ..)).trans hctr
  · obtain ⟨t, ht, hpending, hstate, -, hctr, -, -, -⟩ := laneMismatch_moves point p hcalm hpump hst
    refine ⟨t, ht, hpending, ?_, hctr⟩
    rw [hstate]
    split <;> decide

end Sys2Proof.Machine
end

section
/-! PROOFS. The ingress of a lane (R44, R46, R47, R78): a frame is counted, and enters where the lane takes it. -/
namespace Sys2Proof.Machine
open Sys2Proof.Claims

theorem exec_rxFrame (s : State) (l : Lane) (x : RxFrame) :
    exec (.rxFrame l x) s = s.onDev fun d => d.rxFrameOp l x := rfl

section
variable {d : Dev} {l : Lane} {x : RxFrame}

/-- The device once a frame has been counted at its ingress. -/
def Dev.rxCounted (d : Dev) (l : Lane) (x : RxFrame) : Dev :=
  ((d.linkReceives l.ingress x.len).cnt l cRX_FRAMES 1).cnt l cRX_BYTES x.len

/-- The device at the frame boundary behind that. -/
def Dev.rxBoundary (d : Dev) (l : Lane) (x : RxFrame) : Dev := (d.rxCounted l x).laneBoundary l

/-- The reception of a frame changes its port's record alone. -/
theorem Dev.linkReceives_keeps (d : Dev) (p : Port) (n : Nat) :
    (∀ k, (d.linkReceives p n).lane k = d.lane k) ∧ (∀ f, (d.linkReceives p n).get f = d.get f) ∧
      (d.linkReceives p n).tu = d.tu ∧ (d.linkReceives p n).filled = d.filled ∧
      (d.calm → (d.linkReceives p n).calm) ∧ ((d.linkReceives p n).link p).act = true ∧
      ((d.linkReceives p n).link p).rxUntil = d.now + (8 + n) * byteNs (d.linkSpeed p) := by
  cases p <;> exact ⟨fun k => by cases k <;> rfl, fun f => rfl, rfl, rfl, id, rfl, rfl⟩

theorem Dev.lane_rxCounted (d : Dev) (l : Lane) (x : RxFrame) :
    (d.rxCounted l x).lane l = ((d.lane l).count cRX_FRAMES 1).count cRX_BYTES x.len := by
  obtain ⟨hlane, -⟩ := d.linkReceives_keeps l.ingress x.len
  rw [Dev.rxCounted, Dev.lane_cnt, Dev.lane_cnt, hlane]

theorem Dev.inLane_rxCounted (d : Dev) (l : Lane) (x : RxFrame) :
    Dev.InLane [] l (d.linkReceives l.ingress x.len) (d.rxCounted l x) := by simp [Dev.rxCounted]

theorem Dev.inLane_rxBoundary (d : Dev) (l : Lane) (x : RxFrame) :
    Dev.InLane [laneStatReg l] l (d.linkReceives l.ingress x.len) (d.rxBoundary l x) :=
  ((d.inLane_rxCounted l x).mono (by simp)).trans (Dev.inLane_laneBoundary _ l)

theorem Dev.enabled_rxCounted (d : Dev) (l : Lane) (x : RxFrame) :
    (d.rxCounted l x).flag (laneField l F.LANE_CFG_ENABLE) = d.flag (laneField l F.LANE_CFG_ENABLE) := by
  obtain ⟨-, hget, -⟩ := d.linkReceives_keeps l.ingress x.len
  rw [Dev.flag, Dev.flag, (d.inLane_rxCounted l x).laneReg (by cases l <;> decide) (by simp), hget]

theorem Dev.laneState_rxCounted (d : Dev) (l : Lane) (x : RxFrame) : (d.rxCounted l x).laneState l = d.laneState l := by
  obtain ⟨-, hget, -⟩ := d.linkReceives_keeps l.ingress x.len
  exact ((d.inLane_rxCounted l x).laneReg (by cases l <;> decide) (by simp)).trans (hget _)

theorem Dev.enabled_rxBoundary (d : Dev) (l : Lane) (x : RxFrame) :
    (d.rxBoundary l x).flag (laneField l F.LANE_CFG_ENABLE) = d.flag (laneField l F.LANE_CFG_ENABLE) := by
  rw [← d.enabled_rxCounted l x, Dev.flag, Dev.flag, Dev.rxBoundary,
    (Dev.inLane_laneBoundary _ l).laneReg (by cases l <;> decide) (by cases l <;> decide)]

theorem Dev.filled_rxBoundary (d : Dev) (l : Lane) (x : RxFrame) : (d.rxBoundary l x).filled = d.filled := by
  obtain ⟨-, -, -, hfilled, -⟩ := d.linkReceives_keeps l.ingress x.len
  exact (d.inLane_rxBoundary l x).filled.trans hfilled

/-- An enabled lane keeps its state at the boundary, and so does a failed one. -/
theorem Dev.laneState_rxBoundary (h : d.flag (laneField l F.LANE_CFG_ENABLE) = true ∨ d.laneState l = laneFAILED) :
    (d.rxBoundary l x).laneState l = d.laneState l := by
  rw [Dev.rxBoundary, Dev.laneState_laneBoundary, d.enabled_rxCounted, d.laneState_rxCounted, if_neg]
  rintro ⟨hen, -, hrun⟩
  obtain h | h := h
  · exact absurd (h.symm.trans hen) (by decide)
  · exact absurd (h.symm.trans hrun) (by decide)

/-- Behind the boundary the lane has the frames that it had, and counters as they were counted. -/
theorem Dev.lane_rxBoundary (d : Dev) (l : Lane) (x : RxFrame) : ∃ saf o, (d.rxBoundary l x).lane l =
    { ((d.lane l).count cRX_FRAMES 1).count cRX_BYTES x.len with saf := saf, open_ := o } := by
  obtain ⟨saf, hlane⟩ := (d.rxCounted l x).lane_laneBoundary l
  exact ⟨saf, _, by rw [Dev.rxBoundary, hlane, d.lane_rxCounted]⟩

theorem Dev.bufferUsed_rxBoundary (d : Dev) (l : Lane) (x : RxFrame) :
    ((d.rxBoundary l x).lane l).bufferUsed = (d.lane l).bufferUsed := by
  obtain ⟨saf, o, hlane⟩ := d.lane_rxBoundary l x
  rw [hlane]
  rfl

/-! ### Where the frame goes -/

theorem Dev.rxFrameOp_macControl (hpump : d.on .pump = true) (hup : d.linkUp l.ingress = true)
    (hmac : isMacControl x.bytes = true) : d.rxFrameOp l x = (d.rxCounted l x).cnt l cMAC_CONTROL 1 := by
  simp [Dev.rxFrameOp, hpump, hup, hmac, Dev.rxCounted]

/-- A frame that is not MAC control, by what the lane is at the boundary. -/
theorem Dev.rxFrameOp_lane (hpump : d.on .pump = true) (hup : d.linkUp l.ingress = true)
    (hmac : isMacControl x.bytes = false) : d.rxFrameOp l x =
      if !decide ((d.rxBoundary l x).filled[1] ∧ (d.rxBoundary l x).laneState l ≠ laneFAILED ∧
        (d.rxBoundary l x).flag (laneField l F.LANE_CFG_ENABLE)) then (d.rxBoundary l x).cnt l cLANE_OFF 1
      else if (d.rxBoundary l x).laneState l = laneRESTART ∨ (d.rxBoundary l x).laneState l = laneCATCH_UP then
        ((d.rxBoundary l x).enterLane l x).1.toReserve l ((d.rxBoundary l x).enterLane l x).2
      else if 4096 < ((d.rxBoundary l x).lane l).bufferUsed + 1536 then (d.rxBoundary l x).cnt l cLANE_OVERRUN 1
      else ((d.rxBoundary l x).enterLane l x).1 := by
  unfold Dev.rxFrameOp
  rw [if_neg (by simp [hpump, hup])]
  dsimp only
  rw [if_neg (by simp [hmac])]
  rfl

theorem Dev.rxFrameOp_off (hpump : d.on .pump = true) (hup : d.linkUp l.ingress = true)
    (hmac : isMacControl x.bytes = false) (hout : d.flag (laneField l F.LANE_CFG_ENABLE) = false ∨
      d.laneState l = laneFAILED ∨ d.filled[1] = false) : d.rxFrameOp l x = (d.rxBoundary l x).cnt l cLANE_OFF 1 := by
  have hnot : ¬ ((d.rxBoundary l x).filled[1] = true ∧ (d.rxBoundary l x).laneState l ≠ laneFAILED ∧
      (d.rxBoundary l x).flag (laneField l F.LANE_CFG_ENABLE) = true) := by
    rw [d.filled_rxBoundary, d.enabled_rxBoundary]
    rintro ⟨hfilled, hst, hen⟩
    obtain h | h | h := hout
    · exact absurd (h.symm.trans hen) (by decide)
    · exact hst ((Dev.laneState_rxBoundary (.inr h)).trans h)
    · exact absurd (h.symm.trans hfilled) (by decide)
  rw [Dev.rxFrameOp_lane hpump hup hmac, if_pos (by rw [decide_eq_false hnot]; rfl)]

theorem Dev.rxFrameOp_runs (hpump : d.on .pump = true) (hup : d.linkUp l.ingress = true)
    (hmac : isMacControl x.bytes = false) (hrestart : d.laneState l ≠ laneRESTART) (hcatch : d.laneState l ≠ laneCATCH_UP)
    (hfailed : d.laneState l ≠ laneFAILED) (hfilled : d.filled[1] = true)
    (hen : d.flag (laneField l F.LANE_CFG_ENABLE) = true) : d.rxFrameOp l x =
      if 4096 < (d.lane l).bufferUsed + 1536 then (d.rxBoundary l x).cnt l cLANE_OVERRUN 1
      else ((d.rxBoundary l x).enterLane l x).1 := by
  rw [Dev.rxFrameOp_lane hpump hup hmac, d.filled_rxBoundary, d.enabled_rxBoundary, Dev.laneState_rxBoundary (.inl hen),
    d.bufferUsed_rxBoundary, if_neg (by simp [hfilled, hen, hfailed]), if_neg (by simp [hrestart, hcatch])]

theorem Dev.stampAt_rxBoundary (d : Dev) (l : Lane) (x : RxFrame) (fine : Bool) :
    (d.rxBoundary l x).stampAt fine = d.stampAt fine := by
  obtain ⟨-, -, htu, -⟩ := d.linkReceives_keeps l.ingress x.len
  have : (d.rxBoundary l x).tu = d.tu := (d.inLane_rxBoundary l x).tu.trans htu
  rw [Dev.stampAt, Dev.stampAt, this]

end

/-- What the arrival of a frame leaves: the lane's counters 0 and 1 have counted it, `frames` are in the lane, and its port
has received. -/
structure FrameArrived (s : State) (l : Lane) (x : RxFrame) (frames : List Frame) (t : State) : Prop where
  core : t.core = (became s s.core t.dev).core
  pending : t.pending = s.pending
  frames : (t.dev.lane l).frames = frames
  first : (t.dev.lane l).ctr cRX_FRAMES = satAdd 64 ((s.dev.lane l).ctr cRX_FRAMES) 1
  bytes : (t.dev.lane l).ctr cRX_BYTES = satAdd 64 ((s.dev.lane l).ctr cRX_BYTES) x.len
  other : t.dev.lane (otherLane l) = s.dev.lane (otherLane l)
  act : (t.dev.link l.ingress).act = true
  rxUntil : (t.dev.link l.ingress).rxUntil = s.dev.now + (8 + x.len) * byteNs (s.dev.linkSpeed l.ingress)

/-- A frame has arrived where the operation's result is as the boundary but for the lane. -/
theorem rxFrame_arrives {s : State} {l : Lane} {x : RxFrame} {e : Dev} {frames : List Frame} (hcalm : s.dev.calm)
    (hop : s.dev.rxFrameOp l x = e) (hin : Dev.InLane [laneStatReg l] l (s.dev.linkReceives l.ingress x.len) e)
    (hframes : (e.lane l).frames = frames) (hfirst : (e.lane l).ctr cRX_FRAMES = satAdd 64 ((s.dev.lane l).ctr cRX_FRAMES) 1)
    (hbytes : (e.lane l).ctr cRX_BYTES = satAdd 64 ((s.dev.lane l).ctr cRX_BYTES) x.len) :
    exec (.rxFrame l x) s = .next (became s s.core e) ∧ FrameArrived s l x frames (became s s.core e) := by
  obtain ⟨hlane, -, -, -, hcalm', hact, huntil⟩ := s.dev.linkReceives_keeps l.ingress x.len
  refine ⟨(exec_rxFrame ..).trans (State.onDev_eq hop (hin.calm (hcalm' hcalm))), rfl, rfl, hframes, hfirst, hbytes,
    hin.other.trans (hlane _), ?_, ?_⟩
  · exact (congrArg Link.act (hin.link _)).trans hact
  · exact (congrArg Link.rxUntil (hin.link _)).trans huntil

/-- A frame that does not enter counts in `k`. -/
theorem rxFrame_counts {s : State} {l : Lane} {x : RxFrame} {e : Dev} {k : Fin 31} (hcalm : s.dev.calm)
    (hop : s.dev.rxFrameOp l x = e.cnt l k 1)
    (hin : Dev.InLane [laneStatReg l] l (s.dev.linkReceives l.ingress x.len) e)
    (hframes : (e.lane l).frames = (s.dev.lane l).frames)
    (hctr : ∀ j, (e.lane l).ctr j = (((s.dev.lane l).count cRX_FRAMES 1).count cRX_BYTES x.len).ctr j)
    (h0 : k ≠ cRX_FRAMES) (h1 : k ≠ cRX_BYTES) :
    ∃ t, exec (.rxFrame l x) s = .next t ∧ FrameArrived s l x (s.dev.lane l).frames t ∧
      (t.dev.lane l).ctr k = satAdd 64 ((s.dev.lane l).ctr k) 1 := by
  have hlane : (e.cnt l k 1).lane l = (e.lane l).count k 1 := Dev.lane_cnt ..
  obtain ⟨hexec, harrived⟩ := rxFrame_arrives (frames := (s.dev.lane l).frames) hcalm hop (Dev.InLane.cnt.mpr hin)
    (by rw [hlane]; exact hframes) (by simp +decide [hlane, hctr, h0]) (by simp +decide [hlane, hctr, h1])
  refine ⟨_, hexec, harrived, (congrArg (LaneSt.ctr · k) hlane).trans ?_⟩
  simp [hctr, h0.symm, h1.symm]

/-- A frame that enters is the lane's newest. -/
theorem rxFrame_enters {s : State} {l : Lane} {x : RxFrame} (hcalm : s.dev.calm)
    (hop : s.dev.rxFrameOp l x = ((s.dev.rxBoundary l x).enterLane l x).1) :
    ∃ t, exec (.rxFrame l x) s = .next t ∧ FrameArrived s l x
        ((s.dev.lane l).frames ++ [newFrame (s.dev.lane l).arrivals x (s.dev.stampAt x.fine)]) t ∧
      (t.dev.lane l).arrivals = (s.dev.lane l).arrivals + 1 := by
  obtain ⟨saf, o, hlane⟩ := s.dev.lane_rxBoundary l x
  have henter : ((s.dev.rxBoundary l x).enterLane l x).1.lane l =
      { ((s.dev.lane l).count cRX_FRAMES 1).count cRX_BYTES x.len with
        saf := saf, open_ := o, arrivals := (s.dev.lane l).arrivals + 1
        frames := (s.dev.lane l).frames ++ [newFrame (s.dev.lane l).arrivals x (s.dev.stampAt x.fine)] } := by
    refine (Dev.lane_setLane ..).trans ?_
    rw [hlane, s.dev.stampAt_rxBoundary]
    rfl
  have hctr (k : Fin 31) : (((s.dev.rxBoundary l x).enterLane l x).1.lane l).ctr k =
      (((s.dev.lane l).count cRX_FRAMES 1).count cRX_BYTES x.len).ctr k := by
    rw [henter]
    rfl
  obtain ⟨hexec, harrived⟩ := rxFrame_arrives hcalm hop (Dev.InLane.setLane_iff.mpr (s.dev.inLane_rxBoundary l x))
    (congrArg LaneSt.frames henter) (by rw [hctr]; simp +decide) (by rw [hctr]; simp +decide)
  exact ⟨_, hexec, harrived, congrArg LaneSt.arrivals henter⟩

/-- R44, R46, R47, R78: the first part of O33. -/
theorem framesEnter_holds : Claims.FramesEnter := by
  unfold Claims.FramesEnter
  intro s l x hcalm hpump hup
  dsimp only
  have hboundary {k : Fin 31} (hop : s.dev.rxFrameOp l x = (s.dev.rxBoundary l x).cnt l k 1) (h0 : k ≠ cRX_FRAMES)
      (h1 : k ≠ cRX_BYTES) : ∃ t, exec (.rxFrame l x) s = .next t ∧ FrameArrived s l x (s.dev.lane l).frames t ∧
      (t.dev.lane l).ctr k = satAdd 64 ((s.dev.lane l).ctr k) 1 := by
    obtain ⟨saf, o, hlane⟩ := s.dev.lane_rxBoundary l x
    exact rxFrame_counts hcalm hop (s.dev.inLane_rxBoundary l x) (by rw [hlane]; rfl) (fun j => by rw [hlane]; rfl) h0 h1
  refine ⟨fun hmac => ?_, fun hmac => ⟨fun hrestart hcatch hfailed hfilled hen => ⟨fun hroom => ?_, fun hfull => ?_⟩,
    fun hout => ?_⟩⟩
  · obtain ⟨t, ht, h, hk⟩ := rxFrame_counts hcalm (Dev.rxFrameOp_macControl hpump hup hmac)
      ((s.dev.inLane_rxCounted l x).mono (by simp)) (by rw [s.dev.lane_rxCounted]; rfl)
      (fun j => by rw [s.dev.lane_rxCounted]) (by decide) (by decide)
    exact ⟨t, ht, h.core, h.pending, h.frames, h.first, h.bytes, fun _ => hk, h.other, h.act, h.rxUntil⟩
  · have hop := (Dev.rxFrameOp_runs hpump hup hmac hrestart hcatch hfailed hfilled hen).trans (if_neg (by omega))
    obtain ⟨t, ht, h, harrivals⟩ := rxFrame_enters hcalm hop
    exact ⟨t, ht, ⟨h.core, h.pending, h.frames, h.first, h.bytes, fun h0 => absurd rfl h0, h.other, h.act, h.rxUntil⟩,
      harrivals⟩
  · have hop := (Dev.rxFrameOp_runs hpump hup hmac hrestart hcatch hfailed hfilled hen).trans (if_pos hfull)
    obtain ⟨t, ht, h, hk⟩ := hboundary hop (by decide) (by decide)
    exact ⟨t, ht, h.core, h.pending, h.frames, h.first, h.bytes, fun _ => hk, h.other, h.act, h.rxUntil⟩
  · obtain ⟨t, ht, h, hk⟩ := hboundary (Dev.rxFrameOp_off hpump hup hmac hout) (by decide) (by decide)
    exact ⟨t, ht, h.core, h.pending, h.frames, h.first, h.bytes, fun _ => hk, h.other, h.act, h.rxUntil⟩

end Sys2Proof.Machine
end

section
/-! PROOFS. LOOKUP (R48 to R56, R85, R96): the context that a frame matches, and what the frame becomes under its action. -/
namespace Sys2Proof.Machine
open Sys2Proof.Claims

theorem exec_lookup (s : State) (l : Lane) (n : Nat) : exec (.lookup l n) s = s.onDev fun d => d.lookupOp l n := rfl

/-! ### The best context (R85) -/

section
variable {d : Dev} {l : Lane} {bs : Bytes}

/-- Is context `i` chosen rather than `j`: by its score, and among equals by its index? -/
def Dev.ctxBeats (d : Dev) (i j : Fin 1024) : Prop :=
  d.ctxScore j ≤ d.ctxScore i ∧ (d.ctxScore j = d.ctxScore i → i ≤ j)

theorem Dev.ctxBeats.trans {i j k : Fin 1024} (h : d.ctxBeats i j) (h' : d.ctxBeats j k) : d.ctxBeats i k := by
  obtain ⟨hle, heq⟩ := h
  obtain ⟨hle', heq'⟩ := h'
  refine ⟨hle'.trans hle, fun h => ?_⟩
  exact (heq (by omega)).trans (heq' (by omega))

/-- What the search keeps of a context that matches and of the best one before it. -/
def Dev.ctxBetter (d : Dev) (best : Option (Fin 1024)) (i : Fin 1024) : Option (Fin 1024) :=
  match best with
  | none => some i
  | some b => if d.ctxScore b < d.ctxScore i ∨ (d.ctxScore b = d.ctxScore i ∧ i < b) then some i else some b

theorem Dev.ctxBetter_beats (d : Dev) (best : Option (Fin 1024)) (i : Fin 1024) : ∃ b, d.ctxBetter best i = some b ∧
    (b = i ∨ best = some b) ∧ d.ctxBeats b i ∧ ∀ c, best = some c → d.ctxBeats b c := by
  cases best with
  | none => exact ⟨i, rfl, .inl rfl, ⟨le_rfl, fun _ => le_rfl⟩, nofun⟩
  | some c =>
    by_cases hi : d.ctxScore c < d.ctxScore i ∨ (d.ctxScore c = d.ctxScore i ∧ i < c)
    · refine ⟨i, if_pos hi, .inl rfl, ⟨le_rfl, fun _ => le_rfl⟩, fun b hb => ?_⟩
      cases hb
      exact ⟨by omega, fun h => by omega⟩
    · refine ⟨c, if_neg hi, .inr rfl, ⟨by omega, fun h => by omega⟩, fun b hb => ?_⟩
      cases hb
      exact ⟨le_rfl, fun _ => le_rfl⟩

/-- The search over a list of contexts, from the best one before it. -/
theorem Dev.classify_foldl {is : List (Fin 1024)} {best : Option (Fin 1024)} {i : Fin 1024}
    (h : is.foldl (fun best i => if d.ctxMatches l bs i then d.ctxBetter best i else best) best = some i) :
    (best = some i ∨ d.ctxMatches l bs i = true) ∧ (∀ c, best = some c → d.ctxBeats i c) ∧
      ∀ j ∈ is, d.ctxMatches l bs j = true → d.ctxBeats i j := by
  induction is generalizing best with
  | nil =>
    refine ⟨.inl h, fun c hc => ?_, nofun⟩
    cases hc.symm.trans h
    exact ⟨le_rfl, fun _ => le_rfl⟩
  | cons k is ih =>
    rw [List.foldl_cons] at h
    by_cases hk : d.ctxMatches l bs k = true
    · obtain ⟨b, hb, hwhich, hbeats, hold⟩ := d.ctxBetter_beats best k
      rw [if_pos hk, hb] at h
      obtain ⟨hfrom, hbest, hrest⟩ := ih h
      have hib := hbest b rfl
      refine ⟨?_, fun c hc => hib.trans (hold c hc), fun j hj hmatch => ?_⟩
      · obtain hfrom | hmatch := hfrom
        · cases hfrom
          exact hwhich.symm.imp_right fun (hbk : _ = k) => by rw [hbk]; exact hk
        · exact .inr hmatch
      · obtain rfl | hj := List.mem_cons.mp hj
        · exact hib.trans hbeats
        · exact hrest j hj hmatch
    · rw [if_neg hk] at h
      obtain ⟨hfrom, hbest, hrest⟩ := ih h
      refine ⟨hfrom, hbest, fun j hj hmatch => ?_⟩
      obtain rfl | hj := List.mem_cons.mp hj
      · exact absurd hmatch hk
      · exact hrest j hj hmatch

theorem Dev.classify_best {i : Fin 1024} (h : d.classify l bs = some i) :
    d.ctxMatches l bs i = true ∧ ∀ j ∈ d.validCtx, d.ctxMatches l bs j = true → d.ctxBeats i j := by
  obtain ⟨hfrom, -, hrest⟩ := Dev.classify_foldl h
  exact ⟨hfrom.resolve_left nofun, hrest⟩

end

/-! ### What a lookup gives the frame (R52, R96) -/

section
variable {d : Dev} {l : Lane} {n : Nat} {f : Frame} {i : Fin 1024}

/-- The frame that has looked up context `i` outside store and forward. -/
def Dev.lookedUp (d : Dev) (l : Lane) (f : Frame) (i : Fin 1024) : Frame :=
  { d.withCtx l f i with looked := true, asHeld := false }

/-- A frame with the epoch slot that it uses and the failure that its lookup found. -/
def Frame.withLookup (f : Frame) (slot : Option Bool) (failed : Option FailKind) : Frame :=
  { f with tagSlot := slot, failed := failed }

/-- The action that a context gives on the lane (R52). -/
def Dev.ctxAction (d : Dev) (l : Lane) (i : Fin 1024) : Nat :=
  if actionOk l (d.ctx i F.CTX_ACTION) then d.ctx i F.CTX_ACTION else 6

theorem Dev.action_lookedUp : (d.lookedUp l f i).action = d.ctxAction l i := rfl

theorem Dev.verify_lookedUp : (d.lookedUp l f i).verify = decide (d.ctxAction l i = 2 ∨ d.ctxAction l i = 3 ∨
    d.ctxAction l i = 4 ∨ (d.ctxAction l i = 5 ∧ d.ctx i F.CTX_KEYED = 1)) := rfl

/-- Without TAG a failure known at lookup is all that changes of the frame. -/
theorem Dev.lookupFail_only (i : Fin 1024) (haction : f.action ≠ 1) :
    ∃ failed, d.lookupFail f i = f.withLookup f.tagSlot failed := by
  unfold Dev.lookupFail
  dsimp only
  rw [if_neg haction]
  split_ifs <;> exact ⟨_, rfl⟩

/-- A context without a wrong check bit spoils no frame. -/
theorem Dev.ctxSpoilt_clean (hclean : ∀ k < 256, d.ctxChk (ctxWord i k) = 0) (g : Frame) : d.ctxSpoilt g i = false := by
  have hbound : g.consumes ≤ 0x70 := by unfold Frame.consumes; split_ifs <;> omega
  refine List.any_eq_false.mpr fun k hk => ?_
  have hk' := List.mem_range.mp hk
  rw [Dev.ctxPoisoned_clean fun j hj => ?_]
  · decide
  · have := hclean (4 * k + j) (by omega)
    rwa [ctxWord, ← Nat.add_assoc] at this

theorem Dev.lookupFail_passes (haction : f.action ≠ 1) (hverify : f.verify = false) (hspoilt : d.ctxSpoilt f i = false) :
    d.lookupFail f i = f.withLookup f.tagSlot none := by
  simp [Dev.lookupFail, haction, hverify, hspoilt, Frame.withLookup]

/-- Has slot `e` a count left for the frame (R96)? -/
def Dev.tagRoom (d : Dev) (f : Frame) (i : Fin 1024) (e : Bool) : Prop :=
  d.ep i e F.CTX_EP_COUNT + d.tagAhead i e f.n < 0xFFFFFFFF

theorem Dev.lookupFail_key (haction : f.action = 1) (hno : d.tagChoice i (ptp62 f.ts.1 f.ts.2) = none ∨
    ∃ e, d.tagChoice i (ptp62 f.ts.1 f.ts.2) = some e ∧ ¬ d.tagRoom f i e) :
    d.lookupFail f i = f.withLookup f.tagSlot (some .key) := by
  unfold Dev.lookupFail
  rw [if_pos haction]
  obtain hnone | ⟨e, he, hroom⟩ := hno
  · rw [hnone]
    rfl
  · rw [he]
    exact if_pos (Nat.le_of_not_lt hroom)

theorem Dev.lookupFail_format {e : Bool} (haction : f.action = 1)
    (he : d.tagChoice i (ptp62 f.ts.1 f.ts.2) = some e) (hroom : d.tagRoom f i e)
    (hbad : (isGoose f.rx.bytes || isSv f.rx.bytes) = false ∨ f.rx.deep.ext.isSome = true) :
    d.lookupFail f i = f.withLookup (some e) (some .format) := by
  unfold Dev.lookupFail
  rw [if_pos haction, he]
  dsimp only
  rw [if_neg (Nat.not_le_of_lt hroom), if_pos (by simpa using hbad)]
  rfl

theorem Dev.lookupFail_reserves {e : Bool} (haction : f.action = 1)
    (he : d.tagChoice i (ptp62 f.ts.1 f.ts.2) = some e) (hroom : d.tagRoom f i e)
    (hproto : (isGoose f.rx.bytes || isSv f.rx.bytes) = true) (hext : f.rx.deep.ext = none)
    (hspoilt : d.ctxSpoilt f i = false) : d.lookupFail f i = f.withLookup (some e) none := by
  unfold Dev.lookupFail
  rw [if_pos haction, he]
  dsimp only
  rw [if_neg (Nat.not_le_of_lt hroom), if_neg (by simp [hproto, hext]), hspoilt]
  rfl

/-! ### Where it goes (R53, R55) -/

theorem Dev.place_stays (hoversize : ¬ (f.action = 1 ∧ 1536 < tagOutput f.rx (d.tagAlg f) ∧ f.tagSlot.isSome ∧
    f.failed.isNone)) (haction : f.action = 0 ∨ f.action = 1 ∨ f.action = 6) (hcut : f.asHeld = false) :
    d.place l f = d.putFrame l f := by
  unfold Dev.place
  rw [if_neg hoversize, if_neg (by omega)]
  by_cases h6 : f.action = 6
  · rw [if_pos h6]
  · rw [if_neg h6, if_neg]
    rintro ⟨h3 | h4 | hheld, -⟩
    · omega
    · omega
    · exact absurd (hcut.symm.trans hheld) (by decide)

theorem Dev.place_holds {k : Nat} (haction : f.action = 3) (hstage : f.stage = .input) (hfree : d.freeHold = some k) :
    d.place l f = ((d.takeHold k).toSlot l k f).putFrame l { f.mended with stage := .held, slot := some k } := by
  simp [Dev.place, haction, hstage, hfree]

theorem Dev.place_oversize (h : f.action = 1 ∧ 1536 < tagOutput f.rx (d.tagAlg f) ∧ f.tagSlot.isSome ∧ f.failed.isNone) :
    d.place l f = (d.cnt l cTAG_OVERSIZE 1).discard l f cDISCARD_PRE := if_pos h

theorem Dev.aside_toSlot (d : Dev) (l : Lane) (k : Nat) (f : Frame) : Dev.Aside d (d.toSlot l k f) := by
  simp [Dev.toSlot]

/-! ### The command -/

/-- A frame that looks up its context for the first time, outside store and forward and the other functions. -/
structure Dev.Looks (d : Dev) (l : Lane) (n : Nat) (f : Frame) : Prop where
  frame : d.frame l n = some f
  pump : d.on .pump = true
  looked : f.looked = false
  stage : f.stage = .input
  mgmt : d.isMgmt l f.rx.body = false
  ptp : isPtp f.rx.bytes = false
  saf : (d.lane l).saf = false

theorem Dev.Looks.ptpCopy (h : d.Looks l n f) : d.ptpCopy l f = (d, f) := by simp [Dev.ptpCopy, h.ptp]

theorem Dev.lookupOp_matched (h : d.Looks l n f) (hctx : d.classify l f.rx.body = some i)
    (hclean : ∀ k < 256, d.ctxChk (ctxWord i k) = 0) :
    d.lookupOp l n = d.place l (d.lookupFail (d.lookedUp l f i) i) := by
  have hreads : d.ctxReads 11 (ctxWord i 0) 64 = d :=
    Dev.ctxReads_clean fun k hk => by
      have := hclean k (by omega)
      rwa [show ctxWord i k = ctxWord i 0 + k by simp [ctxWord]] at this
  have hheld : ((d.lane l).saf || f.stage == .reserve) = false := by rw [h.saf, h.stage]; rfl
  unfold Dev.lookupOp
  rw [h.frame]
  dsimp only
  rw [if_neg (by simp [h.looked, h.pump, h.stage]), if_neg (by simp [h.mgmt]), h.ptpCopy]
  dsimp only
  rw [hctx]
  dsimp only
  rw [hreads, hheld]
  rfl

/-- The frame that matches no context, under the lane's action for that. -/
def Dev.unmatched (d : Dev) (l : Lane) (f : Frame) : Frame :=
  { f with
    looked := true
    asHeld := false
    action := d.get (laneField l F.LANE_CFG_NOMATCH)
    ring := d.get (laneField l F.LANE_CFG_NOMATCH_RING) }

theorem Dev.lookupOp_unmatched (h : d.Looks l n f) (hctx : d.classify l f.rx.body = none) :
    d.lookupOp l n = (d.cnt l cNO_MATCH 1).place l (d.unmatched l f) := by
  have hheld : ((d.lane l).saf || f.stage == .reserve) = false := by rw [h.saf, h.stage]; rfl
  unfold Dev.lookupOp
  rw [h.frame]
  dsimp only
  rw [if_neg (by simp [h.looked, h.pump, h.stage]), if_neg (by simp [h.mgmt]), h.ptpCopy]
  dsimp only
  rw [hctx, hheld]
  rfl

end

/-- What a lookup leaves that keeps the frame as `g`. -/
theorem lookup_keeps {s : State} {l : Lane} {n : Nat} {f g : Frame} {e : Dev} (hop : s.dev.lookupOp l n = e.putFrame l g)
    (hcalm : e.calm) (hold : e.frame l n = some f) (hn : g.n = n) :
    exec (.lookup l n) s = .next (became s s.core (e.putFrame l g)) ∧ (e.putFrame l g).frame l n = some g := by
  refine ⟨(exec_lookup ..).trans (State.onDev_eq hop (Dev.calm_putFrame l g hcalm)), ?_⟩
  rw [Dev.frame, Dev.lane_putFrame, ← hn]
  exact LaneSt.frame_put (hn ▸ hold)

/-- A lookup keeps the frame, as one that has looked, and leaves it and the device as `q` says. -/
def LooksTo (s : State) (l : Lane) (f : Frame) (q : State → Frame → Prop) : Prop :=
  ∃ t g, exec (.lookup l f.n) s = .next t ∧ t.pending = s.pending ∧ t.dev.frame l f.n = some g ∧ g.looked = true ∧
    g.rx = f.rx ∧ g.ts = f.ts ∧ q t g

section
variable {s : State} {l : Lane} {f : Frame} {i : Fin 1024}

/-- A frame whose context and failure leave it in the input buffer stays there. -/
theorem lookup_stays (h : s.dev.Looks l f.n f) (hcalm : s.dev.calm) (hctx : s.dev.classify l f.rx.body = some i)
    (hclean : ∀ k < 256, s.dev.ctxChk (ctxWord i k) = 0) {slot : Option Bool} {failed : Option FailKind}
    (hg : s.dev.lookupFail (s.dev.lookedUp l f i) i = (s.dev.lookedUp l f i).withLookup slot failed)
    (hsize : ¬ (s.dev.ctxAction l i = 1 ∧ 1536 < tagOutput f.rx (s.dev.tagAlg ((s.dev.lookedUp l f i).withLookup
      slot failed)) ∧ slot.isSome ∧ failed.isNone))
    (haction : s.dev.ctxAction l i = 0 ∨ s.dev.ctxAction l i = 1 ∨ s.dev.ctxAction l i = 6) :
    LooksTo s l f fun _ g => g = (s.dev.lookedUp l f i).withLookup slot failed := by
  have hop := (Dev.lookupOp_matched h hctx hclean).trans ((congrArg _ hg).trans (Dev.place_stays hsize haction rfl))
  obtain ⟨hexec, hframe⟩ := lookup_keeps hop hcalm h.frame rfl
  exact ⟨_, _, hexec, rfl, hframe, rfl, rfl, rfl, rfl⟩

theorem LooksTo.imp {q r : State → Frame → Prop} (h : LooksTo s l f q) (hqr : ∀ t g, q t g → r t g) : LooksTo s l f r := by
  obtain ⟨t, g, ht, hpending, hframe, hlooked, hrx, hts, hq⟩ := h
  exact ⟨t, g, ht, hpending, hframe, hlooked, hrx, hts, hqr t g hq⟩

/-- PASS, DROP, and an action that the lane does not permit (R52). -/
theorem lookup_passes (h : s.dev.Looks l f.n f) (hcalm : s.dev.calm) (hctx : s.dev.classify l f.rx.body = some i)
    (hclean : ∀ k < 256, s.dev.ctxChk (ctxWord i k) = 0) (hpass : s.dev.ctx i F.CTX_ACTION = 0 ∨
      s.dev.ctx i F.CTX_ACTION = 6 ∨ actionOk l (s.dev.ctx i F.CTX_ACTION) = false) :
    LooksTo s l f fun _ g => g.stream = some i ∧ g.stage = .input ∧ g.failed = none ∧ g.verify = false ∧
      g.action = s.dev.ctxAction l i := by
  have haction : s.dev.ctxAction l i = 0 ∨ s.dev.ctxAction l i = 6 := by
    unfold Dev.ctxAction
    split
    · next hok => exact hpass.imp_right fun h => h.resolve_right (by simp [hok])
    · exact .inr rfl
  have hverify : (s.dev.lookedUp l f i).verify = false := by
    rw [Dev.verify_lookedUp, decide_eq_false_iff_not]
    omega
  have hg := Dev.lookupFail_passes (d := s.dev) (f := s.dev.lookedUp l f i) (by rw [Dev.action_lookedUp]; omega) hverify
    (Dev.ctxSpoilt_clean hclean _)
  refine (lookup_stays h hcalm hctx hclean hg (by omega) (by omega)).imp ?_
  rintro t g rfl
  exact ⟨rfl, h.stage, rfl, hverify, rfl⟩

/-- DELAY (R53): the frame takes a hold slot. -/
theorem lookup_holds (h : s.dev.Looks l f.n f) (hcalm : s.dev.calm) (hctx : s.dev.classify l f.rx.body = some i)
    (hclean : ∀ k < 256, s.dev.ctxChk (ctxWord i k) = 0) {k : Nat} (haction : s.dev.ctxAction l i = 3)
    (hfree : s.dev.freeHold = some k) :
    LooksTo s l f fun t g => g.stream = some i ∧ g.action = 3 ∧ g.verify = true ∧ g.stage = .held ∧ g.slot = some k ∧
      k ∈ t.dev.holdUsed := by
  have hverify : (s.dev.lookedUp l f i).verify = true := by
    rw [Dev.verify_lookedUp, haction]
    rfl
  obtain ⟨failed, hg⟩ := Dev.lookupFail_only (d := s.dev) (f := s.dev.lookedUp l f i) i
    (by rw [Dev.action_lookedUp]; omega)
  have hop := (Dev.lookupOp_matched h hctx hclean).trans
    ((congrArg (s.dev.place l) hg).trans (Dev.place_holds haction h.stage hfree))
  have haside := (s.dev.takeHold k).aside_toSlot l k
    ((s.dev.lookedUp l f i).withLookup (s.dev.lookedUp l f i).tagSlot failed)
  generalize hslot : (s.dev.takeHold k).toSlot l k
    ((s.dev.lookedUp l f i).withLookup (s.dev.lookedUp l f i).tagSlot failed) = e at hop haside
  have hold : e.frame l f.n = some f :=
    (haside.frame l f.n).trans ((congrArg (LaneSt.frame · f.n) (Dev.lane_congr rfl rfl l)).trans h.frame)
  have hused : e.holdUsed = s.dev.holdUsed ++ [k] := by
    rw [haside.same]
    rfl
  obtain ⟨hexec, hframe⟩ := lookup_keeps hop ((haside.inLane [] l).calm hcalm) hold rfl
  refine ⟨_, _, hexec, rfl, hframe, rfl, rfl, rfl, rfl, haction, hverify, rfl, rfl, ?_⟩
  have hput (g : Frame) : (e.putFrame l g).holdUsed = e.holdUsed := by cases l <;> rfl
  exact (hput _ ▸ hused ▸ List.mem_append_right _ List.mem_cons_self :)

/-- TAG (R55): a frame whose output is too long is discarded. -/
theorem lookup_oversize (h : s.dev.Looks l f.n f) (hcalm : s.dev.calm) (hctx : s.dev.classify l f.rx.body = some i)
    (hclean : ∀ k < 256, s.dev.ctxChk (ctxWord i k) = 0) {e : Bool} (haction : s.dev.ctxAction l i = 1)
    (hg : s.dev.lookupFail (s.dev.lookedUp l f i) i = (s.dev.lookedUp l f i).withLookup (some e) none)
    (hsize : 1536 < tagOutput f.rx (s.dev.ep i e F.CTX_EP_ALG)) :
    ∃ t, exec (.lookup l f.n) s = .next t ∧ t.pending = s.pending ∧ t.dev.frame l f.n = none ∧
      (t.dev.lane l).ctr cTAG_OVERSIZE = satAdd 64 ((s.dev.lane l).ctr cTAG_OVERSIZE) 1 ∧
      (t.dev.lane l).ctr cDISCARD_PRE = satAdd 64 ((s.dev.lane l).ctr cDISCARD_PRE) 1 := by
  have hop := (Dev.lookupOp_matched h hctx hclean).trans
    ((congrArg (s.dev.place l) hg).trans (Dev.place_oversize ⟨haction, hsize, rfl, rfl⟩))
  have hin : Dev.InLane [] l s.dev ((s.dev.cnt l cTAG_OVERSIZE 1).discard l
    ((s.dev.lookedUp l f i).withLookup (some e) none) cDISCARD_PRE) := by simp
  refine ⟨_, (exec_lookup ..).trans (State.onDev_eq hop (hin.calm hcalm)), rfl, Dev.frame_discard _ rfl, ?_, ?_⟩
  · refine (Dev.ctr_discard ..).trans ?_
    rw [if_neg (by decide), Dev.lane_cnt, LaneSt.ctr_count, if_pos rfl]
  · refine (Dev.ctr_discard ..).trans ?_
    rw [if_pos rfl, Dev.lane_cnt, LaneSt.ctr_count, if_neg (by decide)]

/-- A frame that matches no context passes or is dropped under the lane's action for that, and counts in NO_MATCH. -/
theorem lookup_unmatched (h : s.dev.Looks l f.n f) (hcalm : s.dev.calm) (hctx : s.dev.classify l f.rx.body = none)
    (haction : s.dev.get (laneField l F.LANE_CFG_NOMATCH) = 0 ∨ s.dev.get (laneField l F.LANE_CFG_NOMATCH) = 6) :
    LooksTo s l f fun t g => g.stream = f.stream ∧ g.action = s.dev.get (laneField l F.LANE_CFG_NOMATCH) ∧
      (t.dev.lane l).ctr cNO_MATCH = satAdd 64 ((s.dev.lane l).ctr cNO_MATCH) 1 := by
  have hstays : (s.dev.cnt l cNO_MATCH 1).place l (s.dev.unmatched l f) =
      (s.dev.cnt l cNO_MATCH 1).putFrame l (s.dev.unmatched l f) :=
    Dev.place_stays (fun h => by have : s.dev.get (laneField l F.LANE_CFG_NOMATCH) = 1 := h.1; omega)
      (haction.imp_right .inr) rfl
  have hold : (s.dev.cnt l cNO_MATCH 1).frame l f.n = some f := by
    rw [Dev.frame, Dev.lane_cnt, LaneSt.frame_count]
    exact h.frame
  obtain ⟨hexec, hframe⟩ := lookup_keeps ((Dev.lookupOp_unmatched h hctx).trans hstays) (Dev.calm_setLane _ _ hcalm) hold rfl
  refine ⟨_, _, hexec, rfl, hframe, rfl, rfl, rfl, rfl, rfl, ?_⟩
  refine (congrArg (LaneSt.ctr · cNO_MATCH) (Dev.lane_putFrame ..)).trans ?_
  rw [LaneSt.ctr_put, Dev.lane_cnt, LaneSt.ctr_count, if_pos rfl]

end

/-- R48, R52, R53, R55, R56, R85, R96: the third part of O33. -/
theorem lookupDecides_holds : Claims.LookupDecides := by
  unfold Claims.LookupDecides
  intro s l n f hcalm hpump hf hlooked hstage _ hmgmt hptp hsaf
  have hlooks : s.dev.Looks l n f := ⟨hf, hpump, hlooked, hstage, hmgmt, hptp, hsaf⟩
  have hn := Dev.frame_n hf
  subst hn
  dsimp only
  refine ⟨fun i hctx hclean => ?_, fun hctx haction => lookup_unmatched hlooks hcalm hctx haction⟩
  obtain ⟨hmatch, hbest⟩ := Dev.classify_best hctx
  have hspoilt := Dev.ctxSpoilt_clean hclean (s.dev.lookedUp l f i)
  have htagged (htag : l = .tag) (h1 : s.dev.ctx i F.CTX_ACTION = 1) : s.dev.ctxAction l i = 1 := by
    subst htag
    rw [Dev.ctxAction, h1]
    rfl
  refine ⟨hmatch, hbest, lookup_passes hlooks hcalm hctx hclean, fun k hok h3 hfree => ?_, fun htag h1 hslot =>
    ⟨fun hno => ?_, fun e he hroom => ⟨fun hbad => ?_, fun hproto hext => ⟨fun hsize => ?_, fun hsize => ?_⟩⟩⟩⟩
  · exact lookup_holds hlooks hcalm hctx hclean (by rw [Dev.ctxAction, h3, if_pos hok]) hfree
  · have haction := htagged htag h1
    have hg := Dev.lookupFail_key (d := s.dev) (f := s.dev.lookedUp l f i) haction hno
    refine (lookup_stays hlooks hcalm hctx hclean hg (by simp) (.inr (.inl haction))).imp ?_
    rintro t g rfl
    exact ⟨rfl, hslot, hstage⟩
  · have haction := htagged htag h1
    have hg := Dev.lookupFail_format (d := s.dev) (f := s.dev.lookedUp l f i) haction he hroom hbad
    refine (lookup_stays hlooks hcalm hctx hclean hg (by simp) (.inr (.inl haction))).imp ?_
    rintro t g rfl
    exact ⟨rfl, rfl⟩
  · have haction := htagged htag h1
    have hg := Dev.lookupFail_reserves (d := s.dev) (f := s.dev.lookedUp l f i) haction he hroom hproto hext hspoilt
    refine (lookup_stays hlooks hcalm hctx hclean hg (fun h => absurd hsize (Nat.not_le_of_lt h.2.1))
      (.inr (.inl haction))).imp ?_
    rintro t g rfl
    exact ⟨rfl, rfl, hstage⟩
  · have haction := htagged htag h1
    have hg := Dev.lookupFail_reserves (d := s.dev) (f := s.dev.lookedUp l f i) haction he hroom hproto hext hspoilt
    exact lookup_oversize hlooks hcalm hctx hclean haction hg hsize

/-- Settles O33: how frames enter a lane, its gate, and what a lookup gives them. -/
theorem framesEnter : Obligations.FramesEnter := ⟨framesEnter_holds, laneGates_holds, lookupDecides_holds⟩

end Sys2Proof.Machine
end

section
/-! PROOFS. The fields of LINKx_STAT and the steps of link start-up (R42, R43, R45, R222). -/
namespace Sys2Proof.Machine
open Sys2Proof.Claims

theorem exec_serdesLock (s : State) (p : Port) : exec (.serdesLock p) s = s.onDev fun d => d.serdesLockOp p := rfl
theorem exec_serdesLockTimeout (s : State) (p : Port) :
    exec (.serdesLockTimeout p) s = s.onDev fun d => d.serdesLockTimeoutOp p := rfl
theorem exec_pcsSync (s : State) (p : Port) : exec (.pcsSync p) s = s.onDev fun d => d.pcsSyncOp p := rfl
theorem exec_pcsSyncTimeout (s : State) (p : Port) :
    exec (.pcsSyncTimeout p) s = s.onDev fun d => d.pcsSyncTimeoutOp p := rfl
theorem exec_anDone (s : State) (p : Port) (w : AnWord) : exec (.anDone p w) s = s.onDev fun d => d.anDoneOp p w := rfl
theorem exec_anLinkTimer (s : State) (p : Port) : exec (.anLinkTimer p) s = s.onDev fun d => d.anLinkTimerOp p := rfl
theorem exec_actTimeout (s : State) (p : Port) : exec (.actTimeout p) s = s.onDev fun d => d.actTimeoutOp p := rfl
theorem exec_syncLoss (s : State) (p : Port) : exec (.syncLoss p) s = s.onDev fun d => d.syncLossOp p := rfl
theorem exec_anRestart (s : State) (m : Master) (p : Port) : exec (.anRestart m p) s = s.onDev fun d =>
    d.write m (portField p F.LINK_CTRL_MODE).addr (d.reg (portField p F.LINK_CTRL_MODE).addr ||| 0x10) := by
  cases p <;> rfl
theorem exec_linkModeChange (s : State) (m : Master) (p : Port) (v : Word) :
    exec (.linkModeChange m p v) s = s.onDev fun d => d.write m (portField p F.LINK_CTRL_MODE).addr v := rfl

/-! ### What a port's fields read (R45) -/

section
variable (d : Dev) (p : Port) {f g : Fl} {v : Nat}

theorem portField_ok : (portField p f).ok = f.ok := by cases p <;> rfl

theorem portField_apart : (portField p f).apart (portField p g) = f.apart g := by
  cases p
  · rfl
  · have haddr : (g.addr + 0x10000 != f.addr + 0x10000) = (g.addr != f.addr) := by
      rw [Bool.eq_iff_iff, bne_iff_ne, bne_iff_ne]
      omega
    rw [Fl.apart, Fl.apart, ← haddr]
    rfl

theorem Dev.linkGet_linkPut_same (hf : f.ok = true) (hv : v < 2 ^ (f.hi + 1 - f.lo)) :
    (d.linkPut p f v).linkGet p f = v := by
  unfold Dev.linkPut
  split
  · assumption
  · rw [Dev.linkGet, Dev.get_latchIrq, Dev.get_put_same _ _ _ (by rwa [portField_ok])]
    exact Nat.mod_eq_of_lt (by cases p <;> exact hv)

theorem Dev.linkGet_linkPut_apart (hf : f.ok = true) (h : f.apart g = true) :
    (d.linkPut p f v).linkGet p g = d.linkGet p g := by
  unfold Dev.linkPut
  split
  · rfl
  · rw [Dev.linkGet, Dev.get_latchIrq, Dev.get_put_apart _ _ _ _ (by rwa [portField_ok]) (by rwa [portField_apart])]
    rfl

theorem Dev.get_setLink (d : Dev) (p : Port) (x : Link) (h : Fl) : (d.setLink p x).get h = d.get h := by
  cases p <;> rfl

theorem Dev.linkGet_linkStep (x : LinkStep) : (d.linkStep p x).linkGet p g = d.linkGet p g := Dev.get_setLink ..

end

/-! ### What a change of LINKx_STAT leaves (R222) -/

/-- `e` is as `d` but for the port's LINKx_STAT and the latched interrupts; a changed LINKx_STAT has latched the port's. -/
structure Dev.StatOnly (p : Port) (d e : Dev) : Prop where
  same : e = { d with regs := e.regs, irq := e.irq }
  reg : ∀ a, a ≠ linkStat p → e.reg a = d.reg a
  irq : ∀ i, d.irq.getLsbD i = true → e.irq.getLsbD i = true
  latched : e.reg (linkStat p) ≠ d.reg (linkStat p) → e.irq.getLsbD (portIrq p) = true

namespace Dev.StatOnly
variable {p : Port} {d e g : Dev}

theorem refl (p : Port) (d : Dev) : Dev.StatOnly p d d := ⟨rfl, fun _ _ => rfl, fun _ h => h, fun h => absurd rfl h⟩

theorem trans (h : Dev.StatOnly p d e) (h' : Dev.StatOnly p e g) : Dev.StatOnly p d g where
  same := by rw [h'.same, h.same]
  reg a ha := (h'.reg a ha).trans (h.reg a ha)
  irq i hi := h'.irq i (h.irq i hi)
  latched hne := by
    by_cases hsame : g.reg (linkStat p) = e.reg (linkStat p)
    · exact h'.irq _ (h.latched (hsame ▸ hne))
    · exact h'.latched hsame

theorem linkPut (h : Dev.StatOnly p d e) {f : Fl} (v : Nat) (hf : f.addr = F.LINK_STAT_LINK_UP.addr) :
    Dev.StatOnly p d (e.linkPut p f v) := by
  refine h.trans ?_
  obtain hsame | ⟨w, hput⟩ := e.linkPut_cases p v hf
  · rw [hsame]
    exact refl p e
  · have hirq : (e.linkPut p f v).irq.getLsbD (portIrq p) = true := by
      rw [hput]
      cases p <;> simp [portIrq]
    refine ⟨by rw [hput], fun a ha => ?_, fun i hi => ?_, fun _ => hirq⟩
    · rw [hput]
      exact Sparse.get_set_ne _ _ _ ha
    · rw [hput]
      simp [hi]

theorem link (h : Dev.StatOnly p d e) (q : Port) : e.link q = d.link q := by
  rw [h.same]
  cases q <;> rfl

theorem egress (h : Dev.StatOnly p d e) (q : Port) : e.egress q = d.egress q := by
  rw [h.same]
  cases q <;> rfl

theorem now (h : Dev.StatOnly p d e) : e.now = d.now := by rw [h.same]

theorem chans (h : Dev.StatOnly p d e) : e.chans = d.chans := by rw [h.same]

theorem calm (h : Dev.StatOnly p d e) (hd : d.calm) : e.calm := by
  rw [h.same]
  exact hd

end Dev.StatOnly

/-! ### The changes that the steps make (R43) -/

/-- The fields of a port that comes up. -/
def Dev.upPut (d : Dev) (p : Port) (speed : Nat) : Dev :=
  ((d.linkPut p F.LINK_STAT_AN_DONE 1).linkPut p F.LINK_STAT_SPEED speed).linkPut p F.LINK_STAT_LINK_UP 1

/-- The fields of a port that starts again. -/
def Dev.downPut (d : Dev) (p : Port) : Dev :=
  ((d.linkFall p).linkPut p F.LINK_STAT_SYNC 0).linkPut p F.LINK_STAT_HDX_REFUSED 0

section
variable (d : Dev) (p : Port)

theorem Dev.linkComeUp_eq (speed : Nat) : d.linkComeUp p speed =
    (d.upPut p (if d.linkGet p F.LINK_CTRL_MODE = 1 then speed else 2)).linkStep p .up := rfl

theorem Dev.linkFromSerdes_eq : d.linkFromSerdes p = (d.downPut p).linkStep p .serdes := rfl

theorem Dev.linkFromPcs_eq : d.linkFromPcs p = (d.downPut p).linkStep p .pcs := rfl

theorem Dev.statOnly_upPut (speed : Nat) : Dev.StatOnly p d (d.upPut p speed) :=
  (((Dev.StatOnly.refl p d).linkPut (f := F.LINK_STAT_AN_DONE) 1 rfl).linkPut (f := F.LINK_STAT_SPEED) speed rfl).linkPut
    (f := F.LINK_STAT_LINK_UP) 1 rfl

theorem Dev.statOnly_downPut : Dev.StatOnly p d (d.downPut p) :=
  (((((Dev.StatOnly.refl p d).linkPut (f := F.LINK_STAT_LINK_UP) 0 rfl).linkPut (f := F.LINK_STAT_AN_DONE) 0 rfl).linkPut
    (f := F.LINK_STAT_SPEED) speedNone rfl).linkPut (f := F.LINK_STAT_SYNC) 0 rfl).linkPut
    (f := F.LINK_STAT_HDX_REFUSED) 0 rfl

/-- A port that comes up is up, at its speed; SYNC and REMOTE_FAULT stay. -/
theorem Dev.upPut_fields {speed : Nat} (h : speed < 4) :
    (d.upPut p speed).linkGet p F.LINK_STAT_LINK_UP = 1 ∧ (d.upPut p speed).linkGet p F.LINK_STAT_AN_DONE = 1 ∧
      (d.upPut p speed).linkGet p F.LINK_STAT_SPEED = speed ∧
      (d.upPut p speed).linkGet p F.LINK_STAT_SYNC = d.linkGet p F.LINK_STAT_SYNC ∧
      (d.upPut p speed).linkGet p F.LINK_STAT_REMOTE_FAULT = d.linkGet p F.LINK_STAT_REMOTE_FAULT := by
  have hspeed (e : Dev) : (e.linkPut p F.LINK_STAT_SPEED speed).linkGet p F.LINK_STAT_SPEED = speed :=
    e.linkGet_linkPut_same p rfl h
  unfold Dev.upPut
  simp (disch := decide) only [Dev.linkGet_linkPut_same, Dev.linkGet_linkPut_apart, hspeed, and_self]

theorem Dev.downPut_fields : (d.downPut p).linkGet p F.LINK_STAT_LINK_UP = 0 ∧
    (d.downPut p).linkGet p F.LINK_STAT_AN_DONE = 0 ∧ (d.downPut p).linkGet p F.LINK_STAT_SYNC = 0 ∧
    (d.downPut p).linkGet p F.LINK_STAT_SPEED = 3 := by
  unfold Dev.downPut Dev.linkFall speedNone
  simp (disch := decide) only [Dev.linkGet_linkPut_same, Dev.linkGet_linkPut_apart, and_self]

theorem Dev.linkGet_lt (f : Fl) : d.linkGet p f < 2 ^ (f.hi + 1 - f.lo) := by
  cases p <;> exact bitsOf_lt ..

end

/-! ### A step of link start-up (R43) -/

/-- What a step leaves: the port in step `x`, and nothing changed but its LINKx_STAT, with its interrupt. -/
structure LinkGoes (s : State) (p : Port) (x : LinkStep) (t : State) : Prop where
  core : t.core = (became s s.core t.dev).core
  pending : t.pending = s.pending
  link : t.dev.link p = { s.dev.link p with step := x, stepAt := s.dev.now }
  reg : ∀ a, a ≠ linkStat p → t.dev.reg a = s.dev.reg a
  latched : t.dev.reg (linkStat p) ≠ s.dev.reg (linkStat p) → t.dev.irq.getLsbD (portIrq p) = true

section
variable {s : State} {p : Port}

/-- The device with its LINKx_STAT changed goes to a step. -/
theorem link_goes {f : Dev → Dev} {e : Dev} {x : LinkStep} (hcalm : s.dev.calm) (hop : f s.dev = e.linkStep p x)
    (hstat : Dev.StatOnly p s.dev e) :
    s.onDev f = .next (became s s.core (e.linkStep p x)) ∧ LinkGoes s p x (became s s.core (e.linkStep p x)) := by
  have hreg (a : Nat) : (e.linkStep p x).reg a = e.reg a := by cases p <;> rfl
  have hirq : (e.linkStep p x).irq = e.irq := by cases p <;> rfl
  refine ⟨State.onDev_eq hop (Dev.calm_setLink _ _ (hstat.calm hcalm)), rfl, rfl, ?_, fun a ha => ?_, fun h => ?_⟩
  · refine (Dev.link_setLink ..).trans ?_
    rw [hstat.link, hstat.now]
  · exact (hreg a).trans (hstat.reg a ha)
  · exact (congrArg (BitVec.getLsbD · (portIrq p)) hirq).trans (hstat.latched fun hsame => h ((hreg _).trans hsame))

end

theorem Dev.linkIn_step {d : Dev} {p : Port} {x : LinkStep} (hon : d.on p.dom = true) (h : (d.link p).step = x) (y : LinkStep) :
    d.linkIn p y = (x == y) := by
  rw [Dev.linkIn, hon, h, Bool.true_and]

/-- The control register is not the status register. -/
theorem Dev.StatOnly.ctrl {p : Port} {d e : Dev} (h : Dev.StatOnly p d e) {f : Fl}
    (hf : f.addr = F.LINK_CTRL_MODE.addr) : e.linkGet p f = d.linkGet p f := by
  have hne : (portField p f).addr ≠ linkStat p := by
    rw [linkStat, portField_addr, portField_addr, hf]
    cases p <;> decide
  exact Dev.get_congr (h.reg _ hne)

theorem Dev.StatOnly.linkNegotiate_on {p : Port} {d e : Dev} (h : Dev.StatOnly p d e)
    (hen : d.linkGet p F.LINK_CTRL_AN_EN = 1) : e.linkNegotiate p = e.linkStep p .autoneg := by
  rw [Dev.linkNegotiate, h.ctrl (f := F.LINK_CTRL_AN_EN) rfl, if_pos hen]

theorem Dev.StatOnly.linkNegotiate_off {p : Port} {d e : Dev} (h : Dev.StatOnly p d e)
    (hen : d.linkGet p F.LINK_CTRL_AN_EN = 0) :
    e.linkNegotiate p = e.linkComeUp p (d.linkGet p F.LINK_CTRL_FORCE_SPEED) := by
  rw [Dev.linkNegotiate, h.ctrl (f := F.LINK_CTRL_AN_EN) rfl, if_neg (by omega),
    h.ctrl (f := F.LINK_CTRL_FORCE_SPEED) rfl]

/-- The port is up, at the speed of its mode (R43). -/
structure LinkIsUp (s : State) (p : Port) (speed : Nat) (t : State) : Prop where
  up : t.dev.linkGet p F.LINK_STAT_LINK_UP = 1
  done : t.dev.linkGet p F.LINK_STAT_AN_DONE = 1
  speed : t.dev.linkGet p F.LINK_STAT_SPEED = if s.dev.linkGet p F.LINK_CTRL_MODE = 1 then speed else 2

section
variable {s : State} {p : Port}

/-- A device with its LINKx_STAT changed comes up. -/
theorem link_comesUp {f : Dev → Dev} {e : Dev} {speed : Nat} (hcalm : s.dev.calm) (hspeed : speed < 4)
    (hop : f s.dev = e.linkComeUp p speed) (hstat : Dev.StatOnly p s.dev e) :
    ∃ t, s.onDev f = .next t ∧ LinkGoes s p .up t ∧ LinkIsUp s p speed t ∧
      t.dev.linkGet p F.LINK_STAT_SYNC = e.linkGet p F.LINK_STAT_SYNC ∧
      t.dev.linkGet p F.LINK_STAT_REMOTE_FAULT = e.linkGet p F.LINK_STAT_REMOTE_FAULT := by
  have hlt : (if s.dev.linkGet p F.LINK_CTRL_MODE = 1 then speed else 2) < 4 := by split <;> omega
  have hop' : f s.dev = (e.upPut p (if s.dev.linkGet p F.LINK_CTRL_MODE = 1 then speed else 2)).linkStep p .up := by
    rw [hop, Dev.linkComeUp_eq, hstat.ctrl rfl]
  obtain ⟨hexec, hgoes⟩ := link_goes hcalm hop' (hstat.trans (e.statOnly_upPut p _))
  obtain ⟨hup, hdone, hsp, hsync, hfault⟩ := e.upPut_fields p hlt
  have hget (g : Fl) := (e.upPut p (if s.dev.linkGet p F.LINK_CTRL_MODE = 1 then speed else 2)).linkGet_linkStep p
    (g := g) .up
  exact ⟨_, hexec, hgoes, ⟨(hget _).trans hup, (hget _).trans hdone, (hget _).trans hsp⟩, (hget _).trans hsync,
    (hget _).trans hfault⟩

/-- A timeout that has not passed changes nothing, and neither does a step that the port is not in. -/
theorem link_still {f : Dev → Dev} (hcalm : s.dev.calm) (hop : f s.dev = s.dev) :
    s.onDev f = .next (became s s.core s.dev) := State.onDev_eq hop hcalm

theorem Dev.stepOver_eq (d : Dev) (p : Port) (ns : Nat) : d.stepOver p ns = decide ((d.link p).stepAt + ns < d.now) := rfl

end

/-! ### The steps, one by one -/

section
variable {s : State} {p : Port}

theorem serdesLock_goes (hcalm : s.dev.calm) (hon : s.dev.on p.dom = true) (hstep : (s.dev.link p).step = .serdes) :
    exec (.serdesLock p) s = .next (became s s.core (s.dev.linkStep p .pcs)) ∧
      LinkGoes s p .pcs (became s s.core (s.dev.linkStep p .pcs)) := by
  rw [exec_serdesLock]
  exact link_goes hcalm (by simp [Dev.serdesLockOp, Dev.linkIn_step hon hstep]) (.refl ..)

theorem serdesLockTimeout_clears (hcalm : s.dev.calm) (hon : s.dev.on p.dom = true) (hstep : (s.dev.link p).step = .serdes)
    (hover : (s.dev.link p).stepAt + 100000 < s.dev.now) :
    exec (.serdesLockTimeout p) s = .next (became s s.core (s.dev.linkPut p F.LINK_STAT_SYNC 0)) := by
  have hstat := (Dev.StatOnly.refl p s.dev).linkPut (f := F.LINK_STAT_SYNC) 0 rfl
  rw [exec_serdesLockTimeout]
  exact State.onDev_eq (by simp [Dev.serdesLockTimeoutOp, Dev.linkIn_step hon hstep, Dev.stepOver_eq, hover])
    (hstat.calm hcalm)

theorem pcsSync_negotiates (hcalm : s.dev.calm) (hon : s.dev.on p.dom = true) (hstep : (s.dev.link p).step = .pcs)
    (hen : s.dev.linkGet p F.LINK_CTRL_AN_EN = 1) :
    ∃ t, exec (.pcsSync p) s = .next t ∧ LinkGoes s p .autoneg t ∧ t.dev.linkGet p F.LINK_STAT_SYNC = 1 := by
  have hstat := (Dev.StatOnly.refl p s.dev).linkPut (f := F.LINK_STAT_SYNC) 1 rfl
  have hop : s.dev.pcsSyncOp p = (s.dev.linkPut p F.LINK_STAT_SYNC 1).linkStep p .autoneg := by
    rw [Dev.pcsSyncOp, Dev.linkIn_step hon hstep, if_pos (beq_self_eq_true _), hstat.linkNegotiate_on hen]
  rw [exec_pcsSync]
  obtain ⟨hexec, hgoes⟩ := link_goes (f := fun d => d.pcsSyncOp p) hcalm hop hstat
  exact ⟨_, hexec, hgoes, (Dev.linkGet_linkStep ..).trans (Dev.linkGet_linkPut_same _ _ rfl (by decide))⟩

theorem pcsSync_comesUp (hcalm : s.dev.calm) (hon : s.dev.on p.dom = true) (hstep : (s.dev.link p).step = .pcs)
    (hen : s.dev.linkGet p F.LINK_CTRL_AN_EN = 0) :
    ∃ t, exec (.pcsSync p) s = .next t ∧ LinkGoes s p .up t ∧
      LinkIsUp s p (s.dev.linkGet p F.LINK_CTRL_FORCE_SPEED) t ∧ t.dev.linkGet p F.LINK_STAT_SYNC = 1 := by
  have hstat := (Dev.StatOnly.refl p s.dev).linkPut (f := F.LINK_STAT_SYNC) 1 rfl
  have hop : s.dev.pcsSyncOp p = (s.dev.linkPut p F.LINK_STAT_SYNC 1).linkComeUp p
      (s.dev.linkGet p F.LINK_CTRL_FORCE_SPEED) := by
    rw [Dev.pcsSyncOp, Dev.linkIn_step hon hstep, if_pos (beq_self_eq_true _), hstat.linkNegotiate_off hen]
  rw [exec_pcsSync]
  obtain ⟨t, ht, hgoes, hup, hsync, -⟩ := link_comesUp (f := fun d => d.pcsSyncOp p) hcalm (s.dev.linkGet_lt p _) hop hstat
  exact ⟨t, ht, hgoes, hup, hsync.trans (Dev.linkGet_linkPut_same _ _ rfl (by decide))⟩

theorem pcsSyncTimeout_restarts (hcalm : s.dev.calm) (hon : s.dev.on p.dom = true) (hstep : (s.dev.link p).step = .pcs)
    (hover : (s.dev.link p).stepAt + 20000 < s.dev.now) :
    exec (.pcsSyncTimeout p) s = .next (became s s.core ((s.dev.downPut p).linkStep p .serdes)) ∧
      LinkGoes s p .serdes (became s s.core ((s.dev.downPut p).linkStep p .serdes)) := by
  rw [exec_pcsSyncTimeout]
  exact link_goes hcalm
    (by simp [Dev.pcsSyncTimeoutOp, Dev.linkIn_step hon hstep, Dev.stepOver_eq, hover, Dev.linkFromSerdes_eq])
    (s.dev.statOnly_downPut p)

/-- A link timer that has passed starts the step again. -/
theorem anLinkTimer_negotiates {d : Dev} (hon : d.on p.dom = true) (hstep : (d.link p).step = .autoneg)
    (hover : (d.link p).stepAt + d.linkTimer p < d.now) : d.anLinkTimerOp p = d.linkNegotiate p := by
  simp [Dev.anLinkTimerOp, Dev.linkIn_step hon hstep, Dev.stepOver_eq, hover]

/-- The device once the exchange's word has been taken. -/
def Dev.anTaken (d : Dev) (p : Port) (w : AnWord) : Dev :=
  (d.linkPut p F.LINK_STAT_REMOTE_FAULT (b2n w.remoteFault)).linkPut p F.LINK_STAT_AN_DONE 1

theorem Dev.statOnly_anTaken (d : Dev) (p : Port) (w : AnWord) : Dev.StatOnly p d (d.anTaken p w) :=
  ((Dev.StatOnly.refl p d).linkPut (f := F.LINK_STAT_REMOTE_FAULT) _ rfl).linkPut (f := F.LINK_STAT_AN_DONE) 1 rfl

theorem Dev.anTaken_fields (d : Dev) (p : Port) (w : AnWord) :
    (d.anTaken p w).linkGet p F.LINK_STAT_REMOTE_FAULT = b2n w.remoteFault ∧
      (d.anTaken p w).linkGet p F.LINK_STAT_AN_DONE = 1 ∧
      (d.anTaken p w).linkGet p F.LINK_STAT_LINK_UP = d.linkGet p F.LINK_STAT_LINK_UP := by
  have hfault : (d.linkPut p F.LINK_STAT_REMOTE_FAULT (b2n w.remoteFault)).linkGet p F.LINK_STAT_REMOTE_FAULT =
      b2n w.remoteFault := d.linkGet_linkPut_same p rfl (by cases w.remoteFault <;> decide)
  unfold Dev.anTaken
  simp (disch := decide) only [Dev.linkGet_linkPut_same, Dev.linkGet_linkPut_apart, hfault, and_self]

theorem anDone_comesUp (hcalm : s.dev.calm) (hon : s.dev.on p.dom = true) (hstep : (s.dev.link p).step = .autoneg)
    {w : AnWord} (hw : w.halfDuplex = false) :
    ∃ t, exec (.anDone p w) s = .next t ∧ LinkGoes s p .up t ∧ LinkIsUp s p w.speed.val t ∧
      t.dev.linkGet p F.LINK_STAT_REMOTE_FAULT = b2n w.remoteFault := by
  have hop : s.dev.anDoneOp p w = (s.dev.anTaken p w).linkComeUp p w.speed.val := by
    rw [Dev.anDoneOp, Dev.linkIn_step hon hstep, if_pos (beq_self_eq_true _)]
    exact if_neg (by simp [hw])
  rw [exec_anDone]
  obtain ⟨t, ht, hgoes, hup, -, hfault⟩ := link_comesUp (f := fun d => d.anDoneOp p w) hcalm (by omega) hop
    (s.dev.statOnly_anTaken p w)
  exact ⟨t, ht, hgoes, hup, hfault.trans (s.dev.anTaken_fields p w).1⟩

/-- Half duplex holds the port (R42). -/
theorem anDone_holds (hcalm : s.dev.calm) (hon : s.dev.on p.dom = true) (hstep : (s.dev.link p).step = .autoneg)
    {w : AnWord} (hw : w.halfDuplex = true) :
    ∃ t, exec (.anDone p w) s = .next t ∧ LinkGoes s p .held t ∧
      t.dev.linkGet p F.LINK_STAT_REMOTE_FAULT = b2n w.remoteFault ∧ t.dev.linkGet p F.LINK_STAT_AN_DONE = 1 ∧
      t.dev.linkGet p F.LINK_STAT_HDX_REFUSED = 1 ∧
      t.dev.linkGet p F.LINK_STAT_LINK_UP = s.dev.linkGet p F.LINK_STAT_LINK_UP := by
  have hop : s.dev.anDoneOp p w = ((s.dev.anTaken p w).linkPut p F.LINK_STAT_HDX_REFUSED 1).linkStep p .held := by
    rw [Dev.anDoneOp, Dev.linkIn_step hon hstep, if_pos (beq_self_eq_true _)]
    exact if_pos hw
  rw [exec_anDone]
  obtain ⟨hexec, hgoes⟩ := link_goes (f := fun d => d.anDoneOp p w) hcalm hop
    ((s.dev.statOnly_anTaken p w).linkPut (f := F.LINK_STAT_HDX_REFUSED) 1 rfl)
  obtain ⟨hfault, hdone, hup⟩ := s.dev.anTaken_fields p w
  have hkept {g : Fl} (hg : F.LINK_STAT_HDX_REFUSED.apart g = true) :
      (((s.dev.anTaken p w).linkPut p F.LINK_STAT_HDX_REFUSED 1).linkStep p .held).linkGet p g =
        (s.dev.anTaken p w).linkGet p g := (Dev.linkGet_linkStep ..).trans (Dev.linkGet_linkPut_apart _ _ rfl hg)
  exact ⟨_, hexec, hgoes, (hkept rfl).trans hfault, (hkept rfl).trans hdone,
    (Dev.linkGet_linkStep ..).trans (Dev.linkGet_linkPut_same _ _ rfl (by decide)), (hkept rfl).trans hup⟩

end

/-- R42, R43, R45: the first part of O32. -/
theorem linkStartsUp_holds : Claims.LinkStartsUp := by
  unfold Claims.LinkStartsUp
  intro s p hcalm hon
  have hstatReg : (portField p F.LINK_STAT_SYNC).addr = linkStat p := by cases p <;> rfl
  dsimp only
  rw [hstatReg]
  refine ⟨fun hstep => ⟨?_, fun hnot => ?_, fun hover => ?_⟩, fun hstep => ⟨fun hen => ?_, fun hen => ?_, fun hnot => ?_,
    fun hover => ?_⟩, fun hstep => ⟨fun hnot => ?_, fun hover => ⟨fun hen => ?_, fun hen => ?_⟩, fun w => ⟨fun hw => ?_,
    fun hw => ?_⟩⟩, fun hnot => ?_, fun hover => ?_⟩
  · obtain ⟨hexec, h⟩ := serdesLock_goes hcalm hon hstep
    exact ⟨_, hexec, h.core, h.pending, h.link, h.reg, h.latched, by cases p <;> rfl⟩
  · rw [exec_serdesLockTimeout]
    exact link_still hcalm (by simp [Dev.serdesLockTimeoutOp, Dev.stepOver_eq, hnot])
  · exact ⟨_, serdesLockTimeout_clears hcalm hon hstep hover, rfl, (s.dev.link_linkPut p p (f := F.LINK_STAT_SYNC) 0 rfl).1,
      s.dev.linkGet_linkPut_same p rfl (by decide)⟩
  · obtain ⟨t, ht, h, hsync⟩ := pcsSync_negotiates hcalm hon hstep hen
    exact ⟨t, ht, h.core, h.pending, h.link, h.reg, h.latched, hsync⟩
  · obtain ⟨t, ht, h, hup, hsync⟩ := pcsSync_comesUp hcalm hon hstep hen
    exact ⟨t, ht, h.core, h.pending, h.link, h.reg, h.latched, ⟨hup.up, hup.done, hup.speed⟩, hsync⟩
  · rw [exec_pcsSyncTimeout]
    exact link_still hcalm (by simp [Dev.pcsSyncTimeoutOp, Dev.stepOver_eq, hnot])
  · obtain ⟨hexec, h⟩ := pcsSyncTimeout_restarts hcalm hon hstep hover
    obtain ⟨hup, -, hsync, hspeed⟩ := s.dev.downPut_fields p
    exact ⟨_, hexec, h.core, h.pending, h.link, h.reg, h.latched, (Dev.linkGet_linkStep ..).trans hsync,
      (Dev.linkGet_linkStep ..).trans hup, (Dev.linkGet_linkStep ..).trans hspeed⟩
  · rw [exec_anLinkTimer]
    refine link_still hcalm (if_neg ?_)
    rw [Dev.stepOver_eq, decide_eq_true_eq]
    exact fun h => absurd h.2 (Nat.not_lt.mpr hnot)
  · obtain ⟨hexec, h⟩ := link_goes (f := fun d => d.anLinkTimerOp p) hcalm
      ((anLinkTimer_negotiates hon hstep hover).trans ((Dev.StatOnly.refl p s.dev).linkNegotiate_on hen)) (.refl ..)
    exact ⟨_, hexec, h.core, h.pending, h.link, h.reg, h.latched, by cases p <;> rfl⟩
  · obtain ⟨t, ht, h, hup, -⟩ := link_comesUp (f := fun d => d.anLinkTimerOp p) hcalm (s.dev.linkGet_lt p _)
      ((anLinkTimer_negotiates hon hstep hover).trans ((Dev.StatOnly.refl p s.dev).linkNegotiate_off hen)) (.refl ..)
    exact ⟨t, ht, h.core, h.pending, h.link, h.reg, h.latched, hup.up, hup.done, hup.speed⟩
  · obtain ⟨t, ht, h, hup, hfault⟩ := anDone_comesUp hcalm hon hstep hw
    exact ⟨t, ht, h.core, h.pending, h.link, h.reg, h.latched, ⟨hup.up, hup.done, hup.speed⟩, hfault⟩
  · obtain ⟨t, ht, h, hfields⟩ := anDone_holds hcalm hon hstep hw
    exact ⟨t, ht, h.core, h.pending, h.link, h.reg, h.latched, hfields⟩
  · rw [exec_actTimeout]
    exact link_still hcalm (if_neg (Nat.not_lt.mpr hnot))
  · rw [exec_actTimeout]
    exact State.onDev_eq (if_pos hover) (Dev.calm_setLink _ _ hcalm)

end Sys2Proof.Machine
end

section
/-! PROOFS. What takes a port back to the first steps of link start-up (R43, R44, R65): loss of synchronisation, and the
writes of LINKx_CTRL. -/
namespace Sys2Proof.Machine
open Sys2Proof.Claims

/-- What the loss of a port that sends no staged frame leaves: its egress is empty, and the ports' records and registers,
the channels and what is asked of the core are as they were. -/
structure Dev.LinkLost (p : Port) (d e : Dev) : Prop where
  egress : e.egress p = none
  link : ∀ q, e.link q = d.link q
  reg : ∀ a, asideReg a = false → a ≠ F.EVT_TRBL_TRBL.addr → e.reg a = d.reg a
  chans : e.chans = d.chans
  calm : d.calm → e.calm

section
variable {d : Dev} {p : Port}

theorem Dev.InLane.linkLost {l : Lane} {e : Dev} (h : Dev.InLane [] l d e) : Dev.LinkLost p d (e.setEgress p none) where
  egress := Dev.egress_setEgress ..
  link q := by
    have hsame : (e.setEgress p none).link q = e.link q := by cases p <;> cases q <;> rfl
    exact hsame.trans (h.link q)
  reg a ha ht := (Dev.reg_setEgress ..).trans (h.reg a ha ht (by simp))
  chans := by
    have hsame : (e.setEgress p none).chans = e.chans := by cases p <;> rfl
    exact hsame.trans h.chans
  calm hd := Dev.calm_setEgress _ _ (h.calm hd)

theorem Dev.linkLost_loses (hring : ∀ e r, d.egress p = some e → e.src ≠ .ring r) : Dev.LinkLost p d (d.linkLost p) := by
  have hsame : Dev.LinkLost p d (d.setEgress p none) := (Dev.InLane.refl [] .verify d).linkLost
  unfold Dev.linkLost
  cases he : d.egress p with
  | none => exact ⟨he, fun _ => rfl, fun _ _ _ => rfl, rfl, id⟩
  | some e =>
    dsimp only
    cases hsrc : e.src with
    | lane l n =>
      dsimp only
      cases d.frame l n with
      | none => exact hsame
      | some f => exact (d.inLane_discard l f cEGRESS_DOWN).linkLost
    | orphan => exact hsame
    | ring r => exact absurd hsrc (hring e r he)

end

/-- A register of a port is one that other work keeps. -/
theorem asideReg_link (p : Port) {f : Fl} (h : f.addr / 0x10000 = 0x4020) :
    asideReg (portField p f).addr = false ∧ (portField p f).addr ≠ F.EVT_TRBL_TRBL.addr := by
  have hblock : (portField p f).addr / 0x10000 = 0x4020 ∨ (portField p f).addr / 0x10000 = 0x4021 := by
    rw [portField_addr]
    cases p <;> dsimp only <;> omega
  refine ⟨by obtain h | h := hblock <;> simp [asideReg, h], fun ht => ?_⟩
  rw [ht] at hblock
  exact absurd hblock (by decide)

/-- The port has fallen back to step `x`: nothing of it is up, and nothing is in its egress. -/
structure LinkFell (s : State) (p : Port) (x : LinkStep) (t : State) : Prop where
  core : t.core = (became s s.core t.dev).core
  pending : t.pending = s.pending
  step : (t.dev.link p).step = x
  up : t.dev.linkGet p F.LINK_STAT_LINK_UP = 0
  done : t.dev.linkGet p F.LINK_STAT_AN_DONE = 0
  sync : t.dev.linkGet p F.LINK_STAT_SYNC = 0
  speed : t.dev.linkGet p F.LINK_STAT_SPEED = 3
  egress : t.dev.egress p = none

/-- The device whose port `p` has been lost, in step `x`. -/
def Dev.fallen (d : Dev) (p : Port) (x : LinkStep) : Dev := ((d.linkLost p).downPut p).linkStep p x

theorem Dev.fallen_fell (s : State) {d : Dev} {p : Port} (x : LinkStep) (hlost : Dev.LinkLost p d (d.linkLost p)) :
    LinkFell s p x (became s s.core (d.fallen p x)) := by
  obtain ⟨hup, hdone, hsync, hspeed⟩ := (d.linkLost p).downPut_fields p
  have hget (g : Fl) := ((d.linkLost p).downPut p).linkGet_linkStep p (g := g) x
  refine ⟨rfl, rfl, congrArg Link.step (Dev.link_setLink ..), (hget _).trans hup, (hget _).trans hdone,
    (hget _).trans hsync, (hget _).trans hspeed, ?_⟩
  exact (Dev.egress_setLink ..).trans (((d.linkLost p).statOnly_downPut p).egress p |>.trans hlost.egress)

/-- Besides the port's LINKx_STAT the fall changes no register that other work keeps. -/
theorem Dev.reg_fallen {d : Dev} {p : Port} (x : LinkStep) (hlost : Dev.LinkLost p d (d.linkLost p)) {a : Nat}
    (ha : asideReg a = false) (ht : a ≠ F.EVT_TRBL_TRBL.addr) (hne : a ≠ linkStat p) : (d.fallen p x).reg a = d.reg a := by
  have hstep : (d.fallen p x).reg a = ((d.linkLost p).downPut p).reg a := by cases p <;> rfl
  exact hstep.trans ((((d.linkLost p).statOnly_downPut p).reg a hne).trans (hlost.reg a ha ht))

theorem Dev.calm_fallen {d : Dev} {p : Port} (x : LinkStep) (hlost : Dev.LinkLost p d (d.linkLost p)) (h : d.calm) :
    (d.fallen p x).calm :=
  Dev.calm_setLink _ _ (((d.linkLost p).statOnly_downPut p).calm (hlost.calm h))

theorem Dev.noAbort_fallen {d : Dev} {p : Port} (x : LinkStep) (hlost : Dev.LinkLost p d (d.linkLost p))
    (h : noAbort d) : noAbort (d.fallen p x) := by
  have hchans : (d.fallen p x).chans = ((d.linkLost p).downPut p).chans := by cases p <;> rfl
  refine noAbort_of_eq h (hchans.trans ((((d.linkLost p).statOnly_downPut p).chans).trans hlost.chans)) fun a ha => ?_
  refine Dev.reg_fallen x hlost (by simp [asideReg, ha]) ?_ ?_
  · rintro rfl
    exact absurd ha (by decide)
  · rintro rfl
    obtain h | h := linkStat_block p <;> omega

/-! ### LINKx_CTRL (R43, R45) -/

/-- The register LINKx_CTRL of a port. -/
def linkCtrlReg (p : Port) : Nat := (portField p F.LINK_CTRL_MODE).addr

theorem fieldsAt_linkCtrl (p : Port) : fieldsAt (linkCtrlReg p) = [⟨0x40200000, 4, 4, .wo, 0x0, .keep, .supervisor⟩,
    ⟨0x40200000, 3, 2, .rw, 0x2, .keep, .supervisor⟩, ⟨0x40200000, 1, 1, .rw, 0x1, .keep, .supervisor⟩,
    ⟨0x40200000, 0, 0, .rw, 0x0, .keep, .supervisor⟩] := by
  cases p <;> decide

theorem Dev.regWritten_linkCtrl (d : Dev) (m : Master) (p : Port) (old acted : Nat) :
    d.regWritten m (linkCtrlReg p) old acted = d.linkWritten p old acted := by
  cases p <;> rfl

/-- The fields of a word that arrives at LINKx_CTRL: the device, and the bits that reached AN_RESTART. -/
def Dev.linkCtrlStored (d : Dev) (m : Master) (p : Port) (v : Word) : Dev × Nat :=
  (fieldsAt (linkCtrlReg p)).reverse.foldl (d.writeField m (linkCtrlReg p) v.toNat) (d, 0)

section
variable {d : Dev} {m : Master} {p : Port} {v : Word}

theorem Dev.mode_linkCtrlStored (h : d.fieldCase m (linkCtrlReg p) v.toNat = false) :
    (d.linkCtrlStored m p v).1.linkGet p F.LINK_CTRL_MODE = bitsOf v.toNat 0 0 := by
  have htakes := Dev.get_writeFields_takes (a := linkCtrlReg p) (f := ⟨0x40200000, 0, 0, .rw, 0x0, .keep, .supervisor⟩)
    (by rw [fieldsAt_linkCtrl]; simp) rfl nofun h (by cases p <;> rfl) (by cases p <;> rfl) (by cases p <;> rfl)
    (by cases p <;> rfl)
  cases p <;> exact htakes

/-- A set AN_RESTART reaches the port. -/
theorem Dev.acted_linkCtrlStored (h : d.fieldCase m (linkCtrlReg p) v.toNat = false) (hv : bitsOf v.toNat 4 4 = 1) :
    (d.linkCtrlStored m p v).2 = 16 := by
  have hreached : Owner.supervisor.reached (masterLevel m) = true := by
    refine Dev.reached_of_meant (f := ⟨0x40200000, 4, 4, .wo, 0x0, .keep, .supervisor⟩) h
      (by rw [fieldsAt_linkCtrl]; simp) nofun ?_
    simp only [Dev.fieldMeant, hv]
    rfl
  rw [Dev.linkCtrlStored, fieldsAt_linkCtrl]
  simp only [List.reverse_cons, List.reverse_nil, List.nil_append, List.cons_append, List.foldl_cons, List.foldl_nil]
  rw [Dev.writeField_wo d m _ _ _ rfl hreached, hv]
  dsimp only
  rw [Dev.acted_writeField, Dev.acted_writeField, Dev.acted_writeField]
  · rfl
  all_goals exact nofun

/-- The stored word changes LINKx_CTRL and the clamp log alone. -/
theorem Dev.linkCtrlStored_keeps (d : Dev) (m : Master) (p : Port) (v : Word) :
    d.RegsOnly (d.linkCtrlStored m p v).1 ∧ ∀ a, a ≠ linkCtrlReg p → isClampLog a = false →
      (d.linkCtrlStored m p v).1.reg a = d.reg a :=
  ⟨d.regsOnly_writeFields m _ _ _ (d, 0), fun _ ha hlog => d.reg_writeFields m v.toNat
    (by rw [fieldsAt_linkCtrl]; decide) ha hlog (d, 0)⟩

theorem Dev.RegsOnly.ports {e : Dev} (h : d.RegsOnly e) (q : Port) :
    e.egress q = d.egress q ∧ e.link q = d.link q ∧ e.on q.dom = d.on q.dom := by
  rw [h]
  cases q <;> exact ⟨rfl, rfl, rfl⟩

theorem Dev.quiet_linkCtrlStored (m : Master) (p : Port) (v : Word) (h : noAbort d) :
    noAbort (d.linkCtrlStored m p v).1 := by
  obtain ⟨honly, hreg⟩ := d.linkCtrlStored_keeps m p v
  refine noAbort_of_eq h honly.chans fun a ha => hreg a ?_ ?_
  · rintro rfl
    cases p <;> exact absurd ha (by decide)
  · simp only [isClampLog, Bool.or_eq_false_iff, Bool.and_eq_false_iff, beq_eq_false_iff_ne, decide_eq_false_iff_not]
    omega

theorem Dev.linkWritten_mode {old : Nat} (acted : Nat) (h : d.linkGet p F.LINK_CTRL_MODE ≠ bitsOf old 0 0) :
    d.linkWritten p old acted = d.fallen p .serdes := by
  rw [Dev.linkWritten, if_pos h]
  rfl

theorem Dev.linkWritten_restart {old : Nat} (h : d.linkGet p F.LINK_CTRL_MODE = bitsOf old 0 0)
    (hstep : (d.link p).step ≠ .serdes) : d.linkWritten p old 16 = d.fallen p .pcs := by
  have hnot : d.linkIn p .serdes = false := by simp [Dev.linkIn, hstep]
  rw [Dev.linkWritten, if_neg (not_not.mpr h), if_pos ⟨rfl, by rw [hnot]; rfl⟩]
  rfl

end

section
variable {s : State} {m : Master} {p : Port} {v : Word} {x : LinkStep}

/-- A word that arrives at LINKx_CTRL and takes the port back to step `x`. -/
theorem linkCtrl_falls {f : Dev → Dev} (hf : f s.dev = s.dev.write m (linkCtrlReg p) v) (h : Arrives s.dev m (linkCtrlReg p) v.toNat)
    (hring : ∀ e r, s.dev.egress p = some e → e.src ≠ .ring r)
    (hop : (s.dev.linkCtrlStored m p v).1.linkWritten p (s.dev.reg (linkCtrlReg p)).toNat (s.dev.linkCtrlStored m p v).2 =
      (s.dev.linkCtrlStored m p v).1.fallen p x) :
    s.onDev f = .next (became s s.core ((s.dev.linkCtrlStored m p v).1.fallen p x)) ∧
      LinkFell s p x (became s s.core ((s.dev.linkCtrlStored m p v).1.fallen p x)) ∧
      ((s.dev.linkCtrlStored m p v).1.fallen p x).linkGet p F.LINK_CTRL_MODE = bitsOf v.toNat 0 0 := by
  obtain ⟨hcalm, hab, -, -, hgate, hcase⟩ := id h
  obtain ⟨honly, -⟩ := s.dev.linkCtrlStored_keeps m p v
  have hlost := Dev.linkLost_loses (d := (s.dev.linkCtrlStored m p v).1) (p := p)
    (by rw [(honly.ports p).1]; exact hring)
  have heffect : s.dev.regEffect m (linkCtrlReg p) v = (s.dev.linkCtrlStored m p v).1.fallen p x :=
    (Dev.regEffect_of_gate hgate rfl).trans ((Dev.regWritten_linkCtrl ..).trans hop)
  have hwrite := Dev.write_of_arrives h (by cases p <;> rfl) (by cases p <;> rfl) (by cases p <;> rfl) heffect
    (Dev.noAbort_fallen x hlost (Dev.quiet_linkCtrlStored m p v hab))
  refine ⟨State.onDev_eq (hf.trans hwrite) (Dev.calm_fallen x hlost (honly.calm hcalm)), Dev.fallen_fell s x hlost, ?_⟩
  obtain ⟨ha, ht⟩ := asideReg_link p (f := F.LINK_CTRL_MODE) (by decide)
  exact (Dev.get_congr (Dev.reg_fallen x hlost ha ht (by cases p <;> decide))).trans (Dev.mode_linkCtrlStored hcase)

end

/-- The word of AN_RESTART sets its bit and leaves MODE as it stands. -/
theorem restartWord_bits (w : Word) :
    bitsOf (w ||| 0x10).toNat 0 0 = bitsOf w.toNat 0 0 ∧ bitsOf (w ||| 0x10).toNat 4 4 = 1 := by
  have hor : (w ||| 0x10).toNat = w.toNat ||| 16 := BitVec.toNat_or ..
  rw [hor, bitsOf_eq, bitsOf_eq, bitsOf_eq]
  refine ⟨?_, ?_⟩
  · rw [Nat.pow_zero, Nat.div_one, Nat.div_one, Nat.or_mod_two_pow]
    simp
  · rw [← Nat.shiftRight_eq_div_pow, Nat.shiftRight_or_distrib, Nat.or_mod_two_pow]
    have hlt := Nat.mod_lt (w.toNat >>> 4) (y := 2) (by decide)
    have hbit : w.toNat >>> 4 % 2 = 0 ∨ w.toNat >>> 4 % 2 = 1 := by omega
    obtain h | h := hbit <;> simp [h]

/-- AN_RESTART takes a port that has passed SerDes lock back to PCS synchronisation. -/
theorem anRestart_falls {s : State} {m : Master} {p : Port}
    (h : Arrives s.dev m (linkCtrlReg p) (s.dev.reg (linkCtrlReg p) ||| 0x10).toNat)
    (hring : ∀ e r, s.dev.egress p = some e → e.src ≠ .ring r) (hstep : (s.dev.link p).step ≠ .serdes) :
    ∃ t, exec (.anRestart m p) s = .next t ∧ LinkFell s p .pcs t := by
  obtain ⟨hlow, hrestart⟩ := restartWord_bits (s.dev.reg (linkCtrlReg p))
  rw [exec_anRestart]
  generalize hf : (fun d : Dev => d.write m (portField p F.LINK_CTRL_MODE).addr
    (d.reg (portField p F.LINK_CTRL_MODE).addr ||| 0x10)) = f
  have hword : f s.dev = s.dev.write m (linkCtrlReg p) (s.dev.reg (linkCtrlReg p) ||| 0x10) := by rw [← hf]; rfl
  generalize s.dev.reg (linkCtrlReg p) ||| 0x10 = v at h hlow hrestart hword
  obtain ⟨-, -, -, -, -, hcase⟩ := id h
  obtain ⟨honly, -⟩ := s.dev.linkCtrlStored_keeps m p v
  have hmode := (Dev.mode_linkCtrlStored (p := p) hcase).trans hlow
  obtain ⟨hexec, hfell, -⟩ := linkCtrl_falls (x := .pcs) hword h hring (by
    rw [Dev.acted_linkCtrlStored hcase hrestart]
    exact Dev.linkWritten_restart hmode (by rw [(honly.ports p).2.1]; exact hstep))
  exact ⟨_, hexec, hfell⟩

/-- R43, R65: the second part of O32. -/
theorem linkRestarts_holds : Claims.LinkRestarts := by
  unfold Claims.LinkRestarts
  intro s p hcalm hon hring
  dsimp only
  refine ⟨fun hstep => ?_, fun m h hstep _ => ?_, fun m v h hmode => ?_⟩
  · have hlost := Dev.linkLost_loses hring
    have hop : s.dev.syncLossOp p = s.dev.fallen p .pcs := by
      refine if_pos ?_
      obtain h | h | h := hstep <;> simp [Dev.linkIn_step hon h]
    have hfell := Dev.fallen_fell s .pcs hlost
    exact ⟨_, (exec_syncLoss ..).trans (State.onDev_eq hop (Dev.calm_fallen .pcs hlost hcalm)), hfell.core, hfell.pending,
      hfell.step, hfell.up, hfell.done, hfell.sync, hfell.speed, hfell.egress⟩
  · obtain ⟨t, ht, hfell⟩ := anRestart_falls h hring hstep
    exact ⟨t, ht, hfell.core, hfell.pending, hfell.step, hfell.up, hfell.done, hfell.sync, hfell.speed, hfell.egress⟩
  · obtain ⟨-, -, -, -, -, hcase⟩ := id h
    have hold : bitsOf (s.dev.reg (linkCtrlReg p)).toNat 0 0 = s.dev.get (portField p F.LINK_CTRL_MODE) := by
      cases p <;> rfl
    have hnew : bitsOf v.toNat 0 0 = v.toNat % 2 := by simp [bitsOf_eq]
    have hstored := Dev.mode_linkCtrlStored (p := p) hcase
    obtain ⟨hexec, hfell, hget⟩ := linkCtrl_falls (x := .serdes) (f := fun d => d.write m (linkCtrlReg p) v) rfl h hring
      (Dev.linkWritten_mode _ (by rw [hstored, hold, hnew]; exact hmode))
    exact ⟨_, (exec_linkModeChange ..).trans hexec, ⟨hfell.core, hfell.pending, hfell.step, hfell.up, hfell.done,
      hfell.sync, hfell.speed, hfell.egress⟩, hget.trans hnew⟩

/-- Settles O32: the steps of link start-up, and what takes a port back to them. -/
theorem linksStart : Obligations.LinksStart := ⟨linkStartsUp_holds, linkRestarts_holds⟩

end Sys2Proof.Machine
end

section
/-! PROOFS. The replay window of GOOSE counters (R103 to R105): the rows of its judgement, and the counters it holds. -/
namespace Sys2Proof.Machine
open Sys2Proof.Claims

/-! ### The test of the map (R104) -/

section
variable {w x : Win} {k : Int} {c lost : Nat}

theorem windowTest_ahead (h : 0 < k) : windowTest w x k c lost =
    .fresh { x with map := if 64 ≤ k then 1 else (w.map <<< k.toNat % 2 ^ 64) ||| 1 } c lost := if_pos h

theorem windowTest_seen (h : k ≤ 0) (hseen : k = 0 ∨ k ≤ -64 ∨ w.map.testBit (-k).toNat = true) :
    windowTest w x k c lost = .replay := by
  have hreplay : k = 0 ∨ 64 ≤ -k ∨ w.map.testBit (-k).toNat = true :=
    hseen.imp id fun h => h.imp (by omega) id
  rw [windowTest, if_neg (not_lt.mpr h), if_pos hreplay]

theorem windowTest_behind (h : k < 0) (hk : -64 < k) (hfree : w.map.testBit (-k).toNat = false) :
    windowTest w x k c lost = .fresh { w with map := w.map ||| 2 ^ (-k).toNat } cREORDER 0 := by
  have hfresh : ¬ (k = 0 ∨ 64 ≤ -k ∨ w.map.testBit (-k).toNat = true) := by
    rw [hfree]
    simp only [Bool.false_eq_true, or_false]
    omega
  rw [windowTest, if_neg (by omega), if_neg hfresh]

end

/-! ### The rows of R103 -/

/-- The window that a frame with the counters starts. -/
def Win.started (st sq : Nat) (ts : Nat × Nat) : Win := ⟨true, sq, st, 1, ts.1, ts.2⟩

section
variable {w : Win} {st sq : Nat} {ts : Nat × Nat}

theorem judgeGoose_first (h : w.valid = false) : judgeGoose w st sq ts = .fresh (.started st sq ts) 0 0 := by
  simp only [judgeGoose, h, Bool.not_false, if_true, Win.started]

theorem judgeGoose_older (hv : w.valid = true) (h : dist32 st w.st < 0) : judgeGoose w st sq ts = .replay := by
  simp only [judgeGoose, hv, Bool.not_true, Bool.false_eq_true, if_false, h, if_true]

theorem judgeGoose_newer (hv : w.valid = true) (h : 0 < dist32 st w.st) :
    ∃ c, judgeGoose w st sq ts = .fresh (.started st sq ts) c 0 := by
  simp only [judgeGoose, hv, Bool.not_true, Bool.false_eq_true, if_false, h.not_gt, h, if_true, Win.started]
  exact ⟨_, rfl⟩

theorem judgeGoose_within (hv : w.valid = true) (h : dist32 st w.st = 0) : ∃ c lost,
    judgeGoose w st sq ts = windowTest w { Win.started st sq ts with map := w.map } (dist32 sq w.top) c lost := by
  simp only [judgeGoose, hv, Bool.not_true, Bool.false_eq_true, if_false, h, lt_irrefl, Win.started]
  exact ⟨_, _, rfl⟩

/-- R103, R104: the first part of O35. -/
theorem gooseWindow_holds : Claims.GooseWindow := by
  unfold Claims.GooseWindow
  intro w st sq ts
  dsimp only
  refine ⟨judgeGoose_first, fun hv => ⟨judgeGoose_older hv, judgeGoose_newer hv, fun hst => ?_⟩⟩
  obtain ⟨c, lost, hjudge⟩ := judgeGoose_within (sq := sq) (ts := ts) hv hst
  rw [hjudge]
  refine ⟨fun h => ⟨c, lost, windowTest_ahead h⟩, fun h => ?_, fun h _ hbit => ?_, windowTest_behind⟩
  · exact windowTest_seen (by omega) (h.imp id .inl)
  · exact windowTest_seen h.le (.inr (.inr hbit))

/-! ### No counters twice (R104, R105) -/

/-- The window has accepted the counters: they are its top, or their bit of the map is set. -/
structure Win.Holds (w : Win) (st sq : Nat) : Prop where
  valid : w.valid = true
  state : dist32 st w.st = 0
  seen : dist32 sq w.top = 0 ∨ dist32 sq w.top < 0 ∧ w.map.testBit (-dist32 sq w.top).toNat = true

theorem dist32_self (a : Nat) : dist32 a a = 0 := by
  have h : (a + 2 ^ 32 - a) % 2 ^ 32 = 0 := by omega
  rw [dist32]
  exact if_pos h

theorem judgeGoose_of_holds (h : w.Holds st sq) : judgeGoose w st sq ts = .replay := by
  obtain ⟨c, lost, hjudge⟩ := judgeGoose_within (sq := sq) (ts := ts) h.valid h.state
  rw [hjudge]
  obtain htop | ⟨hlow, hbit⟩ := h.seen
  · exact windowTest_seen htop.le (.inl htop)
  · exact windowTest_seen hlow.le (.inr (.inr hbit))

/-- A window whose top the counters are holds them. -/
theorem Win.holds_top {w : Win} (hv : w.valid = true) (hst : w.st = st) (htop : w.top = sq) : w.Holds st sq :=
  ⟨hv, hst ▸ dist32_self st, .inl (htop ▸ dist32_self sq)⟩

/-- Whatever a frame's judgement leaves as its window holds the frame's counters. -/
theorem holds_of_fresh {w1 : Win} {c lost : Nat} (h : judgeGoose w st sq ts = .fresh w1 c lost) : w1.Holds st sq := by
  cases hv : w.valid with
  | false =>
    rw [judgeGoose_first hv, Judge.fresh.injEq] at h
    obtain ⟨rfl, -⟩ := h
    exact Win.holds_top rfl rfl rfl
  | true =>
    obtain hold | hsame | hnew := lt_trichotomy (dist32 st w.st) 0
    · rw [judgeGoose_older hv hold] at h
      exact nomatch h
    · obtain ⟨c', lost', hjudge⟩ := judgeGoose_within (sq := sq) (ts := ts) hv hsame
      rw [hjudge] at h
      by_cases hahead : 0 < dist32 sq w.top
      · rw [windowTest_ahead hahead, Judge.fresh.injEq] at h
        obtain ⟨rfl, -⟩ := h
        exact Win.holds_top rfl rfl rfl
      by_cases hseen : dist32 sq w.top = 0 ∨ dist32 sq w.top ≤ -64 ∨ w.map.testBit (-dist32 sq w.top).toNat = true
      · rw [windowTest_seen (not_lt.mp hahead) hseen] at h
        exact nomatch h
      · obtain ⟨hne, hfar, hfree⟩ := by simpa only [not_or] using hseen
        have hlow : dist32 sq w.top < 0 := by omega
        rw [windowTest_behind hlow (by omega) (by simpa using hfree), Judge.fresh.injEq] at h
        obtain ⟨rfl, -⟩ := h
        exact ⟨hv, hsame, .inr ⟨hlow, by simp⟩⟩
    · obtain ⟨c', hjudge⟩ := judgeGoose_newer (sq := sq) (ts := ts) hv hnew
      rw [hjudge, Judge.fresh.injEq] at h
      obtain ⟨rfl, -⟩ := h
      exact Win.holds_top rfl rfl rfl

end

/-- Settles O35: the rows of the judgement, and a window that has accepted counters holds them. -/
theorem replayWindow : Obligations.ReplayWindow :=
  ⟨gooseWindow_holds, fun _ _ _ _ _ _ _ _ _ _ _ _ _ h => judgeGoose_of_holds (holds_of_fresh h)⟩

end Sys2Proof.Machine
end

section
/-! PROOFS. The context commands (R87, R88): a command that arrives at CTX_CMD, the words it zeroes, and its record in
CTX_RESULT. -/
namespace Sys2Proof.Machine
open Sys2Proof.Claims

/-! ### A command register -/

/-- A command that arrives at a register whose fields are all write-only is served. -/
theorem write_served {s : State} {m : Master} {a n : Nat} {e : Dev} (h : Arrives s.dev m a n) (hn : n < 2 ^ 32)
    (ha : a % 4 = 0) (hreg : isRegAddr a = true) (haon : isAonReg a = false)
    (hfields : (fieldsAt a).reverse.foldl (s.dev.writeField m a n) (s.dev, 0) = (s.dev, n))
    (he : s.dev.regWritten m a (s.dev.reg a).toNat n = e) (hkeep : Dev.CmdOnly s.dev e) :
    (s.onDev fun d => d.write m a (BitVec.ofNat 32 n)) = .next (became s s.core e) := by
  obtain ⟨hcalm, hab, -, -, hgate, -⟩ := id h
  have hword : (BitVec.ofNat 32 n).toNat = n := by rw [BitVec.toNat_ofNat, Nat.mod_eq_of_lt hn]
  rw [← hword] at h hfields
  have heffect : s.dev.regEffect m a (BitVec.ofNat 32 n) = e := by
    rw [Dev.regEffect_of_gate hgate hfields, hword]
    exact he
  have hcalm' : e.calm := ⟨hkeep.resetReq.trans hcalm.1, hkeep.stopReq.trans hcalm.2⟩
  exact State.onDev_eq (Dev.write_of_arrives h ha hreg haon heffect (noAbort_of_eq hab hkeep.chans hkeep.reg)) hcalm'

theorem Dev.CmdOnly.setReg (d : Dev) {a : Nat} (w : Word) (h : a / 0x10000 ≠ 0x4008) : Dev.CmdOnly d (d.setReg a w) :=
  ⟨rfl, rfl, rfl, rfl, fun b hb => Dev.reg_setReg_ne _ _ (by rintro rfl; exact h hb)⟩

/-! ### CTX_CMD (R87) -/

/-- The word of a context command. -/
def ctxCmdWord (op : Nat) (i : Fin 1024) : Nat := op * 2 ^ 16 + i.val

theorem ctxCmdWord_bits {op : Nat} (h : op < 8) (i : Fin 1024) :
    bitsOf (ctxCmdWord op i) 18 16 = op ∧ bitsOf (ctxCmdWord op i) 9 0 = i.val ∧ ctxIdx (ctxCmdWord op i) = i := by
  have hi := i.isLt
  refine ⟨?_, ?_, Fin.ext ?_⟩ <;> simp only [bitsOf_eq, ctxCmdWord, ctxIdx] <;> omega

/-- A command that arrives reaches both fields of CTX_CMD. -/
theorem Dev.ctxCmd_fields {d : Dev} {m : Master} {op : Nat} {i : Fin 1024} (hop : 0 < op ∧ op < 5)
    (h : d.fieldCase m F.CTX_CMD_OP.addr (ctxCmdWord op i) = false) :
    (fieldsAt F.CTX_CMD_OP.addr).reverse.foldl (d.writeField m F.CTX_CMD_OP.addr (ctxCmdWord op i)) (d, 0) =
      (d, ctxCmdWord op i) := by
  obtain ⟨hlo, hhi⟩ := hop
  obtain ⟨hbits, hstream, -⟩ := ctxCmdWord_bits (hhi.trans (by decide)) i
  have hfields : fieldsAt F.CTX_CMD_OP.addr =
      [⟨0x40100300, 18, 16, .wo, 0x0, .keep, .supervisor⟩, ⟨0x40100300, 9, 0, .wo, 0x0, .keep, .supervisor⟩] := by decide
  have hreached : Owner.supervisor.reached (masterLevel m) = true := by
    refine Dev.reached_of_meant (f := ⟨0x40100300, 18, 16, .wo, 0x0, .keep, .supervisor⟩) h (by rw [hfields]; simp) nofun ?_
    have hval (v : Nat) : woIgnored ⟨0x40100300, 18, 16, .wo, 0x0, .keep, .supervisor⟩ v = decide (5 ≤ v) := rfl
    simp only [Dev.fieldMeant, hbits, hval]
    simp only [Bool.and_eq_true, bne_iff_ne, Bool.not_eq_true', decide_eq_false_iff_not]
    omega
  rw [hfields]
  simp only [List.reverse_cons, List.reverse_nil, List.nil_append, List.cons_append, List.foldl_cons, List.foldl_nil]
  iterate 2 rw [Dev.writeField_wo d m _ _ _ rfl hreached]
  simp only [hbits, hstream, Nat.shiftLeft_eq, Prod.mk.injEq, true_and]
  rw [ctxCmdWord]
  omega

/-! ### Words that are zeroed -/

theorem Dev.reg_ctxZero_out (d : Dev) (i : Fin 1024) {off k b : Nat} (h : ∀ j < k, b ≠ ctxWord i (off + 4 * j)) :
    (d.ctxZero i off k).reg b = d.reg b := by
  induction k generalizing d off with
  | zero => rfl
  | succ k ih =>
    have hrest : ∀ j < k, b ≠ ctxWord i (off + 4 + 4 * j) := fun j hj => by
      have hne := h (j + 1) (by omega)
      rwa [show off + 4 * (j + 1) = off + 4 + 4 * j by omega] at hne
    exact (ih _ hrest).trans (Dev.reg_setReg_ne _ _ (h 0 k.succ_pos))

theorem Dev.reg_ctxZero (d : Dev) (i : Fin 1024) {off k j : Nat} (h : j < k) :
    (d.ctxZero i off k).reg (ctxWord i (off + 4 * j)) = 0 := by
  induction k generalizing d off j with
  | zero => exact absurd h j.not_lt_zero
  | succ k ih =>
    cases j with
    | zero =>
      have hout : ∀ j < k, ctxWord i off ≠ ctxWord i (off + 4 + 4 * j) := fun j _ => by
        simp only [ctxWord]
        omega
      exact (Dev.reg_ctxZero_out (d.setReg (ctxWord i off) 0) i hout).trans (Dev.reg_setReg_same ..)
    | succ j =>
      rw [show off + 4 * (j + 1) = off + 4 + 4 * j by omega]
      exact ih _ (by omega)

theorem Dev.cmdOnly_ctxZero (d : Dev) (i : Fin 1024) (off : Nat) {k : Nat} (h : off + 4 * k ≤ 0x100) :
    Dev.CmdOnly d (d.ctxZero i off k) := by
  induction k generalizing d off with
  | zero => exact .refl d
  | succ k ih =>
    have hword : ctxWord i off / 0x10000 ≠ 0x4008 := by
      simp only [ctxWord]
      omega
    exact (Dev.CmdOnly.setReg d 0 hword).trans (ih _ _ (by omega))

/-! ### CTX_RESULT (R88) -/

/-- The record that a command leaves in CTX_RESULT. -/
def Dev.ctxResult (d : Dev) (i : Fin 1024) (st : Nat) : Dev :=
  (d.put F.CTX_RESULT_STREAM i.val).put F.CTX_RESULT_STATUS st

theorem Dev.ctxResult_fields (d : Dev) (i : Fin 1024) {st : Nat} (h : st < 8) :
    (d.ctxResult i st).get F.CTX_RESULT_STATUS = st ∧ (d.ctxResult i st).get F.CTX_RESULT_STREAM = i.val := by
  rw [Dev.ctxResult, Dev.get_put_same _ _ _ rfl, Dev.get_put_apart _ _ F.CTX_RESULT_STREAM _ rfl rfl,
    Dev.get_put_same _ _ _ rfl]
  exact ⟨Nat.mod_eq_of_lt h, Nat.mod_eq_of_lt i.isLt⟩

theorem Dev.reg_ctxResult (d : Dev) (i : Fin 1024) (st : Nat) {a : Nat} (h : a ≠ F.CTX_RESULT_STATUS.addr) :
    (d.ctxResult i st).reg a = d.reg a :=
  (Dev.reg_put_ne _ F.CTX_RESULT_STATUS st h).trans (Dev.reg_put_ne d F.CTX_RESULT_STREAM i.val h)

theorem ctxWord_ne_result (i : Fin 1024) (off : Nat) : ctxWord i off ≠ F.CTX_RESULT_STATUS.addr := by
  simp only [ctxWord, F.CTX_RESULT_STATUS]
  omega

theorem Dev.valid_ctxResult (d : Dev) (i : Fin 1024) (st : Nat) :
    (d.ctxResult i st).ctx i F.CTX_VALID = d.ctx i F.CTX_VALID :=
  Dev.get_congr (d.reg_ctxResult i st (by simp only [ctxField, Fl.plus, F.CTX_VALID, F.CTX_RESULT_STATUS]; omega))

theorem Dev.cmdOnly_ctxResult (d : Dev) (i : Fin 1024) (st : Nat) : Dev.CmdOnly d (d.ctxResult i st) :=
  (Dev.CmdOnly.put d F.CTX_RESULT_STREAM i.val (by decide)).trans (.put _ F.CTX_RESULT_STATUS st (by decide))

/-! ### The commands -/

/-- The device with the replay and continuity words of a context zeroed (R83, R88). -/
def Dev.guardZeroed (d : Dev) (i : Fin 1024) : Dev := d.ctxZero i 0x50 7

/-- The device with the statistics words of a context zeroed (R83, R88). -/
def Dev.statsZeroed (d : Dev) (i : Fin 1024) : Dev := d.ctxZero i 0x80 19

/-- The device whose frames in flight on a context change statistics only. -/
def Dev.framesStatsOnly (d : Dev) (i : Fin 1024) : Dev :=
  { d with laneV := d.laneV.statsOnly i, laneT := d.laneT.statsOnly i }

section
variable {d : Dev} {i : Fin 1024}

theorem Dev.ctxCmd_duplicate (h : ∃ j ∈ d.validCtx, j ≠ i ∧ d.ctxSame i j = true) : d.ctxCmd 1 i = d.ctxResult i 1 := by
  rw [Dev.ctxCmd, if_pos rfl, if_pos (by simpa using h)]
  rfl

theorem Dev.ctxCmd_enable (h : ∀ j ∈ d.validCtx, j ≠ i → d.ctxSame i j = false) : d.ctxCmd 1 i =
    if d.inFlight i then d.ctxResult i 2 else ((d.guardZeroed i).statsZeroed i).ctxPut i F.CTX_VALID 1 |>.ctxResult i 0 := by
  rw [Dev.ctxCmd, if_pos rfl, if_neg (by simpa using h)]
  rfl

theorem Dev.ctxCmd_disable : d.ctxCmd 2 i = (d.ctxPut i F.CTX_VALID 0).ctxResult i 0 := rfl
theorem Dev.ctxCmd_resetGuard : d.ctxCmd 3 i = ((d.guardZeroed i).framesStatsOnly i).ctxResult i 0 := rfl
theorem Dev.ctxCmd_clearStats : d.ctxCmd 4 i = (d.statsZeroed i).ctxResult i 0 := rfl

theorem Dev.valid_ctxPut (v : Nat) : (d.ctxPut i F.CTX_VALID v).ctx i F.CTX_VALID = v % 2 := Dev.get_put_same _ _ _ rfl

theorem Dev.cmdOnly_ctxPut (v : Nat) : Dev.CmdOnly d (d.ctxPut i F.CTX_VALID v) :=
  .put _ _ _ (by simp only [ctxField, Fl.plus, F.CTX_VALID]; omega)

theorem Dev.cmdOnly_zeroed : Dev.CmdOnly d (d.guardZeroed i) ∧ Dev.CmdOnly d (d.statsZeroed i) :=
  ⟨d.cmdOnly_ctxZero i 0x50 (by decide), d.cmdOnly_ctxZero i 0x80 (by decide)⟩

theorem Dev.cmdOnly_framesStatsOnly : Dev.CmdOnly d (d.framesStatsOnly i) := ⟨rfl, rfl, rfl, rfl, fun _ _ => rfl⟩

theorem Dev.guardZeroed_reads {j : Nat} (h : j < 7) : (d.guardZeroed i).reg (ctxWord i (0x50 + 4 * j)) = 0 :=
  d.reg_ctxZero i h

theorem Dev.statsZeroed_reads {j : Nat} (h : j < 19) : (d.statsZeroed i).reg (ctxWord i (0x80 + 4 * j)) = 0 :=
  d.reg_ctxZero i h

theorem Dev.reg_statsZeroed {off : Nat} (h : off < 0x80) : (d.statsZeroed i).reg (ctxWord i off) = d.reg (ctxWord i off) :=
  d.reg_ctxZero_out i fun j _ => by
    simp only [ctxWord]
    omega

theorem Dev.reg_validPut (v : Nat) {off : Nat} (h : off ≠ 0) :
    (d.ctxPut i F.CTX_VALID v).reg (ctxWord i off) = d.reg (ctxWord i off) :=
  Dev.reg_put_ne _ _ _ (by
    simp only [ctxWord, ctxField, Fl.plus, F.CTX_VALID]
    omega)

theorem Dev.reg_framesStatsOnly (a : Nat) : (d.framesStatsOnly i).reg a = d.reg a := rfl

/-- The frames in flight on the context that RESET_GUARD leaves in a lane change statistics only. -/
theorem LaneSt.statsOnly_frames {x : LaneSt} {f : Frame} (hf : f ∈ (x.statsOnly i).frames) (hlooked : f.looked = true)
    (hstream : f.stream = some i) : f.statsOnly = true := by
  obtain ⟨g, -, rfl⟩ := List.mem_map.mp hf
  split_ifs at hlooked hstream ⊢ with hmatch
  · rfl
  · exact absurd ⟨hlooked, hstream⟩ hmatch

end

/-- A context command that arrives is served. -/
theorem ctxCmd_served {s : State} {m : Master} {op : Nat} {i : Fin 1024} {e : Dev}
    (h : Arrives s.dev m F.CTX_CMD_OP.addr (op * 2 ^ 16 + i.val)) (hop : 0 < op ∧ op < 5) (he : s.dev.ctxCmd op i = e)
    (hkeep : Dev.CmdOnly s.dev e) :
    (s.onDev fun d => d.write m F.CTX_CMD_OP.addr (BitVec.ofNat 32 (ctxCmdWord op i))) = .next (became s s.core e) := by
  obtain ⟨-, -, -, -, -, hcase⟩ := id h
  obtain ⟨hlo, hhi⟩ := id hop
  obtain ⟨hbits, -, hstream⟩ := ctxCmdWord_bits (hhi.trans (by decide)) i
  have heffect : s.dev.regWritten m F.CTX_CMD_OP.addr (s.dev.reg F.CTX_CMD_OP.addr).toNat (ctxCmdWord op i) = e := by
    have hcmd (v old : Nat) : s.dev.regWritten m F.CTX_CMD_OP.addr old v = s.dev.ctxCmd (bitsOf v 18 16) (ctxIdx v) := rfl
    rw [hcmd, hbits, hstream, he]
  have hlt : ctxCmdWord op i < 2 ^ 32 := by
    have hi := i.isLt
    simp only [ctxCmdWord]
    omega
  exact write_served h hlt (by decide) (by decide) (by decide) (Dev.ctxCmd_fields hop hcase)
    heffect hkeep

theorem exec_ctxEnable (s : State) (m : Master) (i : Fin 1024) : exec (.ctxEnable m i) s =
    s.onDev fun d => d.write m F.CTX_CMD_OP.addr (BitVec.ofNat 32 (ctxCmdWord 1 i)) := rfl
theorem exec_ctxDisable (s : State) (m : Master) (i : Fin 1024) : exec (.ctxDisable m i) s =
    s.onDev fun d => d.write m F.CTX_CMD_OP.addr (BitVec.ofNat 32 (ctxCmdWord 2 i)) := rfl
theorem exec_resetGuard (s : State) (m : Master) (i : Fin 1024) : exec (.resetGuard m i) s =
    s.onDev fun d => d.write m F.CTX_CMD_OP.addr (BitVec.ofNat 32 (ctxCmdWord 3 i)) := rfl
theorem exec_clearStats (s : State) (m : Master) (i : Fin 1024) : exec (.clearStats m i) s =
    s.onDev fun d => d.write m F.CTX_CMD_OP.addr (BitVec.ofNat 32 (ctxCmdWord 4 i)) := rfl

/-- Settles O39: each command leaves its effect, and with it the record of its status. -/
theorem contextCommands : Obligations.ContextCommands := by
  unfold Obligations.ContextCommands
  intro s m i
  dsimp only
  obtain ⟨hguard, hstats⟩ := Dev.cmdOnly_zeroed (d := s.dev) (i := i)
  have hdone (d : Dev) {st : Nat} (h : st < 8) := d.ctxResult_fields i h
  have hword (d : Dev) (st off : Nat) : (d.ctxResult i st).reg (ctxWord i off) = d.reg (ctxWord i off) :=
    d.reg_ctxResult i st (ctxWord_ne_result i off)
  refine ⟨fun h => ⟨fun hdup => ?_, fun hone hbusy => ?_, fun hone hfree => ?_⟩, fun h => ?_, fun h => ?_, fun h => ?_⟩
  · exact ⟨_, (exec_ctxEnable ..).trans (ctxCmd_served h (by decide) (Dev.ctxCmd_duplicate hdup) (Dev.cmdOnly_ctxResult ..)),
      ⟨rfl, rfl, hdone _ (by decide)⟩, Dev.valid_ctxResult ..⟩
  · have hcmd := (Dev.ctxCmd_enable hone).trans (if_pos hbusy)
    exact ⟨_, (exec_ctxEnable ..).trans (ctxCmd_served h (by decide) hcmd (Dev.cmdOnly_ctxResult ..)),
      ⟨rfl, rfl, hdone _ (by decide)⟩, Dev.valid_ctxResult ..⟩
  · have hcmd := (Dev.ctxCmd_enable hone).trans (if_neg (by rw [hfree]; decide))
    have hkeep : Dev.CmdOnly s.dev (((s.dev.guardZeroed i).statsZeroed i).ctxPut i F.CTX_VALID 1 |>.ctxResult i 0) :=
      ((hguard.trans Dev.cmdOnly_zeroed.2).trans (Dev.cmdOnly_ctxPut 1)).trans (Dev.cmdOnly_ctxResult ..)
    refine ⟨_, (exec_ctxEnable ..).trans (ctxCmd_served h (by decide) hcmd hkeep), ⟨rfl, rfl, hdone _ (by decide)⟩,
      (Dev.valid_ctxResult ..).trans (Dev.valid_ctxPut 1), fun j hj => ?_, fun j hj => ?_⟩
    · exact (hword ..).trans <| (Dev.reg_validPut 1 (by omega)).trans <|
        (Dev.reg_statsZeroed (by omega)).trans (Dev.guardZeroed_reads hj)
    · exact (hword ..).trans <| (Dev.reg_validPut 1 (by omega)).trans (Dev.statsZeroed_reads hj)
  · exact ⟨_, (exec_ctxDisable ..).trans (ctxCmd_served h (by decide) Dev.ctxCmd_disable
        ((Dev.cmdOnly_ctxPut 0).trans (Dev.cmdOnly_ctxResult ..))),
      ⟨rfl, rfl, hdone _ (by decide)⟩, (Dev.valid_ctxResult ..).trans (Dev.valid_ctxPut 0)⟩
  · refine ⟨_, (exec_resetGuard ..).trans (ctxCmd_served h (by decide) Dev.ctxCmd_resetGuard
        ((hguard.trans Dev.cmdOnly_framesStatsOnly).trans (Dev.cmdOnly_ctxResult ..))),
      ⟨rfl, rfl, hdone _ (by decide)⟩,
      fun j hj => (hword ..).trans ((Dev.reg_framesStatsOnly ..).trans (Dev.guardZeroed_reads hj)), fun l f hf => ?_⟩
    cases l <;> exact LaneSt.statsOnly_frames hf
  · exact ⟨_, (exec_clearStats ..).trans (ctxCmd_served h (by decide) Dev.ctxCmd_clearStats
        (hstats.trans (Dev.cmdOnly_ctxResult ..))),
      ⟨rfl, rfl, hdone _ (by decide)⟩, fun j hj => (hword ..).trans (Dev.statsZeroed_reads hj)⟩

end Sys2Proof.Machine
end

section
/-! PROOFS. The epoch slots of a context (R83, R93, R97, R100): what installing, moving and clearing one writes, and what
that leaves of the other slot and of the context's other words. -/
namespace Sys2Proof.Machine
open Sys2Proof.Claims

/-! ### The words of a slot (R83) -/

/-- The first word of an epoch slot. -/
def epReg (i : Fin 1024) (s : Bool) : Nat := (epField i s F.CTX_EP_STATE).addr

theorem epReg_eq (i : Fin 1024) (s : Bool) : epReg i s = 0x40140020 + 0x100 * i.val + if s then 0x10 else 0 := rfl

/-- The device with the three words of an epoch slot. -/
def Dev.epWords (d : Dev) (i : Fin 1024) (s : Bool) (w0 w1 w2 : Word) : Dev :=
  ((d.setReg (epReg i s) w0).setReg (epReg i s + 4) w1).setReg (epReg i s + 8) w2

/-- Is the field one of an epoch slot? -/
def isEpField (f : Fl) : Prop := 0x40140020 ≤ f.addr ∧ f.addr < 0x40140030

theorem isEpField_state : isEpField F.CTX_EP_STATE := ⟨by decide, by decide⟩

section
variable (d : Dev) (i : Fin 1024) (s : Bool) (w0 w1 w2 : Word)

theorem Dev.reg_epWords_out {a : Nat} (h : a < epReg i s ∨ epReg i s + 8 < a) : (d.epWords i s w0 w1 w2).reg a = d.reg a := by
  unfold Dev.epWords
  iterate 3 rw [Dev.reg_setReg_ne _ _ (by omega)]

theorem Dev.reg_epWords : (d.epWords i s w0 w1 w2).reg (epReg i s) = w0 ∧
    (d.epWords i s w0 w1 w2).reg (epReg i s + 4) = w1 ∧ (d.epWords i s w0 w1 w2).reg (epReg i s + 8) = w2 := by
  unfold Dev.epWords
  refine ⟨?_, ?_, Dev.reg_setReg_same ..⟩
  · rw [Dev.reg_setReg_ne _ _ (by omega), Dev.reg_setReg_ne _ _ (by omega), Dev.reg_setReg_same]
  · rw [Dev.reg_setReg_ne _ _ (by omega), Dev.reg_setReg_same]

/-- The fields of a slot are those of its words. -/
theorem Dev.ep_epWords : (d.epWords i s w0 w1 w2).epState i s = bitsOf w0.toNat 1 0 ∧
    (d.epWords i s w0 w1 w2).ep i s F.CTX_EP_ALG = bitsOf w0.toNat 4 2 ∧
    (d.epWords i s w0 w1 w2).ep i s F.CTX_EP_CE_SLOT = bitsOf w0.toNat 13 8 ∧
    (d.epWords i s w0 w1 w2).ep i s F.CTX_EP_KEYID = w1.toNat ∧
    (d.epWords i s w0 w1 w2).ep i s F.CTX_EP_COUNT = w2.toNat := by
  obtain ⟨h0, h1, h2⟩ := d.reg_epWords i s w0 w1 w2
  have hkeyId : (epField i s F.CTX_EP_KEYID).addr = epReg i s + 4 := by
    simp only [epReg_eq, epField, ctxField, Fl.plus, F.CTX_EP_KEYID]; omega
  have hcount : (epField i s F.CTX_EP_COUNT).addr = epReg i s + 8 := by
    simp only [epReg_eq, epField, ctxField, Fl.plus, F.CTX_EP_COUNT]; omega
  have hwhole (w : Word) : bitsOf w.toNat 31 0 = w.toNat := by
    rw [bitsOf_eq, Nat.pow_zero, Nat.div_one]
    exact Nat.mod_eq_of_lt w.isLt
  have hfirst (hi lo : Nat) : bitsOf ((d.epWords i s w0 w1 w2).reg (epReg i s)).toNat hi lo = bitsOf w0.toNat hi lo := by
    rw [h0]
  refine ⟨hfirst 1 0, hfirst 4 2, hfirst 13 8, ?_, ?_⟩
  · rw [Dev.ep, Dev.get, hkeyId, h1]
    exact hwhole w1
  · rw [Dev.ep, Dev.get, hcount, h2]
    exact hwhole w2

end

/-- The registers of the two slots of a context are apart. -/
theorem epField_other {i : Fin 1024} {s : Bool} {f : Fl} (hf : isEpField f) :
    (epField i (!s) f).addr < epReg i s ∨ epReg i s + 8 < (epField i (!s) f).addr := by
  obtain ⟨hlo, hhi⟩ := hf
  simp only [epReg_eq, epField, ctxField, Fl.plus]
  cases s with
  | false =>
    simp only [Bool.not_false, if_true, Bool.false_eq_true, if_false]
    omega
  | true =>
    simp only [Bool.not_true, if_true, Bool.false_eq_true, if_false]
    omega

/-! ### Registers that events and key caches leave alone (R93, R99) -/

section
variable (d : Dev) (i : Fin 1024) (s : Bool) (a : Nat)

@[simp] theorem Dev.reg_epEvent (st : Nat) : (d.epEvent i s st).reg a = d.reg a := Dev.reg_event ..
@[simp] theorem Dev.reg_cacheAdd (l : Lane) (k : Fin 64) (alg : Nat) : (d.cacheAdd l k alg).reg a = d.reg a := Dev.reg_setLane ..
@[simp] theorem Dev.reg_cacheDrop (l : Lane) (k : Fin 64) : (d.cacheDrop l k).reg a = d.reg a := Dev.reg_setLane ..

end

theorem Dev.calm_epEvent {d : Dev} (i : Fin 1024) (s : Bool) (st : Nat) (h : d.calm) : (d.epEvent i s st).calm := by
  rw [Dev.epEvent, Dev.calm, Dev.event_coreResetReq, Dev.event_coreStopReq]
  exact h

theorem Dev.calm_epWords {d : Dev} (i : Fin 1024) (s : Bool) (w0 w1 w2 : Word) (h : d.calm) :
    (d.epWords i s w0 w1 w2).calm := h

/-! ### A slot is filled (R97) -/

/-- The first word of a slot that a command fills. -/
def KeyCmd.word (c : KeyCmd) (st : Nat) : Word := BitVec.ofNat 32 (c.slot.val * 2 ^ 8 + c.alg * 4 + st)

theorem KeyCmd.word_bits {c : KeyCmd} {st : Nat} (halg : c.alg < 8) (hst : st < 4) :
    bitsOf (c.word st).toNat 1 0 = st ∧ bitsOf (c.word st).toNat 4 2 = c.alg ∧
      bitsOf (c.word st).toNat 13 8 = c.slot.val := by
  have hslot := c.slot.isLt
  have hword : (c.word st).toNat = c.slot.val * 2 ^ 8 + c.alg * 4 + st := by
    rw [KeyCmd.word, BitVec.toNat_ofNat, Nat.mod_eq_of_lt (by omega)]
  refine ⟨?_, ?_, ?_⟩ <;> rw [hword, bitsOf_eq] <;> omega

section
variable {d : Dev} {c : KeyCmd} {s : Bool} {st : Nat}

theorem Dev.install_eq : d.install c s st =
    ((d.cacheAdd (d.ctxLane c.stream) c.slot c.alg).epWords c.stream s (c.word st) c.keyId 0).epEvent c.stream s st := rfl

/-- A slot that is filled is in its state, with the command's key and algorithm, and has counted nothing. -/
theorem Dev.ep_install (halg : c.alg < 8) (hst : st < 4) : (d.install c s st).epState c.stream s = st ∧
    (d.install c s st).ep c.stream s F.CTX_EP_KEYID = c.keyId.toNat ∧
    (d.install c s st).ep c.stream s F.CTX_EP_ALG = c.alg ∧
    (d.install c s st).ep c.stream s F.CTX_EP_CE_SLOT = c.slot.val ∧
    (d.install c s st).ep c.stream s F.CTX_EP_COUNT = 0 := by
  obtain ⟨hstate, halgo, hslot, hkeyId, hcount⟩ :=
    (d.cacheAdd (d.ctxLane c.stream) c.slot c.alg).ep_epWords c.stream s (c.word st) c.keyId 0
  obtain ⟨hst', halg', hslot'⟩ := KeyCmd.word_bits (c := c) halg hst
  have hget (f : Fl) : (d.install c s st).ep c.stream s f =
      ((d.cacheAdd (d.ctxLane c.stream) c.slot c.alg).epWords c.stream s (c.word st) c.keyId 0).ep c.stream s f :=
    Dev.get_congr (Dev.reg_epEvent ..)
  exact ⟨(hget _).trans (hstate.trans hst'), (hget _).trans hkeyId, (hget _).trans (halgo.trans halg'),
    (hget _).trans (hslot.trans hslot'), (hget _).trans hcount⟩

theorem Dev.ep_install_other {f : Fl} (hf : isEpField f) :
    (d.install c s st).ep c.stream (!s) f = d.ep c.stream (!s) f :=
  Dev.get_congr <| (Dev.reg_epEvent ..).trans <|
    (Dev.reg_epWords_out _ _ _ _ _ _ (epField_other hf)).trans (Dev.reg_cacheAdd ..)

theorem Dev.calm_install (h : d.calm) : (d.install c s st).calm :=
  Dev.calm_epEvent _ _ _ (Dev.calm_epWords _ _ _ _ _ (Dev.calm_setLane _ _ h))

end

/-! ### A slot is cleared (R93) -/

section
variable {d : Dev} {i : Fin 1024} {s : Bool}

theorem Dev.epVacate_eq (h : d.epState i s ≠ epVACANT) : d.epVacate i s =
    ((d.cacheDrop (d.ctxLane i) (d.epSlot i s)).epWords i s 0 0 0).epEvent i s epVACANT := if_neg h

theorem Dev.epVacate_vacant (h : d.epState i s = epVACANT) : d.epVacate i s = d := if_pos h

/-- A slot that is cleared reads 0 in all its words. -/
theorem Dev.ep_epVacate (h : d.epState i s ≠ epVACANT) :
    (d.epVacate i s).epState i s = epVACANT ∧ (d.epVacate i s).ep i s F.CTX_EP_KEYID = 0 := by
  obtain ⟨hstate, -, -, hkeyId, -⟩ := (d.cacheDrop (d.ctxLane i) (d.epSlot i s)).ep_epWords i s 0 0 0
  rw [Dev.epVacate_eq h]
  exact ⟨(Dev.get_congr (Dev.reg_epEvent ..)).trans hstate, (Dev.get_congr (Dev.reg_epEvent ..)).trans hkeyId⟩

theorem Dev.epState_epVacate : (d.epVacate i s).epState i s = epVACANT := by
  by_cases h : d.epState i s = epVACANT
  · rwa [Dev.epVacate_vacant h]
  · exact (Dev.ep_epVacate h).1

theorem Dev.ep_epVacate_other {f : Fl} (hf : isEpField f) : (d.epVacate i s).ep i (!s) f = d.ep i (!s) f := by
  by_cases h : d.epState i s = epVACANT
  · rw [Dev.epVacate_vacant h]
  · rw [Dev.epVacate_eq h]
    exact Dev.get_congr <| (Dev.reg_epEvent ..).trans <|
      (Dev.reg_epWords_out _ _ _ _ _ _ (epField_other hf)).trans (Dev.reg_cacheDrop ..)

theorem Dev.calm_epVacate (h : d.calm) : (d.epVacate i s).calm := by
  by_cases hst : d.epState i s = epVACANT
  · rwa [Dev.epVacate_vacant hst]
  · rw [Dev.epVacate_eq hst]
    exact Dev.calm_epEvent _ _ _ (Dev.calm_epWords _ _ _ _ _ (Dev.calm_setLane _ _ h))

/-! ### A slot changes its state (R93) -/

theorem Dev.epState_epMove {st : Nat} (hst : st < 4) : (d.epMove i s st).epState i s = st :=
  (Dev.get_congr (Dev.reg_epEvent ..)).trans ((Dev.get_put_same _ _ _ rfl).trans (Nat.mod_eq_of_lt hst))

theorem Dev.epState_epMove_other {st : Nat} : (d.epMove i s st).epState i (!s) = d.epState i (!s) := by
  have hne : (epField i (!s) F.CTX_EP_STATE).addr ≠ epReg i s := by
    have hapart := epField_other (i := i) (s := s) isEpField_state
    omega
  exact Dev.get_congr ((Dev.reg_epEvent ..).trans (Dev.reg_put_ne _ _ _ hne))

end

end Sys2Proof.Machine
end

section
/-! PROOFS. The key commands of a stream (R97, R98): a command that arrives at KEY_CMD takes its inputs, and completes with
its status and its effect. -/
namespace Sys2Proof.Machine
open Sys2Proof.Claims

/-! ### KEY_CMD (R97) -/

/-- The word of a key command. -/
def keyCmdWord (slot : Fin 64) (alg : Fin 8) (op : Nat) (i : Fin 1024) : Nat :=
  slot.val * 2 ^ 24 + alg.val * 2 ^ 20 + op * 2 ^ 16 + i.val

/-- The command that the word gives, with the inputs that the device holds. -/
def Dev.keyCmdOf (d : Dev) (slot : Fin 64) (alg : Fin 8) (op : Nat) (i : Fin 1024) : KeyCmd :=
  ⟨op, alg.val, slot, i, d.reg F.PK_KEY_ID_KEYID.addr, d.get F.PK_KEY_SW_SEC_SEC, d.get F.PK_KEY_SW_NS_NS⟩

/-- The device that has taken a key command. -/
def Dev.keyTaken (d : Dev) (c : KeyCmd) : Dev :=
  ({ d with keyCmd := some c }.put F.PK_KEY_RESULT_STREAM c.stream.val).put F.PK_KEY_RESULT_BUSY 1

section
variable {slot : Fin 64} {alg : Fin 8} {op : Nat} {i : Fin 1024}

theorem keyCmdWord_bits (h : op < 8) : bitsOf (keyCmdWord slot alg op i) 29 24 = slot.val ∧
    bitsOf (keyCmdWord slot alg op i) 22 20 = alg.val ∧ bitsOf (keyCmdWord slot alg op i) 18 16 = op ∧
    bitsOf (keyCmdWord slot alg op i) 9 0 = i.val ∧ ctxIdx (keyCmdWord slot alg op i) = i := by
  have hslot := slot.isLt
  have halg := alg.isLt
  have hi := i.isLt
  refine ⟨?_, ?_, ?_, ?_, Fin.ext ?_⟩ <;> simp only [bitsOf_eq, keyCmdWord, ctxIdx] <;> omega

/-- A command that arrives reaches every field of KEY_CMD. -/
theorem Dev.keyCmd_fields {d : Dev} {m : Master} (hop : 0 < op ∧ op < 5)
    (h : d.fieldCase m F.PK_KEY_CMD_OP.addr (keyCmdWord slot alg op i) = false) :
    (fieldsAt F.PK_KEY_CMD_OP.addr).reverse.foldl (d.writeField m F.PK_KEY_CMD_OP.addr (keyCmdWord slot alg op i)) (d, 0) =
      (d, keyCmdWord slot alg op i) := by
  obtain ⟨hlo, hhi⟩ := hop
  obtain ⟨hslot, halg, hbits, hstream, -⟩ := keyCmdWord_bits (slot := slot) (alg := alg) (i := i) (hhi.trans (by decide))
  have hfields : fieldsAt F.PK_KEY_CMD_OP.addr =
      [⟨0x40100320, 29, 24, .wo, 0x0, .keep, .vault⟩, ⟨0x40100320, 22, 20, .wo, 0x0, .keep, .vault⟩,
        ⟨0x40100320, 18, 16, .wo, 0x0, .keep, .vault⟩, ⟨0x40100320, 9, 0, .wo, 0x0, .keep, .vault⟩] := by decide
  have hreached : Owner.vault.reached (masterLevel m) = true := by
    refine Dev.reached_of_meant (f := ⟨0x40100320, 18, 16, .wo, 0x0, .keep, .vault⟩) h (by rw [hfields]; simp) nofun ?_
    have hval (v : Nat) : woIgnored ⟨0x40100320, 18, 16, .wo, 0x0, .keep, .vault⟩ v = decide (5 ≤ v) := rfl
    simp only [Dev.fieldMeant, hbits, hval]
    simp only [Bool.and_eq_true, bne_iff_ne, Bool.not_eq_true', decide_eq_false_iff_not]
    omega
  rw [hfields]
  simp only [List.reverse_cons, List.reverse_nil, List.nil_append, List.cons_append, List.foldl_cons, List.foldl_nil]
  iterate 4 rw [Dev.writeField_wo d m _ _ _ rfl hreached]
  simp only [hslot, halg, hbits, hstream, Nat.shiftLeft_eq, Prod.mk.injEq, true_and]
  rw [keyCmdWord]
  omega

theorem Dev.keyCmdWritten_free {d : Dev} (hfree : d.keyCmd = none) (hop : 0 < op ∧ op < 5) :
    d.keyCmdWritten (keyCmdWord slot alg op i) = d.keyTaken (d.keyCmdOf slot alg op i) := by
  obtain ⟨hslot, halg, hbits, -, hstream⟩ := keyCmdWord_bits (slot := slot) (alg := alg) (op := op) (i := i) (by omega)
  have hidx : slotIdx slot.val = slot := Fin.ext (Nat.mod_eq_of_lt slot.isLt)
  rw [Dev.keyCmdWritten, hbits, if_neg (by omega), hfree, hslot, halg, hstream, hidx]
  rfl

theorem Dev.cmdOnly_keyTaken (d : Dev) (c : KeyCmd) : Dev.CmdOnly d (d.keyTaken c) := by
  have hcmd : Dev.CmdOnly d { d with keyCmd := some c } := ⟨rfl, rfl, rfl, rfl, fun _ _ => rfl⟩
  exact (hcmd.trans (.put _ F.PK_KEY_RESULT_STREAM c.stream.val (by decide))).trans
    (.put _ F.PK_KEY_RESULT_BUSY 1 (by decide))

theorem Dev.keyTaken_reads (d : Dev) (c : KeyCmd) : (d.keyTaken c).keyCmd = some c ∧
    (d.keyTaken c).get F.PK_KEY_RESULT_BUSY = 1 ∧ (d.keyTaken c).get F.PK_KEY_RESULT_STREAM = c.stream.val := by
  refine ⟨rfl, Dev.get_put_same _ F.PK_KEY_RESULT_BUSY 1 rfl, ?_⟩
  rw [Dev.keyTaken, Dev.get_put_apart _ _ F.PK_KEY_RESULT_STREAM _ rfl rfl, Dev.get_put_same _ _ _ rfl]
  exact Nat.mod_eq_of_lt c.stream.isLt

/-- A key command that arrives while none executes is taken. -/
theorem keyCmd_taken {s : State} {m : Master} (h : Arrives s.dev m F.PK_KEY_CMD_OP.addr (keyCmdWord slot alg op i))
    (hfree : s.dev.keyCmd = none) (hop : 0 < op ∧ op < 5) :
    (s.onDev fun d => d.write m F.PK_KEY_CMD_OP.addr (BitVec.ofNat 32 (keyCmdWord slot alg op i))) =
      .next (became s s.core (s.dev.keyTaken (s.dev.keyCmdOf slot alg op i))) := by
  obtain ⟨-, -, -, -, -, hcase⟩ := id h
  have hlt : keyCmdWord slot alg op i < 2 ^ 32 := by
    have hslot := slot.isLt
    have halg := alg.isLt
    have hi := i.isLt
    simp only [keyCmdWord]
    omega
  have heffect (v old : Nat) : s.dev.regWritten m F.PK_KEY_CMD_OP.addr old v = s.dev.keyCmdWritten v := rfl
  exact write_served h hlt (by decide) (by decide) (by decide) (Dev.keyCmd_fields hop hcase)
    ((heffect ..).trans (Dev.keyCmdWritten_free hfree hop)) (Dev.cmdOnly_keyTaken ..)

end

theorem exec_installCurrent (s : State) (m : Master) (slot : Fin 64) (alg : Fin 8) (i : Fin 1024) :
    exec (.installCurrent m slot alg i) s =
      s.onDev fun d => d.write m F.PK_KEY_CMD_OP.addr (BitVec.ofNat 32 (keyCmdWord slot alg 1 i)) := rfl
theorem exec_installNext (s : State) (m : Master) (slot : Fin 64) (alg : Fin 8) (i : Fin 1024) :
    exec (.installNext m slot alg i) s =
      s.onDev fun d => d.write m F.PK_KEY_CMD_OP.addr (BitVec.ofNat 32 (keyCmdWord slot alg 2 i)) := rfl

/-- CANCEL_NEXT and REVOKE name neither key slot nor algorithm (R98). -/
theorem keyCmdWord_bare (op : Nat) (i : Fin 1024) : keyCmdWord 0 0 op i = op * 2 ^ 16 + i.val := by
  simp [keyCmdWord]

theorem exec_cancelNext (s : State) (m : Master) (i : Fin 1024) : exec (.cancelNext m i) s =
    s.onDev fun d => d.write m F.PK_KEY_CMD_OP.addr (BitVec.ofNat 32 (keyCmdWord 0 0 3 i)) := by
  rw [keyCmdWord_bare]
  rfl
theorem exec_revoke (s : State) (m : Master) (i : Fin 1024) : exec (.revoke m i) s =
    s.onDev fun d => d.write m F.PK_KEY_CMD_OP.addr (BitVec.ofNat 32 (keyCmdWord 0 0 4 i)) := by
  rw [keyCmdWord_bare]
  rfl

/-! ### The end of a command (R98) -/

/-- The device behind the key command that has executed, with its status in KEY_RESULT. -/
def Dev.keyEnded (d : Dev) (st : Nat) : Dev :=
  ({ d with keyCmd := none }.put F.PK_KEY_RESULT_STATUS st).put F.PK_KEY_RESULT_BUSY 0 |>.latchIrq 18

theorem Dev.keyEnded_reads (d : Dev) {st : Nat} (h : st < 16) : (d.keyEnded st).keyCmd = none ∧
    (d.keyEnded st).get F.PK_KEY_RESULT_BUSY = 0 ∧ (d.keyEnded st).get F.PK_KEY_RESULT_STATUS = st := by
  rw [Dev.keyEnded, Dev.get_latchIrq, Dev.get_latchIrq, Dev.get_put_same _ _ _ rfl,
    Dev.get_put_apart _ _ F.PK_KEY_RESULT_STATUS _ rfl rfl, Dev.get_put_same _ _ _ rfl]
  exact ⟨rfl, rfl, Nat.mod_eq_of_lt h⟩

/-- The record leaves the contexts alone. -/
theorem Dev.ep_keyEnded (d : Dev) (st : Nat) (i : Fin 1024) (s : Bool) {f : Fl} (hf : isEpField f) :
    (d.keyEnded st).ep i s f = d.ep i s f := by
  have hne : (epField i s f).addr ≠ F.PK_KEY_RESULT_STATUS.addr := by
    obtain ⟨hlo, -⟩ := hf
    simp only [epField, ctxField, Fl.plus, F.PK_KEY_RESULT_STATUS]
    omega
  have hreg : (d.keyEnded st).reg (epField i s f).addr = d.reg (epField i s f).addr := by
    rw [Dev.keyEnded, Dev.reg_latchIrq, Dev.reg_put_ne _ F.PK_KEY_RESULT_BUSY _ hne, Dev.reg_put_ne _ _ _ hne]
    rfl
  exact Dev.get_congr hreg

theorem Dev.calm_keyEnded {d : Dev} (st : Nat) (h : d.calm) : (d.keyEnded st).calm := by
  rw [Dev.keyEnded, Dev.calm, Dev.latchIrq_coreResetReq, Dev.latchIrq_coreStopReq]
  exact Dev.calm_put _ _ (Dev.calm_put F.PK_KEY_RESULT_STATUS st h)

/-! ### The checks of a command, and its effect (R97, R98) -/

/-- The slot that SW_CUR names. -/
def Dev.curSlot (d : Dev) (i : Fin 1024) : Bool := d.ctx i F.CTX_SW_CUR == 1

/-- The device with the switch time that a command names. -/
def Dev.switchSet (d : Dev) (c : KeyCmd) : Dev := (d.ctxPut c.stream F.CTX_SW_SEC c.swSec).ctxPut c.stream F.CTX_SW_NS c.swNs

section
variable {d : Dev} {c : KeyCmd}

theorem Dev.keyRun_installCurrent (h : c.op = 1) : d.keyRun c =
    if c.alg = 0 ∨ 6 ≤ c.alg then (d, 1)
    else if d.epState c.stream false ≠ epVACANT ∨ d.epState c.stream true ≠ epVACANT then (d, 2)
    else if d.keyRefused c then (d, 4)
    else (d.install c (d.curSlot c.stream) epCURRENT, 0) := by
  unfold Dev.keyRun Dev.curSlot
  dsimp only
  rw [if_pos h]

theorem Dev.keyRun_installNext (h : c.op = 2) : d.keyRun c =
    if c.alg = 0 ∨ 6 ≤ c.alg then (d, 1)
    else if d.epState c.stream (!d.curSlot c.stream) = epARMED ∨ d.epState c.stream (!d.curSlot c.stream) = epRETIRING then
      (d, 2)
    else if d.epState c.stream (d.curSlot c.stream) ≠ epCURRENT then (d, 3)
    else if d.keyRefused c then (d, 4)
    else if ptp62 c.swSec c.swNs < d.time62 + 100000 + d.wPre c.stream then (d, 5)
    else ((d.switchSet c).install c (!d.curSlot c.stream) epARMED, 0) := by
  unfold Dev.keyRun Dev.curSlot Dev.switchSet
  dsimp only
  rw [if_neg (by omega), if_pos h]

theorem Dev.keyRun_cancelNext (h : c.op = 3) : d.keyRun c =
    if d.epState c.stream (!d.curSlot c.stream) ≠ epARMED then (d, 6)
    else if d.tSw c.stream ≤ d.time62 + d.wPre c.stream then (d, 7)
    else (d.epVacate c.stream (!d.curSlot c.stream), 0) := by
  unfold Dev.keyRun Dev.curSlot
  dsimp only
  rw [if_neg (by omega), if_neg (by omega), if_pos h]

theorem Dev.keyRun_revoke (h : c.op = 4) : d.keyRun c = ((d.epVacate c.stream false).epVacate c.stream true, 0) := by
  unfold Dev.keyRun
  dsimp only
  rw [if_neg (by omega), if_neg (by omega), if_neg (by omega)]

theorem Dev.keyRun_status (d : Dev) (c : KeyCmd) : (d.keyRun c).2 < 16 := by
  unfold Dev.keyRun
  dsimp only
  (repeat' split) <;> norm_num

/-- A command fills one slot, clears slots, or changes nothing. -/
theorem Dev.calm_keyRun (h : d.calm) : (d.keyRun c).1.calm := by
  unfold Dev.keyRun
  dsimp only
  repeat' split
  exacts [h, h, h, Dev.calm_install h, h, h, h, h, h, Dev.calm_install (d := d.switchSet c) h, h, h, Dev.calm_epVacate h,
    Dev.calm_epVacate (Dev.calm_epVacate h)]

/-- The switch time stands outside the epoch slots. -/
theorem Dev.ep_switchSet (s : Bool) {f : Fl} (hf : isEpField f) : (d.switchSet c).ep c.stream s f = d.ep c.stream s f := by
  have hne : (epField c.stream s f).addr ≠ (ctxField c.stream F.CTX_SW_SEC).addr ∧
      (epField c.stream s f).addr ≠ (ctxField c.stream F.CTX_SW_NS).addr := by
    obtain ⟨-, hhi⟩ := hf
    simp only [epField, ctxField, Fl.plus, F.CTX_SW_SEC, F.CTX_SW_NS]
    split <;> omega
  exact Dev.get_congr ((Dev.reg_put_ne _ _ _ hne.2).trans (Dev.reg_put_ne _ _ _ hne.1))

end

/-- The device behind the command. -/
def Dev.keyDone (d : Dev) (c : KeyCmd) : Dev := (d.keyRun c).1.keyEnded (d.keyRun c).2

/-- The key command has completed with status `st`. -/
def KeyEnds (s t : State) (st : Nat) : Prop :=
  t.pending = s.pending ∧ t.dev.keyCmd = none ∧ t.dev.get F.PK_KEY_RESULT_BUSY = 0 ∧
    t.dev.get F.PK_KEY_RESULT_STATUS = st

theorem exec_keyCmdDone (s : State) : exec .keyCmdDone s = s.onDev fun d => d.keyCmdDoneOp := rfl

theorem Dev.keyRead_clean {d : Dev} {m : Master} {k : Nat} (h : (d.slot k).chk = []) : d.keyRead m k = d := by
  unfold Dev.keyRead
  exact if_pos (by rw [h]; rfl)

section
variable {s : State} {c : KeyCmd} (hc : s.dev.keyCmd = some c) (hcalm : s.dev.calm) (hon : s.dev.on .pump = true)
  (hchk : (s.dev.slot c.slot.val).chk = [])

include hc hon hchk in
theorem Dev.keyCmdDoneOp_eq (hfree : c.op = 4 → s.dev.epInUse c.stream false = false ∧ s.dev.epInUse c.stream true = false) :
    s.dev.keyCmdDoneOp = s.dev.keyDone c := by
  have hwait : ¬ ((!s.dev.on .pump) = true ∨
      (c.op = 4 ∧ (s.dev.epInUse c.stream false = true ∨ s.dev.epInUse c.stream true = true))) := by
    rw [hon]
    rintro (h | ⟨hop, h⟩)
    · exact Bool.noConfusion h
    · obtain ⟨hf, ht⟩ := hfree hop
      simp [hf, ht] at h
  rw [Dev.keyCmdDoneOp, hc]
  dsimp only
  rw [if_neg hwait, Dev.keyRead_clean hchk, ite_self]
  rfl

include hc hcalm hon hchk in
/-- A command that no frame in flight holds up completes. -/
theorem keyCmdDone_becomes (hfree : c.op = 4 → s.dev.epInUse c.stream false = false ∧ s.dev.epInUse c.stream true = false) :
    exec .keyCmdDone s = .next (became s s.core (s.dev.keyDone c)) :=
  (exec_keyCmdDone s).trans
    (State.onDev_eq (Dev.keyCmdDoneOp_eq hc hon hchk hfree) (Dev.calm_keyEnded _ (Dev.calm_keyRun hcalm)))

end

theorem keyEnds_keyDone {s : State} {c : KeyCmd} {st : Nat} (h : (s.dev.keyRun c).2 = st) :
    KeyEnds s (became s s.core (s.dev.keyDone c)) st := by
  subst h
  exact ⟨rfl, (s.dev.keyRun c).1.keyEnded_reads (s.dev.keyRun_status c)⟩

/-! ### The effects (R97, R98) -/

section
variable {d e : Dev} {c : KeyCmd} {st : Nat}

theorem Dev.ep_keyDone (h : d.keyRun c = (e, st)) (s : Bool) {f : Fl} (hf : isEpField f) :
    (d.keyDone c).ep c.stream s f = e.ep c.stream s f := by
  rw [Dev.keyDone, h]
  exact e.ep_keyEnded st c.stream s hf

theorem Dev.keyDone_installCurrent (hop : c.op = 1) (halg : ¬ (c.alg = 0 ∨ 6 ≤ c.alg))
    (hf : d.epState c.stream false = epVACANT) (ht : d.epState c.stream true = epVACANT) (hkey : d.keyRefused c = false) :
    (d.keyDone c).epState c.stream (d.curSlot c.stream) = epCURRENT ∧
    (d.keyDone c).ep c.stream (d.curSlot c.stream) F.CTX_EP_KEYID = c.keyId.toNat ∧
    (d.keyDone c).ep c.stream (d.curSlot c.stream) F.CTX_EP_ALG = c.alg ∧
    (d.keyDone c).ep c.stream (d.curSlot c.stream) F.CTX_EP_CE_SLOT = c.slot.val ∧
    (d.keyDone c).ep c.stream (d.curSlot c.stream) F.CTX_EP_COUNT = 0 := by
  have hrun : d.keyRun c = (d.install c (d.curSlot c.stream) epCURRENT, 0) := by
    rw [Dev.keyRun_installCurrent hop, if_neg halg, if_neg (by simp [hf, ht]), if_neg (by simp [hkey])]
  obtain ⟨hstate, hkeyId, halgo, hslot, hcount⟩ := Dev.ep_install (d := d) (c := c) (s := d.curSlot c.stream)
    (st := epCURRENT) (by omega) (by decide)
  exact ⟨(Dev.ep_keyDone hrun _ isEpField_state).trans hstate,
    (Dev.ep_keyDone hrun _ ⟨by decide, by decide⟩).trans hkeyId, (Dev.ep_keyDone hrun _ ⟨by decide, by decide⟩).trans halgo,
    (Dev.ep_keyDone hrun _ ⟨by decide, by decide⟩).trans hslot,
    (Dev.ep_keyDone hrun _ ⟨by decide, by decide⟩).trans hcount⟩

theorem Dev.keyDone_installNext (hop : c.op = 2) (halg : ¬ (c.alg = 0 ∨ 6 ≤ c.alg))
    (harmed : d.epState c.stream (!d.curSlot c.stream) ≠ epARMED)
    (hretiring : d.epState c.stream (!d.curSlot c.stream) ≠ epRETIRING)
    (hcur : d.epState c.stream (d.curSlot c.stream) = epCURRENT) (hkey : d.keyRefused c = false)
    (htime : d.time62 + 100000 + d.wPre c.stream ≤ ptp62 c.swSec c.swNs) :
    (d.keyDone c).epState c.stream (!d.curSlot c.stream) = epARMED ∧
    (d.keyDone c).epState c.stream (d.curSlot c.stream) = epCURRENT ∧
    (d.keyDone c).ep c.stream (!d.curSlot c.stream) F.CTX_EP_KEYID = c.keyId.toNat := by
  have hrun : d.keyRun c = ((d.switchSet c).install c (!d.curSlot c.stream) epARMED, 0) := by
    rw [Dev.keyRun_installNext hop, if_neg halg, if_neg (not_or.mpr ⟨harmed, hretiring⟩), if_neg (not_not_intro hcur),
      if_neg (by simp [hkey]), if_neg (not_lt.mpr htime)]
  obtain ⟨hstate, hkeyId, -⟩ := Dev.ep_install (d := d.switchSet c) (c := c) (s := !d.curSlot c.stream)
    (st := epARMED) (by omega) (by decide)
  have hother := Dev.ep_install_other (d := d.switchSet c) (c := c) (s := !d.curSlot c.stream) (st := epARMED)
    isEpField_state
  rw [Bool.not_not, Dev.ep_switchSet _ isEpField_state] at hother
  exact ⟨(Dev.ep_keyDone hrun _ isEpField_state).trans hstate,
    (Dev.ep_keyDone hrun _ isEpField_state).trans (hother.trans hcur),
    (Dev.ep_keyDone hrun _ ⟨by decide, by decide⟩).trans hkeyId⟩

theorem Dev.keyDone_cancelNext (hop : c.op = 3) (harmed : d.epState c.stream (!d.curSlot c.stream) = epARMED)
    (htime : d.time62 + d.wPre c.stream < d.tSw c.stream) :
    (d.keyDone c).epState c.stream (!d.curSlot c.stream) = epVACANT := by
  have hrun : d.keyRun c = (d.epVacate c.stream (!d.curSlot c.stream), 0) := by
    rw [Dev.keyRun_cancelNext hop, if_neg (not_not_intro harmed), if_neg (not_le.mpr htime)]
  exact (Dev.ep_keyDone hrun _ isEpField_state).trans Dev.epState_epVacate

theorem Dev.keyDone_revoke (hop : c.op = 4) :
    (d.keyDone c).epState c.stream false = epVACANT ∧ (d.keyDone c).epState c.stream true = epVACANT := by
  have hrun := Dev.keyRun_revoke (d := d) hop
  have hother := Dev.ep_epVacate_other (d := d.epVacate c.stream false) (i := c.stream) (s := true) isEpField_state
  exact ⟨(Dev.ep_keyDone hrun _ isEpField_state).trans (hother.trans Dev.epState_epVacate),
    (Dev.ep_keyDone hrun _ isEpField_state).trans Dev.epState_epVacate⟩

end

/-- R97, R98: the first part of O40. -/
theorem keyCommands_holds : Claims.KeyCommands := by
  unfold Claims.KeyCommands
  intro s m slot alg i
  dsimp only
  have hidx (k : Fin 64) : slotIdx k.val = k := Fin.ext (Nat.mod_eq_of_lt k.isLt)
  have htaken (k : Fin 64) (al : Fin 8) (op : Nat) := s.dev.keyTaken_reads (s.dev.keyCmdOf k al op i)
  refine ⟨fun hfree => ⟨fun h => ?_, fun h => ?_, fun h => ?_, fun h => ?_⟩, fun c hc hcalm hon hchk =>
    ⟨fun hop => ?_, fun hop => ?_, fun hop => ?_, fun hop hf ht => ?_⟩⟩
  · rw [hidx]
    exact ⟨_, (exec_installCurrent ..).trans (keyCmd_taken h hfree (by decide)), rfl, rfl, htaken slot alg 1⟩
  · rw [hidx]
    exact ⟨_, (exec_installNext ..).trans (keyCmd_taken h hfree (by decide)), rfl, rfl, htaken slot alg 2⟩
  · rw [← keyCmdWord_bare] at h
    exact ⟨_, (exec_cancelNext ..).trans (keyCmd_taken h hfree (by decide)), rfl, rfl, htaken 0 0 3⟩
  · rw [← keyCmdWord_bare] at h
    exact ⟨_, (exec_revoke ..).trans (keyCmd_taken h hfree (by decide)), rfl, rfl, htaken 0 0 4⟩
  · refine ⟨_, keyCmdDone_becomes hc hcalm hon hchk (by omega), keyEnds_keyDone ?_, Dev.keyDone_installCurrent hop⟩
    rw [Dev.keyRun_installCurrent hop]
    simp only [apply_ite Prod.snd]
  · refine ⟨_, keyCmdDone_becomes hc hcalm hon hchk (by omega), keyEnds_keyDone ?_, Dev.keyDone_installNext hop⟩
    rw [Dev.keyRun_installNext hop]
    simp only [apply_ite Prod.snd]
    rfl
  · refine ⟨_, keyCmdDone_becomes hc hcalm hon hchk (by omega), keyEnds_keyDone ?_, Dev.keyDone_cancelNext hop⟩
    rw [Dev.keyRun_cancelNext hop]
    simp only [apply_ite Prod.snd]
    rfl
  · refine ⟨_, keyCmdDone_becomes hc hcalm hon hchk fun _ => ⟨hf, ht⟩, keyEnds_keyDone ?_, Dev.keyDone_revoke hop⟩
    rw [Dev.keyRun_revoke hop]

end Sys2Proof.Machine
end

section
/-! PROOFS. The epoch sweep (R93, R100, R101): what it makes of an armed and of a retiring slot. -/
namespace Sys2Proof.Machine
open Sys2Proof.Claims

theorem exec_epochSweep (s : State) (i : Fin 1024) : exec (.epochSweep i) s = s.onDev fun d => d.sweep i := rfl

/-! ### A count of a context touches its own word alone (R80, R108) -/

/-- The record of an error leaves the contexts alone (R280, R291). -/
theorem Dev.reg_eccRecord (d : Dev) (ue : Bool) (addr src : Nat) (m : Master) (syn bits lanes : Nat) {b : Nat}
    (hb : inCtx b = true) : (d.eccRecord ue addr src m syn bits lanes).reg b = d.reg b := by
  have hput (x : Dev) (f : Fl) (v : Nat) (hf : inCtx f.addr = false) : (x.put f v).reg b = x.reg b :=
    Dev.reg_put_ne _ _ _ (ne_of_inCtx hb hf)
  have hset (x : Dev) (a : Nat) (w : Word) (ha : inCtx a = false) : (x.setReg a w).reg b = x.reg b :=
    Dev.reg_setReg_ne _ _ (ne_of_inCtx hb ha)
  have htrouble (x : Dev) (k : Nat) : (x.trouble k).reg b = x.reg b := Dev.reg_trouble_ne _ _ (ne_of_inCtx hb (by decide))
  unfold Dev.eccRecord Dev.bump
  dsimp only
  rw [Dev.reg_event]
  cases ue with
  | false =>
    simp only [Bool.false_eq_true, if_false, false_and]
    split_ifs <;> simp (disch := decide) only [hput, hset]
  | true =>
    simp only [if_true, true_and]
    split_ifs <;> simp (disch := decide) only [hput, hset, htrouble]

theorem Dev.reg_ctxRead (d : Dev) (m : Master) {a b : Nat} (hb : inCtx b = true) (hne : b ≠ a) :
    (d.ctxRead m a).reg b = d.reg b := by
  have hchk (l : List (Nat × BitVec 5)) (x : Dev) : (l.foldl (fun x e => { x with codes := { x.codes with
      ctx := Sparse.set chkDflt (a + e.1) e.2 x.codes.ctx } }) x).reg b = x.reg b := by
    induction l generalizing x with
    | nil => rfl
    | cons e l ih => exact ih _
  unfold Dev.ctxRead
  dsimp only
  split
  · rfl
  · rw [hchk, Dev.reg_setReg_ne _ _ hne]
    simp only [List.foldl_cons, List.foldl_nil]
    (repeat' split) <;> simp only [Dev.reg_eccRecord _ _ _ _ _ _ _ _ hb]

theorem Dev.reg_ctxCount (d : Dev) (i : Fin 1024) (off k : Nat) {b : Nat} (hb : inCtx b = true) (hne : b ≠ ctxWord i off) :
    (d.ctxCount i off k).reg b = d.reg b := by
  unfold Dev.ctxCount
  dsimp only
  split
  · exact d.reg_ctxRead 11 hb hne
  · exact (Dev.reg_put_ne _ _ _ hne).trans (d.reg_ctxRead 11 hb hne)

/-! ### The switch (R93, R100) -/

/-- The device whose armed slot `a` has become current, the other one retiring. -/
def Dev.switched (d : Dev) (i : Fin 1024) (a : Bool) : Dev :=
  (((d.epMove i (!a) epRETIRING).epMove i a epCURRENT).ctxPut i F.CTX_SW_CUR (b2n a)).ctxCount i 0xC8 1

section
variable {d : Dev} {i : Fin 1024} {a : Bool}

theorem Dev.commitSwitch_armed {t : Nat} (harmed : d.epState i a = epARMED) (hcur : d.epState i (!a) = epCURRENT) :
    d.commitSwitch i t = if d.tSw i ≤ t then d.switched i a else d := by
  unfold Dev.commitSwitch
  cases a
  · rw [if_pos harmed]
    rfl
  · rw [Bool.not_true] at hcur
    rw [if_neg (by rw [hcur]; decide), if_pos harmed]
    rfl

theorem Dev.switched_states : (d.switched i a).epState i a = epCURRENT ∧ (d.switched i a).epState i (!a) = epRETIRING ∧
    (d.switched i a).ctx i F.CTX_SW_CUR = b2n a := by
  let x := (d.epMove i (!a) epRETIRING).epMove i a epCURRENT
  have hcount (f : Fl) (hf : inCtx f.addr = true) (hne : f.addr ≠ ctxWord i 0xC8) :
      (d.switched i a).get f = (x.ctxPut i F.CTX_SW_CUR (b2n a)).get f :=
    Dev.get_congr (Dev.reg_ctxCount _ i 0xC8 1 hf hne)
  have hep (s : Bool) : (d.switched i a).epState i s = x.epState i s := by
    refine (hcount _ ?_ ?_).trans (Dev.get_congr (Dev.reg_put_ne _ _ _ ?_))
    · rw [inCtx_iff]
      simp only [epField, ctxField, Fl.plus, F.CTX_EP_STATE]
      split <;> omega
    · simp only [epField, ctxField, Fl.plus, F.CTX_EP_STATE, ctxWord]
      split <;> omega
    · simp only [epField, ctxField, Fl.plus, F.CTX_EP_STATE, F.CTX_SW_CUR]
      split <;> omega
  refine ⟨(hep a).trans (Dev.epState_epMove (by decide)), ?_, ?_⟩
  · exact (hep (!a)).trans (Dev.epState_epMove_other.trans (Dev.epState_epMove (by decide)))
  · refine (hcount _ ?_ ?_).trans ((Dev.get_put_same _ _ _ rfl).trans (by cases a <;> rfl))
    · rw [inCtx_iff]
      simp only [ctxField, Fl.plus, F.CTX_SW_CUR]
      omega
    · simp only [ctxField, Fl.plus, F.CTX_SW_CUR, ctxWord]
      omega

theorem Dev.calm_switched (h : d.calm) : (d.switched i a).calm := by
  have haside : Dev.Aside d (d.switched i a) := by
    unfold Dev.switched
    simp +decide
  exact (haside.inLane [] .verify).calm h

/-! ### The sweep (R100, R101) -/

theorem Dev.sweep_elsewhere (h : d.sweepVisits i = false) : d.sweep i = d := if_neg (by rw [h]; simp)

/-- A context with an armed slot: the switch, where its time has come. -/
theorem Dev.sweep_armed (hon : d.on .pump = true) (harmed : d.epState i a = epARMED)
    (hcur : d.epState i (!a) = epCURRENT) :
    d.sweep i = if d.sweepVisits i = true ∧ d.tSw i ≤ d.time62 then d.switched i a else d := by
  have hnone : ¬ (d.epState i false = epRETIRING ∨ d.epState i true = epRETIRING) := by
    cases a <;> simp only [Bool.not_false, Bool.not_true] at hcur <;> rw [harmed, hcur] <;> decide
  unfold Dev.sweep
  rw [if_neg hnone, Dev.commitSwitch_armed harmed hcur, hon]
  cases d.sweepVisits i <;> simp

/-- A context with a retiring slot that nothing holds: the slot is cleared. -/
theorem Dev.sweep_retiring (hon : d.on .pump = true) (hvisits : d.sweepVisits i = true)
    (hretiring : d.epState i a = epRETIRING) (hcur : d.epState i (!a) = epCURRENT)
    (htime : d.tSw i + d.wPost i ≤ d.time62) (hfree : d.epInUse i a = false)
    (hrestart : d.laneState (d.ctxLane i) ≠ laneRESTART) (hcatchUp : d.laneState (d.ctxLane i) ≠ laneCATCH_UP) :
    d.sweep i = d.epVacate i a := by
  have hsome : d.epState i false = epRETIRING ∨ d.epState i true = epRETIRING := by
    cases a
    · exact .inl hretiring
    · exact .inr hretiring
  have hretire : d.retire i a = d.epVacate i a := if_pos ⟨hretiring, htime, by rw [hfree]; rfl, hrestart, hcatchUp⟩
  have hkeep (x : Dev) (s : Bool) (h : x.epState i s = epCURRENT) : x.retire i s = x :=
    if_neg fun hx => absurd (h.symm.trans hx.1) (by decide)
  unfold Dev.sweep
  rw [if_pos ⟨hon, hvisits⟩, if_pos hsome]
  cases a
  · rw [hretire]
    exact hkeep _ true ((Dev.ep_epVacate_other (s := false) isEpField_state).trans hcur)
  · rw [hkeep _ false hcur, hretire]

end

theorem dev_became (s : State) (c : Core) (d : Dev) : (became s c d).dev = d := rfl
theorem pending_became (s : State) (c : Core) (d : Dev) : (became s c d).pending = s.pending := rfl

/-- R93, R100, R101: the second part of O40. -/
theorem sweepSwitches_holds : Claims.SweepSwitches := by
  unfold Claims.SweepSwitches
  intro s i a hcalm hon
  dsimp only
  refine ⟨fun harmed hcur htime hvisits => ?_, fun hretiring hcur htime hfree hvisits hrestart hcatchUp => ?_,
    fun harmed hcur htime => ?_, fun hedge => ?_⟩
  · have hsweep := (Dev.sweep_armed hon harmed hcur).trans (if_pos ⟨hvisits, htime⟩)
    obtain ⟨ha, hother, hswcur⟩ := Dev.switched_states (d := s.dev) (i := i) (a := a)
    have hexec := (exec_epochSweep s i).trans (State.onDev_eq hsweep (Dev.calm_switched hcalm))
    refine ⟨_, hexec, ?_⟩
    rw [dev_became]
    exact ⟨ha, hother, hswcur, pending_became ..⟩
  · have hsweep := Dev.sweep_retiring hon hvisits hretiring hcur htime hfree hrestart hcatchUp
    obtain ⟨hstate, hkeyId⟩ := Dev.ep_epVacate (d := s.dev) (i := i) (s := a) (by rw [hretiring]; decide)
    have hexec := (exec_epochSweep s i).trans (State.onDev_eq hsweep (Dev.calm_epVacate hcalm))
    refine ⟨_, hexec, ?_⟩
    rw [dev_became]
    exact ⟨hstate, (Dev.ep_epVacate_other isEpField_state).trans hcur, hkeyId⟩
  · have hsweep := (Dev.sweep_armed hon harmed hcur).trans (if_neg fun h => absurd h.2 (not_le.mpr htime))
    exact (exec_epochSweep ..).trans (State.onDev_eq hsweep hcalm)
  · have hsweep := Dev.sweep_elsewhere (d := s.dev) (i := i) (beq_false_of_ne hedge)
    exact (exec_epochSweep ..).trans (State.onDev_eq hsweep hcalm)

/-- Settles O40: the key commands, and the sweep that switches their epochs. -/
theorem keyEpochs : Obligations.KeyEpochs := ⟨keyCommands_holds, sweepSwitches_holds⟩

end Sys2Proof.Machine
end

section
/-! PROOFS. The counterexample to the statement about the registers of the rings: a Supervisor that holds the Buckets
partitions writes back a count of hold slots that is out of its range. -/
namespace Sys2Proof.Machine
open Sys2Proof.Claims

/-! ### HOLD_SLOTS is a field of Vault (R12, R113, R235) -/

/-- A device in HOST, its domains on and filled: Supervisor holds both partitions of Buckets, and the firewall in front of
Pumphouse's registers lets it write BKT_PART, where HOLD_SLOTS stands at 3. -/
def holdSlotsBelowRange : Dev :=
  { Dev.reset with
    dom := 0xFF
    filled := Vector.replicate 3 true
    xtal := true
    pll := true
    regs := [(F.SYS_STATE.addr, 3), (F.WH_STAT_HOST_GOOD.addr, 1), (fwActive 17 0, 0x40100400),
      (fwActive 17 0 + 4, 0x401004FF), (fwActive 17 0 + 8, 0x80020002), (F.BKT_PART_HOLD_SLOTS.addr, 3)]
    own := [(0x30, 1), (0x31, 1)] }

/-- The word that is there is no FIELD case for a writer that does not reach the field (R235). -/
theorem holdSlotsBelowRange_arrives : Arrives holdSlotsBelowRange 1 F.BKT_PART_HOLD_SLOTS.addr 3 := by decide

/-- The write reaches no field, so that none is brought within its range. -/
theorem holdSlotsBelowRange_written : holdSlotsBelowRange.write 1 F.BKT_PART_HOLD_SLOTS.addr 3 = holdSlotsBelowRange := by
  decide

theorem exec_bktPartWrite (m : Master) (v : Word) (s : State) :
    exec (.bktPartWrite m v) s = s.onDev fun d => d.write m F.BKT_PART_HOLD_SLOTS.addr v := rfl

/-- Refutes O41: HOLD_SLOTS belongs to Vault, so a write by Supervisor of the value that is there arrives and changes
nothing, a value out of range too. The statement has every write that arrives bring HOLD_SLOTS within 8 and 152. -/
theorem not_ringRegisters : ¬Obligations.RingRegisters := by
  unfold Obligations.RingRegisters
  intro h
  obtain ⟨t, ht, -, hslots⟩ := (h { State.reset with dev := holdSlotsBelowRange } 1 0 3).1 holdSlotsBelowRange_arrives
  have hcalm : holdSlotsBelowRange.calm := by decide
  rw [exec_bktPartWrite, State.onDev_eq holdSlotsBelowRange_written hcalm] at ht
  rw [← Host.Outcome.next.inj ht] at hslots
  exact absurd hslots (by decide)

end Sys2Proof.Machine
end

section
/-! PROOFS. The counterexamples to the statements about channels and about posted entries: a ring whose slots lie in the
registers of Wellcap. The read of such a slot completes a store that waits for the AON domain (R20), and with it an alarm
can begin. -/
namespace Sys2Proof.Machine
open Sys2Proof.Claims

/-! ### A store to WC_CTL waits that arms the light sensor (R20, R390) -/

/-- A device in HOST, its domains on and filled; Vault's store that sets LIGHT_EN in WC_CTL is on its way. -/
def lightArming (regs : List (Nat × Word)) (rings : List (Nat × RingHw)) : Dev :=
  { Dev.reset with
    dom := 0xFF
    filled := Vector.replicate 3 true
    xtal := true
    pll := true
    regs := (F.SYS_STATE.addr, 3) :: (F.WH_STAT_HOST_GOOD.addr, 1) :: regs
    rings := rings
    aonPend := [⟨F.WC_CTL_LIGHT_EN.addr, 1, 2, 0⟩] }

/-! ### A channel takes a descriptor there (R132, R136) -/

/-- Ring 16 runs on channel 0 with one descriptor, its slot at WC_CTL, which channel 0 may read. Light is present; the word
of WC_CTL has OWN, TYP 2 and LEN 64 in the bits that no field takes. -/
def descriptorAtWellcap : Dev :=
  lightArming [(F.WC_CTL_LIGHT_EN.addr, 0xA0000040), (F.WC_STAT_PRESENT.addr, 2), (F.REACH_GROUPS.addr, 0x7C),
    (fwActive 16 0, 0x40020000), (fwActive 16 0 + 4, 0x400200FF), (fwActive 16 0 + 8, 0x80010008),
    ((chField 0 F.CH_CTRL_ENABLE).addr, 1), ((ringField 16 F.RING_BASE_BASE).addr, 0x40020000),
    ((ringField 16 F.RING_CFG_ENABLE).addr, 0x82000000), ((ringField 16 F.RING_PROD_INDEX).addr, 1),
    ((ringField 16 F.RING_STAT_STATE).addr, 0x40000000)] []

/-- The words of the slot, LIGHT_EN, its latch bit and the alarm's record among them. -/
def wellcapWords : List Word := [0xA0000041, 2, 2, 0, 0x00010001, 0, 0, 0]

theorem descriptorAtWellcap_next :
    descriptorAtWellcap.calm ∧ descriptorAtWellcap.on .core = true ∧
      descriptorAtWellcap.flag (chField 0 F.CH_CTRL_ENABLE) = true ∧ (descriptorAtWellcap.chans[0]).job = none ∧
      descriptorAtWellcap.nextRing 0 = some 16 := by
  decide +kernel

theorem descriptorAtWellcap_read :
    (descriptorAtWellcap.descRead (chanMaster 0) 16 (descriptorAtWellcap.ringCons 16)).2 = .ok wellcapWords := by
  decide +kernel

theorem wellcapWords_work : workOf 16 wellcapWords = some .copy := by decide

/-- The alarm has disabled the channel that then takes the descriptor. -/
theorem descriptorAtWellcap_taken :
    (State.settle { State.reset with dev := descriptorAtWellcap.chanStart 0 .copy }).dev.get
      (chField 0 F.CH_STAT_STATE) = 3 := by
  decide +kernel

theorem exec_copy (c : Fin 8) (s : State) : exec (.copy c) s = s.onDev fun d => d.chanStart c .copy := rfl

/-- With no bound on where the slot lies, what its read sets off can disable the channel before it takes the descriptor. -/
theorem not_channelsTake : ¬ChannelsTake := by
  intro h
  obtain ⟨hcalm, hon, hen, hfree, hnext⟩ := descriptorAtWellcap_next
  obtain ⟨htake, -, -⟩ := h { State.reset with dev := descriptorAtWellcap } 0 16 (.copy 0) .copy hcalm hon (by decide)
    (by simp) hen hfree hnext
  obtain ⟨t, g, ht, -, -, -, hstate, -⟩ := htake _ _ (Prod.snd_eq_iff.mp descriptorAtWellcap_read) wellcapWords_work
  rw [exec_copy, State.onDev] at ht
  rw [← Host.Outcome.next.inj ht, descriptorAtWellcap_taken] at hstate
  cases g <;> exact absurd hstate (by decide)

/-- Refutes O42: the read of a slot in Wellcap's registers completes the store that waits there, and the alarm that this
sets off clears the ENABLE of every channel; the channel that takes the descriptor is then OFF. The statement has it moving
or waiting for its grant wherever the slot lies. -/
theorem not_channelsMove : ¬Obligations.ChannelsMove := fun h => not_channelsTake h.1

/-! ### An entry is posted there (R125, R128, R129) -/

/-- The LOST descriptor of one entry lost, ESN 5, that waits for its slot. -/
def lostEntry : RingEntry := ⟨.lost, 5, none, some (lostWords 1 5 5), false⟩

/-- Ring 16, FROM_DEVICE, runs with one reserved entry that is complete, its slot at WC_CTL, which Pumphouse may read. Light
is present. -/
def entryAtWellcap : Dev :=
  lightArming [(F.WC_CTL_LIGHT_EN.addr, 0), (F.WC_STAT_PRESENT.addr, 2), ((F.REACH_GROUPS.plus 0x20).addr, 0x2C),
    (fwActive 16 0, 0x40020000), (fwActive 16 0 + 4, 0x400200FF), (fwActive 16 0 + 8, 0x80010800),
    ((ringField 16 F.RING_BASE_BASE).addr, 0x40020000), ((ringField 16 F.RING_CFG_ENABLE).addr, 0x82000100),
    ((ringField 16 F.RING_STAT_STATE).addr, 0x40000000)] [(16, ⟨[lostEntry], [], 0, 0⟩)]

theorem entryAtWellcap_complete :
    entryAtWellcap.calm ∧ entryAtWellcap.on .core = true ∧ entryAtWellcap.ringState 16 = ringRUN ∧
      (entryAtWellcap.ring 16).complete = some (lostEntry, 0) := by
  decide +kernel

/-- WC_CTL has no OWN bit. -/
theorem entryAtWellcap_read :
    (entryAtWellcap.descRead 11 16 (entryAtWellcap.ringProd 16 + 0)).2 = .error 1 := by
  decide +kernel

/-- The alarm has emptied the ring. -/
theorem entryAtWellcap_lost :
    ((State.settle { State.reset with dev := entryAtWellcap.descPostOp 16 }).dev.ring 16).reserved = [] := by
  decide +kernel

theorem exec_descPost (n : Fin 256) (s : State) : exec (.descPost n) s = s.onDev fun d => d.descPostOp n.val := rfl

/-- Refutes O43: the read of a slot in Wellcap's registers completes the store that waits there, and the alarm that this
sets off resets the rings' hardware side. The statement has the entry wait wherever its slot lies. -/
theorem not_entriesPosted : ¬Obligations.EntriesPosted := by
  unfold Obligations.EntriesPosted
  intro h
  obtain ⟨hcalm, hon, hrun, hcomplete⟩ := entryAtWellcap_complete
  obtain ⟨-, hstop⟩ := h { State.reset with dev := entryAtWellcap } 16 lostEntry 0 _ hcalm hon hrun hcomplete rfl
  obtain ⟨t, ht, -, -, -, hkept, -⟩ := hstop _ _ (Prod.snd_eq_iff.mp entryAtWellcap_read)
  rw [exec_descPost, State.onDev] at ht
  have hwaits : (entryAtWellcap.ring 16).reserved = [lostEntry] := by decide
  have hlost : (t.dev.ring 16).reserved = [] := by
    rw [← Host.Outcome.next.inj ht]
    exact entryAtWellcap_lost
  exact absurd (hlost.symm.trans (hkept.trans hwaits)) (by decide)

end Sys2Proof.Machine
end

section
/-! PROOFS. The counterexample to the statement about the time unit: a FREQ that stands out of range, written by a master
that does not reach it. -/
namespace Sys2Proof.Machine
open Sys2Proof.Claims

/-! ### FREQ is a field of Supervisor (R12, R143, R235) -/

/-- A device in HOST, its domains on and filled: the firewall in front of Pumphouse's registers lets User write the time
unit's, where FREQ stands at 2^28, above its bound of 128,000,000. No write leaves it there (R12), but the statement is about
every state. -/
def freqAboveRange : Dev :=
  { Dev.reset with
    dom := 0xFF
    filled := Vector.replicate 3 true
    xtal := true
    pll := true
    regs := [(F.SYS_STATE.addr, 3), (F.WH_STAT_HOST_GOOD.addr, 1), (fwActive 17 0, 0x400A0000),
      (fwActive 17 0 + 4, 0x400A00FF), (fwActive 17 0 + 8, 0x80020001), (F.TIME_FREQ_FREQ.addr, 0x10000000)] }

/-- The word that is there is no FIELD case for a writer that does not reach the field (R235). -/
theorem freqAboveRange_arrives : Arrives freqAboveRange 0 F.TIME_FREQ_FREQ.addr 0x10000000 := by decide

/-- The write counts as an update of the servo (R153), but reaches no field that it could bring within its range. -/
theorem freqAboveRange_written :
    freqAboveRange.write 0 F.TIME_FREQ_FREQ.addr 0x10000000 = freqAboveRange.servoUpdate := by
  decide

theorem exec_timeFreqWrite (m : Master) (v : Word) (s : State) :
    exec (.timeFreqWrite m v) s = s.onDev fun d => d.write m F.TIME_FREQ_FREQ.addr v := rfl

theorem not_timeSet : ¬TimeSet := by
  intro h
  obtain ⟨-, -, -, hfreq, -⟩ := h { State.reset with dev := freqAboveRange } 0
  obtain ⟨t, ht, -, -, hbound⟩ := hfreq 0x10000000 freqAboveRange_arrives
  have hcalm : freqAboveRange.servoUpdate.calm := by decide
  rw [exec_timeFreqWrite, State.onDev_eq freqAboveRange_written hcalm] at ht
  rw [← Host.Outcome.next.inj ht] at hbound
  exact absurd hbound (by decide)

/-- Refutes O46: FREQ belongs to Supervisor, so a write by User of the value that is there arrives and leaves it, a value out
of range too. The statement has every write that arrives bring FREQ within 128,000,000 on either side. -/
theorem not_timeUnit : ¬Obligations.TimeUnit := fun h => not_timeSet h.1

end Sys2Proof.Machine
end

section
/-! PROOFS. Instruction words (R167 to R171): the fields of a word put together, a word from its fields, and the statement
that the decoder and the encoder agree. -/
namespace Sys2Proof
open Sys2Proof.Claims

/-! ### Words of the classes of R167, as numbers -/

theorem toNat_append_eq {m n : Nat} (x : BitVec m) (y : BitVec n) : (x ++ y).toNat = x.toNat * 2 ^ n + y.toNat := by
  rw [BitVec.toNat_append, ← Nat.shiftLeft_add_eq_or_of_lt y.isLt, Nat.shiftLeft_eq]

theorem encR_toNat (op : BitVec 6) (d a b : RegNo) (s : BitVec 5) (f : BitVec 6) :
    (encR op d a b s f).toNat =
      op.toNat * 2 ^ 26 + d.toNat * 2 ^ 21 + a.toNat * 2 ^ 16 + b.toNat * 2 ^ 11 + s.toNat * 2 ^ 6 + f.toNat := by
  simp only [encR, toNat_append_eq]
  omega

theorem encI_toNat (op : BitVec 6) (d a : RegNo) (i : BitVec 16) :
    (encI op d a i).toNat = op.toNat * 2 ^ 26 + d.toNat * 2 ^ 21 + a.toNat * 2 ^ 16 + i.toNat := by
  simp only [encI, toNat_append_eq]
  omega

theorem encJ_toNat (op : BitVec 6) (o : BitVec 26) : (encJ op o).toNat = op.toNat * 2 ^ 26 + o.toNat := by
  simp only [encJ, toNat_append_eq]

theorem encL_toNat (op : BitVec 6) (a : RegNo) (n : BitVec 1) (c l : BitVec 10) :
    (encL op a n c l).toNat = op.toNat * 2 ^ 26 + a.toNat * 2 ^ 21 + n.toNat * 2 ^ 20 + c.toNat * 2 ^ 10 + l.toNat := by
  simp only [encL, toNat_append_eq]
  omega

/-! ### The fields of a word -/

theorem field_toNat (w : Word) (lo n : Nat) : (w.extractLsb' lo n).toNat = w.toNat / 2 ^ lo % 2 ^ n := by
  rw [BitVec.extractLsb'_toNat, Nat.shiftRight_eq_div_pow]

section fields
variable (op : BitVec 6) (d a b : RegNo) (s : BitVec 5) (f : BitVec 6) (i : BitVec 16) (o : BitVec 26)
  (n : BitVec 1) (c l : BitVec 10)

@[simp] theorem wOp_encR : wOp (encR op d a b s f) = op := by
  apply BitVec.eq_of_toNat_eq; rw [wOp, field_toNat, encR_toNat]; omega
@[simp] theorem wRd_encR : wRd (encR op d a b s f) = d := by
  apply BitVec.eq_of_toNat_eq; rw [wRd, field_toNat, encR_toNat]; omega
@[simp] theorem wRa_encR : wRa (encR op d a b s f) = a := by
  apply BitVec.eq_of_toNat_eq; rw [wRa, field_toNat, encR_toNat]; omega
@[simp] theorem wRb_encR : wRb (encR op d a b s f) = b := by
  apply BitVec.eq_of_toNat_eq; rw [wRb, field_toNat, encR_toNat]; omega
@[simp] theorem wSh_encR : wSh (encR op d a b s f) = s := by
  apply BitVec.eq_of_toNat_eq; rw [wSh, field_toNat, encR_toNat]; omega
@[simp] theorem wFn_encR : wFn (encR op d a b s f) = f := by
  apply BitVec.eq_of_toNat_eq; rw [wFn, field_toNat, encR_toNat]; omega

@[simp] theorem wOp_encI : wOp (encI op d a i) = op := by
  apply BitVec.eq_of_toNat_eq; rw [wOp, field_toNat, encI_toNat]; omega
@[simp] theorem wRd_encI : wRd (encI op d a i) = d := by
  apply BitVec.eq_of_toNat_eq; rw [wRd, field_toNat, encI_toNat]; omega
@[simp] theorem wRa_encI : wRa (encI op d a i) = a := by
  apply BitVec.eq_of_toNat_eq; rw [wRa, field_toNat, encI_toNat]; omega
@[simp] theorem wImm_encI : wImm (encI op d a i) = i := by
  apply BitVec.eq_of_toNat_eq; rw [wImm, field_toNat, encI_toNat]; omega

@[simp] theorem wOp_encJ : wOp (encJ op o) = op := by
  apply BitVec.eq_of_toNat_eq; rw [wOp, field_toNat, encJ_toNat]; omega
@[simp] theorem wOff_encJ : wOff (encJ op o) = o := by
  apply BitVec.eq_of_toNat_eq; rw [wOff, field_toNat, encJ_toNat]; omega

@[simp] theorem wOp_encL : wOp (encL op a n c l) = op := by
  apply BitVec.eq_of_toNat_eq; rw [wOp, field_toNat, encL_toNat]; omega
@[simp] theorem wRd_encL : wRd (encL op a n c l) = a := by
  apply BitVec.eq_of_toNat_eq; rw [wRd, field_toNat, encL_toNat]; omega
@[simp] theorem wN_encL : wN (encL op a n c l) = n := by
  apply BitVec.eq_of_toNat_eq; rw [wN, field_toNat, encL_toNat]; omega
@[simp] theorem wIcnt_encL : wIcnt (encL op a n c l) = c := by
  apply BitVec.eq_of_toNat_eq; rw [wIcnt, field_toNat, encL_toNat]; omega
@[simp] theorem wLen_encL : wLen (encL op a n c l) = l := by
  apply BitVec.eq_of_toNat_eq; rw [wLen, field_toNat, encL_toNat]; omega

end fields

/-! ### A word is made of its fields -/

theorem encR_fields (w : Word) : encR (wOp w) (wRd w) (wRa w) (wRb w) (wSh w) (wFn w) = w := by
  apply BitVec.eq_of_toNat_eq
  simp only [encR_toNat, wOp, wRd, wRa, wRb, wSh, wFn, field_toNat]
  omega

theorem encI_fields (w : Word) : encI (wOp w) (wRd w) (wRa w) (wImm w) = w := by
  apply BitVec.eq_of_toNat_eq
  simp only [encI_toNat, wOp, wRd, wRa, wImm, field_toNat]
  omega

theorem encJ_fields (w : Word) : encJ (wOp w) (wOff w) = w := by
  apply BitVec.eq_of_toNat_eq
  simp only [encJ_toNat, wOp, wOff, field_toNat]
  omega

theorem encL_fields (w : Word) : encL (wOp w) (wRd w) (wN w) (wIcnt w) (wLen w) = w := by
  apply BitVec.eq_of_toNat_eq
  simp only [encL_toNat, wOp, wRd, wN, wIcnt, wLen, field_toNat]
  omega

/-! ### Decode of encode -/

theorem decodeOfEncode_holds : DecodeOfEncode := by
  intro i w h
  cases i
  all_goals cases h
  all_goals simp [decodeWord, decodeReg, decodeLong, decodeSys, unused]

/-! ### Encode of decode -/

theorem encR_eq_iff {w : Word} {op : BitVec 6} {d a b : RegNo} {s : BitVec 5} {f : BitVec 6} :
    encR op d a b s f = w ↔ (wOp w).toNat = op.toNat ∧ wRd w = d ∧ wRa w = a ∧ wRb w = b ∧ wSh w = s ∧
      (wFn w).toNat = f.toNat := by
  constructor
  · rintro rfl
    simp
  · rintro ⟨hop, rfl, rfl, rfl, rfl, hfn⟩
    rw [← BitVec.eq_of_toNat_eq hop, ← BitVec.eq_of_toNat_eq hfn, encR_fields]

theorem encI_eq_iff {w : Word} {op : BitVec 6} {d a : RegNo} {i : BitVec 16} :
    encI op d a i = w ↔ (wOp w).toNat = op.toNat ∧ wRd w = d ∧ wRa w = a ∧ wImm w = i := by
  constructor
  · rintro rfl
    simp
  · rintro ⟨hop, rfl, rfl, rfl⟩
    rw [← BitVec.eq_of_toNat_eq hop, encI_fields]

theorem encJ_eq_iff {w : Word} {op : BitVec 6} {o : BitVec 26} :
    encJ op o = w ↔ (wOp w).toNat = op.toNat ∧ wOff w = o := by
  constructor
  · rintro rfl
    simp
  · rintro ⟨hop, rfl⟩
    rw [← BitVec.eq_of_toNat_eq hop, encJ_fields]

theorem encL_eq_iff {w : Word} {op : BitVec 6} {a : RegNo} {n : BitVec 1} {c l : BitVec 10} :
    encL op a n c l = w ↔ (wOp w).toNat = op.toNat ∧ wRd w = a ∧ wN w = n ∧ wIcnt w = c ∧ wLen w = l := by
  constructor
  · rintro rfl
    simp
  · rintro ⟨hop, rfl, rfl, rfl, rfl⟩
    rw [← BitVec.eq_of_toNat_eq hop, encL_fields]

/-- An instruction with unused fields decodes where they are zero. -/
theorem unused_instr {ok : Bool} {i j : Instr} : unused ok i = .instr j ↔ ok = true ∧ i = j := by
  cases ok <;> simp [unused]

/-- It is illegal with DETAIL 1 where they are not. -/
theorem unused_illegal {ok : Bool} {i : Instr} {k : Nat} : unused ok i = .illegal k ↔ ok = false ∧ k = 1 := by
  cases ok <;> simp [unused, eq_comm]

theorem encodeWord_of_decodeReg {w : Word} {i : Instr} (hop : (wOp w).toNat = 0) (h : decodeReg w = .instr i) :
    encodeWord i = some w := by
  simp only [decodeReg] at h
  split at h
  case h_25 => cases h
  all_goals
    next hfn =>
    obtain ⟨hz, rfl⟩ := unused_instr.1 h
    simp only [Bool.and_eq_true, beq_iff_eq] at hz
    exact congrArg some (encR_eq_iff.2 (by simp [hop, hfn, hz]))

theorem encodeWord_of_decodeLong {w : Word} {i : Instr} (hop : (wOp w).toNat = 0x1C) (h : decodeLong w = .instr i) :
    encodeWord i = some w := by
  simp only [decodeLong] at h
  split at h
  case h_1 hfn | h_4 hfn =>
    obtain rfl := Decoded.instr.inj h
    exact congrArg some (encR_eq_iff.2 (by simp [hop, hfn]))
  case h_2 hfn | h_3 hfn =>
    obtain ⟨hz, rfl⟩ := unused_instr.1 h
    exact congrArg some (encR_eq_iff.2 (by simp [hop, hfn, eq_of_beq hz]))
  case h_5 => cases h

theorem encodeWord_of_decodeSys {w : Word} {i : Instr} (hop : (wOp w).toNat = 0x1F) (h : decodeSys w = .instr i) :
    encodeWord i = some w := by
  simp only [decodeSys] at h
  split at h
  case h_9 => cases h
  all_goals
    next hfn =>
    obtain ⟨hz, rfl⟩ := unused_instr.1 h
    simp only [Bool.and_eq_true, beq_iff_eq] at hz
    exact congrArg some (encR_eq_iff.2 (by simp [hop, hfn, hz]))

theorem encodeWord_of_decodeWord {w : Word} {i : Instr} (h : decodeWord w = .instr i) : encodeWord i = some w := by
  simp only [decodeWord] at h
  split at h
  case h_1 hop => exact encodeWord_of_decodeReg hop h
  case h_29 hop => exact encodeWord_of_decodeLong hop h
  case h_30 hop => exact encodeWord_of_decodeSys hop h
  case h_6 hop | h_27 hop | h_28 hop =>
    obtain ⟨hz, rfl⟩ := unused_instr.1 h
    exact congrArg some (encI_eq_iff.2 (by simp [hop, eq_of_beq hz]))
  case h_23 hop | h_24 hop =>
    obtain rfl := Decoded.instr.inj h
    exact congrArg some (encJ_eq_iff.2 (by simp [hop]))
  case h_25 hop | h_26 hop =>
    obtain ⟨hz, rfl⟩ := unused_instr.1 h
    exact congrArg some (encL_eq_iff.2 (by simp [hop, eq_of_beq hz]))
  case h_31 => cases h
  all_goals
    next hop =>
    obtain rfl := Decoded.instr.inj h
    exact congrArg some (encI_eq_iff.2 (by simp [hop]))

/-- A word that does not decode is unassigned, or has an unused field that is not zero (R168, R210). -/
theorem decodeWord_illegal_le {w : Word} {k : Nat} (h : decodeWord w = .illegal k) : k ≤ 1 := by
  have hun {ok : Bool} {i : Instr} (h : unused ok i = .illegal k) : k ≤ 1 := (unused_illegal.1 h).2.le
  have hno (h : Decoded.illegal 0 = .illegal k) : k ≤ 1 := (Decoded.illegal.inj h) ▸ Nat.zero_le 1
  have hreg (h : decodeReg w = .illegal k) : k ≤ 1 := by
    simp only [decodeReg] at h
    split at h
    case h_25 => exact hno h
    all_goals exact hun h
  have hlong (h : decodeLong w = .illegal k) : k ≤ 1 := by
    simp only [decodeLong] at h
    split at h
    case h_1 | h_4 => cases h
    case h_2 | h_3 => exact hun h
    case h_5 => exact hno h
  have hsys (h : decodeSys w = .illegal k) : k ≤ 1 := by
    simp only [decodeSys] at h
    split at h
    case h_9 => exact hno h
    all_goals exact hun h
  simp only [decodeWord] at h
  split at h
  case h_1 => exact hreg h
  case h_29 => exact hlong h
  case h_30 => exact hsys h
  case h_6 | h_25 | h_26 | h_27 | h_28 => exact hun h
  case h_31 => exact hno h
  all_goals cases h

/-- Settles O16: each field of a word is where its class puts it, and a word is made of its fields. -/
theorem decodeAndEncodeAgree : Obligations.DecodeAndEncodeAgree :=
  ⟨decodeOfEncode_holds, fun _ => ⟨fun _ => encodeWord_of_decodeWord, fun _ => decodeWord_illegal_le⟩⟩

end Sys2Proof
end

section
/-! PROOFS. The computational instructions (R172, R173): the results of the tables as BitVec's own operations give them, and
the statements about computations, divisions, register writes and the continuation. -/
namespace Sys2Proof.Machine
open Sys2Proof.Claims

/-! ### Results (R172, R173) -/

theorem boolWord_eq (b : Bool) : boolWord b = if b then 1 else 0 := rfl

theorem slt_value (a b : Word) : boolWord (a.slt b) = if a.toInt < b.toInt then 1 else 0 := by
  simp [boolWord_eq, BitVec.slt_eq_decide]

theorem sltu_value (a b : Word) : boolWord (a.ult b) = if a.toNat < b.toNat then 1 else 0 := by
  simp [boolWord_eq, BitVec.ult_eq_decide]

theorem slti_value (a : Word) (i : BitVec 16) :
    boolWord (a.slt (i.signExtend 32)) = if a.toInt < i.toInt then 1 else 0 := by
  rw [slt_value, BitVec.toInt_signExtend_of_le (by decide)]

/-- The amount of a shift by a register: the low five bits. -/
theorem shiftAmount_toNat (b : Word) : (b.extractLsb' 0 5).toNat = b.toNat % 32 := by
  rw [BitVec.extractLsb'_toNat, Nat.shiftRight_zero]

theorem lui_value (i : BitVec 16) : i.zeroExtend 32 <<< 16 = (i ++ (0 : BitVec 16) : Word) := by
  apply BitVec.eq_of_toNat_eq
  rw [toNat_append_eq, BitVec.toNat_shiftLeft, Nat.shiftLeft_eq, BitVec.toNat_setWidth]
  have := i.isLt
  show i.toNat % 2 ^ 32 * 2 ^ 16 % 2 ^ 32 = i.toNat * 2 ^ 16 + 0
  omega

/-- The high word of a product of signed words lies in the product of the words extended to 64 bits. -/
theorem mulh_value (a b : Word) : mulh a b = (a.signExtend 64 * b.signExtend 64).extractLsb' 32 32 := by
  have hext (x : Word) : x.signExtend 64 = BitVec.ofInt 64 x.toInt := rfl
  apply BitVec.eq_of_toNat_eq
  rw [mulh, hext, hext, ← BitVec.ofInt_mul, BitVec.extractLsb'_toNat, BitVec.toNat_ofInt, BitVec.toNat_ofInt,
    Int.shiftRight_eq_div_pow, Nat.shiftRight_eq_div_pow]
  generalize a.toInt * b.toInt = p
  norm_num
  omega

theorem mulhu_value (a b : Word) : mulhu a b = (a.zeroExtend 64 * b.zeroExtend 64).extractLsb' 32 32 := by
  have hlt : a.toNat * b.toNat < 2 ^ 32 * 2 ^ 32 := Nat.mul_lt_mul'' a.isLt b.isLt
  have ha := a.isLt
  have hb := b.isLt
  apply BitVec.eq_of_toNat_eq
  rw [mulhu, BitVec.extractLsb'_toNat, BitVec.toNat_mul, BitVec.toNat_setWidth, BitVec.toNat_setWidth, BitVec.toNat_ofNat,
    Nat.mod_eq_of_lt (by omega : a.toNat < 2 ^ 64), Nat.mod_eq_of_lt (by omega : b.toNat < 2 ^ 64),
    Nat.mod_eq_of_lt (by omega : a.toNat * b.toNat < 2 ^ 64)]

theorem divS_value (a b : Word) : divS a b = if b = 0 then 0xFFFFFFFF else a.sdiv b := by
  have hq : BitVec.ofInt 32 (a.toInt.tdiv b.toInt) = a.sdiv b :=
    BitVec.eq_of_toInt_eq (by rw [BitVec.toInt_ofInt, BitVec.toInt_sdiv])
  rw [divS, hq]

theorem remS_value (a b : Word) : remS a b = if b = 0 then a else a.srem b := by
  have hr : BitVec.ofInt 32 (a.toInt.tmod b.toInt) = a.srem b := by rw [← BitVec.toInt_srem, BitVec.ofInt_toInt]
  rw [remS, hr]

theorem divU_value (a b : Word) : divU a b = if b = 0 then 0xFFFFFFFF else a / b := by
  have hq : BitVec.ofNat 32 (a.toNat / b.toNat) = a / b := by rw [← BitVec.toNat_udiv, BitVec.ofNat_toNat, BitVec.setWidth_eq]
  rw [divU, hq]

theorem remU_value (a b : Word) : remU a b = if b = 0 then a else a % b := by
  have hr : BitVec.ofNat 32 (a.toNat % b.toNat) = a % b := by rw [← BitVec.toNat_umod, BitVec.ofNat_toNat, BitVec.setWidth_eq]
  rw [remU, hr]

/-- The leading zeros of a word that is not 0 stand above its highest bit. -/
theorem clz_value (a : Word) : BitVec.ofNat 32 (clzOf a) = a.clz := by
  unfold clzOf
  split
  · next h => rw [h]; rfl
  · next h =>
    have hne : a.toNat ≠ 0 := fun e => h (BitVec.eq_of_toNat_eq e)
    have hlow : 2 ^ (31 - a.clz.toNat) ≤ a.toNat := BitVec.two_pow_sub_clz_le_toNat_of_ne_zero (by decide) h
    have hhigh : a.toNat < 2 ^ (32 - a.clz.toNat) := BitVec.toNat_lt_two_pow_sub_clz
    have hclz : a.clz.toNat < 32 := by
      by_contra hge
      rw [Nat.sub_eq_zero_of_le (Nat.le_of_not_lt hge)] at hhigh
      omega
    have hlog : a.toNat.log2 = 31 - a.clz.toNat := by
      rw [Nat.log2_eq_iff hne, show 31 - a.clz.toNat + 1 = 32 - a.clz.toNat by omega]
      exact ⟨hlow, hhigh⟩
    apply BitVec.eq_of_toNat_eq
    rw [hlog, BitVec.toNat_ofNat]
    omega

/-! ### The instructions complete -/

/-- Before an instruction that executes, the fetch has asked the core for nothing. -/
theorem fetched_calm {s : State} {k : Klass} (h : Ready s k) : (fetched s).calm := by
  obtain ⟨-, -, -, -, -, hcalm⟩ := h
  exact hcalm

/-- An instruction that executes and whose body completes: the core follows what it has asked for. -/
theorem State.coreStep_completes {s t : State} {k : Klass} {body : State → Done} (h : Ready s k)
    (hb : body { s with dev := fetched s } = .ok t) : s.coreStep k body = t.settle := by
  obtain ⟨hrun, himp, hint, hfetch, hplace, -⟩ := h
  obtain ⟨w, hw⟩ : ∃ w, s.fetch = ({ s with dev := fetched s }, .ok w) := by
    cases hx : s.fetch.2 with
    | ok w => exact ⟨w, Prod.ext (State.fetch_fst s) hx⟩
    | error x =>
      rw [hx] at hfetch
      exact absurd hfetch Bool.false_ne_true
  simp only [State.coreStep, State.boundaryStep, hrun, himp, hint, hw, hplace, hb, Bool.not_true, Bool.false_eq_true,
    if_false]

/-- An instruction that executes and whose body raises an exception before it has changed anything takes its entry. -/
theorem exec_raises {s : State} {i : Instr} {k : Klass} {body : State → Done} (hexec : exec i s = .next (s.coreStep k body))
    (x : Exc) (h : Ready s k) (hb : body { s with dev := fetched s } = .exc { s with dev := fetched s } x) :
    exec i s = .next (State.enter { s with dev := fetched s } x none false).settle :=
  hexec.trans (congrArg _ (State.coreStep_exc h hb))

theorem exec_completes {s t : State} {i : Instr} {k : Klass} {body : State → Done}
    (hexec : exec i s = .next (s.coreStep k body)) (h : Ready s k) (hb : body { s with dev := fetched s } = .ok t) :
    exec i s = .next t.settle :=
  hexec.trans (congrArg _ (State.coreStep_completes h hb))

/-- With nothing asked of the core, it only follows its release. -/
theorem State.settle_eq_became (s : State) (c : Core) {d : Dev} (hd : d.calm) :
    State.settle { s with core := c, dev := d } = became s c d := State.settle_of_calm _ hd

/-- An instruction whose body computes on the core alone. -/
theorem State.coreStep_computes {s : State} {k : Klass} (f : Core → Core) (h : Ready s k) :
    (s.coreStep k fun t => t.onCore f) = became s (f s.core) (fetched s) := State.coreStep_onCore h rfl

section
variable {s : State} {i : Instr} {rd ra rb : RegNo} {v : Word} {n : Nat}

theorem exec_binop_completes {f : Word → Word → Word} (hi : exec i s = .next (s.binop rd ra rb f n))
    (hv : f (s.core.rd ra) (s.core.rd rb) = v) (h : Ready s .free) :
    exec i s = .next (became s ((s.core.wr rd v (s.core.psn ra || s.core.psn rb)).retire n) (fetched s)) := by
  rw [hi, ← hv]
  exact congrArg _ (State.coreStep_computes _ h)

theorem exec_unop_completes {f : Word → Word} (hi : exec i s = .next (s.unop rd ra f)) (hv : f (s.core.rd ra) = v)
    (h : Ready s .free) :
    exec i s = .next (became s ((s.core.wr rd v (s.core.psn ra)).retire 1) (fetched s)) := by
  rw [hi, ← hv]
  exact congrArg _ (State.coreStep_computes _ h)

end

/-- Settles O2: each computation is a binary or a unary one, and its result is the table's. -/
theorem computationsComplete : Obligations.ComputationsComplete := by
  intro s i rd v p n hc h
  cases i
  all_goals cases hc
  case add | sub | and | or | xor | nor | mul => exact exec_binop_completes rfl rfl h
  case addi | andi | ori | xori | slli | srli => exact exec_unop_completes rfl rfl h
  case slt => exact exec_binop_completes rfl (slt_value _ _) h
  case sltu => exact exec_binop_completes rfl (sltu_value _ _) h
  case slti => exact exec_unop_completes rfl (slti_value _ _) h
  case sltiu => exact exec_unop_completes rfl (sltu_value _ _) h
  case sll | srl | sra =>
    refine exec_binop_completes rfl ?_ h
    simp only [BitVec.shiftLeft_eq', BitVec.ushiftRight_eq', BitVec.sshiftRight_eq', shiftAmount_toNat]
  case srai => exact exec_unop_completes rfl (BitVec.sshiftRight_eq' _).symm h
  case lui => exact (exec_unop_completes rfl (lui_value _) h).trans (by rw [show s.core.psn 0 = false from Core.psn_zero _])
  case mulh => exact exec_binop_completes rfl (mulh_value _ _) h
  case mulhu => exact exec_binop_completes rfl (mulhu_value _ _) h
  case div => exact exec_binop_completes rfl (divS_value _ _) h
  case divu => exact exec_binop_completes rfl (divU_value _ _) h
  case rem => exact exec_binop_completes rfl (remS_value _ _) h
  case remu => exact exec_binop_completes rfl (remU_value _ _) h
  case clz => exact exec_unop_completes rfl (clz_value _) h

/-! ### Divisions (R173) -/

/-- Settles O3. -/
theorem divisionsRound : Obligations.DivisionsRound := by
  intro s d a b h x y writes
  refine ⟨divS x y, remS x y, divU x y, remU x y, exec_binop_completes rfl rfl h, exec_binop_completes rfl rfl h,
    exec_binop_completes rfl rfl h, exec_binop_completes rfl rfl h, fun hy => ?_, fun hy => ?_, fun hx hy => ?_, fun hy hfits => ?_⟩
  · simp [divS, remS, divU, remU, hy]
  · rw [divU_value, remU_value, if_neg hy, if_neg hy]
    exact ⟨BitVec.toNat_udiv, BitVec.toNat_umod⟩
  · rw [hx, hy]
    decide
  · rw [divS_value, remS_value, if_neg hy, if_neg hy]
    exact ⟨BitVec.toInt_sdiv_of_ne_or_ne _ _ (not_and_or.1 hfits), BitVec.toInt_srem x y⟩

end Sys2Proof.Machine
end

section
/-! PROOFS. Registers and the continuation (R159, R160, R177, R181): a write of a register, and where execution continues. -/
namespace Sys2Proof.Machine
open Sys2Proof.Claims

theorem registerWrites_holds : RegisterWrites := by
  intro c rd v p
  refine ⟨fun r => ⟨c.rd_wr rd r v p, c.psn_wr rd r v p⟩, Core.rd_zero _, Core.psn_zero _, Core.wr_zero c v p, ?_, ?_⟩
  · unfold Core.wr
    split <;> rfl
  · unfold Core.wr
    split <;> rfl

/-! ### Retirement -/

section
variable {c : Core} (n : Nat)

theorem Core.retire_of_slot {x : Slot} (h : c.slot = some x) :
    c.retire n = { c with cycle := c.cycle + BitVec.ofNat 64 n, slot := none, pc := x.target } := by
  simp only [Core.retire, h]

/-- The loop-back moves pc and the loop counts alone. -/
theorem Core.loopBack_eq (c : Core) (a : Word) :
    c.loopBack a = { c with lc := (c.loopBack a).lc, pc := (c.loopBack a).pc } := by
  unfold Core.loopBack
  dsimp only
  split_ifs <;> rfl

/-- What retirement leaves as it is; no delay slot comes next, and no MODE value that was not waiting waits. -/
theorem Core.retire_kept (c : Core) (n : Nat) : (c.retire n).regs = c.regs ∧ (c.retire n).estk = c.estk ∧
    (c.retire n).cst = c.cst ∧ (c.retire n).slot = none ∧ (c.shadow = none → (c.retire n).shadow = none) := by
  unfold Core.retire
  dsimp only
  split
  · exact ⟨rfl, rfl, rfl, rfl, id⟩
  · next hs =>
    rw [Core.loopBack_eq]
    split
    · exact ⟨rfl, rfl, rfl, hs, fun _ => rfl⟩
    · exact ⟨rfl, rfl, rfl, hs, id⟩

/-- Out of a delay slot's way, pc and the loop counts are those of the loop-back, with or without a MODE shadow. -/
theorem Core.retire_loopBack (h : c.slot = none) :
    (c.retire n).pc = (c.loopBack c.pc).pc ∧ (c.retire n).lc = (c.loopBack c.pc).lc := by
  simp only [Core.retire, h]
  split <;> (unfold Core.loopBack; dsimp only; split_ifs <;> exact ⟨rfl, rfl⟩)

theorem Core.loopBack_inactive {a : Word} (h0 : c.lc[0] = 0) (h1 : c.lc[1] = 0) : c.loopBack a = { c with pc := a + 4 } := by
  simp [Core.loopBack, h0, h1]

/-- At the end of loop 1 with passes to go. -/
theorem Core.loopBack_again {a : Word} (h : c.lc[1] ≠ 0) (hend : c.le[1] = a) (hmore : c.lc[1] ≠ 1) :
    c.loopBack a = { c with lc := c.lc.set 1 (c.lc[1] - 1), pc := c.ls[1] } := by
  have hleft : c.lc[1] - 1 ≠ 0 := by
    generalize c.lc[1] = x at *
    bv_omega
  simp only [Core.loopBack, h, hend, hleft, ne_eq, not_false_eq_true, and_self, if_true]

/-- At the end of loop 0, with loop 1 inactive. -/
theorem Core.loopBack_outer {a : Word} (h1 : c.lc[1] = 0) (h : c.lc[0] ≠ 0) (hend : c.le[0] = a) :
    c.loopBack a = { c with lc := c.lc.set 0 (c.lc[0] - 1), pc := if c.lc[0] - 1 ≠ 0 then c.ls[0] else a + 4 } := by
  simp only [Core.loopBack, h1, h, hend, ne_eq, not_true_eq_false, not_false_eq_true, false_and, and_self, if_true, if_false]

end

theorem continuation_holds : Continuation := by
  intro c n
  refine ⟨fun x hx => ?_, fun hs h0 h1 => ?_, fun hs h1 hend hmore => ?_, fun hs h1 h0 hend => ?_⟩
  · rw [Core.retire_of_slot n hx]
    exact ⟨rfl, rfl, rfl⟩
  · rw [(Core.retire_loopBack n hs).1, Core.loopBack_inactive h0 h1]
  · obtain ⟨hpc, hlc⟩ := Core.retire_loopBack n hs
    rw [Core.loopBack_again h1 hend hmore] at hpc hlc
    refine ⟨hpc, ?_, ?_⟩ <;> simp [hlc]
  · obtain ⟨hpc, hlc⟩ := Core.retire_loopBack n hs
    rw [Core.loopBack_outer h1 h0 hend] at hpc hlc
    refine ⟨by simp [hlc], hpc.trans ?_⟩
    have hlast : c.lc[0] - 1 = 0 ↔ c.lc[0] = 1 := by
      generalize c.lc[0] = x
      bv_omega
    simp only [ne_eq, hlast, ite_not]

/-- Settles O4. -/
theorem registersAndContinuation : Obligations.RegistersAndContinuation := ⟨registerWrites_holds, continuation_holds⟩

end Sys2Proof.Machine
end

section
/-! PROOFS. Loads and stores (R174, R193, R194, R217): what the body of each does once the rules let the access pass, the
load that a buffered store covers, the entry that a store makes, and the drain of the oldest. -/
namespace Sys2Proof.Machine
open Sys2Proof.Claims

/-! ### Loads (R174) -/

theorem State.load_completes {s : State} {rd ra : RegNo} {imm : BitVec 16} {n : Nat} {ext : Nat → Word} {d2 : Dev}
    {bs : List MByte} (h : Ready s .free) (hbase : s.core.psn ra = false)
    (halign : (s.core.ea ra imm).toNat % n = 0)
    (hmpu : (fetched s).mpuCheck (s.core.mpuOn s.core.pl) s.core.pl .read (s.core.ea ra imm).toNat n = none)
    (hload : (fetched s).cpuLoad s.core.master (s.core.ea ra imm).toNat n = (d2, .ok, bs)) (hcalm : d2.calm) :
    s.load rd ra imm n ext =
      became s ((s.core.wr rd (ext (leNat (bs.map Prod.fst))) (anyPoison bs)).retire 1) d2 := by
  refine (State.coreStep_ok (t := { s with core := (s.core.wr rd (ext (leNat (bs.map Prod.fst))) (anyPoison bs)).retire 1,
                                           dev := d2 }) h ?_ hcalm).trans rfl
  simp [hbase, halign, hmpu, hload, Core.result]

/-- An unsigned load extends by zeros: the bytes read fit. -/
theorem zeroExtend_leNat {w : Nat} {bs : Bytes} (hw : w ≤ 32) (h : 256 ^ bs.length = 2 ^ w) :
    (BitVec.ofNat w (leNat bs)).zeroExtend 32 = BitVec.ofNat 32 (leNat bs) := by
  have hlt := leNat_lt bs
  rw [h] at hlt
  have hle : 2 ^ w ≤ 2 ^ 32 := Nat.pow_le_pow_right (by decide) hw
  apply BitVec.eq_of_toNat_eq
  rw [BitVec.toNat_setWidth, BitVec.toNat_ofNat, BitVec.toNat_ofNat, Nat.mod_eq_of_lt hlt]

theorem loadsComplete_holds : Claims.LoadsComplete := by
  intro s rd ra imm d2 bs n ext i hi h hbase halign hmpu hload hlen hcalm
  have hdone (ext' : Nat → Word) (hexec : exec i s = .next (s.load rd ra imm n ext'))
      (hext : ext' (leNat (bs.map Prod.fst)) = ext (leNat (bs.map Prod.fst))) :
      exec i s = .next (became s ((s.core.wr rd (ext (leNat (bs.map Prod.fst))) (anyPoison bs)).retire 1) d2) := by
    rw [hexec, State.load_completes h hbase halign hmpu hload hcalm, hext]
  rcases hi with hi | hi | hi | hi | hi <;> cases hi
  case inl | inr.inl | inr.inr.inr.inl => exact hdone _ rfl rfl
  case inr.inr.inl => exact hdone _ rfl (zeroExtend_leNat (by decide) (by rw [List.length_map, hlen]; rfl)).symm
  case inr.inr.inr.inr => exact hdone _ rfl (zeroExtend_leNat (by decide) (by rw [List.length_map, hlen]; rfl)).symm

theorem loadForwarded_holds : LoadForwarded := by
  intro d m q x a n hbuf hreg hn hlo hhi
  have hover : x.overlaps a n = true := by
    simp only [Store.overlaps, Bool.and_eq_true, decide_eq_true_eq]
    omega
  have hcov : x.covers a n = true := by
    simp only [Store.covers, Bool.and_eq_true, decide_eq_true_eq]
    exact ⟨hlo, hhi⟩
  simp [Dev.cpuLoad, hreg, hbuf, hover, hcov]

/-- Settles O5. -/
theorem loadsComplete : Obligations.LoadsComplete := ⟨loadsComplete_holds, loadForwarded_holds⟩

/-! ### Stores (R174, R193) -/

/-- A store with room in the buffer completes as its youngest entry. -/
theorem Dev.cpuStore_room {d : Dev} (m : Master) (a : Nat) (bs : List MByte) (h : d.sbuf.length < 4) :
    d.cpuStore false m a bs = ({ d with sbuf := d.sbuf ++ [⟨a, bs.length, wordOf bs,
      BitVec.ofNat 4 (bs.foldr (fun b acc => 2 * acc + b2n b.2) 0), m, d.epoch⟩] }, .ok) := by
  simp [Dev.cpuStore, Nat.not_le.2 h]

theorem State.store_completes {s : State} {rb ra : RegNo} {imm : BitVec 16} {n : Nat} {d2 : Dev} (h : Ready s .free)
    (hbase : s.core.psn ra = false) (halign : (s.core.ea ra imm).toNat % n = 0)
    (hmpu : (fetched s).mpuCheck (s.core.mpuOn s.core.pl) s.core.pl .write (s.core.ea ra imm).toNat n = none)
    (hstore : (fetched s).cpuStore (s.core.mode.getLsbD 1) s.core.master (s.core.ea ra imm).toNat
      (s.core.storeBytes rb n) = (d2, .ok)) (hcalm : d2.calm) :
    s.store rb ra imm n = became s (s.core.retire 1) d2 := by
  refine (State.coreStep_ok (t := { s with core := s.core.retire 1, dev := d2 }) h ?_ hcalm).trans rfl
  simp only [hbase, halign, hmpu, hstore, Bool.false_eq_true, if_false, ne_eq, not_true_eq_false]

theorem Core.length_storeBytes (c : Core) (rb : RegNo) (n : Nat) : (c.storeBytes rb n).length = n := by
  rw [Core.storeBytes, marked, List.length_map, length_leBytes]

/-- The entry's data has the register's low bytes. -/
theorem Core.storeBytes_data (c : Core) (rb : RegNo) {n k : Nat} (hn : n ≤ 4) (hk : k < 8 * n) :
    (wordOf (c.storeBytes rb n)).getLsbD k = (c.rd rb).getLsbD k := by
  have hpow : 256 ^ n = 2 ^ (8 * n) := by rw [pow_mul]; rfl
  rw [wordOf, Core.storeBytes, fst_marked, leNat_leBytes, hpow, BitVec.getLsbD_ofNat, Nat.testBit_mod_two_pow,
    decide_eq_true hk, decide_eq_true (show k < 32 by omega), Bool.true_and, Bool.true_and]
  rfl

/-- The mask of the marks of bytes that share one. -/
theorem markMask_marked (bs : Bytes) (p : Bool) :
    (marked bs p).foldr (fun b acc => 2 * acc + b2n b.2) 0 = b2n p * (2 ^ bs.length - 1) := by
  induction bs with
  | nil => simp [marked]
  | cons b t ih =>
    have hstep : (marked (b :: t) p).foldr (fun b acc => 2 * acc + b2n b.2) 0 = 2 * (b2n p * (2 ^ t.length - 1)) + b2n p :=
      congrArg (fun x => 2 * x + b2n p) ih
    have hpos : 0 < 2 ^ t.length := by positivity
    rw [hstep, List.length_cons, pow_succ]
    cases p
    · simp [b2n]
    · simp only [b2n, if_true]
      omega

/-- Each byte of the entry has the register's mark. -/
theorem Core.storeBytes_marks (c : Core) (rb : RegNo) {n k : Nat} (hn : n ≤ 4) (hk : k < n) :
    (BitVec.ofNat 4 ((c.storeBytes rb n).foldr (fun b acc => 2 * acc + b2n b.2) 0)).getLsbD k = c.psn rb := by
  rw [Core.storeBytes, markMask_marked, length_leBytes, BitVec.getLsbD_ofNat, decide_eq_true (show k < 4 by omega),
    Bool.true_and]
  cases c.psn rb
  · simp [b2n]
  · simp [b2n, Nat.testBit_two_pow_sub_one, hk]

theorem storesComplete_holds : Claims.StoresComplete := by
  intro s rb ra imm n i hi h hbase halign hmpu hmode hroom
  have hi : exec i s = .next (s.store rb ra imm n) ∧ n ≤ 4 := by
    rcases hi with hi | hi | hi <;> cases hi <;> exact ⟨rfl, by decide⟩
  obtain ⟨hexec, hn⟩ := hi
  have hstore := Dev.cpuStore_room s.core.master (s.core.rd ra + imm.signExtend 32).toNat (s.core.storeBytes rb n) hroom
  rw [← hmode] at hstore
  exact ⟨_, hexec.trans (congrArg _ (State.store_completes h hbase halign hmpu hstore (fetched_calm h))), rfl,
    s.core.length_storeBytes rb n, fun k => s.core.storeBytes_data rb hn, fun k => s.core.storeBytes_marks rb hn, rfl, rfl⟩

/-! ### The drain (R193, R217) -/

theorem exec_storeDrain (s : State) : exec .storeDrain s = s.onDev Dev.drainOne := rfl

theorem Dev.drainOne_cons {d : Dev} {x : Store} {q : List Store} {d1 : Dev} {r : Resp} (hbuf : d.sbuf = x :: q)
    (hbus : Dev.busStore { d with sbuf := q } x.epoch x.master x.addr x.bytes = (d1, r)) :
    d.drainOne = if r = .ok then d1 else d1.storeFailed x.addr r := by
  simp only [Dev.drainOne, hbuf, hbus]

theorem storeDrains_holds : StoreDrains := by
  intro s x q d1 r hbuf _ hbus hcalm
  have hdrain := Dev.drainOne_cons hbuf hbus
  refine ⟨fun hok => ?_, fun hfail hnone => ?_⟩
  · rw [if_pos hok] at hdrain
    exact State.onDev_eq hdrain hcalm
  · rw [if_neg hfail] at hdrain
    have hlatch : d1.storeFailed x.addr r = { d1 with impStore := some ⟨x.addr, r.detail, false⟩ } := by
      simp only [Dev.storeFailed, hnone]
    exact State.onDev_eq (hdrain.trans hlatch) hcalm

/-- Settles O6. -/
theorem storesComplete : Obligations.StoresComplete := ⟨storesComplete_holds, storeDrains_holds⟩

end Sys2Proof.Machine
end

section
/-! PROOFS. Branches, jumps and loops (R176, R177, R180). -/
namespace Sys2Proof.Machine
open Sys2Proof.Claims

/-! ### Transfers (R176, R177) -/

section transfers
variable {s : State} (h : Ready s .restricted)
include h

theorem State.branchIf_completes {ra rb : RegNo} {off : BitVec 16} {f : Word → Word → Bool} {p : Bool}
    (ha : s.core.psn ra = false) (hb : s.core.psn rb = false) (hp : f (s.core.rd ra) (s.core.rd rb) = p) :
    s.branchIf ra rb off f =
      became s (s.core.branch p (s.core.pc + (off.signExtend 32 <<< 2))) (fetched s) := by
  rw [← hp]
  refine State.coreStep_onCore (f := fun c => c.branch (f (c.rd ra) (c.rd rb)) (c.pc + (off.signExtend 32 <<< 2))) h ?_
  simp only [ha, hb, Bool.or_self, Bool.false_eq_true, if_false]

/-- A jump to an address in a register, with the link that it leaves. -/
theorem State.jumpReg_completes {ra : RegNo} (link : Option RegNo) (ha : s.core.psn ra = false)
    (halign : (s.core.rd ra).toNat % 4 = 0) :
    s.jumpReg ra link =
      became s ((link.elim s.core fun rd => s.core.wr rd (s.core.pc + 8) false).branch true (s.core.rd ra)) (fetched s) := by
  refine State.coreStep_onCore
    (f := fun c => (link.elim c fun rd => c.wr rd (c.pc + 8) false).branch true (s.core.rd ra)) h ?_
  simp only [ha, halign, Bool.false_eq_true, if_false, ne_eq, not_true_eq_false]
  cases link <;> rfl

end transfers

theorem Core.branch_of (c : Core) (taken : Bool) (t : Word) :
    (c.branch taken t).pc = c.pc + 4 ∧
      (c.branch taken t).slot = some ⟨c.pc, if taken then t else c.pc + 8⟩ ∧
      (c.branch taken t).regs = c.regs := by
  refine ⟨rfl, rfl, ?_⟩
  cases taken
  · rfl
  · simp only [Core.branch, Core.endLoops, if_true]
    split <;> split <;> rfl

/-- Settles O7. -/
theorem transfersComplete : Obligations.TransfersComplete := by
  intro s ra rb rd off far h c near jump
  refine ⟨fun i p hi ha hb => ?_, congrArg _ (State.coreStep_computes _ h), congrArg _ (State.coreStep_computes _ h),
    fun ha halign => ⟨congrArg _ (State.jumpReg_completes h none ha halign),
      congrArg _ (State.jumpReg_completes h (some rd) ha halign)⟩, fun taken t => ?_⟩
  · have hbranch {f : Word → Word → Bool} (hexec : exec i s = .next (s.branchIf ra rb off f))
        (hf : f (c.rd ra) (c.rd rb) = p) : exec i s = .next (became s (c.branch p near) (fetched s)) := by
      rw [hexec, State.branchIf_completes h ha hb hf]
    rcases hi with hi | hi | hi | hi | hi | hi <;> cases hi
    · exact hbranch rfl (beq_eq_decide _ _)
    · exact hbranch rfl (by simp [bne, beq_eq_decide])
    · exact hbranch rfl BitVec.slt_eq_decide
    · exact hbranch rfl (by simp [BitVec.slt_eq_decide, ← decide_not])
    · exact hbranch rfl BitVec.ult_eq_decide
    · exact hbranch rfl (by simp [BitVec.ult_eq_decide, ← decide_not])
  · obtain ⟨hpc, hslot, hregs⟩ := c.branch_of taken t
    exact ⟨hpc, hslot, fun r => by rw [Core.rd, hregs]; rfl⟩

/-! ### Loops (R180) -/

/-- Settles O8. -/
theorem loopsComplete : Obligations.LoopsComplete := by
  intro s ra n icnt len h
  refine ⟨fun i hi => ?_, fun i count hlen hi => ?_⟩
  · rcases hi with rfl | rfl
    · exact exec_raises rfl (xIllegal 4) h (if_pos rfl)
    · exact exec_raises rfl (xIllegal 4) h (if_pos rfl)
  · have hset : exec i s = .next (became s (s.core.setLoop n len count) (fetched s)) := by
      rcases hi with ⟨rfl, rfl, hpsn⟩ | ⟨rfl, rfl⟩
      · refine congrArg _ (State.coreStep_onCore (f := fun c => c.setLoop n len (c.rd ra)) h ?_)
        simp only [hlen, hpsn, Bool.false_eq_true, if_false]
      · refine congrArg _ (State.coreStep_onCore (f := fun c => c.setLoop n len (icnt.zeroExtend 32)) h ?_)
        simp only [hlen, if_false]
    have hend : s.core.pc + (len.zeroExtend 32 <<< 2) = s.core.pc + 4 * len.zeroExtend 32 := by
      rw [BitVec.shiftLeft_eq_mul_twoPow, BitVec.mul_comm]
      rfl
    refine ⟨_, hset, rfl, ?_, ?_, ?_, ?_, fun k hk => ?_, fun r => rfl⟩
    · exact Vector.getElem_set_self _
    · exact (Vector.getElem_set_self _).trans hend
    · exact Vector.getElem_set_self _
    · show (if count = 0 then s.core.pc + (len.zeroExtend 32 <<< 2) + 4 else s.core.pc + 4) = _
      rw [hend]
    · have hne : n.toFin.val ≠ k.val := fun e => hk (Fin.ext e.symm)
      exact ⟨Vector.getElem_set_ne n.toFin.isLt k.isLt hne, Vector.getElem_set_ne n.toFin.isLt k.isLt hne, Vector.getElem_set_ne n.toFin.isLt k.isLt hne⟩

end Sys2Proof.Machine
end

section
/-! PROOFS. Special registers and the system group (R162 to R166, R185, R192, R216). -/
namespace Sys2Proof.Machine
open Sys2Proof.Claims

/-! ### Special registers (R162) -/

theorem toNat_mod_four (x : Word) : x.toNat % 4 = (x &&& 3).toNat := by
  rw [BitVec.toNat_and]
  exact (Nat.and_two_pow_sub_one_eq_mod x.toNat 2).symm

/-- A write of CST keeps the level (R164). -/
theorem cstWrite_level (x v : Word) : ((x &&& 3) ||| (v &&& 0xF4)).toNat % 4 = x.toNat % 4 := by
  have hlow : ((x &&& 3) ||| (v &&& 0xF4)) &&& 3 = x &&& 3 := by
    rw [BitVec.and_or_distrib_right, BitVec.and_assoc, BitVec.and_assoc, show (0xF4 &&& 3 : Word) = 0#32 from rfl,
      BitVec.and_zero, BitVec.or_zero, BitVec.and_self]
  rw [toNat_mod_four, hlow, ← toNat_mod_four]

/-- The latch of CYCLE_HI that is read is that of the level. -/
theorem Core.plIdx_congr {c e : Core} (h : e.cst.toNat % 4 = c.cst.toNat % 4) : e.plIdx = c.plIdx := by
  unfold Core.plIdx Core.pl
  rw [h]

/-- What a read of CYCLE_LO latches is what CYCLE_HI then reads (R163). -/
theorem Core.sprRead_cycleHi_latched (c : Core) :
    (c.sprLatch .cycleLo).sprRead .cycleHi = c.cycle.extractLsb' 32 32 := by
  have hset : (c.cycleLatch.set c.plIdx (some (c.cycle.extractLsb' 32 32)))[c.plIdx] = some (c.cycle.extractLsb' 32 32) :=
    Vector.getElem_set_self _
  exact congrArg (fun x => x.getD (c.cycle.extractLsb' 32 32)) hset

theorem mfsCompletes_holds : MfsCompletes := by
  intro s rd n r hr h hl
  refine ⟨congrArg _ (State.coreStep_onCore (f := fun c =>
    (c.sprLatch r).result rd (c.sprRead r) (decide (r = .pacc) && c.paccPoison) 1) h ?_), ?_⟩
  · simp only [hr, Nat.not_lt.2 hl, if_false]
  · rintro rfl
    exact s.core.sprRead_cycleHi_latched

/-- A write of a special register leaves every other one as it is. -/
theorem Core.sprRead_sprWrite_ne (c : Core) (v : Word) {r q : Spr} (h : q ≠ r) :
    (c.sprWrite r v).sprRead q = c.sprRead q := by
  cases q <;> cases r
  case cycleHi.cst =>
    exact congrArg (fun i : Fin 3 => (c.cycleLatch[i]).getD (c.cycle.extractLsb' 32 32))
      (Core.plIdx_congr (cstWrite_level c.cst v))
  case ls.ls m n | le.le m n | lc.lc m n | slim.slim m n | ssp.ssp m n =>
    have hne : n.val ≠ m.val := fun e => h (congrArg _ (Fin.ext e.symm))
    exact Vector.getElem_set_ne n.isLt m.isLt hne
  case cst.cst | mode.mode | prog.prog | pacc.pacc | epc.epc | etgt.etgt | ecause.ecause | eaddr.eaddr | spc.spc | sst.sst |
      sysent.sysent | extb.extb | estk.estk | cycleLo.cycleLo | cycleHi.cycleHi | coreId.coreId => exact absurd rfl h
  all_goals rfl

theorem Core.regs_sprWrite (c : Core) (r : Spr) (v : Word) : (c.sprWrite r v).regs = c.regs := by
  cases r <;> rfl

/-- A MODE value is in force after its shadow instruction (R166). -/
theorem Core.retire_shadow {c : Core} (k : Nat) {v : Word} (hs : c.slot = none) (hv : c.shadow = some v) :
    (c.retire k).mode = v ∧ (c.retire k).shadow = none := by
  have hret : c.retire k =
      { Core.loopBack { c with cycle := c.cycle + BitVec.ofNat 64 k } c.pc with mode := v, shadow := none } := by
    simp only [Core.retire, hs, hv]
  rw [hret]
  exact ⟨rfl, rfl⟩

theorem mtsCompletes_holds : MtsCompletes := by
  intro s ra n r l hr hw h hl hpsn
  have hbody {f : Core → Core} (hf : (if r = .mode then { s.core.retire 1 with shadow := some (s.core.rd ra &&& 7) }
      else (s.core.sprWrite r (s.core.rd ra)).retire 1) = f s.core) :
      exec (.mts ra n) s = .next (became s (f s.core) (fetched s)) := by
    refine congrArg _ (State.coreStep_onCore h ?_)
    simp only [hr, Option.bind_some, hw, Option.map_some, Nat.not_lt.2 hl, hpsn, Bool.false_eq_true, if_false, State.onCore, hf]
  refine ⟨fun hm => hbody (f := fun c => { c.retire 1 with shadow := some (c.rd ra &&& 7) }) (if_pos hm),
    fun hm => hbody (f := fun c => (c.sprWrite r (c.rd ra)).retire 1) (if_neg hm),
    fun c v => ⟨fun hm => ?_, fun q hq => c.sprRead_sprWrite_ne v hq, c.regs_sprWrite r v⟩,
    fun c k v hs hv => c.retire_shadow k hs hv⟩
  cases r
  case mode => exact absurd rfl hm
  case ecause | eaddr | cycleLo | cycleHi | coreId => cases hw
  case ls | le | lc | slim | ssp => exact Vector.getElem_set_self _
  all_goals rfl

/-- Settles O9. -/
theorem specialRegistersMove : Obligations.SpecialRegistersMove := ⟨mfsCompletes_holds, mtsCompletes_holds⟩

/-! ### Refusals (R163, R192) -/

theorem systemRefusals_holds : SystemRefusals := by
  intro s rd ra n taken
  refine ⟨fun h hr => ?_, fun h hr => ?_, fun r hr h hl => ?_, fun r l hr hw h hl => ?_, fun h hl => ⟨?_, ?_, ?_⟩,
    fun h hl => ?_⟩
  · exact exec_raises rfl (xIllegal 6) h (by simp only [hr])
  · refine exec_raises rfl (xIllegal 6) h ?_
    cases hx : sprOf n with
    | none => rfl
    | some r => simp only [Option.bind_some, hr r hx, Option.map_none]
  · exact exec_raises rfl (xPrivilege 1) h (by simp only [hr, hl, if_true])
  · refine exec_raises rfl (xPrivilege 2) h ?_
    simp only [hr, Option.bind_some, hw, Option.map_some, hl, if_true]
  · exact exec_raises rfl (xPrivilege 0) h (if_pos hl)
  · exact exec_raises rfl (xPrivilege 0) h (if_pos hl)
  · exact exec_raises rfl (xPrivilege 0) h (if_pos hl)
  · exact exec_raises rfl (xPrivilege 0) h (if_pos hl)

/-! ### SYSCALL and SYSRET (R192, R216) -/

/-- What SYSCALL at User makes of the core (R181, R192). -/
def Core.fastCall (c : Core) : Core :=
  let inside (i : Fin 2) : Bool := c.ls[i].toNat ≤ c.pc.toNat && c.pc.toNat ≤ c.le[i].toNat
  let lc0 : Word := if inside 0 then 0 else c.lc[0]
  let lc1 : Word := if inside 1 then 0 else c.lc[1]
  { c with
    spc := c.pc + 4
    sst := c.cst &&& 0xF7
    cst := (c.cst &&& 0xF0) ||| 1
    lc := (c.lc.set 0 lc0).set 1 lc1
    pc := c.sysent
    cycle := c.cycle + 2 }

/-- The status of the fast path: Supervisor, interrupts off, and IPL as it was. -/
theorem fastCall_status (x : Word) :
    ((x &&& 0xF0) ||| 1).toNat % 4 = 1 ∧ ((x &&& 0xF0) ||| 1).getLsbD 2 = false ∧
      bitsOf ((x &&& 0xF0) ||| 1).toNat 7 4 = bitsOf x.toNat 7 4 := by
  refine ⟨?_, by simp, ?_⟩
  · rw [toNat_mod_four, BitVec.and_or_distrib_right, BitVec.and_assoc, show (0xF0 &&& 3 : Word) = 0#32 from rfl,
      BitVec.and_zero]
    rfl
  · have hipl (y : Word) : bitsOf y.toNat 7 4 = (y.extractLsb' 4 4).toNat := (BitVec.extractLsb'_toNat ..).symm
    rw [hipl, hipl, BitVec.extractLsb'_or, BitVec.extractLsb'_and, show (0xF0 : Word).extractLsb' 4 4 = BitVec.allOnes 4 from rfl,
      BitVec.and_allOnes, show (1 : Word).extractLsb' 4 4 = 0#4 from rfl, BitVec.or_zero]

theorem Core.fastCall_lc (c : Core) (i : Fin 2) : c.fastCall.lc[i] =
    if c.ls[i].toNat ≤ c.pc.toNat ∧ c.pc.toNat ≤ c.le[i].toNat then 0 else c.lc[i] := by
  match i with
  | 0 => simp [Core.fastCall]
  | 1 => simp [Core.fastCall]

theorem fastCalls_holds : FastCalls := by
  intro s h
  refine ⟨fun hl => ?_, fun hl hsst hspc => ?_⟩
  · have hcall : exec .syscall s = .next (became s s.core.fastCall (fetched s)) :=
      congrArg _ (State.coreStep_onCore (f := Core.fastCall) h (if_neg (not_not.2 hl)))
    obtain ⟨hpl, hie, hipl⟩ := fastCall_status s.core.cst
    exact ⟨_, hcall, rfl, rfl, hpl, hie, hipl, rfl, s.core.fastCall_lc, rfl⟩
  · refine congrArg _ (State.coreStep_onCore
      (f := fun c => { c with cst := c.sst &&& 0xF7, pc := c.spc, cycle := c.cycle + 2 }) h ?_)
    simp only [hl, Nat.not_lt.2 hsst, hspc, ne_eq, not_true_eq_false, if_false]

/-- Settles O10. -/
theorem privilegeRules : Obligations.PrivilegeRules := ⟨systemRefusals_holds, fastCalls_holds⟩

end Sys2Proof.Machine
end

section
/-! PROOFS. Entries and the choice of the interrupt (R192, R199, R217 to R219, R223). -/
namespace Sys2Proof.Machine
open Sys2Proof.Claims

/-! ### The interrupt that is chosen (R219, R223) -/

/-- One source against the best of those before it. -/
def Dev.betterSource (d : Dev) (above : Nat) (best : Option (Nat × Nat)) (k : Nat) : Option (Nat × Nat) :=
  let p := d.prio k
  if p = 0 ∨ p ≤ above then best
  else if d.source k then
    match best with
    | some (_, bp) => if bp < p then some (k, p) else best
    | none => some (k, p)
  else best

/-- The choice among the first `n` sources. -/
def Dev.topBelow (d : Dev) (above n : Nat) : Option (Nat × Nat) := (List.range n).foldl (d.betterSource above) none

theorem Dev.topSource_eq (d : Dev) (above : Nat) : d.topSource above = d.topBelow above 192 := by
  unfold Dev.topSource Dev.topBelow Dev.betterSource
  rfl

theorem Dev.topBelow_succ (d : Dev) (above n : Nat) :
    d.topBelow above (n + 1) = d.betterSource above (d.topBelow above n) n := by
  rw [Dev.topBelow, List.range_succ, List.foldl_append]
  rfl

/-- A source that requests above the threshold. -/
abbrev Dev.Calls (d : Dev) (above k : Nat) : Prop := d.source k = true ∧ above < d.prio k

/-- `best` is the right choice among the first `n` sources. -/
def Dev.IsTop (d : Dev) (above n : Nat) : Option (Nat × Nat) → Prop
  | none => ∀ k, k < n → ¬d.Calls above k
  | some (src, p) => src < n ∧ p = d.prio src ∧ d.Calls above src ∧
      ∀ k, k < n → d.Calls above k → d.prio k ≤ p ∧ (d.prio k = p → src ≤ k)

/-- A source that does not call leaves the choice as it is. -/
theorem Dev.IsTop.skip {d : Dev} {above n : Nat} {best : Option (Nat × Nat)} (h : d.IsTop above n best)
    (hn : ¬d.Calls above n) : d.IsTop above (n + 1) best := by
  have hcall {k : Nat} (hk : k < n + 1) (hc : d.Calls above k) : k < n := by
    have : k ≠ n := fun e => hn (e ▸ hc)
    omega
  match best, h with
  | none, h => exact fun k hk hc => h k (hcall hk hc) hc
  | some (src, p), ⟨hsrc, hp, hs, hbest⟩ => exact ⟨by omega, hp, hs, fun k hk hc => hbest k (hcall hk hc) hc⟩

theorem Dev.IsTop.step {d : Dev} {above n : Nat} {best : Option (Nat × Nat)} (h : d.IsTop above n best) :
    d.IsTop above (n + 1) (d.betterSource above best n) := by
  unfold Dev.betterSource
  by_cases hlow : d.prio n = 0 ∨ d.prio n ≤ above
  · rw [if_pos hlow]
    exact h.skip fun hc => by omega
  rw [if_neg hlow]
  by_cases hreq : d.source n = true
  case neg =>
    rw [if_neg hreq]
    exact h.skip fun hc => hreq hc.1
  have hn : d.Calls above n := ⟨hreq, by omega⟩
  rw [if_pos hreq]
  match best, h with
  | none, h =>
    refine ⟨by omega, rfl, hn, fun k hk hc => ?_⟩
    obtain rfl : k = n := by
      have : ¬k < n := fun hlt => h k hlt hc
      omega
    exact ⟨Nat.le_refl _, fun _ => Nat.le_refl _⟩
  | some (src, p), ⟨hsrc, hp, hs, hbest⟩ =>
    dsimp only
    split
    · next hlt =>
      refine ⟨by omega, rfl, hn, fun k hk hc => ?_⟩
      by_cases hkn : k = n
      · exact hkn ▸ ⟨Nat.le_refl _, fun _ => Nat.le_refl _⟩
      · have := hbest k (by omega) hc
        omega
    · next hge =>
      refine ⟨by omega, hp, hs, fun k hk hc => ?_⟩
      by_cases hkn : k = n
      · subst hkn
        exact ⟨by omega, fun _ => by omega⟩
      · exact hbest k (by omega) hc

theorem Dev.topBelow_isTop (d : Dev) (above n : Nat) : d.IsTop above n (d.topBelow above n) := by
  induction n with
  | zero => exact fun k hk => absurd hk (Nat.not_lt_zero k)
  | succ n ih =>
    rw [Dev.topBelow_succ]
    exact ih.step

theorem interruptChoice_holds : InterruptChoice := by
  intro d above
  have h := d.topBelow_isTop above 192
  rw [← Dev.topSource_eq] at h
  refine ⟨fun src p htop => ?_, fun htop k hk hs => ?_⟩
  · rw [htop] at h
    obtain ⟨hsrc, hp, ⟨hreq, habove⟩, hbest⟩ := h
    exact ⟨hsrc, hp, hp ▸ habove, hreq, fun k hk hs hk' => hbest k hk ⟨hs, hk'⟩⟩
  · rw [htop] at h
    exact Nat.le_of_not_lt fun hlt => h k hk ⟨hs, hlt⟩

/-! ### The entries (R192, R199, R217, R218) -/

theorem Core.openBoundary_of {c : Core} (hs : c.slot = none) (hv : c.shadow = none) : c.openBoundary = true := by
  rw [Core.openBoundary, hs, hv]
  rfl

/-- A pending IMPRECISE_STORE is taken at an open boundary outside the emergency stack. -/
theorem State.impreciseNow_of {s : State} {i : Option ImpStore} (hs : s.core.slot = none) (hv : s.core.shadow = none)
    (he : s.core.inEmergency = false) (hi : s.dev.impStore = i) : s.impreciseNow = i := by
  rw [State.impreciseNow, Core.openBoundary_of hs hv, he, hi]
  rfl

theorem State.impreciseNow_none {s : State} (hi : s.dev.impStore = none) : s.impreciseNow = none := by
  rw [State.impreciseNow, hi, ite_self]

/-- An interrupt is taken at an open boundary with IE = 1. -/
theorem State.interruptNow_of {s : State} (hs : s.core.slot = none) (hv : s.core.shadow = none) (hie : s.core.ie = true) :
    s.interruptNow = s.dev.topSource s.core.ipl := by
  rw [State.interruptNow, Core.openBoundary_of hs hv, hie]
  rfl

/-- The core runs: powered, released, not stopped, not in WAIT. -/
theorem State.running_iff (s : State) : s.running = true ↔
    s.dev.on .core = true ∧ s.core.released = true ∧ s.core.stopped = false ∧ s.core.waiting = false := by
  simp [State.running, and_assoc]

theorem entriesTaken_holds : Claims.EntriesTaken := by
  intro s at_
  refine ⟨fun h => exec_raises rfl ⟨12, 0, 0⟩ h rfl, fun h hl => exec_raises rfl ⟨11, 0, 0⟩ h (if_pos hl),
    fun v k h hv => exec_raises rfl (xIllegal k) h (by simp only [hv]), fun i hi hrun hs hv he => ?_,
    fun src p hrun hi hs hv hie htop => ?_⟩
  · obtain ⟨hon, hrel, hstop, hwait⟩ := s.running_iff.1 hrun
    simp only [exec, execExceptionEntry, hon, hrel, hstop, hwait, Bool.not_false, Bool.and_self, if_true, Bool.false_eq_true,
      if_false, State.impreciseNow_of hs hv he hi]
    rfl
  · simp only [exec, execInterrupt, hrun, if_true, State.impreciseNow_none hi, State.interruptNow_of hs hv hie, htop]
    rfl

/-- Settles O12. -/
theorem entriesTaken : Obligations.EntriesTaken := ⟨entriesTaken_holds, interruptChoice_holds⟩

end Sys2Proof.Machine
end

section
/-! PROOFS. SWAPRULES, the fences and WAIT (R192, R194, R220, R229, R237 to R240). -/
namespace Sys2Proof.Machine
open Sys2Proof.Claims

/-! ### The fences (R192, R194) -/

theorem exec_fence_or_ifence {s : State} {i : Instr} (hi : i = .fence ∨ i = .ifence) (h : Ready s .free) :
    exec i s = .next (State.settle { s with core := s.core.retire 1, dev := (fetched s).fence }) := by
  rcases hi with rfl | rfl
  · exact exec_completes rfl h rfl
  · exact exec_completes rfl h rfl

theorem Dev.aonCompleteAll_none {d : Dev} (h : d.aonPend = []) : d.aonCompleteAll = d := by
  rw [Dev.aonCompleteAll, h]
  rfl

theorem fences_wait {s : State} {i : Instr} (hi : i = .fence ∨ i = .ifence) (h : Ready s .free) {d1 : Dev}
    (hdrain : (fetched s).drainAll = d1) (hpend : d1.aonPend = []) (hcalm : d1.calm) :
    exec i s = .next (became s (s.core.retire 1) d1) := by
  have hfence : (fetched s).fence = d1 := by rw [Dev.fence, hdrain, Dev.aonCompleteAll_none hpend]
  rw [exec_fence_or_ifence hi h, hfence, s.settle_eq_became _ hcalm]

/-! ### SWAPRULES (R229, R237, R238) -/

/-- `e` differs from `d` in registers outside the context memory and in the rules kept for the previous epoch. -/
def Dev.RulesOnly (d e : Dev) : Prop := e = { d with regs := e.regs, prevFw := e.prevFw }

namespace Dev.RulesOnly
variable {d e g : Dev}

theorem refl (d : Dev) : d.RulesOnly d := rfl

theorem trans (h : d.RulesOnly e) (h' : e.RulesOnly g) : d.RulesOnly g := by
  rw [Dev.RulesOnly, h', h]

theorem setReg (h : d.RulesOnly e) {a : Nat} (w : Word) (ha : inCtx a = false) : d.RulesOnly (e.setReg a w) := by
  refine h.trans ?_
  have hcodes : e.codes.written a = e.codes := by
    rw [Codes.written, ha]
    rfl
  rw [Dev.RulesOnly, Dev.setReg, hcodes]

theorem put (h : d.RulesOnly e) {f : Fl} (v : Nat) (ha : inCtx f.addr = false) : d.RulesOnly (e.put f v) := h.setReg _ ha

theorem calm (h : d.RulesOnly e) (hd : d.calm) : e.calm := by
  rw [h]
  exact hd

theorem transactionsLive (h : d.RulesOnly e) : e.transactionsLive = d.transactionsLive := by
  rw [h]
  rfl

end Dev.RulesOnly

/-- The active copy of the firewall takes the staged one, word by word: registers of the firewall change alone. -/
theorem Dev.commitFw_rulesOnly (d : Dev) : d.RulesOnly d.commitFw ∧ ∀ a, isFwReg a = false → d.commitFw.reg a = d.reg a := by
  have hfold (l : List (Nat × Word)) (hl : ∀ e ∈ l, isFwReg e.1 = true ∧ (e.1 - 0x40032000) % 0x200 < 0x100) (e : Dev) :
      e.RulesOnly (l.foldl (fun x e => x.setReg (e.1 + 0x100) e.2) e) ∧
        ∀ a, isFwReg a = false → (l.foldl (fun x e => x.setReg (e.1 + 0x100) e.2) e).reg a = e.reg a := by
    induction l generalizing e with
    | nil => exact ⟨.refl e, fun _ _ => rfl⟩
    | cons w l ih =>
      obtain ⟨⟨hw, hlow⟩, hl⟩ := List.forall_mem_cons.1 hl
      obtain ⟨hrules, hreg⟩ := ih hl (e.setReg (w.1 + 0x100) w.2)
      simp only [isFwReg, Bool.and_eq_true, decide_eq_true_eq] at hw
      have hctx : inCtx (w.1 + 0x100) = false := by
        simp only [inCtx, Bool.and_eq_false_iff, decide_eq_false_iff_not]
        omega
      refine ⟨((Dev.RulesOnly.refl e).setReg _ hctx).trans hrules, fun a ha => (hreg a ha).trans ?_⟩
      refine Dev.reg_setReg_ne _ _ fun e => ?_
      simp only [isFwReg, Bool.and_eq_false_iff, decide_eq_false_iff_not] at ha
      omega
  obtain ⟨hrules, hreg⟩ := hfold (d.regs.filter fun e => isFwReg e.1 && (e.1 - 0x40032000) % 0x200 < 0x100)
    (fun e he => by simpa using (List.mem_filter.1 he).2)
    { d with regs := d.regs.filter fun e => !(isFwReg e.1 && 0x100 ≤ (e.1 - 0x40032000) % 0x200) }
  have hcleared : d.RulesOnly { d with regs := d.regs.filter fun e => !(isFwReg e.1 && 0x100 ≤ (e.1 - 0x40032000) % 0x200) } := rfl
  refine ⟨hcleared.trans hrules, fun a ha => (hreg a ha).trans ?_⟩
  exact (Sparse.get_drop regReset (fun a => isFwReg a && 0x100 ≤ (a - 0x40032000) % 0x200) a d.regs).trans (by simp [ha, Dev.reg])

/-- The rule sets exchanged and an armed commit made, before the epoch advances. -/
def Dev.exchanged (d : Dev) : Dev :=
  let d1 := d.put F.ACCESS_EPOCH_SET (1 - d.get F.ACCESS_EPOCH_SET)
  if d1.flag F.ACCESS_EPOCH_PEND_FW then (d1.commitFw).put F.ACCESS_EPOCH_PEND_FW 0 else d1

theorem Dev.swapRules_eq (d : Dev) : d.swapRules = d.exchanged.advanceEpoch d.activeFw := rfl

theorem Dev.exchanged_fields (d : Dev) : d.RulesOnly d.exchanged ∧
    d.exchanged.get F.ACCESS_EPOCH_SET = 1 - d.get F.ACCESS_EPOCH_SET ∧
    d.exchanged.get F.ACCESS_EPOCH_CUR = d.get F.ACCESS_EPOCH_CUR ∧ d.exchanged.get F.ACCESS_EPOCH_PEND_FW = 0 := by
  have hset := d.get_put_same F.ACCESS_EPOCH_SET (1 - d.get F.ACCESS_EPOCH_SET) rfl
  have hcur := d.get_put_apart F.ACCESS_EPOCH_SET F.ACCESS_EPOCH_CUR (1 - d.get F.ACCESS_EPOCH_SET) rfl rfl
  have hsmall : (1 - d.get F.ACCESS_EPOCH_SET) % 2 ^ 1 = 1 - d.get F.ACCESS_EPOCH_SET := Nat.mod_eq_of_lt (by omega)
  have hput : d.RulesOnly (d.put F.ACCESS_EPOCH_SET (1 - d.get F.ACCESS_EPOCH_SET)) := (Dev.RulesOnly.refl d).put _ rfl
  have hset := hset.trans hsmall
  unfold Dev.exchanged
  generalize d.put F.ACCESS_EPOCH_SET (1 - d.get F.ACCESS_EPOCH_SET) = e at *
  dsimp only
  split
  · obtain ⟨hrules, hreg⟩ := e.commitFw_rulesOnly
    have hget (f : Fl) (hf : f.addr = F.ACCESS_EPOCH_SET.addr) : e.commitFw.get f = e.get f := by
      rw [Dev.get, Dev.get, hreg f.addr (hf ▸ rfl)]
    have happart (f : Fl) (hf : F.ACCESS_EPOCH_PEND_FW.apart f = true) (ha : f.addr = F.ACCESS_EPOCH_SET.addr) :
        (e.commitFw.put F.ACCESS_EPOCH_PEND_FW 0).get f = e.get f :=
      (e.commitFw.get_put_apart F.ACCESS_EPOCH_PEND_FW f 0 rfl hf).trans (hget f ha)
    exact ⟨hput.trans (hrules.put 0 rfl), (happart F.ACCESS_EPOCH_SET rfl rfl).trans hset, (happart F.ACCESS_EPOCH_CUR rfl rfl).trans hcur,
      e.commitFw.get_put_same F.ACCESS_EPOCH_PEND_FW 0 rfl⟩
  · next hpend => exact ⟨hput, hset, hcur, by simpa [Dev.flag] using hpend⟩

/-- The epoch register after an advance (R237, R239). -/
theorem Dev.advanceEpoch_fields (d : Dev) (old : List (Nat × Word)) : d.RulesOnly (d.advanceEpoch old) ∧
    (d.advanceEpoch old).get F.ACCESS_EPOCH_SET = d.get F.ACCESS_EPOCH_SET ∧
    (d.advanceEpoch old).get F.ACCESS_EPOCH_CUR = (d.get F.ACCESS_EPOCH_CUR + 1) % 16 ∧
    (d.advanceEpoch old).get F.ACCESS_EPOCH_PREV = d.get F.ACCESS_EPOCH_CUR ∧
    (d.advanceEpoch old).get F.ACCESS_EPOCH_PEND_FW = d.get F.ACCESS_EPOCH_PEND_FW ∧
    (d.advanceEpoch old).get F.ACCESS_EPOCH_PREV_LIVE = b2n d.transactionsLive := by
  let d0 : Dev := { d with prevFw := old }
  let d1 := d0.put F.ACCESS_EPOCH_PREV (d.get F.ACCESS_EPOCH_CUR)
  let d2 := d1.put F.ACCESS_EPOCH_CUR ((d.get F.ACCESS_EPOCH_CUR + 1) % 16)
  have h1 (f : Fl) (hf : F.ACCESS_EPOCH_PREV.apart f = true) : d1.get f = d.get f :=
    d0.get_put_apart F.ACCESS_EPOCH_PREV f _ rfl hf
  have h2 (f : Fl) (hf : F.ACCESS_EPOCH_CUR.apart f = true) : d2.get f = d1.get f :=
    d1.get_put_apart F.ACCESS_EPOCH_CUR f _ rfl hf
  have h3 (f : Fl) (hf : F.ACCESS_EPOCH_PREV_LIVE.apart f = true) : (d.advanceEpoch old).get f = d2.get f :=
    d2.get_put_apart F.ACCESS_EPOCH_PREV_LIVE f _ rfl hf
  have hcur : d.get F.ACCESS_EPOCH_CUR < 2 ^ 4 := bitsOf_lt _ 3 0
  have hlive : b2n d.transactionsLive < 2 := by cases d.transactionsLive <;> decide
  have hrules : d.RulesOnly d0 := rfl
  refine ⟨((hrules.put _ rfl).put _ rfl).put _ rfl, ?_, ?_, ?_, ?_, ?_⟩
  · rw [h3 _ rfl, h2 _ rfl, h1 _ rfl]
  · exact (h3 _ rfl).trans ((d1.get_put_same F.ACCESS_EPOCH_CUR _ rfl).trans (Nat.mod_mod _ _))
  · rw [h3 _ rfl, h2 _ rfl]
    exact (d0.get_put_same F.ACCESS_EPOCH_PREV _ rfl).trans (Nat.mod_eq_of_lt hcur)
  · rw [h3 _ rfl, h2 _ rfl, h1 _ rfl]
  · exact (d2.get_put_same F.ACCESS_EPOCH_PREV_LIVE _ rfl).trans (Nat.mod_eq_of_lt hlive)

theorem Dev.transactionsLive_eq (d : Dev) :
    d.transactionsLive = decide (d.sbuf ≠ [] ∨ d.aonPend ≠ [] ∨ d.woh.job ≠ none) := by
  rw [Dev.transactionsLive, Bool.eq_iff_iff]
  simp [or_assoc, Option.isSome_iff_ne_none]

theorem swapsAndFences_holds : SwapsAndFences := by
  intro s
  refine ⟨fun h i hi => ⟨exec_fence_or_ifence hi h, fun hbuf hpend => ?_, fun x d1 hbuf _ hbus hpend hcalm => ?_⟩,
    fun h hl => ⟨fun hlive => ?_, fun hlive => ?_⟩⟩
  · exact fences_wait hi h (Dev.drainAll_empty hbuf) hpend (fetched_calm h)
  · refine fences_wait hi h ?_ hpend hcalm
    rw [Dev.drainAll, hbuf]
    exact (Dev.drainOne_cons hbuf hbus).trans (if_pos rfl)
  · have hwait : exec .swaprules s = .next (State.settle { s with dev := fetched s }) :=
      exec_completes rfl h (by simp only [hl, hlive, if_false, if_true])
    rw [hwait, s.settle_eq_became _ (fetched_calm h)]
  · obtain ⟨hrules, hset, hcur, hpend⟩ := (fetched s).exchanged_fields
    obtain ⟨hadv, hset', hcur', hprev', hpend', hlive'⟩ := (fetched s).exchanged.advanceEpoch_fields (fetched s).activeFw
    rw [← Dev.swapRules_eq] at *
    have hswap := hrules.trans hadv
    have hdone : exec .swaprules s =
        .next (State.settle { s with core := s.core.retire 1, dev := (fetched s).swapRules }) :=
      exec_completes rfl h (by simp only [hl, hlive, if_false, Bool.false_eq_true])
    rw [s.settle_eq_became _ (hswap.calm (fetched_calm h))] at hdone
    refine ⟨_, hdone, rfl, rfl, hset'.trans hset, ?_, hprev'.trans hcur, hpend'.trans hpend, ?_, hswap⟩
    · exact hcur'.trans (by rw [hcur])
    · exact hlive'.trans (by rw [hrules.transactionsLive, Dev.transactionsLive_eq])

/-! ### WAIT (R192, R218, R220) -/

/-- The core behind WAIT, before anything is taken there. -/
def State.woken (s : State) : State := { s with core := Core.retire { s.core with waiting := false } 1 }

/-- Behind WAIT the status, the emergency stack and an open boundary are as they were. -/
theorem State.woken_kept (s : State) : s.woken.core.ie = s.core.ie ∧ s.woken.core.ipl = s.core.ipl ∧
    s.woken.core.inEmergency = s.core.inEmergency ∧ s.woken.core.slot = none ∧
    (s.core.shadow = none → s.woken.core.shadow = none) := by
  obtain ⟨hregs, hestk, hcst, hslot, hshadow⟩ := Core.retire_kept { s.core with waiting := false } 1
  refine ⟨?_, ?_, ?_, hslot, hshadow⟩
  · rw [Core.ie, State.woken, hcst, Core.ie]
  · rw [Core.ipl, State.woken, hcst, Core.ipl]
  · rw [Core.inEmergency, State.woken, Core.rd, hregs, hestk, Core.inEmergency, Core.rd]

theorem State.wake_quiet {s : State} (hi : s.woken.impreciseNow = none) (hint : s.woken.interruptNow = none) :
    s.wake = s.woken := by
  rw [State.woken] at *
  simp only [State.wake, hi, hint]

theorem State.wake_imprecise {s : State} {i : ImpStore} (hi : s.woken.impreciseNow = some i) :
    s.wake = s.woken.enterImprecise i := by
  rw [State.woken] at *
  simp only [State.wake, hi]

theorem State.wake_interrupt {s : State} {src p : Nat} (hi : s.woken.impreciseNow = none)
    (hint : s.woken.interruptNow = some (src, p)) : s.wake = s.woken.enterInterrupt src p := by
  rw [State.woken] at *
  simp only [State.wake, hi, hint]

theorem exec_waitWake_wakes {s : State} (hon : s.dev.on .core = true) (hrel : s.core.released = true)
    (hstop : s.core.stopped = false) (hwait : s.core.waiting = true) (htop : s.dev.topSource s.core.ipl ≠ none) :
    exec .waitWake s = .next s.wake.settle := by
  have hsome := Option.isSome_iff_ne_none.2 htop
  simp only [exec, execWaitWake, hon, hrel, hstop, hwait, hsome, Bool.not_false, Bool.and_self, if_true]

theorem waitsAndWakes_holds : WaitsAndWakes := by
  intro s
  refine ⟨fun h hl htop => ?_, fun hon hrel hstop hwait htop hcalm => ?_⟩
  · refine congrArg _ (State.coreStep_onCore (f := fun c => { c with waiting := true }) h ?_)
    simp only [hl, htop, Option.isSome_none, Bool.false_eq_true, if_false]
  rw [exec_waitWake_wakes hon hrel hstop hwait htop]
  obtain ⟨hie, hipl, hemerg, hslot, hshadow⟩ := s.woken_kept
  refine ⟨fun hoff hi => ?_, fun i hi hs hv he => ?_, fun src p hon' hi hs hv hsrc => ?_⟩
  · have hno : s.woken.interruptNow = none := by rw [State.interruptNow, hie, hoff, Bool.and_false, if_neg Bool.false_ne_true]
    rw [State.wake_quiet (State.impreciseNow_none hi) hno]
    exact congrArg _ (s.settle_eq_became _ hcalm)
  · rw [State.wake_imprecise (State.impreciseNow_of hslot (hshadow hv) (hemerg.trans he) hi)]
    rfl
  · have hnow : s.woken.interruptNow = some (src, p) := by
      rw [State.interruptNow_of hslot (hshadow hv) (hie.trans hon'), hipl]
      exact hsrc
    rw [State.wake_interrupt (State.impreciseNow_none hi) hnow]
    rfl

/-- Settles O14. -/
theorem swapsFencesWaits : Obligations.SwapsFencesWaits := ⟨swapsAndFences_holds, waitsAndWakes_holds⟩

end Sys2Proof.Machine
end

section
/-! PROOFS. The long instructions (R185 to R191): their units, the run of units to the end or to a stop, and the resumption. -/
namespace Sys2Proof.Machine
open Sys2Proof.Claims

/-! ### The run of the units (R186) -/

/-- A long instruction whose operands are in order: its body ends as the run of its units does. -/
theorem finishLong_completes {s t : State} {i : Instr} {body : State → Done} {r : Done × Bool} {result : Core → Core}
    {cycles : Nat} {whole : Bool} (hexec : exec i s = .next (s.coreStep .mayEnd body)) (h : Ready s .mayEnd)
    (hb : body { s with dev := fetched s } = finishLong r result cycles) (hr : r = (.ok t, whole)) (hcalm : t.dev.calm) :
    exec i s = .next (became t (if whole then { result t.core with prog := 0 }.retire cycles else t.core) t.dev) := by
  subst hr
  cases whole
  · exact (exec_completes hexec h hb).trans (congrArg _ (t.settle_eq_became t.core hcalm))
  · exact (exec_completes hexec h hb).trans (congrArg _ (t.settle_eq_became _ hcalm))

theorem longComplete_holds : LongComplete := by
  intro s t rd ra rb rc stop whole h c from_ v ends
  refine ⟨fun hlo hhi hz ha pz pa pc hrun hcalm => ?_, fun hlen pd ps pn hrun hcalm => ?_, fun hlen pd pn hrun hcalm => ?_,
    fun hlen ps pn hprog hrun hcalm => ?_⟩
  · refine finishLong_completes rfl h ((if_neg ?_).trans (if_neg ?_)) hrun hcalm
    · simp only [not_or, not_not]
      exact ⟨Nat.one_le_iff_ne_zero.1 hlo, Nat.not_lt.2 hhi, hz, ha⟩
    · exact Bool.eq_false_iff.1 (by simp only [show s.core.psn rd = false from pz, show s.core.psn ra = false from pa,
        show s.core.psn rc = false from pc, Bool.or_self])
  · refine finishLong_completes rfl h ((if_neg (Nat.not_lt.2 hlen)).trans (if_neg ?_)) hrun hcalm
    exact Bool.eq_false_iff.1 (by simp only [show s.core.psn rd = false from pd, show s.core.psn ra = false from ps,
      show s.core.psn rb = false from pn, Bool.or_self])
  · refine finishLong_completes rfl h ((if_neg (Nat.not_lt.2 hlen)).trans (if_neg ?_)) hrun hcalm
    exact Bool.eq_false_iff.1 (by simp only [show s.core.psn rd = false from pd, show s.core.psn rb = false from pn,
      Bool.or_self])
  · have hstart : (if c.prog.getLsbD 28 ∧ bitsOf c.prog.toNat 31 29 = 4 ∧ c.done ≠ 0 then c
        else { c with prog := progWord 4 0, pacc := c.rd rc, paccPoison := c.psn rc }) =
        { c with prog := progWord 4 0, pacc := c.rd rc, paccPoison := c.psn rc } :=
      if_neg fun hp => absurd (hprog.symm.trans hp.1) (by decide)
    rw [← hstart] at hrun
    refine finishLong_completes (i := .crcb rd ra rb rc stop) rfl h
      ((if_neg (Nat.not_lt.2 hlen)).trans (if_neg ?_)) hrun hcalm
    exact Bool.eq_false_iff.1 (by simp only [show s.core.psn ra = false from ps, show s.core.psn rb = false from pn,
      Bool.or_self])

/-! ### Resumption (R185, R186, R219) -/

theorem longResumes_holds : LongResumes := by
  intro unit complete n
  induction n with
  | zero =>
    intro k s t h
    cases h
  | succ n ih =>
    intro k s t h
    rw [runUnits] at h ⊢
    split at h
    · cases h
    · next hopen =>
      rw [if_neg hopen, if_neg (by simp)]
      cases k with
      | zero =>
        cases h
        refine .inl ⟨Nat.succ_pos n, ?_⟩
        rw [Nat.sub_zero, runUnits, if_neg hopen, if_neg (by simp)]
      | succ k =>
        rw [if_neg (by simp)] at h
        cases hu : unit s with
        | exc s1 x =>
          rw [hu] at h
          cases h
        | ok s1 =>
          simp only [hu] at h ⊢
          split at h
          · next hcalled =>
            cases h
            rw [if_pos hcalled]
            simp only [Bool.and_eq_true, Bool.not_eq_true'] at hcalled
            exact .inr ⟨hcalled.1, hcalled.2, rfl⟩
          · next hcalled =>
            rw [if_neg hcalled]
            obtain ⟨hk, hrest⟩ | hstands := ih k s1 t h
            · refine .inl ⟨Nat.succ_lt_succ hk, ?_⟩
              rw [Nat.succ_sub_succ]
              exact hrest
            · exact .inr hstands

/-! ### The units (R186 to R190) -/

theorem mpmacUnit_limb {s s1 s2 s4 : State} {x y len : Nat} {b : Word} {p : Bool} {zb ab : List MByte} {j : Nat}
    (hj : s.core.done = j) (hlt : j < len)
    (hchk : s.unitChecks [(.read, x + 4 * j, 4), (.read, y + 4 * j, 4), (.write, x + 4 * j, 4)] = none)
    (hz : s.longLoad (x + 4 * j) 4 = (s1, .ok zb)) (ha : s1.longLoad (y + 4 * j) 4 = (s2, .ok ab)) {sum : Nat} {mark : Bool}
    (hsum : (wordOf zb).toNat + (wordOf ab).toNat * b.toNat + s2.core.pacc.toNat = sum)
    (hmark : (anyPoison zb || anyPoison ab || p || s2.core.paccPoison) = mark)
    (hst : s2.longStore (x + 4 * j) (marked (leBytes 4 sum) mark) = (s4, none)) :
    mpmacUnit x y b p len s =
      .ok { s4 with core := s4.core.progress 1 (j + 1) (BitVec.ofNat 32 (sum / 2 ^ 32)) mark } := by
  simp only [mpmacUnit, hj, hlt, if_true, List.cons_append, List.nil_append, hchk, hz, ha, hsum, hmark, hst]

theorem mpmacUnit_carry {s s1 s4 : State} {x y len : Nat} {b : Word} {p : Bool} {zb : List MByte}
    (hj : s.core.done = len) (hchk : s.unitChecks [(.read, x + 4 * len, 4), (.write, x + 4 * len, 4)] = none)
    (hz : s.longLoad (x + 4 * len) 4 = (s1, .ok zb)) {sum : Nat} {mark : Bool}
    (hsum : (wordOf zb).toNat + s1.core.pacc.toNat = sum) (hmark : (anyPoison zb || p || s1.core.paccPoison) = mark)
    (hst : s1.longStore (x + 4 * len) (marked (leBytes 4 sum) mark) = (s4, none)) :
    mpmacUnit x y b p len s =
      .ok { s4 with core := s4.core.progress 1 (len + 1) (BitVec.ofNat 32 (sum / 2 ^ 32)) mark } := by
  have hzero : (wordOf (marked (leBytes 4 0) false)).toNat = 0 := rfl
  simp only [mpmacUnit, hj, Nat.lt_irrefl, if_false, List.cons_append,
    List.nil_append, hchk, hz, hzero, anyPoison_marked, Nat.zero_mul,
    Nat.add_zero, Bool.or_false, hsum, hmark, hst]

/-- Byte `k` of the fill pattern. -/
theorem fillByte_eq (v : Word) (k : Nat) : fillByte v k = (v >>> (8 * (k % 4))).setWidth 8 := by
  rw [fillByte, ← BitVec.toNat_ushiftRight]
  exact BitVec.eq_of_toNat_eq (by rw [BitVec.toNat_ofNat, BitVec.toNat_setWidth])

section
variable {s s1 s3 : State} {x y len j n : Nat} {v : Word} {p : Bool} (hj : s.core.done = j)
  (hn : unitLen (x + j) (len - j) = n)
include hj hn

theorem bmovUnit_moves (hchk : s.unitChecks [(.read, y + j, n), (.write, x + j, n)] = none)
    (hmove : (x % 4 = y % 4 ∧ ∃ s1 bs, State.loadUnit s s (y + j) n = (s1, .ok bs) ∧
        State.storeUnit s s1 (x + j) bs = (s3, none)) ∨
      (x % 4 ≠ y % 4 ∧ State.moveBytes s n s (x + j) (y + j) = (s3, none))) :
    bmovUnit x y len s = .ok { s3 with core := s3.core.progress 2 (j + n) 0 false } := by
  obtain ⟨hmod, s1, bs, hld, hst⟩ | ⟨hmod, hbytes⟩ := hmove
  · simp only [bmovUnit, hj, hn, hchk, hmod, if_true, hld, hst]
  · simp only [bmovUnit, hj, hn, hchk, hmod, if_false, hbytes]

theorem bfillUnit_stores (hchk : s.unitChecks [(.write, x + j, n)] = none)
    (hst : State.storeUnit s s (x + j) ((List.range n).map fun i => (fillByte v (j + i), p)) = (s3, none)) :
    bfillUnit x len v p s = .ok { s3 with core := s3.core.progress 3 (j + n) 0 false } := by
  simp only [bfillUnit, hj, hn, hchk, hst]

theorem crcbUnit_reads {bs : List MByte} (hchk : s.unitChecks [(.read, x + j, n)] = none)
    (hld : State.loadUnit s s (x + j) n = (s1, .ok bs)) :
    crcbUnit x len s = .ok { s1 with core := (s1.core.progress 4 (j + n)
      (BitVec.ofNat 32 (crc32cState s1.core.pacc.toNat (bs.map Prod.fst))) (s1.core.paccPoison || anyPoison bs)) } := by
  simp only [crcbUnit, hj, hn, hchk, hld]

variable {e : Exc}

theorem bmovUnit_refused (hchk : s.unitChecks [(.read, y + j, n), (.write, x + j, n)] = some (s1, e)) :
    bmovUnit x y len s = .exc s1 e := by
  simp only [bmovUnit, hj, hn, hchk]

theorem bfillUnit_refused (hchk : s.unitChecks [(.write, x + j, n)] = some (s1, e)) :
    bfillUnit x len v p s = .exc s1 e := by
  simp only [bfillUnit, hj, hn, hchk]

theorem crcbUnit_refused (hchk : s.unitChecks [(.read, x + j, n)] = some (s1, e)) : crcbUnit x len s = .exc s1 e := by
  simp only [crcbUnit, hj, hn, hchk]

end

theorem mpmacUnit_carry_refused {s s1 : State} {x y len : Nat} {b : Word} {p : Bool} {e : Exc} (hj : s.core.done = len)
    (hchk : s.unitChecks [(.read, x + 4 * len, 4), (.write, x + 4 * len, 4)] = some (s1, e)) :
    mpmacUnit x y b p len s = .exc s1 e := by
  simp only [mpmacUnit, hj, Nat.lt_irrefl, if_false, List.cons_append, List.nil_append, hchk]

theorem longUnits_holds : LongUnits := by
  intro s x y len b v p j n
  refine ⟨fun s1 s2 s4 zb ab hj hchk hz ha hst => mpmacUnit_limb rfl hj hchk hz ha rfl rfl hst,
    fun s1 s4 zb hj hchk hz hst => ?_, fun s3 hchk hmove => bmovUnit_moves rfl rfl hchk hmove, fun s3 hchk hst => ?_,
    fun s1 bs hchk hld => crcbUnit_reads rfl rfl hchk hld,
    fun s1 e => ⟨bmovUnit_refused rfl rfl, bfillUnit_refused rfl rfl, crcbUnit_refused rfl rfl, fun hj hchk => ?_⟩⟩
  · rw [hj] at hchk hz hst ⊢
    exact mpmacUnit_carry hj hchk hz rfl rfl hst
  · simp only [← fillByte_eq] at hst
    exact bfillUnit_stores rfl rfl hchk hst
  · rw [hj] at hchk
    exact mpmacUnit_carry_refused hj hchk

/-- Settles O15. -/
theorem longInstructions : Obligations.LongInstructions := ⟨longComplete_holds, longResumes_holds, longUnits_holds⟩

end Sys2Proof.Machine
end

section
/-! PROOFS. The bank that the boot ROM hands over to (R411 to R414): flash reads the same behind the reads that check a bank,
so the entry that pc takes is the one whose header was found in rule. -/
namespace Sys2Proof.Machine
open Sys2Proof.Claims

/-! ### What a read of flash depends on -/

/-- The array of flash with its codes and torn ranges: all that a read of flash delivers comes from it. -/
def Dev.flashParts (d : Dev) : List (Nat × BitVec 64) × List Torn × List (Nat × BitVec 32) × List (Nat × Spare) :=
  (d.flash, d.torn, d.codes.flashLight, d.codes.flashSpare)

section
variable {d e : Dev} (h : e.flashParts = d.flashParts)
include h

theorem Dev.pageKept_of_flashParts (p : Nat) : Dev.PageKept p d e := by
  obtain ⟨hflash, htorn, hlight, hspare⟩ : e.flash = d.flash ∧ e.torn = d.torn ∧
      e.codes.flashLight = d.codes.flashLight ∧ e.codes.flashSpare = d.codes.flashSpare := by
    simpa [Dev.flashParts] using h
  exact Dev.pageKept_of_eq d e hflash htorn hlight hspare p

theorem Dev.nvmWord_congr (i : Nat) : e.nvmWord false i = d.nvmWord false i :=
  (Dev.pageKept_of_flashParts h (i / 128)).word rfl

theorem Dev.needsCode_congr (i : Nat) : e.needsCode false i = d.needsCode false i := by
  rw [Dev.needsCode, Dev.needsCode, Dev.nvmWord_congr h]

theorem Dev.pageSuspect_congr (p : Nat) : e.pageSuspect false p = d.pageSuspect false p := by
  have hspare : e.codes.flashSpare = d.codes.flashSpare := congrArg (·.2.2.2) h
  simp only [Dev.pageSuspect, Dev.nvmPageErased, Dev.nvmErased_congr (Dev.pageKept_of_flashParts h),
    (Dev.pageKept_of_flashParts h p).spare, Dev.needsCode_congr h, Bool.false_eq_true, if_false, hspare]

/-- A whole-page read delivers the same bytes. -/
theorem Dev.pageRead_congr (m : Master) (p : Nat) : (e.pageRead m false p).2 = (d.pageRead m false p).2 := by
  have hp := Dev.pageKept_of_flashParts h p
  have hdata : e.pageData false p = d.pageData false p := Dev.pageData_congr hp.raw
  have hdecode : e.pageDecode false p = d.pageDecode false p := by
    unfold Dev.pageDecode
    rw [hp.spare, hdata]
  have hbytes (x : Dev) (a n : Nat) : (x.nvmRead m false a n).2 = (List.range n).map fun i => x.nvmByte false (a + i) := by
    unfold Dev.nvmRead
    dsimp only
    split <;> rfl
  unfold Dev.pageRead
  rw [Dev.pageSuspect_congr h]
  split
  · rw [hdecode, hdata]
    split <;> rfl
  · rw [hbytes, hbytes]
    exact List.map_congr_left fun i _ => (Dev.pageKept_of_flashParts h _).byte rfl

theorem Dev.flashBytes_congr (a n : Nat) : e.flashBytes a n = d.flashBytes a n := by
  unfold Dev.flashBytes
  simp only [Dev.pageRead_congr h]

end

/-! ### The records of a read leave flash as it is (R285, R289 to R291) -/

@[simp] theorem Dev.flashParts_setReg (d : Dev) (a : Nat) (w : Word) : (d.setReg a w).flashParts = d.flashParts := by
  obtain ⟨hlight, hspare⟩ := Codes.written_flash d.codes a
  simp [Dev.flashParts, hlight, hspare]

@[simp] theorem Dev.flashParts_put (d : Dev) (f : Fl) (v : Nat) : (d.put f v).flashParts = d.flashParts :=
  d.flashParts_setReg _ _

@[simp] theorem Dev.flashParts_bump (d : Dev) (f : Fl) (k : Nat) : (d.bump f k).flashParts = d.flashParts :=
  d.flashParts_put _ _

@[simp] theorem Dev.flashParts_trouble (d : Dev) (k : Nat) : (d.trouble k).flashParts = d.flashParts :=
  d.flashParts_put _ _

@[simp] theorem Dev.flashParts_event (d : Dev) (src code cls : Nat) (x y : Word) :
    (d.event src code cls x y).flashParts = d.flashParts := by
  simp [Dev.flashParts]

@[simp] theorem Dev.flashParts_integ (d : Dev) (x) : { d with integ := x }.flashParts = d.flashParts := rfl

@[simp] theorem Dev.flashParts_ite {c : Prop} [Decidable c] (d e : Dev) :
    (if c then d else e).flashParts = if c then d.flashParts else e.flashParts := apply_ite ..

@[simp] theorem Dev.flashParts_eccRecord (d : Dev) (ue : Bool) (addr src : Nat) (m : Master) (syn bits lanes : Nat) :
    (d.eccRecord ue addr src m syn bits lanes).flashParts = d.flashParts := by
  simp [Dev.eccRecord]

@[simp] theorem Dev.flashParts_drgCount (d : Dev) (k n : Nat) : (d.drgCount k n).flashParts = d.flashParts := by
  simp [Dev.drgCount]

@[simp] theorem Dev.flashParts_refqAdd (d : Dev) (cst : Bool) (page bits : Nat) :
    (d.refqAdd cst page bits).flashParts = d.flashParts := by
  unfold Dev.refqAdd
  split
  · simp
  · split <;> simp

@[simp] theorem Dev.flashParts_trkClear (d : Dev) (k : Nat) : (d.trkClear k).flashParts = d.flashParts := by
  have hregs : (d.trkClear k).flashParts = ((d.setReg (F.INTEG_TRK_INFO_VALID.addr + 8 * k) 0).setReg
      (F.INTEG_TRK_ADDR_ADDR.addr + 8 * k) 0).flashParts := rfl
  rw [hregs, Dev.flashParts_setReg, Dev.flashParts_setReg]

@[simp] theorem Dev.flashParts_pageQueue (d : Dev) (o : Offer) : (d.pageQueue o).flashParts = d.flashParts := by
  unfold Dev.pageQueue
  split <;> simp

@[simp] theorem Dev.flashParts_offer (d : Dev) (o : Offer) : (d.offer o).flashParts = d.flashParts := by
  simp [Dev.offer]

@[simp] theorem Dev.flashParts_nvmRecord (d : Dev) (m : Master) (cst : Bool) (a : Nat) (bits : Option Nat) :
    (d.nvmRecord m cst a bits).flashParts = d.flashParts := by
  cases bits <;> simp [Dev.nvmRecord]

theorem Dev.flashParts_bootPage (d : Dev) (p : Nat) : (d.bootPage p).flashParts = d.flashParts := by
  have hfound (a : Nat) : (d.nvmFound 2 false a).flashParts = d.flashParts := by
    unfold Dev.nvmFound
    split <;> simp
  unfold Dev.bootPage Dev.pageRead
  split
  · split <;> simp
  · unfold Dev.nvmRead
    dsimp only
    split
    · exact hfound _
    · rfl

/-! ### The entry of a bank (R411, R412, R414) -/

theorem Dev.flashParts_checkBank (d : Dev) (b : Bool) :
    (d.checkBank b).1.flashParts = (d.flashWait (bankBase b)).flashParts := by
  have hfold (l : List Nat) (o : Nat) (e : Dev) : (l.foldl (fun x p => x.bootPage (o + p)) e).flashParts = e.flashParts := by
    induction l generalizing e with
    | nil => rfl
    | cons p l ih => rw [List.foldl_cons, ih, Dev.flashParts_bootPage]
  unfold Dev.checkBank
  dsimp only
  rw [hfold]

/-- An image that passes has its header in rule. -/
theorem headerOk_of_imageCode {r : BootRefs} {erased : Bool} {hdr : List MByte} {room : Nat} {code : Nat → List MByte}
    (h : imageCode r erased hdr room code = 0) : headerOk (hdr.map Prod.fst) = true := by
  by_contra hno
  rw [Bool.not_eq_true] at hno
  simp only [imageCode, hno, Bool.not_false, Bool.true_or, if_true] at h
  split at h <;> cases h

theorem entry_aligned_of_headerOk {h : Bytes} (hok : headerOk h = true) : hdrField h 0x14 4 % 4 = 0 := by
  simp only [headerOk, Bool.and_eq_true, beq_iff_eq] at hok
  tauto

/-- The entry of a bank that has passed names a word, read again behind its check. -/
theorem Dev.checkBank_entry {d : Dev} {b : Bool} (h : (d.checkBank b).2 = 0) {e : Dev}
    (he : e.flashParts = (d.checkBank b).1.flashParts) :
    hdrField ((e.flashBytes (bankBase b - flashBase) 0x200).map Prod.fst) 0x14 4 % 4 = 0 := by
  rw [Dev.flashBytes_congr (he.trans (d.flashParts_checkBank b))]
  exact entry_aligned_of_headerOk (headerOk_of_imageCode h)

end Sys2Proof.Machine
end

section
/-! PROOFS. The core's registers stay as their fields allow them (R159 to R166, R177, R178, R185): the bits that a masked
word keeps, and each operation on the core. -/
namespace Sys2Proof.Machine
open Sys2Proof.Claims

/-! ### Masked words -/

/-- A word that a mask has passed holds no other bit, whatever wider mask looks at it. -/
theorem masked_and (v : Word) {a m : Word} (h : a &&& m = a) : (v &&& a) &&& m = v &&& a := by
  rw [BitVec.and_assoc, h]

theorem masked_or {x y m : Word} (hx : x &&& m = x) (hy : y &&& m = y) : (x ||| y) &&& m = x ||| y := by
  rw [BitVec.and_or_distrib_right, hx, hy]

/-- The low two bits of a word whose rest a mask clears of them. -/
theorem level_or (v b : Word) {a : Word} (ha : a &&& 3 = 0#32) : ((v &&& a) ||| b).toNat % 4 = b.toNat % 4 := by
  rw [toNat_mod_four, BitVec.and_or_distrib_right, BitVec.and_assoc, ha, BitVec.and_zero, BitVec.zero_or, ← toNat_mod_four]

/-- A mask with the low two bits set keeps them. -/
theorem level_and (v : Word) {a : Word} (ha : a &&& 3 = 3) : (v &&& a).toNat % 4 = v.toNat % 4 := by
  rw [toNat_mod_four, BitVec.and_assoc, ha, ← toNat_mod_four]

/-- A mask without the low two bits leaves the address of a word. -/
theorem aligned_and (v : Word) : (v &&& 0xFFFFFFFC).toNat % 4 = 0 := by
  rw [toNat_mod_four, BitVec.and_assoc, show (0xFFFFFFFC &&& 3 : Word) = 0#32 from rfl, BitVec.and_zero]
  rfl

theorem aligned_add_four {a : Word} (h : a.toNat % 4 = 0) : (a + 4).toNat % 4 = 0 := by bv_omega

theorem aligned_add_words {a : Word} (h : a.toNat % 4 = 0) (b : Word) : (a + b <<< 2).toNat % 4 = 0 := by
  rw [BitVec.toNat_add, BitVec.toNat_shiftLeft, Nat.shiftLeft_eq]
  omega

theorem and_seven_lt (v : Word) : (v &&& 7).toNat < 8 := by
  rw [BitVec.toNat_and]
  exact Nat.lt_of_le_of_lt Nat.and_le_right (by decide)

/-- A saved status holds its fields' bits alone, and no level 3 (R165). -/
theorem sstMask_legal (v : Word) : sstMask v &&& 0x000700F7 = sstMask v ∧ (sstMask v).toNat % 4 ≠ 3 := by
  have hw : (v &&& 0x000700F7) &&& 0x000700F7 = v &&& 0x000700F7 := masked_and v rfl
  unfold sstMask
  dsimp only
  generalize v &&& 0x000700F7 = w at hw ⊢
  split
  · next h3 =>
    have hsub : w - 1 = w ^^^ 1 := by
      apply BitVec.eq_of_toNat_eq
      rw [BitVec.toNat_xor, show (1 : Word).toNat = 1 from rfl, Nat.xor_one_of_odd (by rw [Nat.odd_iff]; omega)]
      bv_omega
    refine ⟨?_, by bv_omega⟩
    have hbits : (w ^^^ 1) &&& 0x000700F7 = (w &&& 0x000700F7) ^^^ (1 &&& 0x000700F7) :=
      BitVec.eq_of_toNat_eq (by simp only [BitVec.toNat_and, BitVec.toNat_xor, Nat.and_xor_distrib_right])
    rw [hsub, hbits, hw]
    rfl
  · next h3 => exact ⟨hw, h3⟩

/-- PROG's bits 27 to 24 are clear where a long instruction writes it (R185). -/
theorem progWord_reserved (k n : Nat) : progWord k n &&& 0x0F000000 = 0 := by
  have hmask : ∀ i < 32, (0x0F000000 : Word).getLsbD i = (decide (24 ≤ i) && decide (i < 28)) := by decide
  have hsum : k * 2 ^ 29 + 2 ^ 28 + n % 2 ^ 24 = 2 ^ 24 * (2 ^ 4 * (2 * k + 1)) + n % 2 ^ 24 := by ring
  refine BitVec.eq_of_getLsbD_eq fun i hi => ?_
  rw [BitVec.getLsbD_and, hmask i hi, progWord, hsum, BitVec.getLsbD_ofNat,
    Nat.testBit_two_pow_mul_add _ (Nat.mod_lt _ (by decide))]
  by_cases hlo : 24 ≤ i
  · by_cases hhi : i < 28
    · rw [if_neg (by omega), Nat.testBit_two_pow_mul]
      simp [show ¬4 ≤ i - 24 by omega]
    · simp [hhi]
  · simp [hlo]

/-- A loop register that is written takes a word's address; the other keeps its own. -/
theorem aligned_set {v : Vector Word 2} {i k : Fin 2} {w : Word} (hw : w.toNat % 4 = 0) (hv : v[k].toNat % 4 = 0) :
    (v.set i w)[k].toNat % 4 = 0 := by
  have hset : (v.set i w)[k] = if i.val = k.val then w else v[k] := Vector.getElem_set ..
  rw [hset]
  split <;> assumption

/-! ### Writes of registers, retirement and transfers -/

section
variable {c : Core} (h : CoreLegal c)
include h

theorem coreLegal_wr (r : RegNo) (v : Word) (p : Bool) : CoreLegal (c.wr r v p) := by
  obtain ⟨⟨hw0, hp0⟩, hrest⟩ := h
  by_cases hr : r = 0
  · rw [hr, show c.wr 0 v p = c from Core.wr_zero c v p]
    exact ⟨⟨hw0, hp0⟩, hrest⟩
  have hne : r.toNat ≠ 0 := fun e => hr (BitVec.eq_of_toNat_eq e)
  have hframe : c.wr r v p = { c with regs := (c.wr r v p).regs, poison := (c.wr r v p).poison } := by
    rw [Core.wr, if_neg hr]
  rw [hframe]
  refine ⟨⟨?_, ?_⟩, hrest⟩
  · dsimp only
    rw [Core.wr_regs c r v p hr]
    exact (Vector.getElem_set_ne _ _ hne).trans hw0
  · have hbit : (1#32 <<< r.toNat).getLsbD 0 = false := by simp [Nat.pos_of_ne_zero hne]
    dsimp only
    rw [Core.wr_poison c r v p hr]
    cases p <;> simp only [Bool.false_eq_true, if_false, if_true, BitVec.getLsbD_and, BitVec.getLsbD_or, hp0, hbit, Bool.false_and,
      Bool.or_self]

theorem slot_target_aligned {x : Slot} (hx : c.slot = some x) : x.target.toNat % 4 = 0 := by
  obtain ⟨-, -, -, hslot, -⟩ := h
  rw [hx] at hslot
  obtain ⟨-, -, htarget, -⟩ := of_decide_eq_true hslot
  exact htarget

/-- Out of a delay slot, pc may go to any word, and the loop counts to any value. -/
theorem coreLegal_goto (hs : c.slot = none) {a : Word} (ha : a.toNat % 4 = 0) (lc : Vector Word 2) (n : BitVec 64) :
    CoreLegal { c with pc := a, lc := lc, cycle := n } := by
  obtain ⟨hw0, ⟨-, hsys, hloops⟩, hstatus, -, hshadow⟩ := h
  exact ⟨hw0, ⟨ha, hsys, hloops⟩, hstatus, by rw [hs]; rfl, hshadow⟩

theorem loopBack_pc_aligned : (c.loopBack c.pc).pc.toNat % 4 = 0 := by
  obtain ⟨-, ⟨hpc, -, hloops⟩, -⟩ := h
  have hnext := aligned_add_four hpc
  have h0 : c.ls[0].toNat % 4 = 0 := (hloops 0).1
  have h1 : c.ls[1].toNat % 4 = 0 := (hloops 1).1
  unfold Core.loopBack
  dsimp only
  split_ifs <;> assumption

theorem coreLegal_retire (n : Nat) : CoreLegal (c.retire n) := by
  cases hs : c.slot with
  | some x =>
    have htarget := slot_target_aligned h hs
    obtain ⟨hw0, ⟨-, hsys, hloops⟩, hstatus, -, hshadow⟩ := h
    rw [Core.retire_of_slot n hs]
    exact ⟨hw0, ⟨htarget, hsys, hloops⟩, hstatus, rfl, hshadow⟩
  | none =>
    have hpc := loopBack_pc_aligned (c := { c with cycle := c.cycle + BitVec.ofNat 64 n }) h
    obtain ⟨hw0, ⟨-, hsys, hloops⟩, ⟨hcst, hpl, hsst, hspl, -, hprog⟩, -, hshadow⟩ := id h
    cases hv : c.shadow with
    | some v =>
      have heq : c.retire n =
          { Core.loopBack { c with cycle := c.cycle + BitVec.ofNat 64 n } c.pc with mode := v, shadow := none } := by
        simp only [Core.retire, hs, hv]
      rw [hv] at hshadow
      rw [heq, Core.loopBack_eq]
      exact ⟨hw0, ⟨hpc, hsys, hloops⟩, ⟨hcst, hpl, hsst, hspl, of_decide_eq_true hshadow, hprog⟩, by simp only [hs]; rfl, rfl⟩
    | none =>
      have heq : c.retire n = Core.loopBack { c with cycle := c.cycle + BitVec.ofNat 64 n } c.pc := by
        simp only [Core.retire, hs, hv]
      rw [heq, Core.loopBack_eq]
      exact coreLegal_goto h hs hpc _ _

theorem coreLegal_branch (hv : c.shadow = none) {taken : Bool} {t : Word} (ht : t.toNat % 4 = 0) :
    CoreLegal (c.branch taken t) := by
  obtain ⟨hw0, ⟨hpc, hsys, hloops⟩, hstatus, -, hshadow⟩ := h
  have hends : c.endLoops t = { c with lc := (c.endLoops t).lc } := by
    unfold Core.endLoops
    dsimp only
    split_ifs <;> rfl
  have hframe : c.branch taken t = { c with
      lc := (c.branch taken t).lc, pc := c.pc + 4, cycle := c.cycle + 1
      slot := some ⟨c.pc, if taken then t else c.pc + 8⟩ } := by
    unfold Core.branch
    cases taken
    · rfl
    · simp only [if_true]
      rw [hends]
  rw [hframe]
  refine ⟨hw0, ⟨aligned_add_four hpc, hsys, hloops⟩, hstatus, decide_eq_true ⟨rfl, hpc, ?_, hv⟩, hshadow⟩
  cases taken
  · change (c.pc + 8).toNat % 4 = 0
    bv_omega
  · exact ht

theorem coreLegal_setLoop (hs : c.slot = none) (n : BitVec 1) (len : BitVec 10) (count : Word) :
    CoreLegal (c.setLoop n len count) := by
  obtain ⟨hw0, ⟨hpc, hsys, hloops⟩, hstatus, -, hshadow⟩ := h
  have hend := aligned_add_words hpc (len.zeroExtend 32)
  refine ⟨hw0, ⟨?_, hsys, fun k => ⟨?_, ?_⟩⟩, hstatus, by simp only [Core.setLoop, hs]; rfl, hshadow⟩
  · have hpast := aligned_add_four hend
    have hstart := aligned_add_four hpc
    simp only [Core.setLoop]
    split <;> assumption
  · exact aligned_set (aligned_add_four hpc) (hloops k).1
  · exact aligned_set hend (hloops k).2

end

end Sys2Proof.Machine
end

section
/-! PROOFS. The core's registers stay as their fields allow them (R159 to R166, R177, R178, R185): special registers, the
system group, entries and the hand-over of the boot ROM. -/
namespace Sys2Proof.Machine
open Sys2Proof.Claims

/-- The frame's STATUS: the fields of CST, and the flags DS and MPEND above them (R165, R207). -/
theorem Core.status_legal {c : Core} (h : c.cst &&& 0xF7 = c.cst) (hl : c.cst.toNat % 4 ≠ 3) (p : Point) :
    c.status p &&& 0x000700F7 = c.status p ∧ (c.status p).toNat % 4 ≠ 3 := by
  have hlow : c.cst.toNat % 256 = c.cst.toNat := by
    have hle : (c.cst &&& 0xF7).toNat ≤ 0xF7 := Nat.and_le_right
    rw [h] at hle
    exact Nat.mod_eq_of_lt (by omega)
  have hflags : ∀ x y : Bool, BitVec.ofNat 32 (2 ^ 16 * b2n x + 2 ^ 17 * b2n y) &&& 0xF7 = 0#32 ∧
      BitVec.ofNat 32 (2 ^ 16 * b2n x + 2 ^ 17 * b2n y) &&& 0x000700F7 =
        BitVec.ofNat 32 (2 ^ 16 * b2n x + 2 ^ 17 * b2n y) := by decide
  obtain ⟨hno, hmask⟩ := hflags p.ds p.mpend.isSome
  have hstatus : c.status p = c.cst ||| BitVec.ofNat 32 (2 ^ 16 * b2n p.ds + 2 ^ 17 * b2n p.mpend.isSome) := by
    rw [Core.status, hlow, Nat.add_assoc, BitVec.ofNat_add, BitVec.ofNat_toNat, BitVec.setWidth_eq]
    refine BitVec.add_eq_or_of_and_eq_zero _ _ ?_
    rw [← h, BitVec.and_assoc, BitVec.and_comm (0xF7 : Word), hno, BitVec.and_zero]
  have hcst : c.cst &&& 0x000700F7 = c.cst := by
    rw [← h]
    exact masked_and _ rfl
  refine ⟨by rw [hstatus]; exact masked_or hcst hmask, ?_⟩
  rw [Core.status, hlow, BitVec.toNat_ofNat]
  omega

section
variable {c : Core} (h : CoreLegal c)
include h

/-! ### Special registers (R162 to R166, R185) -/

theorem coreLegal_sprLatch (r : Spr) : CoreLegal (c.sprLatch r) := by
  cases r <;> exact h

theorem coreLegal_sprWrite (r : Spr) (v : Word) : CoreLegal (c.sprWrite r v) := by
  obtain ⟨hw0, ⟨hpc, hsys, hloops⟩, ⟨hcst, hpl, hsst, hspl, hmode, hprog⟩, hslots⟩ := id h
  cases r
  case cst =>
    exact ⟨hw0, ⟨hpc, hsys, hloops⟩, ⟨masked_or (masked_and _ rfl) (masked_and _ rfl), (cstWrite_level c.cst v).symm ▸ hpl,
      hsst, hspl, hmode, hprog⟩, hslots⟩
  case prog =>
    refine ⟨hw0, ⟨hpc, hsys, hloops⟩, ⟨hcst, hpl, hsst, hspl, hmode, ?_⟩, hslots⟩
    exact (BitVec.and_assoc ..).trans BitVec.and_zero
  case sst =>
    obtain ⟨hmask, hlevel⟩ := sstMask_legal v
    exact ⟨hw0, ⟨hpc, hsys, hloops⟩, ⟨hcst, hpl, hmask, hlevel, hmode, hprog⟩, hslots⟩
  case sysent => exact ⟨hw0, ⟨hpc, aligned_and v, hloops⟩, ⟨hcst, hpl, hsst, hspl, hmode, hprog⟩, hslots⟩
  case ls n =>
    exact ⟨hw0, ⟨hpc, hsys, fun k => ⟨aligned_set (aligned_and v) (hloops k).1, (hloops k).2⟩⟩,
      ⟨hcst, hpl, hsst, hspl, hmode, hprog⟩, hslots⟩
  case le n =>
    exact ⟨hw0, ⟨hpc, hsys, fun k => ⟨(hloops k).1, aligned_set (aligned_and v) (hloops k).2⟩⟩,
      ⟨hcst, hpl, hsst, hspl, hmode, hprog⟩, hslots⟩
  all_goals exact h

/-- A MODE value that waits for its shadow instruction (R166). -/
theorem coreLegal_modeWrite (n : Nat) (v : Word) : CoreLegal { c.retire n with shadow := some (v &&& 7) } := by
  obtain ⟨hw0, hwords, hstatus, -, -⟩ := coreLegal_retire h n
  obtain ⟨-, -, -, hslot, -⟩ := c.retire_kept n
  exact ⟨hw0, hwords, hstatus, by simp only [hslot]; rfl, decide_eq_true (and_seven_lt v)⟩

/-! ### The system group (R192, R211, R216) -/

theorem coreLegal_fastCall (hs : c.slot = none) : CoreLegal c.fastCall := by
  obtain ⟨hw0, ⟨-, hsys, hloops⟩, ⟨-, hpl, -, -, hmode, hprog⟩, -, hshadow⟩ := h
  obtain ⟨hlevel, -, -⟩ := fastCall_status c.cst
  refine ⟨hw0, ⟨hsys, hsys, hloops⟩, ⟨masked_or (masked_and _ rfl) rfl, ?_, masked_and _ rfl, ?_, hmode, hprog⟩,
    by simp only [Core.fastCall, hs]; rfl, hshadow⟩
  · exact fun h3 => absurd (hlevel.symm.trans h3) (by decide)
  · exact (level_and (a := 0xF7) c.cst rfl).symm ▸ hpl

theorem coreLegal_sysret (hs : c.slot = none) (hspc : c.spc.toNat % 4 = 0) (n : BitVec 64) :
    CoreLegal { c with cst := c.sst &&& 0xF7, pc := c.spc, cycle := n } := by
  obtain ⟨hw0, ⟨-, hsys, hloops⟩, ⟨-, -, hsst, hspl, hmode, hprog⟩, -, hshadow⟩ := h
  exact ⟨hw0, ⟨hspc, hsys, hloops⟩, ⟨masked_and _ rfl, (level_and (a := 0xF7) c.sst rfl).symm ▸ hspl, hsst, hspl, hmode, hprog⟩,
    by simp only [hs]; rfl, hshadow⟩

end

/-- What the checks of RETX leave of a frame's words: the continuation's addresses, and no slot beside a pending MODE
value (R211). -/
theorem retxCheck_passes {c : Core} {base : Nat} {f : List (Word × Bool)} (h : c.retxCheck base f = none) :
    (frameWord f 2).toNat % 4 ≠ 3 ∧ ¬((frameWord f 2).getLsbD 16 = true ∧ (frameWord f 2).getLsbD 17 = true) ∧
      (frameWord f 0).toNat % 4 = 0 ∧ ((frameWord f 2).getLsbD 16 = true → (frameWord f 1).toNat % 4 = 0) := by
  unfold Core.retxCheck at h
  dsimp only at h
  split at h
  · cases h
  · split_ifs at h with _ _ hst h0 h1
    simp only [not_or, not_and, not_not, Bool.and_eq_true] at hst h0 h1
    exact ⟨hst.1, fun ⟨hds, hm⟩ => hst.2 hds hm, h0, h1⟩

theorem coreLegal_retxRestore {c : Core} (h : CoreLegal c) {base : Nat} {f : List (Word × Bool)}
    (hf : c.retxCheck base f = none) : CoreLegal (c.retxRestore f) := by
  obtain ⟨hlevel, hone, hepc, hetgt⟩ := retxCheck_passes hf
  obtain ⟨hw0, ⟨-, hsys, -⟩, -⟩ := coreLegal_wr h 31 (frameWord f 14) false
  obtain ⟨hsst, hspl⟩ := sstMask_legal (frameWord f 3)
  have hnext : (frameWord f 0 + 4).toNat % 4 = 0 := aligned_add_four hepc
  refine ⟨hw0, ⟨?_, hsys, fun k => ?_⟩, ⟨masked_and _ rfl, ?_, hsst, hspl, and_seven_lt _, ?_⟩, ?_, ?_⟩
  · unfold Core.retxRestore
    dsimp only
    split <;> assumption
  · match k with
    | 0 => exact ⟨aligned_and _, aligned_and _⟩
    | 1 => exact ⟨aligned_and _, aligned_and _⟩
  · exact (level_and (a := 0xF7) (frameWord f 2) rfl).symm ▸ hlevel
  · exact (BitVec.and_assoc ..).trans BitVec.and_zero
  · have hslot : (c.retxRestore f).slot =
        if (frameWord f 2).getLsbD 16 then some ⟨frameWord f 0, frameWord f 1⟩ else none := rfl
    by_cases hds : (frameWord f 2).getLsbD 16 = true
    · have hpc : (c.retxRestore f).pc = frameWord f 0 + 4 := if_pos hds
      have hshadow : (c.retxRestore f).shadow = none := if_neg fun hm => hone ⟨hds, hm⟩
      rw [hslot, if_pos hds, hpc, hshadow]
      exact decide_eq_true ⟨rfl, hepc, hetgt hds, rfl⟩
    · rw [hslot, if_neg hds]
      rfl
  · have hshadow : (c.retxRestore f).shadow =
        if (frameWord f 2).getLsbD 17 then some (frameWord f 13 &&& 7) else none := rfl
    rw [hshadow]
    split
    · exact decide_eq_true (and_seven_lt _)
    · rfl

theorem coreLegal_reset : CoreLegal Core.reset := by decide

/-! ### Entries (R208), long instructions, stops and the boot ROM's hand-over -/

section
variable {c : Core} (h : CoreLegal c)
include h

theorem coreLegal_commitEntry {lv : Nat} (hlv : lv = 1 ∨ lv = 2) {prio : Option Nat} (hprio : ∀ p ∈ prio, p < 16)
    (frame eaddr : Nat) (ie : Bool) (cause handler : Word) :
    CoreLegal (c.commitEntry c.point frame lv ie prio cause eaddr handler) := by
  obtain ⟨-, -, ⟨hcst, hpl, -⟩, -⟩ := id h
  obtain ⟨hw0, ⟨-, hsys, hloops⟩, ⟨-, -, -, -, hmode, -⟩, -⟩ := coreLegal_wr h 31 (BitVec.ofNat 32 frame) false
  obtain ⟨hsst, hspl⟩ := Core.status_legal hcst hpl c.point
  have hipl : prio.getD c.ipl < 16 := by
    cases prio with
    | none => exact bitsOf_lt _ _ _
    | some p => exact hprio p rfl
  have hnew : ∀ lv < 3, lv = 1 ∨ lv = 2 → ∀ ie : Bool, ∀ ipl < 16,
      BitVec.ofNat 32 (lv + 4 * b2n ie + 16 * ipl) &&& 0xF7 = BitVec.ofNat 32 (lv + 4 * b2n ie + 16 * ipl) ∧
        (BitVec.ofNat 32 (lv + 4 * b2n ie + 16 * ipl)).toNat % 4 ≠ 3 := by decide
  obtain ⟨hnewMask, hnewLevel⟩ := hnew lv (by omega) hlv ie _ hipl
  exact ⟨hw0, ⟨aligned_and handler, hsys, hloops⟩, ⟨hnewMask, hnewLevel, hsst, hspl, hmode, BitVec.zero_and⟩, rfl, rfl⟩

theorem coreLegal_prog {p : Word} (hp : p &&& 0x0F000000 = 0) (v : Word) (b : Bool) :
    CoreLegal { c with prog := p, pacc := v, paccPoison := b } := by
  obtain ⟨hw0, hwords, ⟨hcst, hpl, hsst, hspl, hmode, -⟩, hslots⟩ := h
  exact ⟨hw0, hwords, ⟨hcst, hpl, hsst, hspl, hmode, hp⟩, hslots⟩

theorem coreLegal_progress (kind n : Nat) (v : Word) (b : Bool) : CoreLegal (c.progress kind n v b) :=
  coreLegal_prog h (progWord_reserved kind n) v b

theorem coreLegal_startLong (kind : Nat) (v : Word) (b : Bool) : CoreLegal (c.startLong kind v b) := by
  unfold Core.startLong
  split
  · exact h
  · exact coreLegal_prog h (progWord_reserved kind 0) v b

theorem coreLegal_alarmColumn : CoreLegal c.alarmColumn := by
  obtain ⟨hw0, hwords, -, hslot, -⟩ := h
  obtain ⟨-, -, hreset, -⟩ := coreLegal_reset
  refine ⟨hw0, hwords, hreset, ?_, rfl⟩
  cases hs : c.slot with
  | none => simp only [Core.alarmColumn, hs]; rfl
  | some x =>
    rw [hs] at hslot
    obtain ⟨hpc, hbranch, htarget, -⟩ := of_decide_eq_true hslot
    simp only [Core.alarmColumn, hs]
    exact decide_eq_true ⟨hpc, hbranch, htarget, trivial⟩

/-- Vault with interrupts off, and the priority level as it was. -/
theorem coreLegal_vault : CoreLegal { c with cst := (c.cst &&& 0xF0) ||| 2 } := by
  obtain ⟨hw0, hwords, ⟨-, -, hsst, hspl, hmode, hprog⟩, hslots⟩ := h
  refine ⟨hw0, hwords, ⟨masked_or (masked_and _ rfl) rfl, ?_, hsst, hspl, hmode, hprog⟩, hslots⟩
  exact fun h3 => absurd ((level_or (a := 0xF0) c.cst 2 rfl).symm.trans h3) (by decide)

theorem coreLegal_handOver {base entry : Word} (hbase : base.toNat % 4 = 0) (hentry : entry.toNat % 4 = 0) (draw : Nat)
    (stat stack : Word) : CoreLegal (c.handOver draw base entry stat stack) := by
  obtain ⟨-, ⟨-, hsys, hloops⟩, ⟨hcst, hpl, hsst, hspl, -, hprog⟩, -⟩ := coreLegal_vault h
  refine ⟨⟨?_, BitVec.getLsbD_zero⟩, ⟨?_, hsys, hloops⟩, ⟨hcst, hpl, hsst, hspl, Nat.zero_lt_succ _, hprog⟩, rfl, rfl⟩
  · simp [Core.handOver, bootRegs]
  · change (base + 0x200 + entry).toNat % 4 = 0
    bv_omega

end

end Sys2Proof.Machine
end

section
/-! PROOFS. The core's registers stay as their fields allow them (R159 to R166, R177, R178, R185): following what is asked,
entries, boundaries and the bodies of the core instructions. -/
namespace Sys2Proof.Machine
open Sys2Proof.Claims

/-! ### Following what is asked (R35, R161, R281, R391, R392) -/

section
variable {s : State} (h : CoreLegal s.core)
include h

theorem coreLegal_resetIfAsked : CoreLegal s.resetIfAsked.core := by
  unfold State.resetIfAsked
  split
  · exact coreLegal_reset
  · exact h

theorem coreLegal_stopIfAsked : CoreLegal s.stopIfAsked.core := by
  unfold State.stopIfAsked
  split
  · dsimp only
    split
    · exact coreLegal_alarmColumn (c := s.core) h
    · exact h
  · exact h

theorem coreLegal_settle : CoreLegal s.settle.core := coreLegal_stopIfAsked (coreLegal_resetIfAsked h)

/-! ### Entries (R201 to R208) -/

theorem coreLegal_lockup : CoreLegal s.lockup.core := h

theorem coreLegal_emergency (v kind orig eaddr : Nat) : CoreLegal (s.emergency v kind orig eaddr).core := by
  unfold State.emergency
  dsimp only
  split
  · exact coreLegal_lockup h
  · split
    · exact coreLegal_lockup h
    · split
      · exact coreLegal_lockup h
      · exact coreLegal_commitEntry h (.inr rfl) (by simp) _ _ _ _ _

theorem coreLegal_enter (x : Exc) {prio : Option Nat} (hprio : ∀ p ∈ prio, p < 16) (multi : Bool) :
    CoreLegal (s.enter x prio multi).core := by
  obtain ⟨-, -, ⟨-, hpl, -⟩, -⟩ := id h
  have hlast (d : Dev) (v kind orig a : Nat) : CoreLegal (State.emergency { s with dev := d } v kind orig a).core :=
    coreLegal_emergency (s := { s with dev := d }) h v kind orig a
  unfold State.enter
  dsimp only
  split
  · exact coreLegal_lockup h
  split
  · exact hlast _ _ _ _ _
  next w1 _ =>
  generalize (if (_ : Nat) < _ ∧ (_ : Nat) ≤ _ then _ else _ : Nat) = sp0
  split_ifs with hdpl hpsn hroom hmod
  · exact hlast _ _ _ _ _
  · exact hlast _ _ _ _ _
  · exact hlast _ _ _ _ _
  · exact hlast _ _ _ _ _
  · split
    · exact hlast _ _ _ _ _
    · refine coreLegal_commitEntry h ?_ hprio _ _ _ _ _
      have hmax := Nat.mod_lt w1.toNat (by decide : 0 < 4)
      have hpl4 := Nat.mod_lt s.core.cst.toNat (by decide : 0 < 4)
      unfold Core.pl
      omega

theorem coreLegal_raise (x : Exc) : CoreLegal (s.raise x).core := coreLegal_enter h x (by simp) false

theorem coreLegal_enterImprecise (i : ImpStore) : CoreLegal (s.enterImprecise i).core := by
  unfold State.enterImprecise
  refine coreLegal_enter ?_ _ (by simp) _
  exact h

end

/-- An interrupt's priority is a field of four bits (R223). -/
theorem Dev.topSource_prio_lt {d : Dev} {above src p : Nat} (h : d.topSource above = some (src, p)) : p < 16 := by
  have htop := d.topBelow_isTop above 192
  rw [← Dev.topSource_eq, h] at htop
  obtain ⟨-, rfl, -⟩ := htop
  refine (bitsOf_lt _ _ _).trans_eq ?_
  rw [show 4 * (src % 8) + 3 + 1 - 4 * (src % 8) = 4 by omega]
  rfl

section
variable {s : State} (h : CoreLegal s.core)
include h

theorem coreLegal_enterInterrupt {src p : Nat} (hnow : s.interruptNow = some (src, p)) :
    CoreLegal (s.enterInterrupt src p).core := by
  refine coreLegal_enter h _ (fun q hq => ?_) false
  obtain rfl := Option.mem_some.1 hq
  unfold State.interruptNow at hnow
  split at hnow
  · exact Dev.topSource_prio_lt hnow
  · cases hnow

theorem coreLegal_wake : CoreLegal s.wake.core := by
  have hs1 : CoreLegal ({ s.core with waiting := false }.retire 1) :=
    coreLegal_retire (c := { s.core with waiting := false }) h 1
  unfold State.wake
  dsimp only
  split
  · exact coreLegal_enterImprecise hs1 _
  · split
    · next hnow => exact coreLegal_enterInterrupt hs1 hnow
    · exact hs1

end

/-! ### Boundaries (R200) -/

/-- The state that a body leaves. -/
def Done.state : Done → State
  | .ok s => s
  | .exc s _ => s

theorem State.core_fetch (s : State) : s.fetch.1.core = s.core := by rw [State.fetch_fst]

/-- An instruction of a body that keeps the core's registers legal, where its place permits it. -/
theorem coreLegal_coreStep {s : State} (h : CoreLegal s.core) {k : Klass} {body : State → Done}
    (hbody : ∀ t : State, CoreLegal t.core → t.core.placeFault k = none → CoreLegal (body t).state.core) :
    CoreLegal (s.coreStep k body).core := by
  refine coreLegal_settle ?_
  unfold State.boundaryStep
  split
  · exact h
  split
  · exact coreLegal_enterImprecise h _
  split
  · next hnow => exact coreLegal_enterInterrupt h hnow
  have hfetch : CoreLegal s.fetch.1.core := by rwa [s.core_fetch]
  split
  · next s1 x hf =>
    rw [hf] at hfetch
    exact coreLegal_raise hfetch x
  · next s1 w hf =>
    rw [hf] at hfetch
    split
    · exact coreLegal_raise hfetch _
    · next hplace =>
      have hdone := hbody s1 hfetch hplace
      split
      · next hb => rwa [hb] at hdone
      · next hb =>
        rw [hb] at hdone
        exact coreLegal_raise hdone _

/-- The restricted instructions run neither in a delay slot nor in a MODE shadow (R178). -/
theorem Core.placeFault_none {c : Core} {k : Klass} (h : c.placeFault k = none) (hk : k ≠ .free) :
    c.slot = none ∧ c.shadow = none := by
  unfold Core.placeFault at h
  split_ifs at h with hslot hshadow
  simp only [hk, ne_eq, not_false_eq_true, true_and, Bool.not_eq_true, Option.isSome_eq_false_iff,
    Option.isNone_iff_eq_none] at hslot hshadow
  exact ⟨hslot, hshadow⟩

end Sys2Proof.Machine
end

section
/-! PROOFS. The core's registers stay as their fields allow them (R159 to R166, R177, R178, R185): the accesses and the
units of the long instructions, and the boot ROM. -/
namespace Sys2Proof.Machine
open Sys2Proof.Claims

/-! ### The accesses leave the core as it is (R174, R186, R211) -/

theorem State.core_unitChecks {s s1 : State} {x : Exc} {l : List (Kind × Nat × Nat)}
    (h : s.unitChecks l = some (s1, x)) : s1.core = s.core := by
  induction l with
  | nil => cases h
  | cons access rest ih =>
    obtain ⟨k, a, n⟩ := access
    rw [State.unitChecks] at h
    split at h
    · cases h
      rfl
    · exact ih h

theorem State.core_longLoad (s : State) (a n : Nat) : (s.longLoad a n).1.core = s.core := by
  unfold State.longLoad
  dsimp only
  split <;> rfl

theorem State.core_longStore (s : State) (a : Nat) (bs : List MByte) : (s.longStore a bs).1.core = s.core := rfl

/-- What an access has made of the core, by the pair that it answers. -/
theorem State.core_of_fst {α : Type} {r : State × α} {s : State} {x : α} (hr : r = (s, x)) {c : Core} (h : r.1.core = c) :
    s.core = c := by
  subst hr
  exact h

/-- A load of a frame's words (R211). -/
theorem State.core_readFrame (n : Nat) (s : State) (a : Nat) : (State.readFrame n s a).1.core = s.core := by
  induction n generalizing s a with
  | zero => rfl
  | succ n ih =>
    unfold State.readFrame
    dsimp only
    split
    · rfl
    split
    · rfl
    split
    · next hr => exact State.core_of_fst hr (ih _ _)
    · next hr => exact State.core_of_fst hr (ih _ _)

theorem State.core_storeUnit {s0 s : State} (h : s.core = s0.core) (a : Nat) (bs : List MByte) :
    (State.storeUnit s0 s a bs).1.core = s0.core := by
  induction bs generalizing s a with
  | nil => exact h
  | cons b bs ih =>
    have hstored (bs : List MByte) : (s.longStore a bs).1.core = s0.core := (s.core_longStore a bs).trans h
    unfold State.storeUnit
    dsimp only
    split
    · split
      · exact s0.core_longStore _ _
      · next hr => exact State.core_of_fst hr (hstored _)
    · split
      · exact s0.core_longStore _ _
      · next hr => exact ih (State.core_of_fst hr (hstored _)) _

theorem State.core_loadUnit {s0 s : State} (h : s.core = s0.core) (a n : Nat) :
    (State.loadUnit s0 s a n).1.core = s0.core := by
  induction n generalizing s a with
  | zero => exact h
  | succ n ih =>
    have hloaded (n : Nat) : (s.longLoad a n).1.core = s0.core := (s.core_longLoad a n).trans h
    unfold State.loadUnit
    split
    · split
      · exact s0.core_longLoad _ _
      · next hr => exact State.core_of_fst hr (hloaded _)
    · split
      · exact s0.core_longLoad _ _
      · next hr =>
        have hrest := ih (State.core_of_fst hr (hloaded _)) (a + 1)
        split
        · next hr2 => exact State.core_of_fst hr2 hrest
        · next hr2 => exact State.core_of_fst hr2 hrest

theorem State.core_moveBytes {s0 s : State} (h : s.core = s0.core) (n dst src : Nat) :
    (State.moveBytes s0 n s dst src).1.core = s0.core := by
  induction n generalizing s dst src with
  | zero => exact h
  | succ n ih =>
    have hloaded := State.core_loadUnit h src 1
    unfold State.moveBytes
    split
    · next hr => exact State.core_of_fst hr hloaded
    · next s1 bs hr =>
      have hstored := State.core_storeUnit (State.core_of_fst hr hloaded) dst bs
      split
      · next hr2 => exact State.core_of_fst hr2 hstored
      · next hr2 => exact ih (State.core_of_fst hr2 hstored) _ _

/-! ### Units and their run (R185 to R190) -/

/-- The state that a unit leaves. -/
def UnitEnd.state : UnitEnd → State
  | .ok s => s
  | .exc s _ => s

theorem coreLegal_runUnits {unit : State → UnitEnd} (hunit : ∀ s : State, CoreLegal s.core → CoreLegal (unit s).state.core)
    (complete : Core → Bool) (n : Nat) (stop : Option Nat) {s : State} (h : CoreLegal s.core) :
    CoreLegal (runUnits unit complete n stop s).1.state.core := by
  induction n generalizing stop s with
  | zero => exact h
  | succ n ih =>
    have hone := hunit s h
    unfold runUnits
    split
    · exact h
    split
    · exact h
    split
    · next hu => rwa [hu] at hone
    · next hu =>
      rw [hu] at hone
      split
      · exact hone
      · exact ih _ hone

theorem coreLegal_finishLong {r : Done × Bool} (h : CoreLegal r.1.state.core) {result : Core → Core}
    (hresult : ∀ c, CoreLegal c → CoreLegal (result c)) (cycles : Nat) :
    CoreLegal (finishLong r result cycles).state.core := by
  match r with
  | (.exc s x, _) => exact h
  | (.ok s, true) => exact coreLegal_retire (coreLegal_prog (hresult _ h) rfl _ _) cycles
  | (.ok s, false) => exact h

section
variable {s : State} (h : CoreLegal s.core)
include h

/-- A unit that makes progress in a state with the same core. -/
theorem coreLegal_progressed {s1 : State} (hs : s1.core = s.core) (kind n : Nat) (v : Word) (b : Bool) :
    CoreLegal (s1.core.progress kind n v b) := by
  rw [hs]
  exact coreLegal_progress h kind n v b

theorem coreLegal_mpmacUnit (z a : Nat) (b : Word) (bp : Bool) (n : Nat) :
    CoreLegal (mpmacUnit z a b bp n s).state.core := by
  unfold mpmacUnit
  dsimp only
  split
  · next hchk => exact (State.core_unitChecks hchk).symm ▸ h
  split
  · next hz => exact (State.core_of_fst hz (s.core_longLoad _ _)).symm ▸ h
  next s1 zb hz =>
  have hs1 := State.core_of_fst hz (s.core_longLoad _ _)
  split
  · exact (s.core_longLoad _ _).symm ▸ h
  next s2 ab ha =>
  have hs2 : s2.core = s.core := by
    split at ha
    · exact (State.core_of_fst ha (s1.core_longLoad _ _)).trans hs1
    · exact (State.core_of_fst ha rfl).trans hs1
  split
  · exact (s.core_longStore _ _).symm ▸ h
  · next hst => exact coreLegal_progressed h ((State.core_of_fst hst (s2.core_longStore _ _)).trans hs2) _ _ _ _

theorem coreLegal_bmovUnit (dst src len : Nat) : CoreLegal (bmovUnit dst src len s).state.core := by
  unfold bmovUnit
  dsimp only
  split
  · next hchk => exact (State.core_unitChecks hchk).symm ▸ h
  generalize hmove : (if dst % 4 = src % 4 then _ else _ : State × Option Exc) = r
  have hr : r.1.core = s.core := by
    rw [← hmove]
    split
    · split
      · next hld => exact State.core_of_fst hld (State.core_loadUnit rfl _ _)
      · next hld => exact State.core_storeUnit (State.core_of_fst hld (State.core_loadUnit rfl _ _)) _ _
    · exact State.core_moveBytes rfl _ _ _
  split
  · exact hr.symm ▸ h
  · exact coreLegal_progressed h hr _ _ _ _

theorem coreLegal_crcbUnit (src len : Nat) : CoreLegal (crcbUnit src len s).state.core := by
  unfold crcbUnit
  dsimp only
  split
  · next hchk => exact (State.core_unitChecks hchk).symm ▸ h
  split
  · next hld => exact (State.core_of_fst hld (State.core_loadUnit rfl _ _)).symm ▸ h
  · next hld => exact coreLegal_progressed h (State.core_of_fst hld (State.core_loadUnit rfl _ _)) _ _ _ _

theorem coreLegal_bfillUnit (dst len : Nat) (v : Word) (p : Bool) : CoreLegal (bfillUnit dst len v p s).state.core := by
  unfold bfillUnit
  dsimp only
  split
  · next hchk => exact (State.core_unitChecks hchk).symm ▸ h
  · have hstored (a : Nat) (bs : List MByte) := State.core_storeUnit (s := s) rfl a bs
    split
    · next hr => exact (State.core_of_fst hr (hstored _ _)).symm ▸ h
    · next hr => exact coreLegal_progressed h (State.core_of_fst hr (hstored _ _)) _ _ _ _

end

/-! ### The boot ROM (R411 to R414) -/

section
variable {s : State} (h : CoreLegal s.core)
include h

/-- The hand-over to a bank whose entry names a word. -/
theorem coreLegal_stateHandOver (b trial : Bool)
    (hentry : hdrField ((s.dev.flashBytes (bankBase b - flashBase) 0x200).map Prod.fst) 0x14 4 % 4 = 0) :
    CoreLegal (s.handOver b trial).core := by
  unfold State.handOver
  refine coreLegal_handOver h ?_ ?_ _ _ _
  · cases b <;> rfl
  · rw [BitVec.toNat_ofNat]
    omega

theorem coreLegal_bothFailed : CoreLegal s.bothFailed.core := by
  unfold State.bothFailed
  split
  · exact coreLegal_vault h
  · exact coreLegal_vault h

theorem coreLegal_tryBanks (trial : Bool) (banks : List Bool) : CoreLegal (State.tryBanks trial banks s).core := by
  induction banks generalizing trial s with
  | nil => exact coreLegal_bothFailed h
  | cons b banks ih =>
    unfold State.tryBanks
    dsimp only
    split
    · next hpass =>
      refine coreLegal_stateHandOver ?_ b trial (Dev.checkBank_entry hpass (Dev.flashParts_put _ _ _))
      exact h
    · refine ih ?_ false
      exact h

theorem coreLegal_bootOp : CoreLegal s.bootOp.core := by
  unfold State.bootOp
  dsimp only
  split
  · exact h
  split
  · split
    · exact h
    split
    · exact h
    · refine coreLegal_tryBanks ?_ _ _
      exact h
  · split
    · exact h
    split
    · exact coreLegal_tryBanks h _ _
    · exact coreLegal_tryBanks h _ _
  · exact h

end

end Sys2Proof.Machine
end

section
/-! PROOFS. The core's registers stay as their fields allow them (R159 to R166, R177, R178, R185): each command, and the step. -/
namespace Sys2Proof.Machine
open Sys2Proof.Claims

/-- The command answers no state whose core is out of its fields. -/
def LeavesLegal (o : Host.Outcome State Fault Refusal) : Prop := ∀ t, o = .next t → CoreLegal t.core

theorem leavesLegal_next {t : State} (h : CoreLegal t.core) : LeavesLegal (.next t) := by
  intro u hu
  cases hu
  exact h

theorem Core.shadow_wr (c : Core) (r : RegNo) (v : Word) (p : Bool) : (c.wr r v p).shadow = c.shadow := by
  unfold Core.wr
  split <;> rfl

section
variable {s : State} (h : CoreLegal s.core)
include h

/-! ### Commands of the device, and the frame of the core instructions -/

theorem leavesLegal_onDev (f : Dev → Dev) : LeavesLegal (s.onDev f) :=
  leavesLegal_next (coreLegal_settle (s := { s with dev := f s.dev }) h)

theorem leavesLegal_coreStep {k : Klass} {body : State → Done}
    (hbody : ∀ t : State, CoreLegal t.core → t.core.placeFault k = none → CoreLegal (body t).state.core) :
    LeavesLegal (.next (s.coreStep k body)) := leavesLegal_next (coreLegal_coreStep h hbody)

/-! ### Computations, loads and stores (R172, R174) -/

theorem leavesLegal_binop (rd ra rb : RegNo) (f : Word → Word → Word) (n : Nat) :
    LeavesLegal (.next (s.binop rd ra rb f n)) :=
  leavesLegal_coreStep h fun _ ht _ => coreLegal_retire (coreLegal_wr ht _ _ _) n

theorem leavesLegal_unop (rd ra : RegNo) (f : Word → Word) : LeavesLegal (.next (s.unop rd ra f)) :=
  leavesLegal_coreStep h fun _ ht _ => coreLegal_retire (coreLegal_wr ht _ _ _) 1

theorem leavesLegal_load (rd ra : RegNo) (imm : BitVec 16) (n : Nat) (ext : Nat → Word) :
    LeavesLegal (.next (s.load rd ra imm n ext)) := by
  refine leavesLegal_coreStep h fun t ht _ => ?_
  dsimp only
  split
  · exact ht
  split
  · exact ht
  split
  · exact ht
  split
  · exact ht
  · exact coreLegal_retire (coreLegal_wr ht _ _ _) 1

theorem leavesLegal_store (rb ra : RegNo) (imm : BitVec 16) (n : Nat) : LeavesLegal (.next (s.store rb ra imm n)) := by
  refine leavesLegal_coreStep h fun t ht _ => ?_
  dsimp only
  split
  · exact ht
  split
  · exact ht
  split
  · exact ht
  split
  · exact ht
  · exact coreLegal_retire ht 1

/-! ### Branches, jumps and loops (R176, R180) -/

theorem leavesLegal_branchIf (ra rb : RegNo) (off : BitVec 16) (f : Word → Word → Bool) :
    LeavesLegal (.next (s.branchIf ra rb off f)) := by
  refine leavesLegal_coreStep h fun t ht hplace => ?_
  obtain ⟨-, hshadow⟩ := Core.placeFault_none hplace (by decide)
  obtain ⟨-, ⟨hpc, -⟩, -⟩ := id ht
  dsimp only
  split
  · exact ht
  · exact coreLegal_branch ht hshadow (aligned_add_words hpc _)

theorem leavesLegal_jumpReg (ra : RegNo) (link : Option RegNo) : LeavesLegal (.next (s.jumpReg ra link)) := by
  refine leavesLegal_coreStep h fun t ht hplace => ?_
  obtain ⟨-, hshadow⟩ := Core.placeFault_none hplace (by decide)
  dsimp only
  split
  · exact ht
  split
  · exact ht
  next halign =>
  rw [not_not] at halign
  cases link with
  | none => exact coreLegal_branch ht hshadow halign
  | some rd => exact coreLegal_branch (coreLegal_wr ht _ _ _) ((Core.shadow_wr ..).trans hshadow) halign

theorem leavesLegal_j (off : BitVec 26) : LeavesLegal (exec (.j off) s) := by
  refine leavesLegal_coreStep h fun t ht hplace => ?_
  obtain ⟨-, hshadow⟩ := Core.placeFault_none hplace (by decide)
  obtain ⟨-, ⟨hpc, -⟩, -⟩ := id ht
  exact coreLegal_branch ht hshadow (aligned_add_words hpc _)

theorem leavesLegal_jal (off : BitVec 26) : LeavesLegal (exec (.jal off) s) := by
  refine leavesLegal_coreStep h fun t ht hplace => ?_
  obtain ⟨-, hshadow⟩ := Core.placeFault_none hplace (by decide)
  obtain ⟨-, ⟨hpc, -⟩, -⟩ := id ht
  exact coreLegal_branch (coreLegal_wr ht _ _ _) ((Core.shadow_wr ..).trans hshadow) (aligned_add_words hpc _)

theorem leavesLegal_loop (ra : RegNo) (n : BitVec 1) (len : BitVec 10) : LeavesLegal (exec (.loop ra n len) s) := by
  refine leavesLegal_coreStep h fun t ht hplace => ?_
  obtain ⟨hslot, -⟩ := Core.placeFault_none hplace (by decide)
  split
  · exact ht
  split
  · exact ht
  · exact coreLegal_setLoop ht hslot _ _ _

theorem leavesLegal_loopi (n : BitVec 1) (icnt len : BitVec 10) : LeavesLegal (exec (.loopi n icnt len) s) := by
  refine leavesLegal_coreStep h fun t ht hplace => ?_
  obtain ⟨hslot, -⟩ := Core.placeFault_none hplace (by decide)
  split
  · exact ht
  · exact coreLegal_setLoop ht hslot _ _ _

/-! ### Long instructions (R186 to R190) -/

theorem leavesLegal_mpmac (rd ra rb rc : RegNo) (stop : Option Nat) : LeavesLegal (exec (.mpmac rd ra rb rc stop) s) := by
  refine leavesLegal_coreStep h fun t ht _ => ?_
  dsimp only
  split
  · exact ht
  split
  · exact ht
  · refine coreLegal_finishLong (coreLegal_runUnits (fun _ hu => coreLegal_mpmacUnit hu _ _ _ _ _) _ _ _ ?_)
      (fun _ hc => hc) _
    exact coreLegal_startLong ht _ _ _

theorem leavesLegal_bmov (rd ra rb : RegNo) (stop : Option Nat) : LeavesLegal (exec (.bmov rd ra rb stop) s) := by
  refine leavesLegal_coreStep h fun t ht _ => ?_
  dsimp only
  split
  · exact ht
  split
  · exact ht
  · refine coreLegal_finishLong (coreLegal_runUnits (fun _ hu => coreLegal_bmovUnit hu _ _ _) _ _ _ ?_)
      (fun _ hc => hc) _
    exact coreLegal_startLong ht _ _ _

theorem leavesLegal_bfill (rd ra rb : RegNo) (stop : Option Nat) : LeavesLegal (exec (.bfill rd ra rb stop) s) := by
  refine leavesLegal_coreStep h fun t ht _ => ?_
  dsimp only
  split
  · exact ht
  split
  · exact ht
  · refine coreLegal_finishLong (coreLegal_runUnits (fun _ hu => coreLegal_bfillUnit hu _ _ _ _) _ _ _ ?_)
      (fun _ hc => hc) _
    exact coreLegal_startLong ht _ _ _

theorem leavesLegal_crcb (rd ra rb rc : RegNo) (stop : Option Nat) : LeavesLegal (exec (.crcb rd ra rb rc stop) s) := by
  refine leavesLegal_coreStep h fun t ht _ => ?_
  dsimp only
  split
  · exact ht
  split
  · exact ht
  · refine coreLegal_finishLong (coreLegal_runUnits (fun _ hu => coreLegal_crcbUnit hu _ _) _ _ _ ?_)
      (fun _ hc => coreLegal_wr hc _ _ _) _
    dsimp only
    split
    · exact ht
    · exact coreLegal_prog ht (progWord_reserved 4 0) _ _

/-! ### Special registers and the system group (R162, R192, R211) -/

theorem leavesLegal_mfs (rd : RegNo) (n : BitVec 16) : LeavesLegal (exec (.mfs rd n) s) := by
  refine leavesLegal_coreStep h fun t ht _ => ?_
  split
  · exact ht
  split
  · exact ht
  · exact coreLegal_retire (coreLegal_wr (coreLegal_sprLatch ht _) _ _ _) 1

theorem leavesLegal_mts (ra : RegNo) (n : BitVec 16) : LeavesLegal (exec (.mts ra n) s) := by
  refine leavesLegal_coreStep h fun t ht _ => ?_
  dsimp only
  split
  · exact ht
  split
  · exact ht
  split
  · exact ht
  unfold State.onCore
  change CoreLegal (ite _ _ _)
  split
  · exact coreLegal_modeWrite ht 1 _
  · exact coreLegal_retire (coreLegal_sprWrite ht _ _) 1

theorem leavesLegal_syscall : LeavesLegal (exec .syscall s) := by
  refine leavesLegal_coreStep h fun t ht hplace => ?_
  obtain ⟨hslot, -⟩ := Core.placeFault_none hplace (by decide)
  dsimp only
  split
  · exact ht
  · exact coreLegal_fastCall ht hslot

theorem leavesLegal_sysret : LeavesLegal (exec .sysret s) := by
  refine leavesLegal_coreStep h fun t ht hplace => ?_
  obtain ⟨hslot, -⟩ := Core.placeFault_none hplace (by decide)
  dsimp only
  split
  · exact ht
  split
  · exact ht
  split
  · exact ht
  · next hspc => exact coreLegal_sysret ht hslot (not_not.1 hspc) _

theorem leavesLegal_retx : LeavesLegal (exec .retx s) := by
  refine leavesLegal_coreStep h fun t ht _ => ?_
  have hread (a : Nat) := State.core_readFrame 16 t a
  dsimp only
  split
  · exact ht
  split
  · exact ht
  split
  · exact ht
  split
  · next hr => exact (State.core_of_fst hr (hread _)).symm ▸ ht
  next t1 f hr =>
  have ht1 : CoreLegal t1.core := (State.core_of_fst hr (hread _)).symm ▸ ht
  split
  · exact ht1
  next hcheck =>
  have hback := coreLegal_retxRestore ht hcheck
  split
  · split
    · exact ht
    · exact hback
  · exact hback

theorem leavesLegal_swaprules : LeavesLegal (exec .swaprules s) := by
  refine leavesLegal_coreStep h fun t ht _ => ?_
  split
  · exact ht
  split
  · exact ht
  · exact coreLegal_retire ht 1

theorem leavesLegal_wait : LeavesLegal (exec .wait s) := by
  refine leavesLegal_coreStep h fun t ht _ => ?_
  split
  · exact ht
  split
  · exact coreLegal_wake ht
  · exact ht

theorem leavesLegal_waitWake : LeavesLegal (exec .waitWake s) := by
  refine leavesLegal_next ?_
  split
  · exact coreLegal_settle (coreLegal_wake h)
  · exact h

theorem leavesLegal_interrupt : LeavesLegal (exec .interrupt s) := by
  refine leavesLegal_next ?_
  split
  · split
    · exact coreLegal_settle (coreLegal_enterImprecise h _)
    · split
      · next hnow => exact coreLegal_settle (coreLegal_enterInterrupt h hnow)
      · exact h
  · exact h

theorem leavesLegal_exceptionEntry (w : Option Word) : LeavesLegal (exec (.exceptionEntry w) s) := by
  cases w with
  | none =>
    change LeavesLegal (ite _ _ _)
    split
    · generalize hs1 : (if s.core.waiting then _ else _ : State) = s1
      have h1 : CoreLegal s1.core := by
        rw [← hs1]
        split
        · exact coreLegal_retire (c := { s.core with waiting := false }) h 1
        · exact h
      split
      · exact leavesLegal_next (coreLegal_settle (coreLegal_enterImprecise h1 _))
      · exact leavesLegal_next h
    · exact leavesLegal_next h
  | some x =>
    refine leavesLegal_coreStep h fun t ht _ => ?_
    split
    · exact ht
    · exact h

/-! ### Every command, and the step -/

/-- The instructions of the core each keep its registers legal; every other command acts on the device, and the core follows
what it asks for. -/
theorem leavesLegal_exec (i : Instr) : LeavesLegal (exec i s) := by
  cases i
  case add | sub | and | or | xor | nor | slt | sltu | sll | srl | sra | mul | mulh | mulhu | div | divu | rem | remu =>
    exact leavesLegal_binop h _ _ _ _ _
  case addi | andi | ori | xori | slti | sltiu | slli | srli | srai | clz | lui => exact leavesLegal_unop h _ _ _
  case lw | lh | lhu | lb | lbu => exact leavesLegal_load h _ _ _ _ _
  case sw | sh | sb => exact leavesLegal_store h _ _ _ _
  case beq | bne | blt | bge | bltu | bgeu => exact leavesLegal_branchIf h _ _ _ _
  case jr | jalr => exact leavesLegal_jumpReg h _ _
  case j => exact leavesLegal_j h _
  case jal => exact leavesLegal_jal h _
  case loop => exact leavesLegal_loop h _ _ _
  case loopi => exact leavesLegal_loopi h _ _ _
  case mpmac => exact leavesLegal_mpmac h _ _ _ _ _
  case bmov => exact leavesLegal_bmov h _ _ _ _
  case bfill => exact leavesLegal_bfill h _ _ _ _
  case crcb => exact leavesLegal_crcb h _ _ _ _ _
  case mfs => exact leavesLegal_mfs h _ _
  case mts => exact leavesLegal_mts h _ _
  case syscall => exact leavesLegal_syscall h
  case sysret => exact leavesLegal_sysret h
  case retx => exact leavesLegal_retx h
  case swaprules => exact leavesLegal_swaprules h
  case fence | ifence => exact leavesLegal_coreStep h fun _ ht _ => coreLegal_retire ht 1
  case wait => exact leavesLegal_wait h
  case waitWake => exact leavesLegal_waitWake h
  case brk => exact leavesLegal_coreStep h fun _ ht _ => ht
  case exceptionEntry w => exact leavesLegal_exceptionEntry h w
  case interrupt => exact leavesLegal_interrupt h
  case boot => exact leavesLegal_next (coreLegal_settle (coreLegal_bootOp h))
  all_goals
    unfold exec
    exact leavesLegal_onDev h _

theorem coreLegal_idle : CoreLegal s.idle.core := by
  change CoreLegal (ite _ _ _)
  split <;> exact h

end

/-- Settles O17. -/
theorem stepKeepsCoreLegal : Obligations.StepKeepsCoreLegal := by
  intro s t h hstep
  unfold step at hstep
  split at hstep
  · cases hstep
    exact coreLegal_idle h
  · next rest _ => exact leavesLegal_exec (s := { s with pending := rest }) h _ t hstep

end Sys2Proof.Machine
end
